-- ==== Sys2Proof/Word.lean ====
section
/-! DEFINITION. The word types of the model: bytes, and the wide fields the manual treats as bits. -/

namespace Sys2Proof

/-- One byte (R3 places the least significant byte of a field at the lowest address). -/
abbrev Byte := BitVec 8

/-- A 16-bit code of Table 16.7, 17.8 or 18.7. -/
abbrev Code := BitVec 16

/-- A 32-bit lane word of the vector engine, or a 32-bit field. -/
abbrev Word := BitVec 32

/-- A 64-bit word. -/
abbrev DWord := BitVec 64

/-- A SHA-512 value, read as 512 bits with byte 0 of the digest most significant. -/
abbrev Digest := BitVec 512

/-- A 256-bit cell or packet header (Tables 10.2, 17.1). -/
abbrev Header := BitVec 256

end Sys2Proof
end

