-- ==== Sys2Proof/Config.lean ====
section
/-! DEFINITION. What an implementation fixes and the spec leaves open: free values, with no body, and the few fixed figures of the module. -/

namespace Sys2Proof.Config

/-- FREE VALUE (log entry 6). A 32-bit value the spec does not state, drawn with the model's counter. -/
opaque freeWord : Nat → BitVec 32

/-- FREE VALUE (log entry 46). What a vector register (0 to 31), mask register (32 + r, bit 0 of the word) or scalar register (40 + r) holds in lane i of
a kernel that has not written it (R147 states no value). Arguments: the register, the lane. -/
opaque unwrittenReg : Nat → Nat → BitVec 64

/-- FREE VALUE (log entries 6 and 8). A 128-bit random value: a nonce of R434. -/
opaque freeNonce : Nat → BitVec 128

/-- FREE VALUE (log entry 6). A 132-byte ECDSA P-521 signature (R466): FIPS 186-5 draws a random scalar, so its bits are not stated.
Arguments: the counter, the private scalar, the SHA-512 of the message. -/
opaque signature : Nat → Nat → BitVec 512 → BitVec 1056

/-- FREE VALUE (log entry 10). A byte of an LPDDR5X line that nothing has written since the line was first written under its present key
(R168: the read that the write contained gave an unpredictable value). Arguments: the epoch of the line's tag, the address, the key
(none: slot 0). -/
opaque unpredictableByte : Nat → Nat → Option (BitVec 512) → BitVec 8

/-- FREE VALUE (log entry 10). The byte read at an address of a line under another key than the one it was last written with (R168).
Arguments: the epoch of the line's tag, the line's listed bytes, the key it was written with, the reading key, the address. -/
opaque foreignByte : Nat → List (Nat × BitVec 8) → Option (BitVec 512) → Option (BitVec 512) → Nat → BitVec 8

/-- FREE VALUE (log entry 10). Does the code of a line notice errors in more than three of its symbols (R154)? The code's field and generator are not given.
Arguments: the line, the positions of the wrong symbols. -/
opaque farErrorSeen : Nat → List Nat → Bool

/-- FREE VALUE (log entry 6). The diagnosis words 4 to 15 of a crash-dump entry (R380: unit-internal state). Arguments: counter, UnitID. -/
opaque dumpWords : Nat → BitVec 32 → BitVec 768

/-- FREE VALUE (log entry 15). The cycle count the configuration image stores with known-answer kernel k (R229): the format of the
image's body is not given. Arguments: the SHA-512 of the image, the kernel. -/
opaque katCycles : BitVec 512 → Nat → Nat

/-- FREE VALUE (log entry 15). The SHA-512 of the Boxwood ROM, a constant held in the ROM (R472). -/
opaque boxwoodHash : BitVec 512

/-- FREE VALUE (log entry 15). The subject key and serial a stored vendor certificate (X.509, R469) names. Argument: its SHA-512. -/
opaque certSubject : BitVec 512 → BitVec 1064
/-- FREE VALUE (log entry 15). The serial a stored vendor certificate names. -/
opaque certSerial : BitVec 512 → BitVec 64

/-- FREE VALUE (log entry 16). Which thermal sensor lies nearest to a unit (Table 12.4): the floor plan is not given. -/
opaque nearestSensor : BitVec 32 → Nat
/-- FREE VALUE (log entry 16). Which voltage monitor reads a unit's rail (Table 12.4): not given. -/
opaque railMonitor : BitVec 32 → Nat
/-- FREE VALUE (log entry 16). Which regulator's rail a voltage monitor reads (R423): not given. -/
opaque monitorRail : Nat → Nat

/-- FREE VALUE (log entry 16). The detail field of the RELEASED record: R413 names its contents (slot booted, numerics level, degraded) and no
layout. -/
opaque releasedDetail : Bool → Nat → Bool → BitVec 128

/-- FREE VALUE (log entry 17). A 64-byte entry of the crash-dump directory: R381 names its contents (slot number, trigger, valid bit) and no layout. -/
opaque dumpDirEntry : Nat → BitVec 64 → Bool → BitVec 512
/-- FREE VALUE (log entry 17). A byte of a capture in flash: R335 names its contents and no layout. Arguments: the contents (the bytes of the stationary
block, its block scales, the row's slices and their scales; formats, reading, grid floor, mask bit and UnitID as numbers), the offset. -/
opaque captureByte : List (List (BitVec 8)) → List Nat → Nat → BitVec 8
/-- FREE VALUE (log entry 17). A byte of the dump and capture slots that nothing has written: the spec gives no erased value for them. -/
opaque erasedByte : Nat → BitVec 8
/-- FREE VALUE (log entry 15). Index and subindex of the vendor object that writes the certificate: R469 gives only the range 0x8000 to 0x8FFF. -/
opaque vendorCertObject : BitVec 12 × BitVec 8

/-- FREE VALUE (log entry 19). The scale-state records of a run that its other modules hold, as the entries of its Almanac carry them (R97, R32): no
rule says how a module comes by them. A header and its codes each. Argument: the counter. -/
opaque othersRecords : Nat → List (BitVec 128 × List (BitVec 8))
/-- FREE VALUE (log entry 49). The observation code of R96 for a block whose greatest magnitude becomes 0 when it is divided by Q: `obs_code` is defined
above 0 only (R83). Argument: Q. -/
opaque codeOfZero : Nat → BitVec 16

/-- FREE VALUE (log entry 53). The binary32 word that RSTORE writes for an accumulator that no instruction of its kernel names: the spec gives such an
accumulator no kind and no value (R136, R139). -/
opaque unnamedAcc : BitVec 32

/-- Physical cores of the module (R1, R102). -/
abbrev physCores : Nat := 832
/-- Logical cores of the module (R103). -/
abbrev logicalCores : Nat := 800
/-- Core-clock cycles in one microsecond (R5: 1.7 GHz). -/
abbrev usCycles : Nat := 1700
/-- Core-clock cycles in one millisecond. -/
abbrev msCycles : Nat := 1700000
/-- Core-clock cycles in one second. -/
abbrev sCycles : Nat := 1700000000
/-- The numerics level of this generation (R17, Table 16.8). -/
abbrev numericsLevel : Nat := 1

end Sys2Proof.Config
end

