-- ==== Sys2Proof/Syntax.lean ====
section
/-! DEFINITION. The commands of the block: one constructor of `Instr` per row of spec/opcode_table.json, with the operands that come into
the step from outside (INVENTORY.md, Instructions). -/

namespace Sys2Proof

/-- A link of the module: a fabric port (R254), a Yalvo host port (0 YA, 1 YB; R442) or the twin bridge (R455). -/
inductive LinkRef where
  | fabric (n : Nat)
  | host (n : Nat)
  | bridge
deriving DecidableEq, Repr

/-- A dictionary requester (R428): an IPv6 source address and UDP source port, or a host port on Yalvo. -/
inductive Requester where
  | field (addr : BitVec 128) (udp : BitVec 16)
  | yalvo (port : Nat)
deriving DecidableEq, Repr

/-- What of a dictionary message's header a command row carries beside its own operands: who asks, and the `sequence` (Table 16.4). -/
structure Req where
  who : Requester
  seq : BitVec 16
deriving DecidableEq, Repr

/-- A fabric or bridge cell: the 32-byte header of Table 10.2 and the payload (R260). -/
structure Cell where
  hdr : Header
  payload : List Byte
deriving DecidableEq, Repr

/-- A Yalvo packet: the 32-byte header of Table 17.1 and its payload of exactly `bytes` bytes, padding left out (R444). -/
structure Packet where
  hdr : Header
  data : List Byte
deriving DecidableEq, Repr

/-- A link block as received (R256): whether both codewords decoded, the 40-bit header of Table 10.1, and its 1,280-byte cell stream
(trailing fill may be left out). -/
structure Block where
  decoded : Bool
  hdr : BitVec 40
  stream : List Byte
deriving DecidableEq, Repr

/-- One alignment attempt (R386): whether the PLL locked within 300 us and whether the phase check passed. -/
structure AlignTry where
  locked : Bool
  phaseOk : Bool
deriving DecidableEq, Repr

/-- The delay d_u the hub measured for one unit (R299). -/
structure UnitDelay where
  unit : BitVec 32
  delay : Nat
deriving DecidableEq, Repr

/-- A channel of a controller that failed MEM-TRAIN (R407). -/
structure TrainFault where
  ctrl : Nat
  channel : Nat
deriving DecidableEq, Repr

/-- A known-answer kernel that failed at power-up on a physical core, with the first 8 bytes of its output's SHA-512 (R347, Table 12.6). -/
structure KatFail where
  core : Nat
  kernel : Nat
  hash8 : BitVec 64
deriving DecidableEq, Repr

/-- Why a partition or engine reset happens: a write of its reset object, or a cause of Table 13.3 that Vigil acts on. -/
inductive ResetSrc where
  | request (q : Req) (v : Byte)
  | vigil
deriving DecidableEq, Repr

/-- The scope of a running reset (Table 13.3). Engines are named by physical core. -/
inductive ResetScope where
  | context (c : Nat)
  | engine (p : Nat)
  | partition (p : Nat)
deriving DecidableEq, Repr

/-- A unit or function of R361 that software can stop and restart. -/
inductive StopUnit where
  | fabric (n : Nat)
  | host (n : Nat)
  | bridge
  | mirror
  | core (c : Nat)
deriving DecidableEq, Repr

/-- The answer of a regulator to a poll (R424): none, or STATUS_WORD's fault bit and the output current. -/
inductive PollReply where
  | missed
  | answer (fault : Bool) (iout : BitVec 16)
deriving DecidableEq, Repr

/-- What the decoder of a line or word finds (R154, R157, R160). -/
inductive ScrubFind where
  | clean
  | corrected
  | uncorrectable
deriving DecidableEq, Repr

/-- The errors that a read meets in a line of LPDDR5X: the positions, 0 to 131, of the 16-bit symbols that are wrong, among the line's 128 and its 4 check
symbols (R154). -/
structure LineError where
  line : Nat
  symbols : List Nat
deriving DecidableEq, Repr

/-- The work of one LPDDR5X maintenance slot (R155): refresh of a controller with the stall cycles it cost, patrol scrub of one line with its wrong symbols,
or background zeroing of one line. -/
inductive MaintWork where
  | refresh (ctrl : Nat) (stall : Nat)
  | scrub (line : Nat) (symbols : List Nat)
  | zero (line : Nat)
deriving DecidableEq, Repr

/-- A word a tile-memory scrub found bad (R160): its address in the slice, and the context whose staging or stack page it belongs to. -/
structure TileFind where
  addr : Nat
  find : ScrubFind
  owner : Option Nat
deriving DecidableEq, Repr

/-- A stack page of a context whose word proved uncorrectable when read (R104), with the word's address in the slice. -/
structure StackPageRef where
  ctx : Nat
  page : Nat
  addr : Nat
deriving DecidableEq, Repr

/-- The host's answer to the READs of a step that reads a host window (R447). -/
inductive HostReply where
  | data (bytes : List Byte)
  | error (cstatus : Nat)
  | timeout
deriving DecidableEq, Repr

/-- What a queue fetch meets (R235): the host's answer where its bytes lie in a host window, the errors of the lines where they lie in LPDDR5X (R157). -/
structure FetchReply where
  host : HostReply
  errors : List LineError
deriving DecidableEq, Repr

/-- What the checker core computed in a check task (R339, R342, R343). -/
inductive CheckResult where
  | equal
  | differ (xor : BitVec 64) (arbiterSays : Nat)
deriving DecidableEq, Repr

/-- What asks for a context reset (Table 13.3): a write of `ctx_command`, or a rule of the device. -/
inductive CtxResetSrc where
  | request (q : Req) (v : BitVec 32)
  | device (ctx : Nat)
deriving DecidableEq, Repr

/-- The payload of a WRITE, or the digest of a DOMAIN_END that ends a transfer (R431, R433). -/
inductive WriteData where
  | value (bytes : List Byte)
  | domainEnd (sha : Digest)
deriving DecidableEq, Repr

/-- An ICMPv6 message the module accepts (R429). -/
inductive IcmpMsg where
  | neighbourSolicitation (src target : BitVec 128)
  | echoRequest (src dst : BitVec 128) (payload : List Byte)
deriving DecidableEq, Repr

/-- A hardware fault of one array pass (R121) or of an output-stage accumulator (R110): logical core, the tile among those the core runs for the operator, pass
within the tile, row within the pass, and what the fault adds to the row's check values (R120). -/
structure ArrayFault where
  core : Nat
  tile : Nat
  pass : Nat
  row : Nat
  accumulator : Bool
  diff : BitVec 64
deriving DecidableEq, Repr

/-- One run of a known-answer kernel in service (R229, R348): did its outputs' hash agree, its first 8 bytes, the faults of the array in the run (R121). -/
structure KatRun where
  pass : Bool
  hash8 : BitVec 64
  faults : List ArrayFault
deriving DecidableEq, Repr

/-- An uncorrectable tile-memory word of a logical core's slice (R122). -/
structure TileFault where
  core : Nat
  addr : Nat
deriving DecidableEq, Repr

/-- A tile-memory word found uncorrectable by an operator's read (R122): logical core, address in the slice, and the operand bytes that were staged in it, by
region and offset. -/
structure BadWord where
  core : Nat
  addr : Nat
  reg : Nat
  off : Nat
deriving DecidableEq, Repr

/-- What the hardware and the host do to an operator while it runs: array faults, uncorrectable words, errors of lines, the cores whose words were corrected
(each as often as it happened), a failed access after the start (R499), and the added cycles of Table 1.4. With none of them the fields are empty or
zero. -/
structure OpEnv where
  arrayFaults : List ArrayFault
  tileFaults : List BadWord
  lineErrors : List LineError
  tileFixed : List Nat
  accessFault : Option Code
  stall : Nat
deriving DecidableEq, Repr

/-- An operator's run without any hazard. -/
def OpEnv.quiet : OpEnv := ⟨[], [], [], [], none, 0⟩

/-- The commands: one constructor per row of the table of operations and events, in the table's order. -/
inductive Instr where
  /-- PWR_EN_RISE (R400). -/
  | pwrEnRise
  /-- RAILS (R400). -/
  | rails (good : Bool)
  /-- BOXWOOD (R403). -/
  | boxwood
  /-- BOOT_IMAGE (R405). -/
  | bootImage
  /-- CLOCK_ALIGN (R386). -/
  | clockAlign (tries : List AlignTry) (delays : List UnitDelay)
  /-- MEM_TRAIN (R407). -/
  | memTrain (fails : List TrainFault)
  /-- WIPE (R408). -/
  | wipe (bad : List Nat)
  /-- SELF_TEST (R409). -/
  | selfTest (fails : List KatFail)
  /-- LINK_UP (R412). -/
  | linkUp (up : List LinkRef)
  /-- ENTER_RELEASED (R413). -/
  | enterReleased
  /-- PWR_EN_FALL (R416). -/
  | pwrEnFall
  /-- INPUT_UNDERVOLTAGE (R490). -/
  | inputUndervoltage
  /-- POWER_FAIL_FLUSH (R421). -/
  | powerFailFlush (written : Nat)
  /-- THERMTRIP (R489). -/
  | thermtrip (sensor : Nat)
  /-- RESET_N_FALL (R488). -/
  | resetNFall (lowNs : Nat)
  /-- REFCLK_LOST (R394). -/
  | refclkLost
  /-- PLL_LOCK_LOST (R395). -/
  | pllLockLost
  /-- VIGIL_WATCHDOG (R359). -/
  | vigilWatchdog
  /-- VIGIL_SRAM_UNCORRECTABLE (R417). -/
  | vigilSramUncorrectable
  /-- CHIP_RESET (R357). -/
  | chipReset (q : Req) (v : Byte)
  /-- PARTITION_RESET (R357). -/
  | partitionReset (p : Nat) (src : ResetSrc)
  /-- ENGINE_RESET (R360). -/
  | engineReset (core : Nat) (src : ResetSrc)
  /-- RESET_ESCALATE (R358). -/
  | resetEscalate (scope : ResetScope)
  /-- CRASH_DUMP (R378). -/
  | crashDump (silent : List (BitVec 32))
  /-- DUMP_REQUEST (R377). -/
  | dumpRequest (q : Req) (v : Byte)
  /-- CAPTURE_FLUSH (R335). -/
  | captureFlush (slot : Nat)
  /-- LOG_FLUSH (R420). -/
  | logFlush
  /-- THERMAL_SAMPLE (R423). -/
  | thermalSample (temps : List (BitVec 16))
  /-- VOLTAGE_SAMPLE (R423). -/
  | voltageSample (volts : List (BitVec 16))
  /-- RAIL_OUT_OF_RANGE (R423). -/
  | railOutOfRange (monitor : Nat)
  /-- POWER_LIMIT (R423). -/
  | powerLimit (watts : Nat)
  /-- REGULATOR_POLL (R424). -/
  | regulatorPoll (n : Nat) (reply : PollReply)
  /-- SERVICE_SECOND_TICK (R346). -/
  | serviceSecondTick
  /-- SERVICE_SECONDS_SAVE (R419). -/
  | serviceSecondsSave
  /-- LPDDR_TEMP_LIMIT (R156). -/
  | lpddrTempLimit (ctrl : Nat) (field : Byte)
  /-- LPDDR_MAINT_SLOT (R155). -/
  | lpddrMaintSlot (work : MaintWork)
  /-- ZEROING_DONE (R165). -/
  | zeroingDone (granule : Nat)
  /-- TILE_SCRUB (R160). -/
  | tileScrub (core : Nat) (finds : List TileFind)
  /-- UNIT_HEARTBEAT (R300). -/
  | unitHeartbeat (unit : BitVec 32) (word : BitVec 32)
  /-- UNIT_SILENT (R300). -/
  | unitSilent (unit : BitVec 32)
  /-- SNAPSHOT_OBJECT (R312). -/
  | snapshotObject (q : Req) (v : Byte)
  /-- SNAPSHOT_LATCH (R311). -/
  | snapshotLatch
  /-- LINK_BLOCK (R258). -/
  | linkBlock (l : LinkRef) (b : Block)
  /-- LINK_RETRAIN_START (R259). -/
  | linkRetrainStart (l : LinkRef)
  /-- LINK_RETRAIN_DONE (R259). -/
  | linkRetrainDone (l : LinkRef) (ok : Bool)
  /-- PORT_TRAINED (R255). -/
  | portTrained (l : LinkRef)
  /-- PORT_TRAINING_TIMEOUT (R255). -/
  | portTrainingTimeout (l : LinkRef)
  /-- LANE_FIFO_SLIP (R392). -/
  | laneFifoSlip (l : LinkRef) (lane : Nat)
  /-- LINK_CTRL_SEND (R263). -/
  | linkCtrlSend (l : LinkRef)
  /-- LINK_CTRL (R263). -/
  | linkCtrl (l : LinkRef) (c : Cell)
  /-- PORT_GUARDED (R296). -/
  | portGuarded (n : Nat)
  /-- STALE_CELL_EXPIRE (R281). -/
  | staleCellExpire (l : LinkRef)
  /-- XB16_BLOCK (R283). -/
  | xb16Block (l : LinkRef) (c : Cell)
  /-- XP40_SEG (R283). -/
  | xp40Seg (l : LinkRef) (c : Cell)
  /-- G128_SEG (R287). -/
  | g128Seg (l : LinkRef) (c : Cell)
  /-- RAW_SEG (R286). -/
  | rawSeg (l : LinkRef) (c : Cell)
  /-- CLOSE (R278). -/
  | closeCell (l : LinkRef) (c : Cell)
  /-- GO (R289). -/
  | goCell (l : LinkRef) (c : Cell)
  /-- DISPATCH_ROW (R291). -/
  | dispatchRow (l : LinkRef) (c : Cell)
  /-- COMBINE_ROW (R292). -/
  | combineRow (l : LinkRef) (c : Cell)
  /-- BULK_SEG (R294). -/
  | bulkSeg (l : LinkRef) (c : Cell)
  /-- RECOVERY_REQ (R369). -/
  | recoveryReq (l : LinkRef) (c : Cell)
  /-- RECOVERY_DATA (R370). -/
  | recoveryData (l : LinkRef) (c : Cell)
  /-- TWIN_IDENT (R456). -/
  | twinIdent (c : Cell)
  /-- MIRROR_DATA (R458). -/
  | mirrorData (l : LinkRef) (c : Cell)
  /-- MIRROR_ACK (R458). -/
  | mirrorAck (l : LinkRef) (c : Cell)
  /-- CTRL_STEP_BEGIN (R315). -/
  | ctrlStepBegin (l : LinkRef) (c : Cell)
  /-- CTRL_GROUP_START (R309). -/
  | ctrlGroupStart (l : LinkRef) (c : Cell)
  /-- CTRL_SCALE_MAX (R310). -/
  | ctrlScaleMax (l : LinkRef) (c : Cell)
  /-- CTRL_STEP_CHECK (R319). -/
  | ctrlStepCheck (l : LinkRef) (c : Cell)
  /-- CTRL_STEP_COMMIT (R321). -/
  | ctrlStepCommit (l : LinkRef) (c : Cell)
  /-- CTRL_VOID_REQUEST (R323). -/
  | ctrlVoidRequest (l : LinkRef) (c : Cell)
  /-- CTRL_DECISION (R324). -/
  | ctrlDecision (l : LinkRef) (c : Cell)
  /-- CTRL_RANK_MOVE (R307). -/
  | ctrlRankMove (l : LinkRef) (c : Cell)
  /-- CTRL_HEARTBEAT (R306). -/
  | ctrlHeartbeat (l : LinkRef) (c : Cell)
  /-- CTRL_CHECKPOINT (R32). -/
  | ctrlCheckpoint (l : LinkRef) (c : Cell)
  /-- HEARTBEAT_SEND (R306). -/
  | heartbeatSend
  /-- CONTROL_PEER_SILENT (R306). -/
  | controlPeerSilent (slot : Nat) (peer : Nat)
  /-- STRAGGLER_DECLARE (R362). -/
  | stragglerDeclare (slot : Nat) (child : Nat)
  /-- ROOT_DECLARE_FAILED (R363). -/
  | rootDeclareFailed (slot : Nat)
  /-- RECOVERY_UPDATE_REPLAY (R371). -/
  | recoveryUpdateReplay
  /-- COMPAT_RESTORE (R376). -/
  | compatRestore (slot : Nat)
  /-- MIRROR_SEED (R460). -/
  | mirrorSeed (slot : Nat)
  /-- MIRROR_TASK (R459). -/
  | mirrorTask (slot : Nat)
  /-- TWIN_BRIDGE_LOST (R462). -/
  | twinBridgeLost
  /-- QUEUE_FETCH (R235). -/
  | queueFetch (reply : FetchReply)
  /-- OPERATOR_START (R196). -/
  | operatorStart (op : Nat)
  /-- OPERATOR_COMPLETE (R241). -/
  | operatorComplete (op : Nat)
  /-- SCHED_RESERVE (R244). -/
  | schedReserve (op : Nat)
  /-- GATHER_PASS_CLOSE (R246). -/
  | gatherPassClose (gq : Nat) (idle : Bool)
  /-- GATHER_DEADLINE (R246). -/
  | gatherDeadline (gq : Nat)
  /-- GATHERER_OVERFLOW_DRAIN (R180). -/
  | gathererOverflowDrain (op : Nat)
  /-- STACK_SPILL_ACK (R176). -/
  | stackSpillAck (ctx : Nat) (page : Nat)
  /-- STACK_FETCH_DONE (R177). -/
  | stackFetchDone (ctx : Nat) (page : Nat) (reply : HostReply)
  /-- CHECK_TASK (R339). -/
  | checkTask (task : Nat) (result : CheckResult)
  /-- CAPTURE_ATTRIBUTION (R344). -/
  | captureAttribution (slot : Nat) (ownFails : Nat) (otherFails : Bool)
  /-- CORE_RETIRE (R104). -/
  | coreRetire (core : Nat) (badPages : List StackPageRef)
  /-- RETIRE_RELOAD_DONE (R104). -/
  | retireReloadDone (core : Nat)
  /-- WATCHDOG_FIRE (R354). -/
  | watchdogFire (op : Nat) (hung : List Nat)
  /-- HUNG_CORE_CHECK (R354). -/
  | hungCoreCheck (stillBusy : List Nat)
  /-- SUSPECT_IDLE_EXPIRE (R355). -/
  | suspectIdleExpire (ctx : Nat)
  /-- WAIT_EXCLUSION_EXPIRE (R352). -/
  | waitExclusionExpire (op : Nat)
  /-- STAGING_TIMEOUT (R353). -/
  | stagingTimeout (op : Nat)
  /-- DOORBELL_QUEUE_TAIL (R237). -/
  | doorbellQueueTail (port : Nat) (gen : Byte) (payload : BitVec 128)
  /-- DOORBELL_RING_TAIL (R237). -/
  | doorbellRingTail (port : Nat) (gen : Byte) (payload : BitVec 128)
  /-- DOORBELL_RESUME_STREAM (R240). -/
  | doorbellResumeStream (port : Nat) (gen : Byte) (payload : BitVec 128)
  /-- CONTEXT_LOAD (R233). -/
  | contextLoad (ctx : Nat) (reply : HostReply)
  /-- CONTEXT_OPEN (R232). -/
  | contextOpen (q : Req) (v : BitVec 32)
  /-- CONTEXT_RESET (R251). -/
  | contextReset (src : CtxResetSrc)
  /-- CONTEXT_RELEASE (R252). -/
  | contextRelease (q : Req) (v : BitVec 32)
  /-- CONTEXT_RESET_DONE (R253). -/
  | contextResetDone (ctx : Nat)
  /-- CONTEXT_RELEASE_DONE (R252). -/
  | contextReleaseDone (ctx : Nat)
  /-- CONTEXT_TABLE_WRITE (R231). -/
  | contextTableWrite (q : Req) (sha : BitVec 512)
  /-- REGION_SEAL (R166). -/
  | regionSeal (q : Req) (v : BitVec 32)
  /-- YALVO_LINK (R446). -/
  | yalvoLink (port : Nat) (p : Packet)
  /-- YALVO_LINK_SEND (R446). -/
  | yalvoLinkSend (port : Nat)
  /-- COMPLETION (R447). -/
  | completion (port : Nat) (p : Packet)
  /-- HOST_READ_TIMEOUT (R447). -/
  | hostReadTimeout (port : Nat) (tag : Nat)
  /-- REQUEST_EXPIRE (R250). -/
  | requestExpire (port : Nat) (tag : Nat)
  /-- HOST_PORT_GUARDED (R454). -/
  | hostPortGuarded (n : Nat)
  /-- FIELD_DATAGRAM (R435). -/
  | fieldDatagram (r : Requester) (bytes : List Byte)
  /-- FIELD_GUARDED (R435). -/
  | fieldGuarded
  /-- FIELD_GUARD_EXPIRE (R435). -/
  | fieldGuardExpire
  /-- NEIGHBOUR_DISCOVERY (R429). -/
  | neighbourDiscovery (m : IcmpMsg)
  /-- DUPLICATE_ADDRESS_DETECTION (R429). -/
  | duplicateAddressDetection (conflict : Bool)
  /-- REQUESTER_EVICT (R428). -/
  | requesterEvict (r : Requester)
  /-- DOMAIN_BEGIN (R433). -/
  | domainBegin (q : Req) (index : BitVec 16) (sub : Byte) (offset : Nat) (total : Nat)
  /-- DOMAIN_SEG (R433). -/
  | domainSeg (q : Req) (index : BitVec 16) (sub : Byte) (offset : Nat) (bytes : List Byte)
  /-- DOMAIN_CANCEL (R433). -/
  | domainCancel (q : Req) (index : BitVec 16) (sub : Byte)
  /-- DOMAIN_TIMEOUT (R433). -/
  | domainTimeout (r : Requester)
  /-- AUTH (R434). -/
  | auth (q : Req) (token : List Byte)
  /-- ELEVATION_LAPSE (R434). -/
  | elevationLapse (r : Requester)
  /-- NONCE_READ (R434). -/
  | nonceRead (q : Req)
  /-- OBJECT_WRITE (R437). -/
  | objectWrite (q : Req) (index : BitVec 16) (sub : Byte) (w : WriteData)
  /-- LC_TO_PROVISIONED (R414). -/
  | lcToProvisioned (q : Req)
  /-- LC_TO_FLEET (R414). -/
  | lcToFleet (q : Req)
  /-- LC_TO_SERVICE (R414). -/
  | lcToService (q : Req)
  /-- LC_TO_RETIRED (R414). -/
  | lcToRetired (q : Req)
  /-- FLEET_KEY (R478). -/
  | fleetKey (q : Req) (sha : BitVec 512)
  /-- KEY_SLOT_WRITE (R480). -/
  | keySlotWrite (q : Req) (sha : BitVec 512)
  /-- KEY_SLOT_CLEAR (R481). -/
  | keySlotClear (q : Req) (v : BitVec 16)
  /-- ATTEST_NONCE (R473). -/
  | attestNonce (q : Req) (sha : BitVec 512)
  /-- FW_IMAGE (R439). -/
  | fwImage (q : Req) (sha : BitVec 512) (programOk : Bool)
  /-- CONFIG_IMAGE (R439). -/
  | configImage (q : Req) (sha : BitVec 512) (programOk : Bool)
  /-- FIELD_STATE_CLEAR (R435). -/
  | fieldStateClear (q : Req) (v : Byte)
  /-- CORE_DRAIN_STOP (R361). -/
  | coreDrainStop (q : Req) (core : Nat)
  /-- CORE_DRAIN_START (R361). -/
  | coreDrainStart (q : Req) (core : Nat)
  /-- FABRIC_PORT_RETRAIN (R255). -/
  | fabricPortRetrain (q : Req) (n : Nat)
  /-- FABRIC_PORT_DISABLE (R361). -/
  | fabricPortDisable (q : Req) (n : Nat)
  /-- HOST_PORT_RETRAIN (R442). -/
  | hostPortRetrain (q : Req) (n : Nat)
  /-- HOST_PORT_DISABLE (R443). -/
  | hostPortDisable (q : Req) (n : Nat)
  /-- BRIDGE_RETRAIN (R462). -/
  | bridgeRetrain (q : Req)
  /-- BRIDGE_DISABLE (R361). -/
  | bridgeDisable (q : Req)
  /-- MIRROR_START (R361). -/
  | mirrorStart (q : Req)
  /-- MIRROR_STOP (R361). -/
  | mirrorStop (q : Req)
  /-- GROUP_TABLE_WRITE (R270). -/
  | groupTableWrite (q : Req) (sha : BitVec 512)
  /-- REPLICA_TABLE_WRITE (R336). -/
  | replicaTableWrite (q : Req) (sha : BitVec 512)
  /-- BANK_PAIRS_WRITE (R316). -/
  | bankPairsWrite (q : Req) (sha : BitVec 512)
  /-- STATE_TENSORS_WRITE (R500). -/
  | stateTensorsWrite (q : Req) (sha : BitVec 512)
  /-- HOST_WINDOWS_WRITE (R450). -/
  | hostWindowsWrite (q : Req) (sha : BitVec 512)
  /-- RECORD_RINGS_WRITE (R452). -/
  | recordRingsWrite (q : Req) (sha : BitVec 512)
  /-- RUN_OPEN (R438). -/
  | runOpen (q : Req) (sha : BitVec 512)
  /-- RUN_CLOSE (R475). -/
  | runClose (q : Req) (v : Byte)
  /-- REF_ALMANAC (R31). -/
  | refAlmanac (q : Req) (sha : BitVec 512)
  /-- ALMANAC_APPEND (R29). -/
  | almanacAppend (q : Req) (sha : BitVec 512)
  /-- RANK_READY (R370). -/
  | rankReady (q : Req) (v : Byte)
  /-- LINEAGE_REQUEST (R475). -/
  | lineageRequest (q : Req) (v : Byte)
  /-- RANK_MOVE (R307). -/
  | rankMove (q : Req) (v : BitVec 64)
  /-- SPARE_ROLE (R366). -/
  | spareRole (q : Req) (v : BitVec 16)
  /-- MATMUL (R199). -/
  | matmul (op : Nat) (env : OpEnv)
  /-- MATMUL_DX (R199). -/
  | matmulDx (op : Nat) (env : OpEnv)
  /-- MATMUL_DW (R200). -/
  | matmulDw (op : Nat) (env : OpEnv)
  /-- BATCHED_MATMUL (R199). -/
  | batchedMatmul (op : Nat) (env : OpEnv)
  /-- CONV_FWD (R199). -/
  | convFwd (op : Nat) (env : OpEnv)
  /-- CONV_DX (R199). -/
  | convDx (op : Nat) (env : OpEnv)
  /-- CONV_DW (R200). -/
  | convDw (op : Nat) (env : OpEnv)
  /-- ATTN_FWD (R204). -/
  | attnFwd (op : Nat) (env : OpEnv)
  /-- ATTN_BWD (R205). -/
  | attnBwd (op : Nat) (env : OpEnv)
  /-- CUSTOM_KERNEL (R146). -/
  | customKernel (op : Nat) (env : OpEnv)
  /-- ADD (R208). -/
  | addTensors (op : Nat) (env : OpEnv)
  /-- MUL (R208). -/
  | mulTensors (op : Nat) (env : OpEnv)
  /-- AXPBY (R208). -/
  | axpby (op : Nat) (env : OpEnv)
  /-- ACT (R208). -/
  | act (op : Nat) (env : OpEnv)
  /-- ACT_BWD (R208). -/
  | actBwd (op : Nat) (env : OpEnv)
  /-- RMSNORM (R211). -/
  | rmsnorm (op : Nat) (env : OpEnv)
  /-- RMSNORM_BWD (R211). -/
  | rmsnormBwd (op : Nat) (env : OpEnv)
  /-- LAYERNORM (R211). -/
  | layernorm (op : Nat) (env : OpEnv)
  /-- LAYERNORM_BWD (R211). -/
  | layernormBwd (op : Nat) (env : OpEnv)
  /-- SOFTMAX (R211). -/
  | softmax (op : Nat) (env : OpEnv)
  /-- SOFTMAX_BWD (R211). -/
  | softmaxBwd (op : Nat) (env : OpEnv)
  /-- REDUCE_SUM (R211). -/
  | reduceSum (op : Nat) (env : OpEnv)
  /-- REDUCE_MAX (R212). -/
  | reduceMax (op : Nat) (env : OpEnv)
  /-- ARGMAX (R212). -/
  | argmax (op : Nat) (env : OpEnv)
  /-- TOPK (R212). -/
  | topk (op : Nat) (env : OpEnv)
  /-- SCALE_CALIBRATE (R213). -/
  | scaleCalibrate (op : Nat) (env : OpEnv)
  /-- ADAMW (R93). -/
  | adamw (op : Nat) (env : OpEnv)
  /-- SCALE_UPDATE (R85). -/
  | scaleUpdate (op : Nat) (env : OpEnv)
  /-- CONVERT (R219). -/
  | convert (op : Nat) (env : OpEnv)
  /-- QUANT_XB16 (R219). -/
  | quantXb16 (op : Nat) (env : OpEnv)
  /-- PAIR_TO_WORKING (R55). -/
  | pairToWorking (op : Nat) (env : OpEnv)
  /-- PAIR_FROM (R54). -/
  | pairFrom (op : Nat) (env : OpEnv)
  /-- COPY (R220). -/
  | copyTensor (op : Nat) (env : OpEnv)
  /-- GATHER_ROWS (R221). -/
  | gatherRows (op : Nat) (env : OpEnv)
  /-- SCATTER_ROWS (R221). -/
  | scatterRows (op : Nat) (env : OpEnv)
  /-- SCATTER_ADD_ROWS (R221). -/
  | scatterAddRows (op : Nat) (env : OpEnv)
  /-- PERMUTE (R221). -/
  | permute (op : Nat) (env : OpEnv)
  /-- TRANSPOSE (R220). -/
  | transpose (op : Nat) (env : OpEnv)
  /-- PUSH (R173). -/
  | pushFrame (op : Nat) (env : OpEnv)
  /-- POP (R173). -/
  | popFrame (op : Nat) (env : OpEnv)
  /-- PEEK (R173). -/
  | peekFrame (op : Nat) (env : OpEnv)
  /-- MARK (R173). -/
  | markFrame (op : Nat) (env : OpEnv)
  /-- ALLREDUCE_XB (R284). -/
  | allreduceXb (op : Nat) (env : OpEnv)
  /-- REDUCE_SCATTER_XB (R283). -/
  | reduceScatterXb (op : Nat) (env : OpEnv)
  /-- ALLGATHER (R286). -/
  | allgather (op : Nat) (env : OpEnv)
  /-- DISPATCH (R290). -/
  | dispatch (op : Nat) (env : OpEnv)
  /-- COMBINE (R292). -/
  | combine (op : Nat) (env : OpEnv)
  /-- RANK_ORDER_REDUCE (R288). -/
  | rankOrderReduce (op : Nat) (env : OpEnv)
  /-- SEND (R294). -/
  | sendTensor (op : Nat) (env : OpEnv)
  /-- RECV (R294). -/
  | recvTensor (op : Nat) (env : OpEnv)
  /-- G128_EXCHANGE (R287). -/
  | g128Exchange (op : Nat) (env : OpEnv)
  /-- STEP_BEGIN (R315). -/
  | stepBegin (op : Nat)
  /-- STEP_CHECK (R318). -/
  | stepCheck (op : Nat)
  /-- STEP_COMMIT (R321). -/
  | stepCommit (op : Nat)
  /-- STEP_VOID (R323). -/
  | stepVoid (op : Nat)
  /-- SNAPSHOT (R312). -/
  | snapshot (op : Nat)
  /-- CHECKPOINT (R32). -/
  | checkpoint (op : Nat)
  /-- CHECKPOINT_VERIFY (R33). -/
  | checkpointVerify (op : Nat)
  /-- KNOWN_ANSWER (R229). -/
  | knownAnswer (op : Nat) (runs : List KatRun)
  /-- SETVL (R130). -/
  | setvl (core : Nat) (d : BitVec 4) (a : BitVec 4)
  /-- SLI (R142). -/
  | sli (core : Nat) (d : BitVec 4) (imm : BitVec 32)
  /-- SADD (R142). -/
  | sadd (core : Nat) (d : BitVec 4) (a : BitVec 4) (b : BitVec 4)
  /-- SSUB (R142). -/
  | ssub (core : Nat) (d : BitVec 4) (a : BitVec 4) (b : BitVec 4)
  /-- SMINU (R142). -/
  | sminu (core : Nat) (d : BitVec 4) (a : BitVec 4) (b : BitVec 4)
  /-- VLD (R145). -/
  | vld (core : Nat) (d : BitVec 5) (port : BitVec 3) (mk : BitVec 3)
  /-- VLDX (R149). -/
  | vldx (core : Nat) (d : BitVec 5) (a : BitVec 5) (port : BitVec 3) (mk : BitVec 3)
  /-- VST (R145). -/
  | vst (core : Nat) (a : BitVec 5) (port : BitVec 3) (p : BitVec 6) (mk : BitVec 3)
  /-- VBCAST (R142). -/
  | vbcast (core : Nat) (d : BitVec 5) (a : BitVec 4) (mk : BitVec 3)
  /-- VBCASTI (R142). -/
  | vbcasti (core : Nat) (d : BitVec 5) (imm : BitVec 32) (mk : BitVec 3)
  /-- VIOTA (R142). -/
  | viota (core : Nat) (d : BitVec 5) (mk : BitVec 3)
  /-- VADD (R128). -/
  | vadd (core : Nat) (d : BitVec 5) (a : BitVec 5) (b : BitVec 5) (mk : BitVec 3)
  /-- VSUB (R128). -/
  | vsub (core : Nat) (d : BitVec 5) (a : BitVec 5) (b : BitVec 5) (mk : BitVec 3)
  /-- VMUL (R128). -/
  | vmul (core : Nat) (d : BitVec 5) (a : BitVec 5) (b : BitVec 5) (mk : BitVec 3)
  /-- VFMA (R128). -/
  | vfma (core : Nat) (d : BitVec 5) (a : BitVec 5) (b : BitVec 5) (c : BitVec 5) (mk : BitVec 3)
  /-- VFMS (R128). -/
  | vfms (core : Nat) (d : BitVec 5) (a : BitVec 5) (b : BitVec 5) (c : BitVec 5) (mk : BitVec 3)
  /-- VFNMA (R128). -/
  | vfnma (core : Nat) (d : BitVec 5) (a : BitVec 5) (b : BitVec 5) (c : BitVec 5) (mk : BitVec 3)
  /-- VDIV (R128). -/
  | vdiv (core : Nat) (d : BitVec 5) (a : BitVec 5) (b : BitVec 5) (mk : BitVec 3)
  /-- VSQRT (R128). -/
  | vsqrt (core : Nat) (d : BitVec 5) (a : BitVec 5) (mk : BitVec 3)
  /-- VMIN (R128). -/
  | vmin (core : Nat) (d : BitVec 5) (a : BitVec 5) (b : BitVec 5) (mk : BitVec 3)
  /-- VMAX (R128). -/
  | vmax (core : Nat) (d : BitVec 5) (a : BitVec 5) (b : BitVec 5) (mk : BitVec 3)
  /-- VABS (R128). -/
  | vabs (core : Nat) (d : BitVec 5) (a : BitVec 5) (mk : BitVec 3)
  /-- VNEG (R128). -/
  | vneg (core : Nat) (d : BitVec 5) (a : BitVec 5) (mk : BitVec 3)
  /-- VCPYSGN (R128). -/
  | vcpysgn (core : Nat) (d : BitVec 5) (a : BitVec 5) (b : BitVec 5) (mk : BitVec 3)
  /-- VEXP (R134). -/
  | vexp (core : Nat) (d : BitVec 5) (a : BitVec 5) (mk : BitVec 3)
  /-- VLOG (R134). -/
  | vlog (core : Nat) (d : BitVec 5) (a : BitVec 5) (mk : BitVec 3)
  /-- VRSQRT (R134). -/
  | vrsqrt (core : Nat) (d : BitVec 5) (a : BitVec 5) (mk : BitVec 3)
  /-- VTANH (R134). -/
  | vtanh (core : Nat) (d : BitVec 5) (a : BitVec 5) (mk : BitVec 3)
  /-- VERF (R134). -/
  | verf (core : Nat) (d : BitVec 5) (a : BitVec 5) (mk : BitVec 3)
  /-- VSIGM (R134). -/
  | vsigm (core : Nat) (d : BitVec 5) (a : BitVec 5) (mk : BitVec 3)
  /-- VIADD (R129). -/
  | viadd (core : Nat) (d : BitVec 5) (a : BitVec 5) (b : BitVec 5) (mk : BitVec 3)
  /-- VISUB (R129). -/
  | visub (core : Nat) (d : BitVec 5) (a : BitVec 5) (b : BitVec 5) (mk : BitVec 3)
  /-- VIMUL (R129). -/
  | vimul (core : Nat) (d : BitVec 5) (a : BitVec 5) (b : BitVec 5) (mk : BitVec 3)
  /-- VAND (R142). -/
  | vand (core : Nat) (d : BitVec 5) (a : BitVec 5) (b : BitVec 5) (mk : BitVec 3)
  /-- VOR (R142). -/
  | vor (core : Nat) (d : BitVec 5) (a : BitVec 5) (b : BitVec 5) (mk : BitVec 3)
  /-- VXOR (R142). -/
  | vxor (core : Nat) (d : BitVec 5) (a : BitVec 5) (b : BitVec 5) (mk : BitVec 3)
  /-- VSHL (R142). -/
  | vshl (core : Nat) (d : BitVec 5) (a : BitVec 5) (sh : BitVec 5) (mk : BitVec 3)
  /-- VSHRL (R142). -/
  | vshrl (core : Nat) (d : BitVec 5) (a : BitVec 5) (sh : BitVec 5) (mk : BitVec 3)
  /-- VSHRA (R142). -/
  | vshra (core : Nat) (d : BitVec 5) (a : BitVec 5) (sh : BitVec 5) (mk : BitVec 3)
  /-- VIMIN (R142). -/
  | vimin (core : Nat) (d : BitVec 5) (a : BitVec 5) (b : BitVec 5) (mk : BitVec 3)
  /-- VIMAX (R142). -/
  | vimax (core : Nat) (d : BitVec 5) (a : BitVec 5) (b : BitVec 5) (mk : BitVec 3)
  /-- VCVTFI (R142). -/
  | vcvtfi (core : Nat) (d : BitVec 5) (a : BitVec 5) (tz : Bool) (mk : BitVec 3)
  /-- VCVTIF (R142). -/
  | vcvtif (core : Nat) (d : BitVec 5) (a : BitVec 5) (mk : BitVec 3)
  /-- VCVTUF (R142). -/
  | vcvtuf (core : Nat) (d : BitVec 5) (a : BitVec 5) (mk : BitVec 3)
  /-- VCMP (R142). -/
  | vcmp (core : Nat) (d : BitVec 3) (a : BitVec 5) (b : BitVec 5) (pred : BitVec 3) (mk : BitVec 3)
  /-- VSEL (R142). -/
  | vsel (core : Nat) (d : BitVec 5) (a : BitVec 5) (b : BitVec 5) (mk : BitVec 3)
  /-- MAND (R142). -/
  | mand (core : Nat) (d : BitVec 3) (a : BitVec 3) (b : BitVec 3)
  /-- MOR (R142). -/
  | mor (core : Nat) (d : BitVec 3) (a : BitVec 3) (b : BitVec 3)
  /-- MXOR (R142). -/
  | mxor (core : Nat) (d : BitVec 3) (a : BitVec 3) (b : BitVec 3)
  /-- MNOT (R142). -/
  | mnot (core : Nat) (d : BitVec 3) (a : BitVec 3)
  /-- VPERM (R133). -/
  | vperm (core : Nat) (d : BitVec 5) (a : BitVec 5) (b : BitVec 5) (mk : BitVec 3)
  /-- RSUM (R137). -/
  | rsum (core : Nat) (a : BitVec 5) (acc : BitVec 2) (mk : BitVec 3)
  /-- RSUMP (R137). -/
  | rsump (core : Nat) (a : BitVec 5) (b : BitVec 5) (acc : BitVec 2) (mk : BitVec 3)
  /-- RMAX (R138). -/
  | rmax (core : Nat) (a : BitVec 5) (acc : BitVec 2) (mk : BitVec 3)
  /-- RMIN (R138). -/
  | rmin (core : Nat) (a : BitVec 5) (acc : BitVec 2) (mk : BitVec 3)
  /-- RARGMAX (R138). -/
  | rargmax (core : Nat) (a : BitVec 5) (acc : BitVec 2) (mk : BitVec 3)
  /-- RSTORE (R139). -/
  | rstore (core : Nat) (acc : BitVec 2) (part : Bool) (port : BitVec 3) (p : BitVec 6) (elem : BitVec 16)
  /-- ATTEMPT_REUSE_WAIT (R281). -/
  | attemptReuseWait (slot : Nat)
  /-- HOST_PORT_DISABLE_TIMEOUT (R443). -/
  | hostPortDisableTimeout (n : Nat)
  /-- STOP_COMPLETES (R361). -/
  | stopCompletes (u : StopUnit)
  /-- RESET_RETURN_TO_SERVICE (R357). -/
  | resetReturnToService (scope : ResetScope)
  /-- PWR_EN_LOW_TIME_EXPIRE (R487). -/
  | pwrEnLowTimeExpire
  /-- REFCLK_RESTORED (R393). -/
  | refclkRestored
  /-- INPUT_POWER_RETURN (R490). -/
  | inputPowerReturn
deriving DecidableEq, Repr

end Sys2Proof
end

