-- ==== Sys2Proof/Machine/State.lean ====
section
/-! DEFINITION. The state of the block as plain data: every register, table, queue, counter, mode and pin of INVENTORY.md, section State,
with the reset value as each field's default; the faults and refusals; `State.reset`. -/

namespace Sys2Proof.Machine

/-- A sparse table: pairs with strictly rising keys; a key not listed reads as the table's empty entry. -/
abbrev NMap (α : Type) := List (Nat × α)

/-! ### Pins and clocks -/

/-- The sideband pins and the hot-swap latch (R485 to R490). -/
structure Pins where
  pwrEn : Bool := false
  pwrEnFellAt : Option Nat := none
  pwrEnHeld : Bool := false
  resetN : Bool := true
  refclk : Bool := true
  twinSenseLow : Bool := false
  pgood : Bool := false
  faultN : Bool := true
  thermtripN : Bool := true
  tripLatch : Bool := false
  inputOk : Bool := true
deriving DecidableEq, Repr

/-- The clock system: uptime counter (R385), the clock status word (Table 14.2), Vigil's clock source (R393), unit delays (R299). -/
structure Clk where
  uptime : Nat := 0
  aligned : Bool := false
  pllLock : Bool := false
  alignOk : Bool := false
  alignTries : Nat := 0
  refLost : Bool := false
  onFallback : Bool := false
  lockLost : Bool := false
  gatedParts : BitVec 16 := 0
  onBypass : Bool := true
  unitDelay : NMap Nat := []
deriving DecidableEq, Repr

/-- The stages of Table 15.1. -/
inductive Stage where
  | rails | boxwood | bootImage | clockAlign | memTrain | wipe | selfTest | linkUp | released | recovery | halted
deriving DecidableEq, Repr

/-- Start-up (R400 to R416) and the measurement registers (R472). -/
structure Boot where
  stage : Stage := .rails
  powered : Bool := false
  degraded : Bool := false
  heldChipReset : Bool := false
  chipResetting : Bool := false
  faultLowSince : Option Nat := none
  slotBooted : Nat := 0
  fellBack : Bool := false
  fwVersion : List Byte := []
  configVersion : List Byte := []
  rollbackFloor : Nat := 0
  mBoxwood : Digest := 0
  mFirmware : Digest := 0
  mConfig : Digest := 0
  mFuses : Digest := 0
  keysDerived : Bool := false
  reportSeq : Nat := 0
deriving DecidableEq, Repr

/-- The fuse array (Table 15.2), the fuse shadow (R403) and the repair entries Boxwood mapped (R404). -/
structure Fuses where
  bits : BitVec 32768 := 0
  shadow : BitVec 32768 := 0
  repairMap : List (BitVec 32) := []
deriving DecidableEq, Repr

/-! ### Records and flash -/

/-- An error record (Table 12.4). -/
structure ErrorRecord where
  seq : Nat
  unit : BitVec 32
  code : Code
  severity : Nat
  opValid : Bool
  preRelease : Bool
  inStep : Bool
  opcode : BitVec 16
  context : Nat
  attempt : Nat
  step : Nat
  opSeq : BitVec 32
  runSlot : Nat
  time : Nat
  temp : BitVec 16
  volt : BitVec 16
  detail : BitVec 128
deriving DecidableEq, Repr

/-- A flash slot (R418): its status (Table 16.8: 0 empty, 1 valid, 2 invalid, 3 writing) and its two images. -/
structure FlashSlot where
  status : Nat := 0
  firmware : List Byte := []
  config : List Byte := []
  fwDone : Bool := false
  cfgDone : Bool := false
deriving DecidableEq, Repr

/-- The values of the persistent store (R419): the RWP objects, and what R346 keeps. -/
structure Store where
  plcaNodeId : Nat := 255
  plcaNodeCount : Nat := 8
  plcaBurst : Nat := 0
  operatorNodes : List (BitVec 128) := []
  bootSlot : Nat := 0
  tempWarn : BitVec 16 := 760
  tempStop : BitVec 16 := 840
  twinReserve : Nat := 186
  medium : NMap Nat := []
  hostMedium : NMap Nat := []
  ownSite : BitVec 32 := 0xFFFFFFFF
  serviceSeconds : Nat := 0
  strikes : NMap (List Nat) := []
  transients : NMap (List Nat) := []
  retired : List Nat := []
  vendorCert : List Byte := []
deriving DecidableEq, Repr

/-- One copy of the persistent store: its generation, and whether its CRC-64 matches (R419). -/
structure StoreCopy where
  gen : Nat := 0
  crcOk : Bool := true
  values : Store := {}
deriving DecidableEq, Repr

/-- A crash dump in a Yew slot (R379, R381): header fields and the entries' units with their status and heartbeat mirror. -/
structure DumpEntry where
  unit : BitVec 32
  status : Nat
  words : Nat
  hbMirror : BitVec 32
  hbAge : Nat
  w0Opcode : BitVec 16
  w0Context : Nat
  w0Gen : Byte
  w1Elapsed : Nat
  w2Predicted : Nat
  w3OpSeq : BitVec 32
  w4w15 : BitVec 768
deriving DecidableEq, Repr

/-- A crash dump (Table 13.9) with its unit entries (Table 13.10). -/
structure Dump where
  kind : Nat
  partition : Nat
  triggerSeq : BitVec 64
  time : Nat
  noAnswer : Nat
  serviceS : Nat
  entries : List DumpEntry
deriving DecidableEq, Repr

/-- What a capture holds (R335): the stationary block as loaded with its block scales, the row's slices with theirs, the formats of the streaming and the
stationary operand, reading, grid floor, mask bit. -/
structure CapturedRow where
  block : List Byte := []
  scales : List Byte := []
  slices : List Byte := []
  rowScales : List Byte := []
  fmtRow : Nat := 0
  fmtBlock : Nat := 0
  transposed : Bool := false
  floor : Int := 0
  masked : Bool := false
deriving DecidableEq, Repr

/-- An operand capture (R335): the mismatch it holds, its contents and the operator it came from. -/
structure Capture where
  recSeq : Nat
  core : Nat
  unit : BitVec 32
  runSlot : Nat
  inStep : Bool
  attempt : Nat
  step : Nat
  fault : ArrayFault
  held : CapturedRow
  desc : BitVec 1024
  flushed : Bool
deriving DecidableEq, Repr

/-- The flash contents that no reset clears (R415). -/
structure Flash where
  slotA : FlashSlot := {}
  slotB : FlashSlot := {}
  slotCode : Code := 0
  storeA : StoreCopy := {}
  storeB : StoreCopy := {}
  log : List ErrorRecord := []
  dumps : NMap Dump := []
  dumpNext : Nat := 0
  dumpOpen : Bool := false
  captures : NMap Capture := []
  captureNext : Nat := 0
deriving DecidableEq, Repr

/-! ### Vigil -/

/-- A nonce issued to a requester (R434). -/
structure Nonce where
  value : BitVec 128
  issuedAt : Nat
  used : Bool
deriving DecidableEq, Repr

/-- A privilege elevation (R434, R477): its level (2 Provisioner, 3 Vendor), the object it names, and when it was granted. -/
structure Elevation where
  level : Nat
  index : BitVec 16
  sub : Byte
  grantedAt : Nat
  inTransfer : Bool
deriving DecidableEq, Repr

/-- An open DOMAIN transfer (R433). -/
structure Transfer where
  index : BitVec 16
  sub : Byte
  runSlot : Nat
  offset : Nat
  total : Nat
  got : List Byte
  lastOffset : Option Nat
  touchedAt : Nat
deriving DecidableEq, Repr

/-- A dictionary response (Tables 16.4, 16.5). -/
structure Response where
  op : Byte
  seq : BitVec 16
  index : BitVec 16
  sub : Byte
  status : Code
  payload : List Byte
deriving DecidableEq, Repr

/-- What Vigil keeps of one requester (R428, R432, R473). -/
structure ReqState where
  who : Requester
  lastUse : Nat
  runSelect : BitVec 16 := 0xFFFF
  nonce : Option Nonce := none
  elevation : Option Elevation := none
  transfer : Option Transfer := none
  kept : List Response := []
  deferred : List (BitVec 16) := []
  attestNonce : List Byte := []
  report : Option (List Byte) := none
deriving DecidableEq, Repr

/-- What Vigil sends on the field network or as DICT (R429 to R432). -/
inductive VigilOut where
  | response (dest : Requester) (r : Response)
  | neighbourAdvert (dest target : BitVec 128)
  | echoReply (dest src : BitVec 128) (payload : List Byte)
deriving DecidableEq, Repr

/-- Vigil's volatile state (file 16). -/
structure Vigil where
  nextSeq : Nat := 0
  buffer : List ErrorRecord := []
  logDropped : Nat := 0
  temps : NMap (BitVec 16) := []
  volts : NMap (BitVec 16) := []
  powerW : Nat := 0
  warnArmed : Bool := true
  stopPending : Bool := false
  railSetPoint : NMap Nat := []
  missedPolls : NMap Nat := []
  regIout : NMap (BitVec 16) := []
  mr4 : NMap Byte := []
  seconds : Nat := 0
  secondsFrom : Nat := 0
  fieldState : Nat := 0
  fieldViolations : Nat := 0
  fieldViolStamps : List Nat := []
  lastFieldRecord : Option Nat := none
  requesters : List ReqState := []
  timeOrigin : DWord := 0
  gatherDeadline : Nat := 20
  out : List VigilOut := []
deriving DecidableEq, Repr

/-! ### Cores and the vector engine -/

/-- The unit states of Table 13.4. -/
inductive UnitState where
  | stopped | starting | running | stopping | restartPending
deriving DecidableEq, Repr

/-- The counters of Table 5.5, and the other shadowed counters of a core (Table 16.10). -/
structure CoreCtr where
  arrayBusy : Nat := 0
  arrayLoadStall : Nat := 0
  arrayPasses : Nat := 0
  arrayRowsMasked : Nat := 0
  gridFlushed : Nat := 0
  gridClamped : Nat := 0
  chkMismatch : Nat := 0
  tileEccCorrected : Nat := 0
  tileEccUncorrectable : Nat := 0
  engineLateDrops : Nat := 0
  dupCheckStall : Nat := 0
deriving DecidableEq, Repr

/-- What is kept per logical core. -/
structure CoreRec where
  state : UnitState := .running
  held : Bool := false
  ctr : CoreCtr := {}
  transientFaults : Nat := 0
  transientHangs : Nat := 0
  tag : Byte := 0
  tagAt : Option Nat := none
  engineResetAt : Option Nat := none
  resetting : Bool := false
  lastCheck : Option Nat := none
  /-- When the core's clock was last opened (R396, R398). -/
  backAt : Option Nat := none
deriving DecidableEq, Repr

/-- A heartbeat mirror entry (R300). -/
structure Heartbeat where
  word : BitVec 32
  at_ : Nat
deriving DecidableEq, Repr

/-- A core due for retirement (R346), with the `seq` of its last strike. -/
structure DueCore where
  core : Nat
  cause : Nat
  /-- Its partition had no spare left: PARTITION_SPARES_EXHAUSTED has been written (R105). -/
  told : Bool := false
deriving DecidableEq, Repr

/-- What the dot array of a core holds after an operator: of its last stationary block the unit exponent and the sums C and D of the checksum column (R119),
and the output stage's accumulators by row and column (R110). -/
structure ArrayRegs where
  w0 : Int := 0
  csum : List (BitVec 64) := []
  dsum : List (BitVec 64) := []
  acc : List (BitVec 128) := []
deriving DecidableEq, Repr

/-- The cores (files 05, 12, 13, 15): core map, spares, states, counters, heartbeats. -/
structure Cores where
  map : NMap Nat := []
  good : List Nat := []
  spares : List Nat := []
  recs : NMap CoreRec := []
  arrays : NMap ArrayRegs := []
  partState : NMap UnitState := []
  partResetting : List Nat := []
  heartbeat : NMap Heartbeat := []
  due : List DueCore := []
  reloading : List Nat := []
  badTile : List TileFault := []
  bitsByte : Byte := 0
deriving DecidableEq, Repr

/-- The sticky status bits of a completion record (Table 9.5, R57, R68, R132). -/
structure OpStatus where
  cvtSat : Bool := false
  cvtNonfinite : Bool := false
  gridNonfinite : Bool := false
  vxInvalid : Bool := false
  vxDivzero : Bool := false
  vxOverflow : Bool := false
  vxUnderflow : Bool := false
  permOob : Bool := false
  katPass : Bool := false
  deadline : Bool := false
deriving DecidableEq, Repr

/-- The kinds of an accumulator (Table 6.4). -/
inductive AccKind where
  | unused | sum | max | min | argmax
deriving DecidableEq, Repr

/-- One accumulator of the reduction unit (R136, R137): the grid floor, the grid integer with its non-finite state, or the value and index.
In the first sweep of R137 `n` holds the greatest term exponent and `index` is 1 once there is one. -/
structure Acc where
  kind : AccKind := .unused
  g : Int := 0
  n : Int := 0
  nonfinite : Bool := false
  value : Word := 0
  index : Nat := 0
deriving DecidableEq, Repr

/-- A stream store of a kernel: port, purpose offset, element index, word. -/
structure KStore where
  port : Nat
  p : Nat
  idx : Nat
  w : Word
deriving DecidableEq, Repr

/-- The vector engine of one core as a kernel sees it (Table 6.1). A register is the list of its elements from 0; elements beyond the list
read as zero. `passes` lists, for the passes of its chunk still to begin, the values of s1 and s2; `wipe` the registers that are zeroed at each pass start
(R146, R147; a vector register r as r, a mask register as 32 + r, a scalar register as 40 + r). `kept` holds the elements stored to a port of a block format
whose block is not whole yet (R145). -/
structure VCore where
  v : List (List Word) := List.replicate 32 []
  m : List (List Bool) := List.replicate 8 []
  s : List DWord := List.replicate 16 0
  vl : Nat := 0
  acc : List Acc := List.replicate 4 {}
  op : Option Nat := none
  sweep : Bool := false
  stat : OpStatus := {}
  flushed : Nat := 0
  clamped : Nat := 0
  faultIndex : Option Nat := none
  passes : List (Nat × Nat) := []
  wipe : List Nat := []
  kept : List KStore := []
deriving DecidableEq, Repr

/-! ### Memory, regions, contexts -/

/-- The key under which an LPDDR5X line is held (R168, R169): slot 0's power-up key, or a provisioned 512-bit key. -/
inductive KeyId where
  | slot0
  | key (k : BitVec 512)
deriving DecidableEq, Repr

/-- A line last written under a key other than the one WIPE wrote it with: its number (address / 256), that key, and its epoch. -/
structure LineTag where
  line : Nat
  key : KeyId
  epoch : Nat
deriving DecidableEq, Repr

/-- The LPDDR5X contents: bytes in canonical form (addresses strictly rising, no entry equal to what an unlisted address reads as), line
tags with strictly rising lines, and the uncorrectable lines (R157), rising. -/
structure Mem where
  cells : List Host.Cell := []
  tags : List LineTag := []
  bad : List Nat := []
deriving DecidableEq, Repr

/-- The state of a 2 MiB granule (R165). -/
inductive Grant where
  | exclusive (ctx : Nat)
  | shared (count : Nat)
  | zeroing
deriving DecidableEq, Repr

/-- The LPDDR5X counters of one controller (Table 16.10). -/
structure MemCtr where
  corrected : Nat := 0
  uncorrectable : Nat := 0
  refreshStall : Nat := 0
deriving DecidableEq, Repr

/-- The memory system (file 07) and the key slots (R169). Granules not listed are free; slots not listed are empty. -/
structure MemSys where
  mem : Mem := {}
  grants : NMap Grant := []
  zeroed : NMap Nat := []
  ctr : NMap MemCtr := []
  keys : NMap (BitVec 512) := []
  keySlotDrops : Nat := 0
  twinReserveActive : Nat := 186
deriving DecidableEq, Repr

/-- A completion record's content (Table 9.5) before it has its place in the ring. -/
structure CompRec where
  userTag : BitVec 64
  opSeq : BitVec 32
  opcode : BitVec 16
  code : Code
  stream : Nat
  gen : Byte
  context : Nat
  noop : Bool
  stat : OpStatus
  coreFirst : Nat
  coreCount : Nat
  ports : Nat
  flushed : Nat
  clamped : Nat
  cycles : Nat
  detail : BitVec 64
deriving DecidableEq, Repr

/-- The context states of Table 9.2. -/
inductive CtxState where
  | free | open_ | halted | resetting | releasing
deriving DecidableEq, Repr

/-- The request of R253 that waits on a context. -/
inductive CtxReq where
  | open_ | release
deriving DecidableEq, Repr

/-- A held doorbell (Table 9.4). -/
structure HeldDoorbell where
  port : Nat
  payload : BitVec 128
deriving DecidableEq, Repr

/-- One context: its descriptor's SW fields (Table 9.1, RO fields zero in `desc`), the fields the device maintains, and its cache image. -/
structure Ctx where
  desc : BitVec 1024 := 0
  gen : Byte := 0
  tagAt : Option Nat := none
  /-- An advance of the tag waits for its 50 µs (R250). -/
  tagDue : Bool := false
  state : CtxState := .free
  cached : Bool := false
  loaded : Bool := false
  loading : Bool := false
  pend : Option CtxReq := none
  crHead : Nat := 0
  crTail : Nat := 0
  faultCount : Nat := 0
  lateDrops : Nat := 0
  qhead : List Nat := [0, 0, 0, 0]
  qtail : List Nat := [0, 0, 0, 0]
  queueHeld : List Bool := [false, false, false, false]
  regions : List (BitVec 128) := []
  heldDoorbells : List HeldDoorbell := []
  crBuffer : List CompRec := []
  notifyPort : Nat := 0
  resetCores : List Nat := []
  resetAt : Nat := 0
  lastIssued : Nat := 0
  issuedAt : Nat := 0
deriving DecidableEq, Repr

/-- A stream's binding and halt (R238, R240). -/
structure Stream where
  ctx : Nat
  halted : Bool
deriving DecidableEq, Repr

/-- A frame of an activation stack (Table 7.7): its header fields, its stack offset and its length in bytes with header and padding. -/
structure Frame where
  tensorId : BitVec 32
  fmt : Byte
  mark : Bool
  step : Nat
  bytes : Nat
  shape : List Nat
  off : Nat
  len : Nat
deriving DecidableEq, Repr

/-- The states of a stack page (R176, R177). -/
inductive PageState where
  | resident | spilling | spilled | fetching
deriving DecidableEq, Repr

/-- A stack page of a context: the logical core whose slice holds it (R175), and the tags of that core's engine and of the context under which a transfer of it
was asked for (R250). -/
structure StackPage where
  state : PageState
  core : Nat
  tag : Byte := 0
  gen : Byte := 0
deriving DecidableEq, Repr

/-- A context's activation stack (R171 to R178): frames newest first, step floor, pages, and the bytes of resident pages by stack offset. -/
structure Stack where
  frames : List Frame := []
  floor : Nat := 0
  pages : NMap StackPage := []
  bytes : List Host.Cell := []
deriving DecidableEq, Repr

/-- The module counters of 0x6001 (Table 16.11). -/
structure ModCtr where
  contextCacheMisses : Nat := 0
  contextCacheStall : Nat := 0
  gathererOverflowRows : Nat := 0
  stackSpillPages : Nat := 0
  stackSpillStall : Nat := 0
  stackRefillStall : Nat := 0
  stagingRereadBytes : Nat := 0
  expertSpillRows : Nat := 0
  exchangeCreditStall : Nat := 0
  ringFullStall : Nat := 0
  gathererOverflowStall : Nat := 0
deriving DecidableEq, Repr

/-- The contexts, streams and stacks (files 07, 09). -/
structure Ctxs where
  tab : NMap Ctx := []
  streams : NMap Stream := []
  stackTab : NMap Stack := []
  rr : Nat := 0
  issueCount : Nat := 0
  ctr : ModCtr := {}
deriving DecidableEq, Repr

/-! ### Scheduler -/

/-- The life of an issued operator: issued, its checks 1 to 15 passed, started (its body may run), body done. -/
inductive OpPhase where
  | issued | checked | started | finished
deriving DecidableEq, Repr

/-- The outcome of a group instance (Table 10.9). -/
inductive GroupOutcome where
  | run | noop | mismatch | aborted
deriving DecidableEq, Repr

/-- One pass on a core: its cycle after the operator's start, the load cycles it was held for, reading factor, rows, those of them masked, the counts of its
unmasked rows. -/
structure ArrPass where
  core : Nat
  at_ : Nat
  stall : Nat
  rho : Nat
  rows : Nat
  masked : List Nat
  flushed : Nat
  clamped : Nat
deriving DecidableEq, Repr

/-- A chunk that a core of an operator ran, by its place in the core set, with the value that a check task compares (R339, R341, R342). -/
structure Chunk where
  core : Nat
  update : Bool
  value : BitVec 128
deriving DecidableEq, Repr

/-- An operator from its issue to its completion record (R189, R196, R230, R499). `passes` are those of an operator on the array, from its start on (R109). -/
structure OpEntry where
  ctx : Nat
  queue : Nat := 0
  desc : BitVec 1024
  tensors : List (BitVec 512) := []
  gen : Byte := 0
  phase : OpPhase := .issued
  code : Code := 0
  noop : Bool := false
  issuedAt : Nat := 0
  stagedAt : Option Nat := none
  startedAt : Nat := 0
  coreFirst : Nat := 0
  coreCount : Nat := 0
  ports : Nat := 0
  staged : List Host.Cell := []
  stat : OpStatus := {}
  flushed : Nat := 0
  clamped : Nat := 0
  cycles : Nat := 0
  detail : BitVec 64 := 0
  xseq : Nat := 0
  outcome : Option GroupOutcome := none
  contributed : Bool := false
  unexcluded : Bool := false
  overflowWait : Bool := false
  turn : Bool := false
  lnew : List Int := []
  scaleMax : Option Int := none
  judged : Bool := false
  waitFrom : Option Nat := none
  /-- When it became ready to start (R239, R244). -/
  readyAt : Option Nat := none
  /-- It waits for a run of cores that no reservation holds (R244). -/
  wantsRun : Bool := false
  passes : List ArrPass := []
  /-- The chunks its cores ran, in an open step (R339, R341). -/
  chunks : List Chunk := []
  /-- Since when it is in a wait that its watchdog does not count (R352). -/
  waitSince : Option Nat := none
  /-- The cycles of such waits that have ended. -/
  excluded : Nat := 0
deriving DecidableEq, Repr

/-- An outstanding READ's requester: an operator; an operator whose request the port discarded before sending (R250); the context of an operator
that has ended; none, after its 10 ms (R447). -/
inductive ReadFor where
  | op (id : Nat)
  | unsent (id : Nat)
  | dropped (ctx : Nat)
  | expired
deriving DecidableEq, Repr

/-- An outstanding READ (R447): port, tag, device address, length, tag of the requester, issue time. -/
structure HostRead where
  port : Nat
  tag : Nat
  requester : ReadFor
  addr : Nat
  bytes : Nat
  gen : Byte
  at_ : Nat
deriving DecidableEq, Repr

/-- A row waiting in a gatherer queue (R245). -/
structure GRow where
  op : Nat
  row : Nat
  at_ : Nat
deriving DecidableEq, Repr

/-- A gather group's queue (R245, R246): the stationary bytes it serves, its element plane at `base` and its block plane at `blocks`, its rows in arrival order and how many of them lie in the overflow
area. -/
structure GatherQ where
  base : Nat
  blocks : Nat
  tensor : BitVec 512
  coreFirst : Nat
  coreCount : Nat
  rows : List GRow
  overflow : Nat
deriving DecidableEq, Repr

/-- A check task (R339, R341). -/
structure CheckTask where
  op : Nat
  ctx : Nat
  slot : Nat
  desc : BitVec 1024
  tensors : List (BitVec 512)
  step : Nat
  attempt : Nat
  core : Nat
  update : Bool
  value : BitVec 128
deriving DecidableEq, Repr

/-- The quarantine of R354 to R356: hung physical places (logical cores), suspects left, the operator on turn, the culprit. -/
structure Quarantine where
  cores : List Nat := []
  suspects : List Nat := []
  hung : List Nat := []
  culprit : Option Nat := none
  culpritOpcode : BitVec 16 := 0
  since : Nat := 0
deriving DecidableEq, Repr

/-- A reservation of a run of cores (R244). -/
structure Reservation where
  op : Nat
  first : Nat
  count : Nat
deriving DecidableEq, Repr

/-- The scheduler, the gatherer, the check tasks, the captures and the quarantine. -/
structure Sched where
  ops : NMap OpEntry := []
  nextOp : Nat := 0
  reservations : List Reservation := []
  reads : List HostRead := []
  gather : NMap GatherQ := []
  checks : NMap CheckTask := []
  nextCheck : Nat := 0
  captures : NMap Capture := []
  captureOverflow : Nat := 0
  quarantine : Quarantine := {}
deriving DecidableEq, Repr

/-! ### Links -/

/-- The port states of R255. -/
inductive PortState where
  | disabled | training | up | guarded | down
deriving DecidableEq, Repr

/-- A numbered block in a retry buffer (R257): its number, its stream, how often it was sent, how many cells (on a host port: WRITE packets) begin in it,
and the unit at which the first begins (Table 10.1). -/
structure RetryBlk where
  seq : Nat
  stream : List Byte
  sends : Nat
  cells : Nat
  first : Nat
deriving DecidableEq, Repr

/-- A cell or packet waiting in a buffer of a link, with its lane or class and arrival time (R263, R281). -/
structure LinkItem where
  lane : Nat
  hdr : Header
  data : List Byte
  at_ : Nat
deriving DecidableEq, Repr

/-- The counters of a link (Tables 16.10, 17.7). -/
structure LinkCtr where
  retryEvents : Nat := 0
  violations : Nat := 0
  unroutableDrops : Nat := 0
  hopLimitDrops : Nat := 0
  staleCells : Nat := 0
  planContention : Nat := 0
  hostCreditStall : Nat := 0
  requestExpired : Nat := 0
  lateCompletions : Nat := 0
  doorbellDropped : Nat := 0
  noticesDropped : Nat := 0
deriving DecidableEq, Repr

/-- One link: a fabric port, a host port or the twin bridge (R254 to R264, R443, R446, R455). -/
structure Link where
  state : PortState := .disabled
  unit : UnitState := .stopped
  held : Bool := false
  disabling : Bool := false
  disableAt : Nat := 0
  trainStart : Nat := 0
  retraining : Bool := false
  wasGuarded : Bool := false
  txPart : List Byte := []
  deficit : List Nat := [0, 0, 0]
  turn : Nat := 0
  txSeq : Nat := 0
  rxNext : Nat := 0
  nakOut : Bool := false
  retry : List RetryBlk := []
  /-- The blocks last put on the wire. -/
  wire : List Block := []
  partialCell : List Byte := []
  resync : Bool := true
  rx : List LinkItem := []
  txq : List LinkItem := []
  sentUnits : List Nat := [0, 0, 0, 0, 0, 0, 0, 0]
  backUnits : List Nat := [0, 0, 0, 0, 0, 0, 0, 0]
  freedUnits : List Nat := [0, 0, 0, 0, 0, 0, 0, 0]
  capUnits : List Nat := [512, 5120, 1536, 1536, 0, 0, 0, 0]
  gotLink : Bool := false
  lastReturn : Nat := 0
  returned : List Nat := [0, 0, 0, 0, 0, 0, 0, 0]
  violCode : BitVec 16 := 0
  violCount : Nat := 0
  violStamps : List Nat := []
  lastViolRecord : Option Nat := none
  partnerViol : BitVec 16 := 0
  retryStamps : List Nat := []
  inRetry : Bool := false
  retrainStamps : List Nat := []
  ctr : LinkCtr := {}
deriving DecidableEq, Repr

/-- The links and the tables that steer them (files 10, 17). -/
structure Links where
  fabric : NMap Link := []
  host : NMap Link := []
  bridge : Link := {}
  /-- Cells of the module's own to a rank on its own site (R266). -/
  own : List Cell := []
  rankTable : NMap (BitVec 32) := []
  moveSeq : NMap Nat := []
  podRoutes : NMap (BitVec 64) := []
  slotRoutes : NMap (BitVec 64) := []
  groups : NMap (BitVec 128) := []
  planMasks : NMap (BitVec 32) := []
  windows : NMap (BitVec 64) := []
  rings : NMap (BitVec 128) := []
deriving DecidableEq, Repr

/-! ### Exchange and control -/

/-- A sender's and receiver's account with one peer of an instance, in one phase (R278). -/
structure Peer where
  rank : Nat
  phase : Nat
  sentCount : Nat := 0
  sentSum : Nat := 0
  closeSent : Bool := false
  recvCount : Nat := 0
  recvSum : Nat := 0
  close : Option (Nat × Nat) := none
deriving DecidableEq, Repr

/-- A block, unit or shard element accumulator of an owner (R283, R287, R288). -/
structure BlockAcc where
  idx : Nat
  hdr : BitVec 64
  obs : BitVec 16
  elems : List Int
deriving DecidableEq, Repr

/-- A segment waiting for the rest of its block, row or image (R283, R286, R291). -/
structure Seg where
  src : Nat
  phase : Nat
  unit : Nat
  seg : Nat
  hdr : BitVec 64
  obs : BitVec 16
  bytes : List Byte
deriving DecidableEq, Repr

/-- A dispatched or returned row (Table 10.5). -/
structure RowAcc where
  src : Nat
  slot : Nat
  quantum : Nat
  row : Nat
  j : Nat
  t : Nat
  segs : List (Nat × List Byte)
deriving DecidableEq, Repr

/-- A CLOSE that waits for its cells (R278): sender, count, sum, the link it came by and when. -/
structure CloseCell where
  src : Nat
  count : Nat
  sum : Nat
  link : LinkRef
  at_ : Nat
deriving DecidableEq, Repr

/-- An instance of an exchange operator on this module (R274 to R294). `op` is none for the replica comparison of STEP_CHECK (R337). -/
structure ExInst where
  op : Option Nat
  slot : Nat
  group : Nat
  xseq : Nat
  opcode : BitVec 16
  g : Nat
  me : Nat
  step : Nat
  attempt : Nat
  phase : Nat := 0
  peers : List Peer := []
  blocks : List BlockAcc := []
  segs : List Seg := []
  image : List Host.Cell := []
  rows : List RowAcc := []
  goSent : List Nat := []
  goGot : List Nat := []
  closes : List CloseCell := []
  added : List Nat := []
  /-- A contribution that RANK_ORDER_REDUCE has converted held a NaN or an infinity (R57). -/
  nonfin : Bool := false
  begun : Bool := false
  complete : Bool := false
deriving DecidableEq, Repr

/-- The key by which a node matches reduction messages (R304). -/
structure RedKey where
  group : Nat
  cmsg : Nat
  step : Nat
  attempt : Nat
  xseq : Nat
  tag : BitVec 32
deriving DecidableEq, Repr

/-- A reduction in progress at this node (R304, R305). -/
structure Reduction where
  key : RedKey
  own : Option (List DWord) := none
  children : NMap (List DWord) := []
  excused : List Nat := []
  sentUp : Option (List DWord) := none
  arrivals : NMap Nat := []
  done : Bool := false
deriving DecidableEq, Repr

/-- An up-sweep message of a child that a rank move makes the child send again (R305): its reduction and lanes, and when the move was applied. -/
structure Resent where
  key : RedKey
  child : Nat
  lanes : List DWord
  at_ : Nat
deriving DecidableEq, Repr

/-- The shadow registers of the last snapshot (R311). -/
structure Shadows where
  cores : NMap CoreCtr := []
  late : List Nat := []
  mem : NMap MemCtr := []
  mods : ModCtr := {}
  fabric : NMap LinkCtr := []
  host : NMap LinkCtr := []
  bridge : LinkCtr := {}
  mirrorBytes : Nat := 0
deriving DecidableEq, Repr

/-- Who asked for a snapshot strobe. -/
inductive SnapFor where
  | object (q : Req)
  | op (id : Nat)
  | boundary (step attempt : Nat)
deriving DecidableEq, Repr

/-- The control network (file 11). -/
structure Ctrl where
  reds : List Reduction := []
  resent : List Resent := []
  peerSeen : NMap Nat := []
  hbCount : Nat := 0
  hbAt : Nat := 0
  snapId : Nat := 0
  snapCycle : Nat := 0
  snapStep : BitVec 64 := 0
  shadows : Shadows := {}
  strobes : List SnapFor := []
  strobeAt : Nat := 0
deriving DecidableEq, Repr

/-! ### Runs -/

/-- A SHA-512 computation in progress: the eight chaining words, the bytes not yet hashed, the length so far. -/
structure ShaState where
  h : List DWord := []
  buf : List Byte := []
  len : Nat := 0
deriving DecidableEq, Repr

/-- A scale-state record as the Almanac holds it (Table 4.1): tensor ID, header, codes. -/
structure ScaleRec where
  header : BitVec 128
  codes : List Byte
deriving DecidableEq, Repr

/-- A checkpoint entry of an Almanac (Table 1.7). -/
structure Ckpt where
  step : Nat
  digest : Digest
  records : List ScaleRec
deriving DecidableEq, Repr

/-- A run's replica digest for one group in the attempt (R337). -/
structure ReplicaDigest where
  digest : BitVec 128 := 0
  blocks : Nat := 0
deriving DecidableEq, Repr

/-- The sender's side of a run's mirror (R456 to R461). -/
structure MirrorTx where
  seeded : Bool := false
  stale : Bool := false
  seeding : Bool := false
  paired : Bool := true
  count : Nat := 0
  sum : Nat := 0
  acked : Option Bool := none
  ackReason : Code := 0
  lost : Bool := false
  segs : Nat := 0
  grads : List Nat := []
  closed : Bool := false
  causeAt : Option Nat := none
  checked : Bool := false
deriving DecidableEq, Repr

/-- The states of a run slot (Table 16.12). -/
inductive RunState where
  | closed | open_ | halted
deriving DecidableEq, Repr

/-- One run slot (files 01, 04, 11, 12, 13, 16). -/
structure Run where
  state : RunState := .closed
  rec_ : BitVec 1024 := 0
  refRunId : BitVec 128 := 0
  bank : Bool := false
  lastCommitted : Nat := 0
  openStep : Option Nat := none
  openAt : Nat := 0
  openedAt : Nat := 0
  attempt : Nat := 0
  calibrate : Bool := false
  quanta : Nat := 0
  committedAny : Bool := false
  checkFailure : Bool := false
  carried : Bool := false
  checkSent : Bool := false
  vetoSent : Bool := false
  passed : Bool := false
  replicaStarted : Bool := false
  replicaMismatch : Bool := false
  stepDigest : BitVec 128 := 0
  qinput : BitVec 128 := 0
  sendDigest : BitVec 128 := 0
  recvDigest : BitVec 128 := 0
  skipOvf : Nat := 0
  skipNf : Nat := 0
  skipUpdate : Nat := 0
  scaleFloorBlocks : Nat := 0
  scaleAtLimit : Nat := 0
  limitRaised : List Nat := []
  calibRecords : List ScaleRec := []
  /-- The tensors whose scale record an operator of the attempt has written. -/
  scaleWritten : List Nat := []
  /-- The committed calibration steps (R97): records older than they carry over them (R100). -/
  calibSteps : List Nat := []
  scaleLost : Bool := false
  replica : NMap ReplicaDigest := []
  marked : List Nat := []
  xseqs : NMap Nat := []
  sends : NMap Nat := []
  recvs : NMap Nat := []
  voidAt : NMap Nat := []
  /-- The VOID_REQUESTs sent in the attempt, as reason and failed rank: they go out again when the root's rank moves (R305, R323). -/
  voidAsked : List (Nat × Nat) := []
  startWait : Bool := false
  strikes : List Nat := []
  readyRec : BitVec 1024 := 0
  stepRecord : BitVec 1024 := 0
  sha : ShaState := {}
  almBase : Nat := 0
  almWindow : List Byte := []
  almParts : List (Nat × Nat) := []
  refAlmanac : Option (List Byte) := none
  chain : Digest := 0
  ckpts : List Ckpt := []
  breaks : List Nat := []
  pendingBreak : Bool := false
  verified : Bool := false
  restored : Bool := false
  recs : NMap (BitVec 1024) := []
  runHalted : Bool := false
  lineageHeld : Bool := false
  lineageCert : List Byte := []
  expertSlots : NMap (BitVec 64) := []
  replicaTable : NMap (BitVec 64) := []
  spareList : NMap (BitVec 32) := []
  twinMap : NMap (BitVec 32) := []
  bankPairs : NMap (BitVec 64) := []
  stateTensors : NMap (BitVec 1024) := []
  usedSites : List Nat := []
  failedRanks : List Nat := []
  mirror : MirrorTx := {}
  updateDigest : BitVec 128 := 0
  compatAt : Option Nat := none
  compatAcked : Bool := true
deriving DecidableEq, Repr

/-! ### Recovery, twin, dumps -/

/-- A class 0x05xx operator of a step as item 3 carries it (Table 13.7): descriptor, tensor list, frozen mask and the cross-shard
maximum it received. -/
structure MirrorOp where
  desc : BitVec 1024
  tensors : List (BitVec 512)
  mask : List Byte
  lmax : Option Int
deriving DecidableEq, Repr

/-- A mirror or recovery item being assembled: item, tensor, segments, whether its last segment has come. -/
structure MirrorItem where
  step : Nat
  item : Nat
  tensorId : BitVec 32
  segs : NMap (List Byte)
  last : Bool
deriving DecidableEq, Repr

/-- The partner's mirror of one run (R457): whether a copy is held and at which step, the step and attempt whose items arrive, the items of the copy (item
1) and of the steps after it, the update digests, the copies of compatibility mode by step. -/
structure Mirror where
  copyHeld : Bool := false
  copyStep : Nat := 0
  batch : Option (Nat × Nat) := none
  items : List MirrorItem := []
  count : Nat := 0
  sum : Nat := 0
  closed : Option (Nat × Nat) := none
  stale : Bool := false
  digests : NMap (BitVec 128) := []
  copies : NMap (List MirrorItem) := []
deriving DecidableEq, Repr

/-- An adoption in progress on a spare (R370). -/
structure Adoption where
  group : Nat
  rank : Nat
  twinRank : Nat
  manifest : Bool := false
  step : Nat := 0
  last : Nat := 0
  attempt : Nat := 0
  updateDigest : BitVec 128 := 0
  needUpdate : Bool := true
  wanted : List (Nat × Nat) := []
  items : List MirrorItem := []
  ready : Bool := false
  requested : Bool := false
deriving DecidableEq, Repr

/-- Spares and recovery (R366 to R374). -/
structure Recov where
  spareRole : BitVec 16 := 0xFFFF
  armed : Bool := false
  adoption : Option Adoption := none
  stopped : Bool := false
  evicted : Bool := false
deriving DecidableEq, Repr

/-- The twin (R441, R455 to R463). -/
structure Twin where
  sense : Bool := false
  serial : DWord := 0
  site : BitVec 32 := 0xFFFFFFFF
  partnerReserve : Nat := 0
  accepted : Bool := false
  state : UnitState := .stopped
  held : Bool := false
  degraded : Bool := false
  reserveUsed : Nat := 0
  seeds : Nat := 0
  bytesSent : Nat := 0
  mirrors : NMap Mirror := []
  heldRetrain : Bool := false
deriving DecidableEq, Repr

/-- The dump engine (R377, R378, R382). -/
structure DumpEng where
  wanted : Option Nat := none
  partition : Nat := 0
  trigger : BitVec 64 := 0
  staged : List DumpEntry := []
  time : Nat := 0
  merged : Nat := 0
  resetAfter : Bool := false
deriving DecidableEq, Repr

/-! ### The state -/

/-- The state of the module. `pending` is the block's command queue; `free` and `now` are the model's own (log entries 2 and 6). -/
structure State where
  pending : List Instr := []
  free : Nat := 0
  now : Nat := 0
  pins : Pins := {}
  clk : Clk := {}
  boot : Boot := {}
  fuses : Fuses := {}
  flash : Flash := {}
  vigil : Vigil := {}
  cores : Cores := {}
  vec : NMap VCore := []
  memsys : MemSys := {}
  ctxs : Ctxs := {}
  sched : Sched := {}
  links : Links := {}
  exch : List ExInst := []
  ctrl : Ctrl := {}
  runs : NMap Run := []
  recov : Recov := {}
  twin : Twin := {}
  dump : DumpEng := {}
deriving DecidableEq, Repr

/-- Faults of the model. -/
inductive Fault where
  /-- Raised by LPDDR_MAINT_SLOT and TILE_SCRUB when the work names an address that the spec says does not exist (R152, R154, R160).
  Safe: the model stops where the hardware has no such step. -/
  | noSuchAddress
deriving DecidableEq, Repr

/-- Refusals of the model. -/
inductive Refusal where
  /-- Raised by an arm of `exec` whose command has no meaning yet. Safe: the model stops. -/
  | notModelled (mnemonic : String)
deriving DecidableEq, Repr

/-- The module with 48 V present and PWR_EN low (log entry 3): every field at the value INVENTORY.md gives. -/
def State.reset : State := {}

end Sys2Proof.Machine
end

