-- ==== Sys2Proof/Machine/Bits.lean ====
section
/-! DEFINITION. Bit fields, little-endian bytes (R3), tables with rising keys, and the answer of a command. -/

namespace Sys2Proof.Machine

/-- The answer of a command. -/
abbrev Out := Host.Outcome State Fault Refusal

/-- The field of `len` bits whose lowest bit is bit `lo`. -/
def bitsOf (x lo len : Nat) : Nat := (x >>> lo) % 2 ^ len

/-- The same of a bit vector. -/
def fld {n : Nat} (x : BitVec n) (lo len : Nat) : Nat := bitsOf x.toNat lo len

/-- One bit of a bit vector. -/
def flag {n : Nat} (x : BitVec n) (i : Nat) : Bool := x.getLsbD i

/-- `x` with the field of `len` bits at `lo` holding `v`. -/
def setFld {n : Nat} (x : BitVec n) (lo len v : Nat) : BitVec n :=
  let mask := BitVec.ofNat n ((2 ^ len - 1) <<< lo)
  (x &&& ~~~mask) ||| BitVec.ofNat n ((v % 2 ^ len) <<< lo)

/-- The number whose little-endian bytes are the list (R3). -/
def leNat : List Byte → Nat
  | [] => 0
  | b :: bs => b.toNat + 256 * leNat bs

/-- The low `k` bytes of `n`, least significant first (R3). -/
def leBytes : Nat → Nat → List Byte
  | 0, _ => []
  | k + 1, n => BitVec.ofNat 8 n :: leBytes k (n / 256)

/-- The number whose big-endian bytes are the list. -/
def beNat (bs : List Byte) : Nat := bs.foldl (fun a b => a * 256 + b.toNat) 0

/-- The low `k` bytes of `n`, most significant first. -/
def beBytes (k n : Nat) : List Byte := (leBytes k n).reverse

/-- The ASCII bytes of a string. -/
def asciiBytes (t : String) : List Byte := t.toList.map (fun c => BitVec.ofNat 8 c.toNat)

/-- Read `k` bytes at offset `o` of a list, zero beyond its end, as a little-endian number. -/
def leAt (bs : List Byte) (o k : Nat) : Nat := leNat ((bs.drop o).take k)

/-- `bs` cut or filled with zero bytes to length `k`. -/
def fitBytes (k : Nat) (bs : List Byte) : List Byte := bs.take k ++ List.replicate (k - bs.length) 0

/-- Zero padding to a multiple of `u` bytes. -/
def padTo (u : Nat) (bs : List Byte) : List Byte := bs ++ List.replicate ((u - bs.length % u) % u) 0

/-- `bs` cut into pieces of `u` bytes, `k` pieces at most. -/
def chunks {α : Type} (u : Nat) : Nat → List α → List (List α)
  | 0, _ => []
  | _ + 1, [] => []
  | k + 1, bs => bs.take u :: chunks u k (bs.drop u)

/-- `a` divided by `b`, rounded up. -/
def cdiv (a b : Nat) : Nat := (a + b - 1) / b

/-- A number as a signed number of `w` bits. -/
def signedOf (w n : Nat) : Int := if n % 2 ^ w < 2 ^ (w - 1) then (n % 2 ^ w : Nat) else (n % 2 ^ w : Nat) - (2 ^ w : Nat)

/-- The low `w` bits of an integer. -/
def intBits (w : Nat) (z : Int) : Nat := (z % (2 ^ w : Nat)).toNat

/-! ### Tables with rising keys -/

/-- The entry of key `k`. -/
def NMap.get? {α : Type} : NMap α → Nat → Option α
  | [], _ => none
  | (j, v) :: r, k => if j = k then some v else NMap.get? r k

/-- The entry of key `k`, or the table's empty entry. -/
def NMap.getD {α : Type} (m : NMap α) (k : Nat) (d : α) : α := (NMap.get? m k).getD d

/-- The table with key `k` holding `v`, keys rising. -/
def NMap.set {α : Type} : NMap α → Nat → α → NMap α
  | [], k, v => [(k, v)]
  | (j, w) :: r, k, v =>
    if k < j then (k, v) :: (j, w) :: r
    else if j = k then (k, v) :: r
    else (j, w) :: NMap.set r k v

/-- The table without key `k`. -/
def NMap.erase {α : Type} (m : NMap α) (k : Nat) : NMap α := m.filter (fun e => e.1 != k)

/-- The table with the entry of `k` changed by `f`, from `d` where it has none. -/
def NMap.upd {α : Type} (m : NMap α) (k : Nat) (d : α) (f : α → α) : NMap α := NMap.set m k (f (NMap.getD m k d))

/-- The keys, rising. -/
def NMap.keys {α : Type} (m : NMap α) : List Nat := m.map Prod.fst

/-- The entries, by rising key. -/
def NMap.vals {α : Type} (m : NMap α) : List α := m.map Prod.snd

/-- A list with its element `i` changed by `f`. -/
def updAt {α : Type} : List α → Nat → (α → α) → List α
  | [], _, _ => []
  | a :: r, 0, f => f a :: r
  | a :: r, i + 1, f => a :: updAt r i f

/-- Element `i`, or `d`. -/
def nth {α : Type} (l : List α) (i : Nat) (d : α) : α := (l[i]?).getD d

/-- The list without repeats, first occurrences kept. -/
def dedup {α : Type} [DecidableEq α] (l : List α) : List α :=
  l.foldl (fun a x => if a.contains x then a else a ++ [x]) []

/-- The stamps of `l` that lie within the `window` before `now`. -/
def recent (now window : Nat) (l : List Nat) : List Nat := l.filter (fun t => decide (now < t + window))

/-- Sum of a list of numbers. -/
def sumOf (l : List Nat) : Nat := l.foldl (· + ·) 0

end Sys2Proof.Machine
end

