-- ==== Sys2Proof/Machine/Hash.lean ====
section
/-! DEFINITION. SHA-512, HMAC and HKDF (R466, R467), the CRC-64 of R277 and R419, and the signature CRC of R274. -/

namespace Sys2Proof.Machine

/-- The round constants of SHA-512 (FIPS 180-4). -/
def shaK : List DWord :=
  [0x428a2f98d728ae22, 0x7137449123ef65cd, 0xb5c0fbcfec4d3b2f, 0xe9b5dba58189dbbc] ++
  [0x3956c25bf348b538, 0x59f111f1b605d019, 0x923f82a4af194f9b, 0xab1c5ed5da6d8118] ++
  [0xd807aa98a3030242, 0x12835b0145706fbe, 0x243185be4ee4b28c, 0x550c7dc3d5ffb4e2] ++
  [0x72be5d74f27b896f, 0x80deb1fe3b1696b1, 0x9bdc06a725c71235, 0xc19bf174cf692694] ++
  [0xe49b69c19ef14ad2, 0xefbe4786384f25e3, 0x0fc19dc68b8cd5b5, 0x240ca1cc77ac9c65] ++
  [0x2de92c6f592b0275, 0x4a7484aa6ea6e483, 0x5cb0a9dcbd41fbd4, 0x76f988da831153b5] ++
  [0x983e5152ee66dfab, 0xa831c66d2db43210, 0xb00327c898fb213f, 0xbf597fc7beef0ee4] ++
  [0xc6e00bf33da88fc2, 0xd5a79147930aa725, 0x06ca6351e003826f, 0x142929670a0e6e70] ++
  [0x27b70a8546d22ffc, 0x2e1b21385c26c926, 0x4d2c6dfc5ac42aed, 0x53380d139d95b3df] ++
  [0x650a73548baf63de, 0x766a0abb3c77b2a8, 0x81c2c92e47edaee6, 0x92722c851482353b] ++
  [0xa2bfe8a14cf10364, 0xa81a664bbc423001, 0xc24b8b70d0f89791, 0xc76c51a30654be30] ++
  [0xd192e819d6ef5218, 0xd69906245565a910, 0xf40e35855771202a, 0x106aa07032bbd1b8] ++
  [0x19a4c116b8d2d0c8, 0x1e376c085141ab53, 0x2748774cdf8eeb99, 0x34b0bcb5e19b48a8] ++
  [0x391c0cb3c5c95a63, 0x4ed8aa4ae3418acb, 0x5b9cca4f7763e373, 0x682e6ff3d6b2b8a3] ++
  [0x748f82ee5defb2fc, 0x78a5636f43172f60, 0x84c87814a1f0ab72, 0x8cc702081a6439ec] ++
  [0x90befffa23631e28, 0xa4506cebde82bde9, 0xbef9a3f7b2c67915, 0xc67178f2e372532b] ++
  [0xca273eceea26619c, 0xd186b8c721c0c207, 0xeada7dd6cde0eb1e, 0xf57d4f7fee6ed178] ++
  [0x06f067aa72176fba, 0x0a637dc5a2c898a6, 0x113f9804bef90dae, 0x1b710b35131c471b] ++
  [0x28db77f523047d84, 0x32caab7b40c72493, 0x3c9ebe0a15c9bebc, 0x431d67c49c100d4c] ++
  [0x4cc5d4becb3e42b6, 0x597f299cfc657e2a, 0x5fcb6fab3ad6faec, 0x6c44198c4a475817]

/-- The initial chaining words of SHA-512 (FIPS 180-4). -/
def shaH0 : List DWord :=
  [0x6a09e667f3bcc908, 0xbb67ae8584caa73b, 0x3c6ef372fe94f82b, 0xa54ff53a5f1d36f1, 0x510e527fade682d1, 0x9b05688c2b3e6c1f, 0x1f83d9abfb41bd6b, 0x5be0cd19137e2179]

/-- Rotate right. -/
def rotr (x : DWord) (k : Nat) : DWord := x.rotateRight k

/-- The next `k` schedule words after a window of 16. -/
def shaSchedule : Nat → List DWord → List DWord
  | 0, _ => []
  | k + 1, w =>
    let a := nth w 1 0
    let b := nth w 14 0
    let s0 := rotr a 1 ^^^ rotr a 8 ^^^ (a >>> 7)
    let s1 := rotr b 19 ^^^ rotr b 61 ^^^ (b >>> 6)
    let n := s1 + nth w 9 0 + s0 + nth w 0 0
    n :: shaSchedule k (w.drop 1 ++ [n])

/-- The eight working words. -/
structure Sha8 where
  a : DWord
  b : DWord
  c : DWord
  d : DWord
  e : DWord
  f : DWord
  g : DWord
  h : DWord

/-- One round with constant plus word `kw`. -/
def shaRound (s : Sha8) (kw : DWord) : Sha8 :=
  let s1 := rotr s.e 14 ^^^ rotr s.e 18 ^^^ rotr s.e 41
  let ch := (s.e &&& s.f) ^^^ (~~~s.e &&& s.g)
  let t1 := s.h + s1 + ch + kw
  let s0 := rotr s.a 28 ^^^ rotr s.a 34 ^^^ rotr s.a 39
  let mj := (s.a &&& s.b) ^^^ (s.a &&& s.c) ^^^ (s.b &&& s.c)
  ⟨t1 + (s0 + mj), s.a, s.b, s.c, s.d + t1, s.e, s.f, s.g⟩

/-- The chaining words after one 128-byte block. -/
def shaBlock (h : List DWord) (blk : List Byte) : List DWord :=
  let w := (chunks 8 16 blk).map (fun b => BitVec.ofNat 64 (beNat b))
  let ws := w ++ shaSchedule 64 w
  let s0 : Sha8 := ⟨nth h 0 0, nth h 1 0, nth h 2 0, nth h 3 0, nth h 4 0, nth h 5 0, nth h 6 0, nth h 7 0⟩
  let s := (List.zipWith (· + ·) shaK ws).foldl shaRound s0
  [s0.a + s.a, s0.b + s.b, s0.c + s.c, s0.d + s.d, s0.e + s.e, s0.f + s.f, s0.g + s.g, s0.h + s.h]

/-- A computation that has hashed nothing. -/
def ShaState.start : ShaState := { h := shaH0, buf := [], len := 0 }

/-- Absorb bytes: every whole block is hashed, the rest waits. -/
def ShaState.absorb (t : ShaState) (bs : List Byte) : ShaState :=
  let b := t.buf ++ bs
  let k := b.length / 128
  { h := (chunks 128 k b).foldl shaBlock (if t.h.isEmpty then shaH0 else t.h), buf := b.drop (128 * k), len := t.len + bs.length }

/-- The digest of what was absorbed. -/
def ShaState.digest (t : ShaState) : Digest :=
  let z := (111 + 128 - t.buf.length % 128) % 128
  let f := t.absorb ((0x80 : Byte) :: List.replicate z 0 ++ beBytes 16 (8 * t.len))
  BitVec.ofNat 512 (f.h.foldl (fun a w => a * 2 ^ 64 + w.toNat) 0)

/-- SHA-512 of a byte string. -/
def sha512 (bs : List Byte) : Digest := (ShaState.start.absorb bs).digest

/-- The 64 bytes of a digest, in the order of FIPS 180-4. -/
def digestBytes (d : Digest) : List Byte := beBytes 64 d.toNat

/-- The digest whose bytes are given. -/
def digestOf (bs : List Byte) : Digest := BitVec.ofNat 512 (beNat (fitBytes 64 bs))

/-- HMAC-SHA-512 (RFC 2104). -/
def hmac512 (key msg : List Byte) : List Byte :=
  let k := fitBytes 128 (if key.length > 128 then digestBytes (sha512 key) else key)
  let inner := digestBytes (sha512 (k.map (· ^^^ 0x36) ++ msg))
  digestBytes (sha512 (k.map (· ^^^ 0x5c) ++ inner))

/-- The blocks T(i), T(i+1), … of HKDF-Expand (RFC 5869). -/
def hkdfBlocks (prk info : List Byte) : Nat → Nat → List Byte → List Byte
  | 0, _, _ => []
  | n + 1, i, prev =>
    let t := hmac512 prk (prev ++ info ++ [BitVec.ofNat 8 i])
    t ++ hkdfBlocks prk info n (i + 1) t

/-- HKDF-SHA-512 with `len` bytes of output (RFC 5869). -/
def hkdf512 (ikm salt info : List Byte) (len : Nat) : List Byte :=
  (hkdfBlocks (hmac512 salt ikm) info (cdiv len 64) 1 []).take len

/-! ### CRC-64 (R277) -/

/-- Shift one bit out of the CRC register. -/
def crcBit (c : DWord) : DWord := if c.getLsbD 63 then (c <<< 1) ^^^ 0x42F0E1EBA9EA3693 else c <<< 1

/-- Absorb one byte, most significant bit first. -/
def crcByte (c : DWord) (b : Byte) : DWord :=
  crcBit (crcBit (crcBit (crcBit (crcBit (crcBit (crcBit (crcBit (c ^^^ ((b.setWidth 64) <<< 56)))))))))

/-- CRC-64 with initial value all ones, no reflection, final exclusive or with all ones (R277). -/
def crc64 (bs : List Byte) : DWord := bs.foldl crcByte (BitVec.allOnes 64) ^^^ BitVec.allOnes 64

end Sys2Proof.Machine
end

