-- ==== Sys2Proof/Machine/Codes.lean ====
section
/-! DEFINITION. The code values of Tables 16.7, 17.8 and 18.7. -/

namespace Sys2Proof.Machine

/-- Success (Table 16.7). -/
def cOk : Code := 0x0000
def cOpcodeUndefined : Code := 0x0101
def cContextMismatch : Code := 0x0102
def cDescReserved : Code := 0x0103
def cFieldAllOnes : Code := 0x0104
def cTensorCount : Code := 0x0105
def cStepMismatch : Code := 0x0106
def cStepNotOpen : Code := 0x0107
def cRoundingReserved : Code := 0x0108
def cPurposeReserved : Code := 0x0109
def cGridFloorRange : Code := 0x010A
def cFormatReserved : Code := 0x010B
def cTensorShape : Code := 0x010C
def cFormatNotAllowed : Code := 0x010D
def cArrayFormatPair : Code := 0x010E
def cArrayBlockAxis : Code := 0x010F
def cTurnerFormat : Code := 0x0110
def cWindowShape : Code := 0x0111
def cGridTermLimit : Code := 0x0112
def cQuantumRange : Code := 0x0113
def cKernelEncoding : Code := 0x0114
def cKernelLevel : Code := 0x0115
def cKernelSize : Code := 0x0116
def cKernelPort : Code := 0x0117
def cKernelIndexWidth : Code := 0x0118
def cKernelNotInLineage : Code := 0x0119
def cRegionInvalid : Code := 0x011A
def cRegionBounds : Code := 0x011B
def cRegionRights : Code := 0x011C
def cTensorOverlap : Code := 0x011D
def cScaleStateAbsent : Code := 0x011E
def cStackCapacity : Code := 0x011F
def cStackFrameMismatch : Code := 0x0120
def cStackEmpty : Code := 0x0121
def cStackStepFloor : Code := 0x0122
def cGridFloorMismatch : Code := 0x0123
def cXbExponentRange : Code := 0x0124
def cGatherNotShared : Code := 0x0125
def cSlotInvalid : Code := 0x0126
def cSlotForeign : Code := 0x0127
def cStreamOwner : Code := 0x0128
def cStreamHalted : Code := 0x0129
def cVectorIndexRange : Code := 0x0201
def cMemoryUncorrectable : Code := 0x0202
def cContextReset : Code := 0x0203
def cRankEvicted : Code := 0x0204
def cGroupInvalid : Code := 0x0301
def cGroupNotMember : Code := 0x0302
def cGroupSeqLimit : Code := 0x0303
def cGroupMismatch : Code := 0x0304
def cGroupAborted : Code := 0x0305
def cStepVoided : Code := 0x0306
def cPortLost : Code := 0x0307
def cExchangeDigest : Code := 0x0308
def cXbExponentMismatch : Code := 0x0309
def cSlotSpillCapacity : Code := 0x030A
def cQuantumCountLimit : Code := 0x0401
def cStepAlreadyOpen : Code := 0x0402
def cStepNumber : Code := 0x0403
def cStepDisagree : Code := 0x0404
def cStepNotOwner : Code := 0x0405
def cStepCheckFailed : Code := 0x0406
def cStepAlreadyCommitted : Code := 0x0407
def cContextInvalid : Code := 0x0501
def cContextState : Code := 0x0502
def cKeySlotEmpty : Code := 0x0503
def cRegionZeroing : Code := 0x0504
def cRegionOverlap : Code := 0x0505
def cStackReserve : Code := 0x0506
def cQueueInvalid : Code := 0x0507
def cRunNone : Code := 0x0508
def cRunNumericsLevel : Code := 0x0509
def cRunNoScaleSnapshot : Code := 0x050A
def cRunCheckpointDigest : Code := 0x050B
def cRunBeyondLineage : Code := 0x050C
def cRunNoCalibration : Code := 0x050D
def cRunHalted : Code := 0x050E
def cRunQuantumSize : Code := 0x050F
def cCompatCapacity : Code := 0x0510
def cCompatNoCheckpoint : Code := 0x0511
def cModuleDegraded : Code := 0x0512
def cNotReleased : Code := 0x0513
def cLcState : Code := 0x0514
def cLcServiceExhausted : Code := 0x0515
def cLcContextsOpen : Code := 0x0516
def cUnitState : Code := 0x0517
def cReplayInputMismatch : Code := 0x0801
def cReplayDiverged : Code := 0x0802
def cScaleAtLimit : Code := 0x0803
def cArrayChecksum : Code := 0x0901
def cTileEccUncorrectable : Code := 0x0902
def cLpddrEccUncorrectable : Code := 0x0903
def cDuplicateMismatch : Code := 0x0904
def cReplicaMismatch : Code := 0x0905
def cKatMismatch : Code := 0x0906
def cAttributionResult : Code := 0x0907
def cCoreStrike : Code := 0x0908
def cCoreRetired : Code := 0x0909
def cPartitionSparesExhausted : Code := 0x090A
def cHangSuspected : Code := 0x0A01
def cHangCleared : Code := 0x0A02
def cHangReproduced : Code := 0x0A03
def cHangAttributed : Code := 0x0A04
def cHangExternal : Code := 0x0A05
def cStagingTimeout : Code := 0x0A06
def cStackLost : Code := 0x0A07
def cUnitSilent : Code := 0x0A08
def cControlPeerSilent : Code := 0x0A09
def cSparePoolEmpty : Code := 0x0A0A
def cRankAdopted : Code := 0x0A0B
def cRecoveryDigest : Code := 0x0A0C
def cSpareNotArmed : Code := 0x0A0D
def cRecoveryTwinLost : Code := 0x0A0E
def cTwinMirrorIncomplete : Code := 0x0A0F
def cCrashDumpWritten : Code := 0x0A10
def cCrashDumpLost : Code := 0x0A11
def cFabricPortLost : Code := 0x0B01
def cFabricViolation : Code := 0x0B02
def cPortGuarded : Code := 0x0B03
def cDoorbellContext : Code := 0x0B04
def cDoorbellQueue : Code := 0x0B05
def cQueueOverrun : Code := 0x0B06
def cRingOverrun : Code := 0x0B07
def cClockAlignFailed : Code := 0x0C01
def cPllLockLost : Code := 0x0C02
def cFuseReadFailed : Code := 0x0C03
def cFuseRepairConflict : Code := 0x0C04
def cBootImageInvalid : Code := 0x0C05
def cImageFormat : Code := 0x0C06
def cImageSignature : Code := 0x0C07
def cImageRollback : Code := 0x0C08
def cBootSlotFallback : Code := 0x0C09
def cMemTrainFailed : Code := 0x0C0A
def cWipeFailed : Code := 0x0C0B
def cCoreShortfall : Code := 0x0C0C
def cPartitionNoSpare : Code := 0x0C0D
def cReleased : Code := 0x0C0E
def cLpddrTempLimit : Code := 0x0D01
def cThermalWarning : Code := 0x0D02
def cThermalLimit : Code := 0x0D03
def cPowerLimit : Code := 0x0D04
def cRailOutOfRange : Code := 0x0D05
def cRegulatorFault : Code := 0x0D06
def cPowerFailFlush : Code := 0x0D07
def cEventLogGap : Code := 0x0D08
def cFwSlotWritten : Code := 0x0D09
def cFieldViolation : Code := 0x0D0A
def cFieldGuarded : Code := 0x0D0B
def cFieldAddressConflict : Code := 0x0D0C
def cAuthFailed : Code := 0x0D0D
def cVigilSramUncorrectable : Code := 0x0D0E
def cQuantumSplit : Code := 0x0E01
def cFreezeGranule : Code := 0x0E02
def cTiedWeights : Code := 0x0E03
def cObjNoIndex : Code := 0x0F01
def cObjNoSubindex : Code := 0x0F02
def cObjReadOnly : Code := 0x0F03
def cObjWriteOnly : Code := 0x0F04
def cObjTypeLength : Code := 0x0F05
def cObjValueRange : Code := 0x0F06
def cObjPrivilege : Code := 0x0F07
def cObjState : Code := 0x0F08
def cProtoVersion : Code := 0x0F09
def cProtoOperation : Code := 0x0F0A
def cProtoHeader : Code := 0x0F0B
def cDomainSequence : Code := 0x0F0C
def cDomainSize : Code := 0x0F0D
def cDomainDigest : Code := 0x0F0E
def cDomainBusy : Code := 0x0F0F
def cDomainNoTransfer : Code := 0x0F10
def cAuthTokenInvalid : Code := 0x0F11
def cAuthNonce : Code := 0x0F12
def cBusy : Code := 0x0F13
def cFlashWriteFailed : Code := 0x0F14
def cHostViolation : Code := 0x0B40
def cHostPortLost : Code := 0x0B41
def cHostWindowInvalid : Code := 0x0B42
def cHostCompletionError : Code := 0x0B43
def cHostReadTimeout : Code := 0x0B44
def cHostPortUnavailable : Code := 0x0B45
def cTwinFound : Code := 0x0B46
def cTwinAbsent : Code := 0x0B47
def cTwinMismatch : Code := 0x0B48
def cTwinBridgeLost : Code := 0x0B49
def cTwinReserveFull : Code := 0x0B4A
def cTwinMirrorDigest : Code := 0x0B4B
def cRingNonempty : Code := 0x0B4C
def cStepRecordWritten : Code := 0x0B4D
def cKeySlotInUse : Code := 0x0D40
def cKeyRecordInvalid : Code := 0x0D41
def cFleetKeySet : Code := 0x0D42

end Sys2Proof.Machine
end

