-- ==== Sys2Proof/Machine/Formats.lean ====
section
/-! DEFINITION. Exact values, rounding (R70 to R72), draws (R73 to R75), and the number formats of file 02 (R34 to R58). -/

namespace Sys2Proof.Machine

/-! ### Exact values -/

/-- An exact value: NaN, an infinity, or (−1)^neg · m · 2^e with the sign of a zero kept (R40). -/
inductive Val where
  | nan
  | inf (neg : Bool)
  | fin (neg : Bool) (m : Nat) (e : Int)
deriving DecidableEq, Repr

/-- +0. -/
def Val.zero : Val := .fin false 0 0

/-- The value z · 2^e, with +0 for zero. -/
def Val.ofInt (z e : Int) : Val := .fin (decide (z < 0)) z.natAbs e

/-- Is it a finite value? -/
def Val.isFin : Val → Bool
  | .fin _ _ _ => true
  | _ => false

/-- Is it a NaN? -/
def Val.isNan : Val → Bool
  | .nan => true
  | _ => false

/-- Is it a zero of either sign? -/
def Val.isZero : Val → Bool
  | .fin _ 0 _ => true
  | _ => false

/-- Is the sign negative? NaN has none. -/
def Val.isNeg : Val → Bool
  | .nan => false
  | .inf n => n
  | .fin n _ _ => n

/-- The value with its sign changed. -/
def Val.neg : Val → Val
  | .nan => .nan
  | .inf n => .inf (!n)
  | .fin n m e => .fin (!n) m e

/-- The magnitude. -/
def Val.abs : Val → Val
  | .nan => .nan
  | .inf _ => .inf false
  | .fin _ m e => .fin false m e

/-- The signed significand of a finite value. -/
def sgnM (neg : Bool) (m : Nat) : Int := if neg then -(m : Int) else (m : Int)

/-- `m · 2^e` as a multiple of `2^u`, for `u ≤ e`. -/
def alignTo (z e u : Int) : Int := z * (2 : Int) ^ (e - u).toNat

/-- The exact product, with the non-finite cases of R66 (zero times infinity is NaN). -/
def Val.mul : Val → Val → Val
  | .nan, _ => .nan
  | _, .nan => .nan
  | .inf a, .inf b => .inf (a != b)
  | .inf a, .fin b m _ => if m = 0 then .nan else .inf (a != b)
  | .fin a m _, .inf b => if m = 0 then .nan else .inf (a != b)
  | .fin a m e, .fin b n f => .fin (a != b) (m * n) (e + f)

/-- The exact sum; opposite infinities give NaN; an exact zero of two values is +0 unless both are negative zeros. -/
def Val.add : Val → Val → Val
  | .nan, _ => .nan
  | _, .nan => .nan
  | .inf a, .inf b => if a = b then .inf a else .nan
  | .inf a, .fin _ _ _ => .inf a
  | .fin _ _ _, .inf b => .inf b
  | .fin a m e, .fin b n f =>
    let u := min e f
    let z := alignTo (sgnM a m) e u + alignTo (sgnM b n) f u
    if z = 0 then .fin (a && b && m = 0 && n = 0) 0 0 else .ofInt z u

/-- Scale by a power of two. -/
def Val.scale (v : Val) (k : Int) : Val :=
  match v with
  | .fin s m e => .fin s m (e + k)
  | v => v

/-- Exact comparison of finite values: is the first less? -/
def ltFin (a : Bool) (m : Nat) (e : Int) (b : Bool) (n : Nat) (f : Int) : Bool :=
  let u := min e f
  decide (alignTo (sgnM a m) e u < alignTo (sgnM b n) f u)

/-- Exact comparison of two values that are not NaN; a NaN compares false. -/
def Val.lt : Val → Val → Bool
  | .nan, _ => false
  | _, .nan => false
  | .inf a, .inf b => a && !b
  | .inf a, .fin _ _ _ => a
  | .fin _ _ _, .inf b => !b
  | .fin a m e, .fin b n f => ltFin a m e b n f

/-- Exact equality of values; zeros of either sign are equal; NaN is equal to nothing. -/
def Val.eqv (a b : Val) : Bool := !a.isNan && !b.isNan && !Val.lt a b && !Val.lt b a

/-- floor(log2 |v|) of a nonzero finite magnitude. -/
def exponOf (m : Nat) (e : Int) : Int := (Nat.log2 m : Int) + e

/-! ### Draws and rounding -/

/-- The high and low words of a 32-bit product. -/
def mulHiLo (a b : Nat) : Nat × Nat := ((a * b) / 2 ^ 32 % 2 ^ 32, (a * b) % 2 ^ 32)

/-- The four words of a Philox counter (R73). -/
structure Quad where
  a : Nat
  b : Nat
  c : Nat
  d : Nat
deriving DecidableEq, Repr

/-- One round of Philox (R73). -/
def philoxRound (c : Quad) (k0 k1 : Nat) : Quad :=
  let p := mulHiLo 0xd2511f53 c.a
  let q := mulHiLo 0xcd9e8d57 c.c
  ⟨(q.1 ^^^ c.b) ^^^ k0, q.2, (p.1 ^^^ c.d) ^^^ k1, p.2⟩

/-- `n` rounds of Philox, the key bumped after each (R73). -/
def philoxRounds : Nat → Quad → Nat → Nat → Quad
  | 0, c, _, _ => c
  | n + 1, c, k0, k1 => philoxRounds n (philoxRound c k0 k1) ((k0 + 0x9e3779b9) % 2 ^ 32) ((k1 + 0xbb67ae85) % 2 ^ 32)

/-- Philox-4x32-10 (R73). -/
def philox (c : Quad) (k0 k1 : Nat) : Quad := philoxRounds 10 c k0 k1

/-- What a rounding reads its draws with (R74, R75): the draw key, the purpose and the quantum; `sr` false is RNE. -/
structure Rnd where
  sr : Bool
  k0 : Nat
  k1 : Nat
  purpose : Nat
  quantum : Nat
deriving DecidableEq, Repr

/-- Round to nearest, ties to even. -/
def Rnd.rne : Rnd := ⟨false, 0, 0, 0, 0⟩

/-- The draw key of an output tensor in a step (R74). -/
def drawKey (seed tensorId step : Nat) : Nat × Nat :=
  let q := philox ⟨tensorId % 2 ^ 32, step % 2 ^ 32, step / 2 ^ 32 % 2 ^ 8, 0xFFFFFFFF⟩ (seed % 2 ^ 32) (seed / 2 ^ 32 % 2 ^ 32)
  (q.a, q.b)

/-- The rounding context of an output tensor (R70, R74, R75). -/
def Rnd.make (sr : Bool) (seed tensorId step purpose quantum : Nat) : Rnd :=
  let k := drawKey seed tensorId step
  ⟨sr, k.1, k.2, purpose, quantum⟩

/-- The draw of the element with linear index `i` (R75). -/
def Rnd.draw (r : Rnd) (i : Nat) : Nat :=
  let j := i / 4
  let q := philox ⟨j % 2 ^ 32, (j / 2 ^ 32 % 64) + 256 * r.purpose, r.quantum, 0⟩ r.k0 r.k1
  match i % 4 with
  | 0 => q.a
  | 1 => q.b
  | 2 => q.c
  | _ => q.d

/-- Round `lo + num / 2^k` to an integer (R71). -/
def roundFrac (r : Rnd) (i : Nat) (lo : Int) (num k : Nat) : Int :=
  if num = 0 then lo
  else if r.sr then
    if num * 2 ^ 32 / 2 ^ k > r.draw i then lo + 1 else lo
  else if 2 * num > 2 ^ k then lo + 1
  else if 2 * num < 2 ^ k then lo
  else if lo % 2 = 0 then lo else lo + 1

/-- Round the finite value ±m·2^e to a multiple of 2^u, as that multiple (R71). -/
def roundUnit (r : Rnd) (i : Nat) (neg : Bool) (m : Nat) (e u : Int) : Int :=
  if u ≤ e then alignTo (sgnM neg m) e u
  else
    let k := (u - e).toNat
    let z := sgnM neg m
    roundFrac r i (z / (2 : Int) ^ k) (z % (2 : Int) ^ k).toNat k

/-! ### Floating-point element formats (Table 2.2) -/

/-- A floating-point layout: widths, bias, the encoding of the largest finite magnitude, infinity and the canonical NaN. -/
structure FFmt where
  eb : Nat
  mb : Nat
  bias : Int
  maxCode : Nat
  inf : Option Nat
  nan : Option Nat
deriving DecidableEq, Repr

def ffB32 : FFmt := ⟨8, 23, 127, 0x7F7FFFFF, some 0x7F800000, some 0x7FC00000⟩
def ffB16 : FFmt := ⟨5, 10, 15, 0x7BFF, some 0x7C00, some 0x7E00⟩
def ffBf : FFmt := ⟨8, 7, 127, 0x7F7F, some 0x7F80, some 0x7FC0⟩
def ffE5M2 : FFmt := ⟨5, 2, 15, 0x7B, some 0x7C, some 0x7E⟩
def ffE4M3 : FFmt := ⟨4, 3, 7, 0x7E, none, some 0x7F⟩
def ffE3M2 : FFmt := ⟨3, 2, 3, 0x1F, none, none⟩
def ffE2M3 : FFmt := ⟨2, 3, 1, 0x1F, none, none⟩
def ffE2M1 : FFmt := ⟨2, 1, 1, 0x7, none, none⟩

/-- The value of an encoding (R38, R39). -/
def FFmt.decode (f : FFmt) (c : Nat) : Val :=
  let neg := c / 2 ^ (f.eb + f.mb) % 2 = 1
  let ex := c / 2 ^ f.mb % 2 ^ f.eb
  let fr := c % 2 ^ f.mb
  let mag := c % 2 ^ (f.eb + f.mb)
  if f.inf = some mag then .inf neg
  else if f.nan.isSome && decide (f.maxCode < mag) then .nan
  else if ex = 0 then .fin neg fr (1 - f.bias - f.mb)
  else .fin neg (2 ^ f.mb + fr) (ex - f.bias - f.mb)

/-- The encoding of ±n · 2^u, n up to 2^(mb+1), where `u` is the unit the value was rounded at. -/
def FFmt.pack (f : FFmt) (n : Nat) (u : Int) : Nat :=
  if n < 2 ^ f.mb then n
  else
    let ex := (u + f.mb + f.bias).toNat
    ex * 2 ^ f.mb + (n - 2 ^ f.mb)

/-- The unit at which a magnitude is rounded: the spacing at its binade, or the subnormal spacing. -/
def FFmt.unit (f : FFmt) (m : Nat) (e : Int) : Int := max (exponOf m e) (1 - f.bias) - f.mb

/-- Is the finite magnitude beyond the largest finite one? -/
def FFmt.beyond (f : FFmt) (m : Nat) (e : Int) : Bool :=
  match f.decode f.maxCode with
  | .fin _ n g => ltFin false n g false m e
  | _ => false

/-- The result of a conversion of one element: its encoding, whether it saturated or overflowed, whether its source was non-finite (R57). -/
structure Cvt where
  code : Nat
  sat : Bool := false
  nonfin : Bool := false
deriving DecidableEq, Repr

/-- Convert to a floating-point format with the overflow result `ovr` (R40, R71, R72). A finite source. -/
def FFmt.roundFin (f : FFmt) (ovr : Nat) (r : Rnd) (i : Nat) (neg : Bool) (m : Nat) (e : Int) : Cvt :=
  let sg := if neg then 2 ^ (f.eb + f.mb) else 0
  if m = 0 then { code := sg }
  else if r.sr && f.beyond m e then { code := sg + ovr, sat := true }
  else
    let u := f.unit m e
    let n := (roundUnit r i neg m e u).natAbs
    if f.beyond n u then { code := sg + ovr, sat := true }
    else { code := sg + f.pack n u }

/-- Convert to one of the plain floating-point formats (Table 2.6): beyond range, infinity where the format has one and `satInf` says so,
else the largest finite value; an infinity of a format without one becomes NaN. -/
def FFmt.convert (f : FFmt) (satInf : Bool) (r : Rnd) (i : Nat) (v : Val) : Cvt :=
  match v with
  | .nan => { code := f.nan.getD 0, nonfin := true }
  | .inf neg => match f.inf with
    | some c => { code := (if neg then 2 ^ (f.eb + f.mb) else 0) + c, nonfin := true }
    | none => { code := f.nan.getD 0, nonfin := true }
  | .fin neg m e =>
    let ovr := if satInf then f.inf.getD f.maxCode else f.maxCode
    f.roundFin ovr r i neg m e

/-- Convert to a `w`-bit integer, signed or not (Table 2.6, R72). The encoding is the low `w` bits. -/
def toInteger (w : Nat) (signed : Bool) (r : Rnd) (i : Nat) (v : Val) : Cvt :=
  let hi : Int := if signed then 2 ^ (w - 1) - 1 else 2 ^ w - 1
  let lo : Int := if signed then -2 ^ (w - 1) else 0
  match v with
  | .nan => { code := 0, nonfin := true }
  | .inf neg => { code := intBits w (if neg then lo else hi), sat := true, nonfin := true }
  | .fin neg m e =>
    let z := roundUnit r i neg m e 0
    if z > hi then { code := intBits w hi, sat := true }
    else if z < lo then { code := intBits w lo, sat := true }
    else { code := intBits w z }

/-! ### Format codes (Table 2.1) -/

def fmtB32 : Nat := 0x01
def fmtB16f : Nat := 0x02
def fmtBf : Nat := 0x03
def fmtE4M3 : Nat := 0x04
def fmtE5M2 : Nat := 0x05
def fmtMxE4M3 : Nat := 0x10
def fmtMxE5M2 : Nat := 0x11
def fmtMxE2M3 : Nat := 0x12
def fmtMxE3M2 : Nat := 0x13
def fmtMxE2M1 : Nat := 0x14
def fmtMxInt8 : Nat := 0x15
def fmtB16 : Nat := 0x20
def fmtXB16 : Nat := 0x21
def fmtXP40 : Nat := 0x22
def fmtG128 : Nat := 0x23
def fmtPair : Nat := 0x24
def fmtI32 : Nat := 0x30
def fmtU32 : Nat := 0x31
def fmtU8 : Nat := 0x32

/-- The listed codes (R34). -/
def fmtKnown (f : Nat) : Bool :=
  [0x01, 0x02, 0x03, 0x04, 0x05, 0x10, 0x11, 0x12, 0x13, 0x14, 0x15, 0x20, 0x21, 0x22, 0x23, 0x24, 0x30, 0x31, 0x32].contains f

/-- Is it an MX format? -/
def isMx (f : Nat) : Bool := 0x10 ≤ f && f ≤ 0x15

/-- Blocks of 32 along dimension 0 (R37). -/
def isBlock32 (f : Nat) : Bool := isMx f || f == fmtB16

/-- Blocks of 256 linear indices (R37). -/
def isXB (f : Nat) : Bool := f == fmtXB16 || f == fmtXP40

/-- Has the format a second plane: a block plane or a tail plane (R37)? -/
def hasPlane2 (f : Nat) : Bool := isBlock32 f || isXB f || f == fmtPair

/-- Is it an integer format? -/
def isIntFmt (f : Nat) : Bool := 0x30 ≤ f && f ≤ 0x32

/-- Array input formats (Table 2.1). -/
def isArrayIn (f : Nat) : Bool := f == 0x02 || f == 0x04 || f == 0x05 || isMx f || f == fmtB16

/-- Bits of an element in the element plane (Table 2.1); a pair's head has 16. -/
def elemBits (f : Nat) : Nat :=
  if f = fmtB32 || f = fmtI32 || f = fmtU32 then 32
  else if f = fmtB16f || f = fmtBf || f = fmtB16 || f = fmtXB16 || f = fmtPair then 16
  else if f = fmtXP40 then 40
  else if f = fmtG128 then 128
  else if f = fmtMxE2M3 || f = fmtMxE3M2 then 6
  else if f = fmtMxE2M1 then 4
  else 8

/-- The floating-point layout of an element, for formats that have one. -/
def ffOf (f : Nat) : Option FFmt :=
  if f = fmtB32 then some ffB32
  else if f = fmtB16f then some ffB16
  else if f = fmtBf then some ffBf
  else if f = fmtE4M3 || f = fmtMxE4M3 then some ffE4M3
  else if f = fmtE5M2 || f = fmtMxE5M2 then some ffE5M2
  else if f = fmtMxE2M3 then some ffE2M3
  else if f = fmtMxE3M2 then some ffE3M2
  else if f = fmtMxE2M1 then some ffE2M1
  else none

/-- The value of a head/tail pair (R53). -/
def pairVal (h t : Nat) : Val :=
  match ffBf.decode h with
  | .fin neg m e =>
    if m = 0 then .ofInt (signedOf 8 t) (-141)
    else
      let ex : Int := (h / 128 % 256 : Nat)
      let k : Int := if ex = 0 then -141 else ex - 142
      Val.add (.fin neg m e) (.ofInt (signedOf 8 t) k)
  | v => v

/-- The value of an element: its code and the entry of the second plane that belongs to it (scale, exponent, header or tail), with the grid
floor for G128 (R38, R41, R44, R46, R52, R53). -/
def elemVal (f : Nat) (code blk : Nat) (floor : Int) : Val :=
  if isMx f then
    if blk = 0xFF then .nan
    else if f = fmtMxInt8 then .ofInt (signedOf 8 code) ((blk : Int) - 127 - 6)
    else match ffOf f with
      | some ff => (ff.decode code).scale ((blk : Int) - 127)
      | none => .zero
  else if f = fmtB16 then
    if blk = 0xFF then .nan else .ofInt (signedOf 16 code) ((blk : Int) - 141)
  else if f = fmtXB16 then .ofInt (max (signedOf 16 code) (-32767)) (signedOf 16 blk)
  else if f = fmtXP40 then .ofInt (signedOf 40 code) (signedOf 16 blk)
  else if f = fmtG128 then
    if code = 2 ^ 127 then .nan else .ofInt (signedOf 128 code) floor
  else if f = fmtPair then pairVal code blk
  else if f = fmtI32 then .ofInt (signedOf 32 code) 0
  else if f = fmtU32 then .ofInt (code % 2 ^ 32 : Nat) 0
  else if f = fmtU8 then .ofInt (code % 256 : Nat) 0
  else match ffOf f with
    | some ff => ff.decode code
    | none => .zero

/-- Convert a value to a format without a second plane (Table 2.6). G128 and XP40 are no targets and give 0. -/
def cvtPlain (f : Nat) (r : Rnd) (i : Nat) (v : Val) : Cvt :=
  if f = fmtB32 then ffB32.convert true .rne i v
  else if f = fmtB16f then ffB16.convert true r i v
  else if f = fmtBf then ffBf.convert true r i v
  else if f = fmtE5M2 then ffE5M2.convert false r i v
  else if f = fmtE4M3 then ffE4M3.convert false r i v
  else if f = fmtI32 then toInteger 32 true r i v
  else if f = fmtU32 then toInteger 32 false r i v
  else if f = fmtU8 then toInteger 8 false r i v
  else { code := 0 }

/-! ### Block conversions -/

/-- A converted block: the entry of the second plane, the element codes, and the status of R57. -/
structure CvtBlk where
  blk : Nat
  codes : List Nat
  sat : Bool := false
  nonfin : Bool := false
deriving DecidableEq, Repr

/-- The greatest floor(log2 |v|) ovr the nonzero finite values, if there is one. -/
def maxExpon (vs : List Val) : Option Int :=
  vs.foldl (fun a v => match v with
    | .fin _ m e => if m = 0 then a else some (match a with | some x => max x (exponOf m e) | none => exponOf m e)
    | _ => a) none

/-- The unbiased exponent of the largest normal element value (R43). -/
def mxEmax (f : Nat) : Int :=
  if f = fmtMxE4M3 then 8 else if f = fmtMxE5M2 then 15 else if f = fmtMxE3M2 then 4
  else if f = fmtMxE2M3 then 2 else if f = fmtMxE2M1 then 2 else 0

/-- Round to a multiple of 2^u and saturate at ±lim of them, with the saturation (R48, R72: under SR a value beyond the limit is not
rounded but saturates). -/
def roundCap (lim : Nat) (r : Rnd) (i : Nat) (neg : Bool) (m : Nat) (e u : Int) : Int × Bool :=
  if r.sr && ltFin false lim u false m e then (sgnM neg lim, true)
  else
    let z := roundUnit r i neg m e u
    if z > lim then (lim, true) else if z < -(lim : Int) then (-(lim : Int), true) else (z, false)

/-- One MX element at scale byte `s` (R43). -/
def mxElem (f : Nat) (r : Rnd) (i s : Nat) (v : Val) : Cvt :=
  match v.scale (127 - (s : Int)) with
  | .fin neg m e =>
    if f = fmtMxInt8 then
      let z := roundCap 127 r i neg m e (-6)
      { code := intBits 8 z.1, sat := z.2 }
    else match ffOf f with
      | some ff => ff.roundFin ff.maxCode r i neg m e
      | none => { code := 0 }
  | _ => { code := 0 }

/-- The block's elements with their draw indices. -/
def indexed (is : List Nat) (vs : List Val) : List (Nat × Val) := is.zip vs

/-- `mx_quantise` (R43). `is` are the linear indices of the elements, `r` the rounding of each. -/
def mxQuantise (f : Nat) (r : Nat → Rnd) (is : List Nat) (vs : List Val) : CvtBlk :=
  if vs.any (fun v => !v.isFin) then { blk := 0xFF, codes := vs.map (fun _ => 0), nonfin := true }
  else match maxExpon vs with
    | none => { blk := 0, codes := vs.map (fun _ => 0) }
    | some x =>
      let s := (min (max (x - mxEmax f + 127) 0) 254).toNat
      let cs := (indexed is vs).map (fun p => mxElem f (r p.1) p.1 s p.2)
      { blk := s, codes := cs.map (·.code), sat := cs.any (·.sat) }

/-- One B16 element at block exponent `x`, always RNE (R45). -/
def b16Elem (x : Nat) (v : Val) : Cvt :=
  match v with
  | .fin neg m e =>
    let z := roundCap 32767 Rnd.rne 0 neg m e ((x : Int) - 141)
    { code := intBits 16 z.1, sat := z.2 }
  | _ => { code := 0 }

/-- `b16_from` (R45). -/
def b16From (vs : List Val) : CvtBlk :=
  if vs.any (fun v => !v.isFin) then { blk := 0xFF, codes := vs.map (fun _ => 0), nonfin := true }
  else match maxExpon vs with
    | none => { blk := 0, codes := vs.map (fun _ => 0) }
    | some x =>
      let b := (min (max (x + 127) 0) 254).toNat
      let cs := vs.map (b16Elem b)
      { blk := b, codes := cs.map (·.code), sat := cs.any (·.sat) }

/-- A block header of XB16 or XP40 (Table 2.5). -/
def xbHeader (exp : Int) (ovf nf : Bool) (tally : Nat) : Nat :=
  intBits 16 exp + (if ovf then 2 ^ 16 else 0) + (if nf then 2 ^ 17 else 0) + tally * 2 ^ 32

def xbExp (h : Nat) : Int := signedOf 16 h
def xbOvf (h : Nat) : Bool := bitsOf h 16 1 = 1
def xbNf (h : Nat) : Bool := bitsOf h 17 1 = 1
def xbTally (h : Nat) : Nat := bitsOf h 32 32

/-- A header as the device reads and writes it: the reserved bits are zero (R46). -/
def xbClean (h : Nat) : Nat := h % 2 ^ 18 + xbTally h * 2 ^ 32

/-- Is the exponent in the range of R47? -/
def xbExpOk (x : Int) : Bool := -149 ≤ x && x ≤ 88

/-- One XB16 element: its integer, whether it saturated, whether its source was non-finite (R48). -/
def xb16Elem (exp : Int) (r : Rnd) (i : Nat) (v : Val) : Int × Bool × Bool :=
  match v with
  | .fin neg m e =>
    let z := roundCap 32767 r i neg m e exp
    (z.1, z.2, false)
  | _ => (0, false, true)

/-- `xb16_from` (R48). The second-plane entry is the whole header. -/
def xb16From (exp : Int) (r : Rnd) (is : List Nat) (vs : List Val) : CvtBlk :=
  let es := (indexed is vs).map (fun p => xb16Elem exp r p.1 p.2)
  let ovf := es.any (·.2.1)
  let nf := es.any (·.2.2)
  { blk := xbHeader exp ovf nf (es.filter (·.2.1)).length, codes := es.map (fun e => intBits 16 e.1), sat := ovf, nonfin := nf }

/-- Form a head/tail pair (R54; Table 2.6 for the non-finite sources): head, tail, status. -/
def pairFrom (r : Rnd) (i : Nat) (v : Val) : Nat × Nat × Bool × Bool :=
  match v with
  | .fin neg m e =>
    let h : Cvt := ffBf.roundFin ffBf.maxCode Rnd.rne i neg m e
    let hd := if h.code % 2 ^ 15 = 0 then 0 else h.code
    let ex : Int := (hd / 128 % 256 : Nat)
    let k : Int := if ex = 0 then -141 else ex - 142
    let t : Int := match Val.add (.fin neg m e) (ffBf.decode hd).neg with
      | .fin n q g => roundUnit r i n q g k
      | _ => 0
    (hd, intBits 8 (min (max t (-128)) 127), h.sat, false)
  | _ => (0x7FC0, 0, false, true)

/-! ### The grid (file 03) -/

/-- A grid sum under way: the integer, the counts of R68 and the non-finite state of R66. -/
structure GridSum where
  n : Int := 0
  flushed : Nat := 0
  clamped : Nat := 0
  nonfinite : Bool := false
deriving DecidableEq, Repr

/-- Place one term (R65, R66). -/
def GridSum.place (g : Int) (a : GridSum) (v : Val) : GridSum :=
  match v with
  | .fin neg m e =>
    if m = 0 then a
    else
      let q : Nat := if g ≤ e then m * 2 ^ (e - g).toNat else m / 2 ^ (g - e).toNat
      if q > 2 ^ 103 - 1 then { a with n := a.n + sgnM neg (2 ^ 103 - 1), clamped := a.clamped + 1 }
      else
        let exact := if g ≤ e then true else m % 2 ^ (g - e).toNat == 0
        { a with n := a.n + sgnM neg q, flushed := if exact then a.flushed else a.flushed + 1 }
  | _ => { a with nonfinite := true }

/-- The grid sum of a list of terms at floor `g` (R59). -/
def gridSum (g : Int) (ts : List Val) : GridSum := ts.foldl (GridSum.place g) {}

/-- The derived floor of a sum (R64). -/
def derivedFloor (ts : List Val) : Int :=
  match maxExpon ts with
  | none => 0
  | some x => max (x + 1 - 103) (-448)

/-- The exact value of a finished grid sum (R69). -/
def GridSum.val (a : GridSum) (g : Int) : Val := if a.nonfinite then .nan else .ofInt a.n g

/-- The G128 encoding of a finished grid sum (R52, R66). -/
def GridSum.g128 (a : GridSum) : Nat := if a.nonfinite then 2 ^ 127 else intBits 128 a.n

/-- Two partial sums together. -/
def GridSum.join (a b : GridSum) : GridSum :=
  ⟨a.n + b.n, a.flushed + b.flushed, a.clamped + b.clamped, a.nonfinite || b.nonfinite⟩

end Sys2Proof.Machine
end

