-- ==== Sys2Proof/Machine/Mem.lean ====
section
/-! DEFINITION. LPDDR5X contents (file 07): lines of 256 bytes under keys (R154, R168, R169), uncorrectable lines (R157), canonical form. -/

namespace Sys2Proof.Machine

/-- First address past the LPDDR5X (Table 7.1). -/
def lpddrEnd : Nat := 0x00BA00000000
/-- First address of the device system area (Table 7.1). -/
def sysBase : Nat := 0x00B980000000
/-- First address of the host memory windows (Table 7.1). -/
def hostBase : Nat := 0x800000000000
/-- First address of tile memory (Table 7.1). -/
def tileBase : Nat := 0x010000000000
/-- A granule (R162). -/
def granule : Nat := 0x200000

/-- Key bits as the free values take them. -/
def KeyId.bits : KeyId → Option (BitVec 512)
  | .slot0 => none
  | .key k => some k

/-- Look an address up in a rising list of cells. -/
def cellGet : List Host.Cell → Nat → Option Byte
  | [], _ => none
  | (b, v) :: r, a => if b = a then some v else if a < b then none else cellGet r a

/-- The list with address `a` holding `v`, addresses rising. -/
def cellPut : List Host.Cell → Nat → Byte → List Host.Cell
  | [], a, v => [(a, v)]
  | (b, w) :: r, a, v =>
    if a < b then (a, v) :: (b, w) :: r
    else if b = a then (a, v) :: r
    else (b, w) :: cellPut r a v

/-- The list without address `a`. -/
def cellDel (l : List Host.Cell) (a : Nat) : List Host.Cell := l.filter (fun c => c.1 != a)

/-- The tag of a line, if it is not under slot 0 as WIPE left it. -/
def Mem.tagOf (m : Mem) (line : Nat) : Option LineTag := m.tags.find? (fun t => t.line == line)

/-- The key a line was last written under (R168, R169). -/
def Mem.keyOf (m : Mem) (line : Nat) : KeyId := match m.tagOf line with
  | some t => t.key
  | none => .slot0

/-- The listed bytes of a line. -/
def Mem.lineCells (m : Mem) (line : Nat) : List Host.Cell := m.cells.filter (fun c => c.1 / 256 == line)

/-- What an unlisted address of a line reads as under the line's own key: 0 in a line that WIPE or zeroing wrote (R167, R408), a free value
in a line first written under its key by a partial write (log entry 10). -/
def Mem.unlisted (m : Mem) (a : Nat) : Byte := match m.tagOf (a / 256) with
  | some t => Config.unpredictableByte t.epoch a t.key.bits
  | none => 0

/-- Read one byte under a key (R157, R168). -/
def Mem.read (m : Mem) (k : KeyId) (a : Nat) : Byte :=
  if m.bad.contains (a / 256) then 0
  else if m.keyOf (a / 256) = k then (cellGet m.cells a).getD (m.unlisted a)
  else match m.tagOf (a / 256) with
    | some t => Config.foreignByte t.epoch (m.lineCells (a / 256)) t.key.bits k.bits a
    | none => Config.foreignByte 0 (m.lineCells (a / 256)) none k.bits a

/-- Insert a tag by rising line. -/
def tagPut : List LineTag → LineTag → List LineTag
  | [], t => [t]
  | u :: r, t => if t.line < u.line then t :: u :: r else if u.line = t.line then t :: r else u :: tagPut r t

/-- Bring a line under key `k`: where it was under another, its old bytes are lost and the ones not written anew are free (R168). -/
def Mem.take (m : Mem) (k : KeyId) (ep line : Nat) : Mem :=
  if m.keyOf line = k then m
  else { m with cells := m.cells.filter (fun c => c.1 / 256 != line), tags := tagPut m.tags ⟨line, k, ep⟩ }

/-- Store one byte into a line that is under the writer's key: in a line without a tag a zero byte is not listed. -/
def Mem.put (m : Mem) (a : Nat) (v : Byte) : Mem :=
  if v = 0 && (m.tagOf (a / 256)).isNone then { m with cells := cellDel m.cells a }
  else { m with cells := cellPut m.cells a v }

/-- Write one byte under a key. -/
def Mem.writeByte (k : KeyId) (ep : Nat) (m : Mem) (c : Host.Cell) : Mem := (m.take k ep (c.1 / 256)).put c.1 c.2

/-- The lines of a range that a write covers whole. -/
def wholeLines (a len : Nat) : List Nat :=
  let f := cdiv a 256
  let l := (a + len) / 256
  (List.range (l - f)).map (· + f)

/-- The lines a range touches. -/
def linesOf (a len : Nat) : List Nat :=
  if len = 0 then [] else (List.range ((a + len - 1) / 256 + 1 - a / 256)).map (· + a / 256)

/-- Write a range of bytes under a key. A whole-line write replaces an uncorrectable line; a partial write of one writes nothing (R157). -/
def Mem.write (m : Mem) (k : KeyId) (ep a : Nat) (bs : List Byte) : Mem :=
  let whole := wholeLines a bs.length
  let m := { m with bad := m.bad.filter (fun l => !whole.contains l) }
  let cs := ((List.range bs.length).map (· + a)).zip bs
  (cs.filter (fun c => !m.bad.contains (c.1 / 256))).foldl (Mem.writeByte k ep) m

/-- The bytes of a range whose lines are now uncorrectable. -/
def Mem.badIn (m : Mem) (a len : Nat) : List Nat := (linesOf a len).filter m.bad.contains

/-- Read a range. -/
def Mem.readRange (m : Mem) (k : KeyId) (a len : Nat) : List Byte := (List.range len).map (fun i => m.read k (a + i))

/-- Write a line of zeros under slot 0: what WIPE and background zeroing do (R167). -/
def Mem.zeroLine (m : Mem) (line : Nat) : Mem :=
  { cells := m.cells.filter (fun c => c.1 / 256 != line), tags := m.tags.filter (fun t => t.line != line), bad := m.bad.filter (· != line) }

/-- Make every byte of a range unknown (an undefined output, R149, R499): its lines come under `k` with a new epoch, and bytes of the
partial lines at its ends that were known stay. -/
def Mem.forget (m : Mem) (k : KeyId) (ep a len : Nat) : Mem :=
  (linesOf a len).foldl (fun m line =>
    let keep := if m.keyOf line = k then
        (((List.range 256).map (· + 256 * line)).filter (fun b => b < a || a + len ≤ b)).map (fun b => (b, m.read k b)) else []
    let m := { m with cells := m.cells.filter (fun c => c.1 / 256 != line), tags := tagPut m.tags ⟨line, k, ep⟩ }
    { m with cells := keep.foldl (fun cs c => cellPut cs c.1 c.2) m.cells }) m

/-- A list of numbers strictly rises. -/
def rising : List Nat → Bool
  | [] => true
  | [_] => true
  | a :: b :: r => decide (a < b) && rising (b :: r)

/-- The canonical form: addresses, tag lines and uncorrectable lines strictly rise, and no entry of a line without a tag is zero, which is
what an unlisted address of such a line reads as. -/
def Mem.wf (m : Mem) : Bool :=
  rising (m.cells.map Prod.fst) && rising (m.tags.map LineTag.line) && rising m.bad &&
  m.cells.all (fun c => c.2 != 0 || (m.tagOf (c.1 / 256)).isSome)

/-- Mark a line uncorrectable. -/
def insertRising : List Nat → Nat → List Nat
  | [], a => [a]
  | b :: r, a => if a < b then a :: b :: r else if a = b then b :: r else b :: insertRising r a

def Mem.markBad (m : Mem) (line : Nat) : Mem := { m with bad := insertRising m.bad line }

/-! ### The line's code (R154) -/

/-- What the decoder finds: one wrong symbol is corrected, two or three are detected; of more the rule promises nothing (free value, log entry 10). -/
def lineFind (line : Nat) (symbols : List Nat) : ScrubFind := match (dedup symbols).length with
  | 0 => .clean
  | 1 => .corrected
  | 2 | 3 => .uncorrectable
  | _ => if Config.farErrorSeen line symbols then .uncorrectable else .corrected

/-- Errors that the decoder takes for others: what it delivers and writes back is then no longer what was written. -/
def lineLost (line : Nat) (symbols : List Nat) : Bool := decide (3 < (dedup symbols).length) && !Config.farErrorSeen line symbols

/-- The contents of a line are lost under its key. -/
def Mem.lose (m : Mem) (ep line : Nat) : Mem := m.forget (m.keyOf line) ep (256 * line) 256

/-- The controller of a line's address (R158). -/
def ctrlOf (a : Nat) : Nat := (bitsOf a 8 3 ^^^ bitsOf a 11 3) ^^^ bitsOf a 14 3

/-- The index of an address's line among its controller's lines (R158): every 2 KiB holds one line of each controller. -/
def ctrlLine (a : Nat) : Nat := a / 2048

/-- The channel of a line within its controller (R158). -/
def channelOf (a : Nat) : Nat := ctrlLine a % 8

end Sys2Proof.Machine

namespace Sys2Proof

/-- The uncorrectable lines among those an operator meets, those corrected, and those whose contents are lost (R154, R157). -/
def OpEnv.lineFaults (env : OpEnv) : List Nat := (env.lineErrors.filter (fun x => Machine.lineFind x.line x.symbols == .uncorrectable)).map LineError.line
def OpEnv.lineFixed (env : OpEnv) : List Nat := (env.lineErrors.filter (fun x => Machine.lineFind x.line x.symbols == .corrected)).map LineError.line

end Sys2Proof
end

