-- ==== Sys2Proof/Machine/Desc.lean ====
section
/-! DEFINITION. Fields of the operator descriptor (Table 8.1), the tensor descriptor (Table 8.2) and the region entry (Table 7.5), and
where a tensor's elements and block entries lie (R36, R37, R42, R188). -/

namespace Sys2Proof.Machine

/-! ### Operator descriptor -/

abbrev OpDesc := BitVec 1024
abbrev TDesc := BitVec 512

def OpDesc.opcode (d : OpDesc) : Nat := fld d 0 16
def OpDesc.gather (d : OpDesc) : Bool := flag d 16
def OpDesc.rowMask (d : OpDesc) : Bool := flag d 17
def OpDesc.cflags (d : OpDesc) : Nat := fld d 24 8
def OpDesc.context (d : OpDesc) : Nat := fld d 32 20
def OpDesc.stream (d : OpDesc) : Nat := fld d 64 18
def OpDesc.step (d : OpDesc) : Nat := fld d 96 40
def OpDesc.purpose (d : OpDesc) : Nat := fld d 136 8
def OpDesc.floorRaw (d : OpDesc) : Nat := fld d 144 16
def OpDesc.floor (d : OpDesc) : Int := signedOf 16 (fld d 144 16)
def OpDesc.rounding (d : OpDesc) : Nat := fld d 160 4
def OpDesc.nIn (d : OpDesc) : Nat := fld d 168 4
def OpDesc.nOut (d : OpDesc) : Nat := fld d 172 3
def OpDesc.quantum (d : OpDesc) : Nat := fld d 192 32
def OpDesc.opSeq (d : OpDesc) : BitVec 32 := BitVec.ofNat 32 (fld d 224 32)
def OpDesc.tlRegion (d : OpDesc) : Nat := fld d 256 6
def OpDesc.tlOffset (d : OpDesc) : Nat := fld d 272 48
def OpDesc.kimgRegion (d : OpDesc) : Nat := fld d 320 6
def OpDesc.kimgOffset (d : OpDesc) : Nat := fld d 336 48
def OpDesc.nElem (d : OpDesc) : Nat := fld d 384 40
def OpDesc.userTag (d : OpDesc) : BitVec 64 := BitVec.ofNat 64 (fld d 448 64)
def OpDesc.arg (d : OpDesc) (j : Nat) : Nat := fld d (512 + 32 * j) 32
/-- The opcode class. -/
def OpDesc.cls (d : OpDesc) : Nat := d.opcode / 256
/-- The `step` of an operator outside any step (Table 8.1). -/
def noStep : Nat := 0xFFFFFFFFFF
/-- The `quantum` of none (Table 8.1). -/
def noQuantum : Nat := 0xFFFFFFFF
/-- The grid-floor code that asks for a derived floor (R60). -/
def derivedCode : Nat := 0x8000

/-! ### Tensor descriptor -/

def TDesc.tid (t : TDesc) : Nat := fld t 0 32
def TDesc.fmt (t : TDesc) : Nat := fld t 32 8
def TDesc.dim (t : TDesc) (i : Nat) : Nat := fld t (64 + 32 * i) 32
def TDesc.dims (t : TDesc) : List Nat := (List.range 6).map t.dim
def TDesc.eReg (t : TDesc) : Nat := fld t 256 6
def TDesc.eOff (t : TDesc) : Nat := fld t 272 48
def TDesc.bReg (t : TDesc) : Nat := fld t 320 6
def TDesc.bOff (t : TDesc) : Nat := fld t 336 48
def TDesc.xReg (t : TDesc) : Nat := fld t 384 6
def TDesc.xOff (t : TDesc) : Nat := fld t 400 48
def TDesc.pitch1 (t : TDesc) : Nat := fld t 448 32
def TDesc.pitch2 (t : TDesc) : Nat := fld t 480 32

/-- Product of a list of numbers. -/
def prodOf (l : List Nat) : Nat := l.foldl (· * ·) 1

/-- The number of elements. -/
def TDesc.count (t : TDesc) : Nat := prodOf t.dims
/-- The number of rows of dimension 0. -/
def TDesc.rows (t : TDesc) : Nat := prodOf (t.dims.drop 1)
/-- The element slots of a row: padded to whole blocks for MX and B16 (R37). -/
def TDesc.slots (t : TDesc) : Nat := if isBlock32 t.fmt then cdiv (t.dim 0) 32 * 32 else t.dim 0
/-- The dense row length in bytes (R188). -/
def TDesc.rowBytes (t : TDesc) : Nat := cdiv (t.slots * elemBits t.fmt) 8
/-- The distance of rows along dimension 1. -/
def TDesc.stride1 (t : TDesc) : Nat := if t.pitch1 = 0 then t.rowBytes else 16 * t.pitch1
/-- The distance along dimension 2. -/
def TDesc.stride2 (t : TDesc) : Nat := if t.pitch2 = 0 then t.dim 1 * t.stride1 else 16 * t.pitch2
/-- Is the element plane dense? -/
def TDesc.dense (t : TDesc) : Bool := t.pitch1 == 0 && t.pitch2 == 0

/-- The byte offset of row `r` within the element plane. -/
def TDesc.rowOff (t : TDesc) (r : Nat) : Nat := r % t.dim 1 * t.stride1 + r / t.dim 1 * t.stride2

/-- The length of the element plane in bytes, from its first byte to its last; a dense XB16 or XP40 plane holds its last block whole. -/
def TDesc.planeBytes (t : TDesc) : Nat :=
  if t.count = 0 then 0
  else if isXB t.fmt && t.dense then cdiv t.count 256 * 256 * (elemBits t.fmt / 8)
  else t.rowOff (t.rows - 1) + t.rowBytes

/-- The number of blocks. -/
def TDesc.blocks (t : TDesc) : Nat :=
  if isBlock32 t.fmt then cdiv (t.dim 0) 32 * t.rows else if isXB t.fmt then cdiv t.count 256 else 0

/-- The length of the block plane (tails for a pair; the 16-byte record header of a scale-state tensor when `scale`). -/
def TDesc.blockBytes (t : TDesc) (scale : Bool) : Nat :=
  if isBlock32 t.fmt then t.blocks
  else if isXB t.fmt then 8 * t.blocks
  else if t.fmt = fmtPair then t.count
  else if scale then 16 else 0

/-- The length of the auxiliary plane: one 2-byte observation per block (R84, R187). -/
def TDesc.auxBytes (t : TDesc) : Nat := if isXB t.fmt then 2 * t.blocks else 0

/-- Which block an element belongs to. -/
def TDesc.blockOf (t : TDesc) (i : Nat) : Nat :=
  if isBlock32 t.fmt then i / t.dim 0 * cdiv (t.dim 0) 32 + i % t.dim 0 / 32 else i / 256

/-- The bit offset of element `i` within the element plane. -/
def TDesc.elemBit (t : TDesc) (i : Nat) : Nat := 8 * t.rowOff (i / t.dim 0) + i % t.dim 0 * elemBits t.fmt

/-! ### Region entries -/

abbrev RegionE := BitVec 128
def RegionE.base (r : RegionE) : Nat := fld r 0 48
def RegionE.kslot (r : RegionE) : Nat := fld r 48 12
def RegionE.ownKey (r : RegionE) : Bool := flag r 60
def RegionE.size (r : RegionE) : Nat := fld r 64 48
def RegionE.r (r : RegionE) : Bool := flag r 112
def RegionE.w (r : RegionE) : Bool := flag r 113
def RegionE.x (r : RegionE) : Bool := flag r 114
def RegionE.stk (r : RegionE) : Bool := flag r 115
def RegionE.valid (r : RegionE) : Bool := flag r 116

/-! ### Reading and forming planes -/

/-- A plane reader: region, byte offset → byte. -/
abbrev Rd := Nat → Nat → Byte

/-- `k` bytes of a plane as a number. -/
def rdLe (rd : Rd) (reg off k : Nat) : Nat := leNat ((List.range k).map (fun j => rd reg (off + j)))

/-- The code of element `i`. -/
def TDesc.code (t : TDesc) (rd : Rd) (i : Nat) : Nat :=
  let b := t.elemBit i
  let w := elemBits t.fmt
  bitsOf (rdLe rd t.eReg (t.eOff + b / 8) (cdiv (b % 8 + w) 8)) (b % 8) w

/-- The second-plane entry that belongs to element `i`. -/
def TDesc.entry (t : TDesc) (rd : Rd) (i : Nat) : Nat :=
  if isBlock32 t.fmt then rdLe rd t.bReg (t.bOff + t.blockOf i) 1
  else if isXB t.fmt then rdLe rd t.bReg (t.bOff + 8 * t.blockOf i) 8
  else if t.fmt = fmtPair then rdLe rd t.bReg (t.bOff + i) 1
  else 0

/-- The exact value of element `i`, at grid floor `g` for a G128 tensor. -/
def TDesc.val (t : TDesc) (rd : Rd) (g : Int) (i : Nat) : Val := elemVal t.fmt (t.code rd i) (t.entry rd i) g

/-- The values of all elements by linear index. -/
def TDesc.vals (t : TDesc) (rd : Rd) (g : Int) : List Val := (List.range t.count).map (t.val rd g)

/-- The header of block `b` of an XB16 or XP40 tensor. -/
def TDesc.header (t : TDesc) (rd : Rd) (b : Nat) : Nat := rdLe rd t.bReg (t.bOff + 8 * b) 8

/-- Is block `b` of an XB16 or XP40 tensor marked `ovf`: by its header, or by an XB16 element of −32,768, which reads as −32,767 with `ovf` set (R48)? -/
def TDesc.blockOvf (t : TDesc) (rd : Rd) (b : Nat) : Bool :=
  xbOvf (t.header rd b) ||
  (t.fmt == fmtXB16 && (List.range (min 256 (t.count - 256 * b))).any (fun j => t.code rd (256 * b + j) == 0x8000))

/-- One write to a plane: region, byte offset, bytes. -/
structure PlaneW where
  reg : Nat
  off : Nat
  bytes : List Byte
deriving DecidableEq, Repr

/-- Pack codes of `w` bits into bytes, element 0 in the lowest bits (R42). -/
def packCodes (w : Nat) (cs : List Nat) : List Byte :=
  if w % 8 = 0 then (cs.map (leBytes (w / 8))).flatten
  else
    -- 4- and 6-bit codes: whole bytes every two or four elements
    let per := if w = 4 then 2 else 4
    ((chunks per (cdiv cs.length per) cs).map (fun g =>
      leBytes (w * per / 8) ((g.zip (List.range per)).foldl (fun a p => a + p.1 * 2 ^ (w * p.2)) 0))).flatten

/-- The element codes of row `r`, filled with encoding 0 to the row's slots. -/
def rowCodes (t : TDesc) (cs : List Nat) (r : Nat) : List Nat :=
  let row := (cs.drop (r * t.dim 0)).take (t.dim 0)
  row ++ List.replicate (t.slots - row.length) 0

/-- The writes of an element plane from codes by linear index; a dense XB plane is filled to whole blocks (R37). -/
def TDesc.elemWrites (t : TDesc) (cs : List Nat) : List PlaneW :=
  if isXB t.fmt && t.dense then
    [⟨t.eReg, t.eOff, packCodes (elemBits t.fmt) (cs ++ List.replicate (cdiv t.count 256 * 256 - t.count) 0)⟩]
  else if t.dense then [⟨t.eReg, t.eOff, ((List.range t.rows).map (fun r => packCodes (elemBits t.fmt) (rowCodes t cs r))).flatten⟩]
  else (List.range t.rows).map (fun r => ⟨t.eReg, t.eOff + t.rowOff r, packCodes (elemBits t.fmt) (rowCodes t cs r)⟩)

/-- The writes of the second plane from its entries in order. -/
def TDesc.entryWrites (t : TDesc) (es : List Nat) : List PlaneW :=
  if isXB t.fmt then [⟨t.bReg, t.bOff, (es.map (leBytes 8)).flatten⟩]
  else if isBlock32 t.fmt || t.fmt = fmtPair then [⟨t.bReg, t.bOff, (es.map (leBytes 1)).flatten⟩]
  else []

/-- The writes of the auxiliary plane (R84). -/
def TDesc.auxWrites (t : TDesc) (os : List Nat) : List PlaneW :=
  if isXB t.fmt then [⟨t.xReg, t.xOff, (os.map (leBytes 2)).flatten⟩] else []

/-- An encoded tensor: codes by linear index, second-plane entries, the status bits of R57. -/
structure Enc where
  codes : List Nat
  entries : List Nat
  sat : Bool
  nonfin : Bool
deriving DecidableEq, Repr

/-- Encode values by linear index to blocks of 32, each element under a rounding of its own (R43, R45). -/
def encodeBlocks (t : TDesc) (r : Nat → Rnd) (vs : List Val) : Enc :=
  let nb := cdiv (t.dim 0) 32
  let blks := (List.range t.rows).map (fun row => (List.range nb).map (fun b =>
    let i0 := row * t.dim 0 + 32 * b
    let k := min 32 (t.dim 0 - 32 * b)
    let is := (List.range k).map (· + i0)
    let bv := (vs.drop i0).take k
    if t.fmt = fmtB16 then b16From bv else mxQuantise t.fmt r is bv))
  let fl := blks.flatten
  ⟨(fl.map (·.codes)).flatten, fl.map (·.blk), fl.any (·.sat), fl.any (·.nonfin)⟩

/-- Encode values by linear index to the format of `t` (R43, R45, R48, R54, R56). `exps` are the XB16 block exponents. -/
def encodeVals (t : TDesc) (r : Rnd) (exps : List Int) (vs : List Val) : Enc :=
  if isBlock32 t.fmt then encodeBlocks t (fun _ => r) vs
  else if t.fmt = fmtXB16 then
    let fl := (List.range (cdiv t.count 256)).map (fun b =>
      let bv := (vs.drop (256 * b)).take 256
      xb16From (nth exps b 0) r ((List.range bv.length).map (· + 256 * b)) bv)
    ⟨(fl.map (·.codes)).flatten, fl.map (·.blk), fl.any (·.sat), fl.any (·.nonfin)⟩
  else if t.fmt = fmtPair then
    let ps := (vs.zip (List.range vs.length)).map (fun p => pairFrom r p.2 p.1)
    ⟨ps.map (·.1), ps.map (·.2.1), ps.any (·.2.2.1), ps.any (·.2.2.2)⟩
  else
    let cs := (vs.zip (List.range vs.length)).map (fun p => cvtPlain t.fmt r p.2 p.1)
    ⟨cs.map (·.code), [], cs.any (·.sat), cs.any (·.nonfin)⟩

/-- The element and second-plane writes of an encoded tensor. -/
def TDesc.writes (t : TDesc) (e : Enc) : List PlaneW := t.elemWrites e.codes ++ t.entryWrites e.entries

end Sys2Proof.Machine
end

