-- ==== Sys2Proof/Machine/Ops.lean ====
section
/-! DEFINITION. The operations that the commands share: unit identifiers, time, error records and their delivery, host packets, runs, regions and
planes, operator completion, context reset. -/

namespace Sys2Proof.Machine

/-- The descriptor of an operator's entry. -/
def OpEntry.d (e : OpEntry) : OpDesc := e.desc
/-- The descriptor of a check task's operator. -/
def CheckTask.d (k : CheckTask) : OpDesc := k.desc
/-- The tensor descriptors of an operator's entry. -/
def OpEntry.ts (e : OpEntry) : List TDesc := e.tensors

/-! ### Unit identifiers (R330) -/

/-- A UnitID from its fields (Table 12.2). -/
def uid (domain partition index subunit inst : Nat) : BitVec 32 :=
  BitVec.ofNat 32 (inst % 256 + subunit % 256 * 2 ^ 8 + index % 256 * 2 ^ 16 + partition % 16 * 2 ^ 24 + domain % 16 * 2 ^ 28)

/-- A sub-unit of a physical core (R102). -/
def uidCore (p sub inst : Nat) : BitVec 32 := uid 0 (p / 52) (p % 52) sub inst
def uidLpddr (c ch : Nat) : BitVec 32 := uid 1 0 c 0 ch
def uidHub : BitVec 32 := uid 5 0 0 0 0
def uidVigil (sub inst : Nat) : BitVec 32 := uid 6 0 0 sub inst

/-- The UnitID of a link, its `instance` a lane. -/
def uidLink : LinkRef → Nat → BitVec 32
  | .fabric n, lane => uid 2 0 n 0 lane
  | .host n, lane => uid 3 0 n 0 lane
  | .bridge, lane => uid 4 0 0 0 lane

/-! ### Time -/

/-- Is the module released (Table 15.1)? -/
def State.released (s : State) : Bool := s.boot.stage == .released

/-- Time passes (log entry 2): the uptime counter counts while the dividers run (R385). -/
def State.advance (s : State) (n : Nat) : State :=
  { s with now := s.now + n, clk := { s.clk with uptime := s.clk.uptime + (if s.clk.aligned then n else 0) } }

/-- Let time pass up to stamp `t`, if it lies ahead. -/
def State.advanceTo (s : State) (t : Nat) : State := s.advance (t - s.now)

/-- The uptime as records show it (R332). -/
def State.uptime (s : State) : Nat := if s.clk.aligned then s.clk.uptime % 2 ^ 64 else 0

/-! ### Runs -/

def State.run (s : State) (slot : Nat) : Run := NMap.getD s.runs slot {}
def State.setRun (s : State) (slot : Nat) (r : Run) : State := { s with runs := NMap.set s.runs slot r }
def State.updRun (s : State) (slot : Nat) (f : Run → Run) : State := s.setRun slot (f (s.run slot))
/-- Is the slot's run open (a halted run stays open, Table 16.12)? -/
def Run.isOpen (r : Run) : Bool := r.state != .closed
/-- The group of the run tree (Table 16.13). -/
def Run.group (r : Run) : Nat := fld r.rec_ 256 16
def Run.stepContext (r : Run) : Nat := fld r.rec_ 272 20
def Run.twinRequired (r : Run) : Bool := flag r.rec_ 230
def Run.compatInterval (r : Run) : Nat := fld r.rec_ 232 16
def Run.compatScale (r : Run) : Bool := flag r.rec_ 231
def Run.replay (r : Run) : Bool := flag r.rec_ 228
def Run.seed (r : Run) : Nat := fld r.rec_ 128 64
def Run.startStep (r : Run) : Nat := fld r.rec_ 296 40
/-- The slots of open runs. -/
def State.openRuns (s : State) : List Nat := (s.runs.filter (fun e => e.2.isOpen)).map Prod.fst
/-- The slots with an open step. -/
def State.openSteps (s : State) : List Nat := (s.runs.filter (fun e => e.2.openStep.isSome)).map Prod.fst

/-- A fault sets the check-failure flag of the run's open step, or the carried flag once the veto has been sent (R317). -/
def Run.fault (r : Run) : Run :=
  if r.openStep.isNone then r else if r.vetoSent then { r with carried := true } else { r with checkFailure := true }

/-- The same in the state; a slot without a run is left alone. -/
def State.fault (s : State) (slot : Nat) : State :=
  match NMap.get? s.runs slot with
  | none => s
  | some r => s.setRun slot r.fault

/-- Set the flag of every open step of the module. -/
def State.faultAll (s : State) : State := { s with runs := s.runs.map (fun e => (e.1, e.2.fault)) }

/-! ### Host packets (R444, R445) -/

/-- A packet header (Table 17.1). -/
def packetHdr (cls bytes tag cstatus gen context addr ncode : Nat) : Header :=
  BitVec.ofNat 256 (cls % 16 + cdiv bytes 32 % 256 * 2 ^ 8 + tag % 4096 * 2 ^ 16 + cstatus % 16 * 2 ^ 28 + gen % 256 * 2 ^ 32 +
    context % 2 ^ 20 * 2 ^ 40 + addr % 2 ^ 56 * 2 ^ 64 + bytes % 2 ^ 13 * 2 ^ 128 + ncode % 2 ^ 16 * 2 ^ 144)

/-- The `context` of module traffic (Table 17.1). -/
def moduleCtx : Nat := 0xFFFFF

/-- A host link that has not trained yet: no class is advertised (R446). -/
def hostLink0 : Link := { capUnits := [0, 0, 0, 0, 0, 0, 0, 0] }

/-- A link's entry. -/
def State.link (s : State) : LinkRef → Link
  | .fabric n => NMap.getD s.links.fabric n {}
  | .host n => NMap.getD s.links.host n hostLink0
  | .bridge => s.links.bridge

def State.setLink (s : State) (l : LinkRef) (k : Link) : State := match l with
  | .fabric n => { s with links := { s.links with fabric := NMap.set s.links.fabric n k } }
  | .host n => { s with links := { s.links with host := NMap.set s.links.host n k } }
  | .bridge => { s with links := { s.links with bridge := k } }

def State.updLink (s : State) (l : LinkRef) (f : Link → Link) : State := s.setLink l (f (s.link l))

/-- Credit left for class `c` on a host link: the last count the adapter advertised less the units sent, modulo 2^32 (R446). -/
def Link.hostCredit (k : Link) (c : Nat) : Nat := (nth k.backUnits c 0 + 2 ^ 32 - nth k.sentUnits c 0 % 2 ^ 32) % 2 ^ 32

/-- Credit left for lane `v` of a fabric port or the bridge (R263). -/
def Link.laneCredit (k : Link) (v : Nat) : Nat :=
  nth k.capUnits v 0 - (nth k.sentUnits v 0 - nth k.backUnits v 0)

/-- Put a packet into a host port's transmit queue. -/
def State.hostSend (s : State) (n cls : Nat) (hdr : Header) (data : List Byte) : State :=
  s.updLink (.host n) (fun k => { k with txq := k.txq ++ [⟨cls, hdr, data, s.now⟩] })

/-- Is host port `n` UP? -/
def State.hostUp (s : State) (n : Nat) : Bool := (s.link (.host n)).state == .up

/-- Units of class `c` waiting in a transmit queue. -/
def Link.queuedUnits (k : Link) (c : Nat) : Nat := sumOf ((k.txq.filter (fun i => i.lane == c)).map (fun i => 1 + cdiv i.data.length 32))

/-- Can host port `n` take a packet of `u` units of class `c` now? -/
def State.hostTakes (s : State) (n c u : Nat) : Bool :=
  s.hostUp n && decide (u + (s.link (.host n)).queuedUnits c ≤ (s.link (.host n)).hostCredit c)

/-- Count a dropped NOTICE or ATTN on port `n` (R451). -/
def State.noticeDropped (s : State) (n : Nat) : State :=
  s.updLink (.host n) (fun k => { k with ctr := { k.ctr with noticesDropped := k.ctr.noticesDropped + 1 } })

/-- Send a NOTICE or ATTN on a port, or drop and count it (R451). -/
def State.noticeOn (s : State) (n cls : Nat) (hdr : Header) (data : List Byte) : State :=
  if s.hostTakes n cls (1 + cdiv data.length 32) then s.hostSend n cls hdr data else s.noticeDropped n

/-- A NOTICE meant for one port; a GUARDED port's go to the other (R451, R454). -/
def State.notice (s : State) (port : Nat) (code : Code) (context : Nat) : State :=
  let p := if (s.link (.host port)).state == .guarded then 1 - port else port
  s.noticeOn p 5 (packetHdr 5 0 0 0 0 context 0 code.toNat) []

/-- A packet meant for every UP port (R451). -/
def State.noticeAll (s : State) (cls : Nat) (hdr : Header) (data : List Byte) : State :=
  if !s.hostUp 0 && !s.hostUp 1 then (s.noticeDropped 0).noticeDropped 1
  else
    let s := if s.hostUp 0 then s.noticeOn 0 cls hdr data else s
    if s.hostUp 1 then s.noticeOn 1 cls hdr data else s

/-! ### Error records (R331 to R334, R420) -/

/-- What bits [255:128] of a record name: an operation, or only a run's open step (R332). -/
structure Who where
  op : Bool := false
  opcode : Nat := 0
  context : Nat := 0
  opSeq : Nat := 0
  slot : Nat := 0
  inStep : Bool := false
  step : Nat := 0
  attempt : Nat := 0
deriving DecidableEq, Repr

/-- A record that names a run with its step. -/
def State.whoRun (s : State) (slot : Nat) : Who :=
  let r := s.run slot
  match r.openStep with
  | some n => { slot := slot, inStep := true, step := n, attempt := r.attempt }
  | none => {}

/-- The bytes of an error record (Table 12.4). -/
def ErrorRecord.bytes (r : ErrorRecord) : List Byte :=
  leBytes 8 r.seq ++ leBytes 4 r.unit.toNat ++ leBytes 2 r.code.toNat ++ leBytes 1 r.severity ++
  leBytes 1 ((if r.opValid then 1 else 0) + (if r.preRelease then 2 else 0) + (if r.inStep then 4 else 0)) ++
  leBytes 16 (r.opcode.toNat + r.context % 2 ^ 20 * 2 ^ 16 + r.attempt % 16 * 2 ^ 36 + r.step % 2 ^ 40 * 2 ^ 40 +
    r.opSeq.toNat * 2 ^ 80 + r.runSlot % 2 ^ 16 * 2 ^ 112) ++
  leBytes 8 r.time ++ leBytes 2 r.temp.toNat ++ leBytes 2 r.volt.toNat ++ leBytes 4 0 ++ leBytes 16 r.detail.toNat

/-- Put a record into Vigil's buffer, or drop it or a lesser one when the buffer is full (R420). -/
def bufferRecord (v : Vigil) (r : ErrorRecord) : Vigil :=
  if v.buffer.length < 4096 then { v with buffer := v.buffer ++ [r] }
  else
    let v := { v with logDropped := min (v.logDropped + 1) (2 ^ 32 - 1) }
    if r.severity ≤ 1 then v
    else match v.buffer.reverse.findIdx? (fun x => decide (x.severity ≤ 1)) with
      | none => v
      | some i => { v with buffer := v.buffer.eraseIdx (v.buffer.length - 1 - i) ++ [r] }

/-- Write an error record: the log's buffer, ATTN from severity 2 (R451), and `stop_pending` from severity 4 in service (R423, Table 12.5). -/
def State.record (s : State) (unit : BitVec 32) (code : Code) (severity detail : Nat) (w : Who := {}) : State :=
  let r : ErrorRecord :=
    { seq := s.vigil.nextSeq, unit := unit, code := code, severity := severity, opValid := w.op, preRelease := !s.released,
      inStep := w.inStep, opcode := BitVec.ofNat 16 w.opcode, context := w.context, attempt := w.attempt, step := w.step,
      opSeq := BitVec.ofNat 32 w.opSeq, runSlot := w.slot, time := s.uptime,
      temp := NMap.getD s.vigil.temps (Config.nearestSensor unit) 0x8000,
      volt := NMap.getD s.vigil.volts (Config.railMonitor unit) 0xFFFF, detail := BitVec.ofNat 128 detail }
  let v := bufferRecord s.vigil r
  let s := { s with vigil := { v with nextSeq := (v.nextSeq + 1) % 2 ^ 64, stopPending := v.stopPending || (decide (4 ≤ severity) && s.released) } }
  if 2 ≤ severity then s.noticeAll 7 (packetHdr 7 64 0 0 0 moduleCtx 0 0) r.bytes else s

/-- A counter of 32 or 64 bits saturates (R126). -/
def sat32 (n : Nat) : Nat := min n (2 ^ 32 - 1)
def sat64 (n : Nat) : Nat := min n (2 ^ 64 - 1)

/-- Change a controller's counters. -/
def State.updMemCtr (s : State) (c : Nat) (f : MemCtr → MemCtr) : State :=
  { s with memsys := { s.memsys with ctr := NMap.upd s.memsys.ctr c {} f } }

/-- An uncorrectable LPDDR5X line: counted and recorded at severity 2 (R157, R498). -/
def State.lineBad (s : State) (line : Nat) (w : Who) : State :=
  let a := 256 * line
  let s := s.updMemCtr (ctrlOf a) (fun k => { k with uncorrectable := sat32 (k.uncorrectable + 1) })
  s.record (uidLpddr (ctrlOf a) (channelOf a)) cLpddrEccUncorrectable 2 a w

/-- Lines whose errors the decoder takes for others lose their contents (R154). -/
def State.loseLines (s : State) (l : List LineError) : State :=
  let lost := l.filter (fun x => lineLost x.line x.symbols)
  if lost.isEmpty then s
  else { s with free := s.free + 1, memsys := { s.memsys with mem := lost.foldl (fun m x => m.lose s.free x.line) s.memsys.mem } }

/-- A corrected line counts at its controller (R157). -/
def State.lineFixed (s : State) (line : Nat) : State := s.updMemCtr (ctrlOf (256 * line)) (fun k => { k with corrected := sat32 (k.corrected + 1) })

/-- Errors that a read of lines meets: wrong symbols are corrected, or the line is uncorrectable from now on. -/
def State.meetErrors (s : State) (l : List LineError) : State :=
  l.foldl (fun s x => match lineFind x.line x.symbols with
    | .clean => s
    | .corrected => s.lineFixed x.line
    | .uncorrectable => { s with memsys := { s.memsys with mem := s.memsys.mem.markBad x.line } }) (s.loseLines l)

/-- The record of an operator's event. -/
def State.whoOp (s : State) (e : OpEntry) : Who :=
  let d := e.d
  let slot := fld (NMap.getD s.ctxs.tab e.ctx {}).desc 160 16
  let r := s.run slot
  match r.openStep with
  | some n => ⟨true, d.opcode, e.ctx, d.opSeq.toNat, slot, true, n, r.attempt⟩
  | none => ⟨true, d.opcode, e.ctx, d.opSeq.toNat, slot, false, d.step, 0⟩

/-! ### Contexts and regions -/

def State.ctx (s : State) (c : Nat) : Ctx := NMap.getD s.ctxs.tab c {}
def State.setCtx (s : State) (c : Nat) (x : Ctx) : State := { s with ctxs := { s.ctxs with tab := NMap.set s.ctxs.tab c x } }
def State.updCtx (s : State) (c : Nat) (f : Ctx → Ctx) : State := s.setCtx c (f (s.ctx c))
def Ctx.keySlot (x : Ctx) : Nat := fld x.desc 40 12
def Ctx.rtAddr (x : Ctx) : Nat := fld x.desc 64 48
def Ctx.stackReserve (x : Ctx) : Nat := fld x.desc 128 18
def Ctx.runSlot (x : Ctx) : Nat := fld x.desc 160 16
def Ctx.crBase (x : Ctx) : Nat := fld x.desc 192 48
def Ctx.crLog2 (x : Ctx) : Nat := fld x.desc 240 5
def Ctx.crNotify (x : Ctx) : Bool := flag x.desc 245
def Ctx.qbase (x : Ctx) (q : Nat) : Nat := fld x.desc (384 + 128 * q) 48
def Ctx.qlog2 (x : Ctx) (q : Nat) : Nat := fld x.desc (432 + 128 * q) 5
def Ctx.qen (x : Ctx) (q : Nat) : Bool := flag x.desc (437 + 128 * q)
def Ctx.owner (x : Ctx) : Nat := fld x.desc 896 64
/-- Region `r` of a loaded context. -/
def Ctx.region (x : Ctx) (r : Nat) : RegionE := nth x.regions r 0
/-- The runs slot of no run. -/
def noRun : Nat := 0xFFFF

/-- The key a context's traffic to region entry `e` uses (R169); none when the slot is empty. -/
def State.keyFor (s : State) (x : Ctx) (e : RegionE) : Option KeyId :=
  let slot := if e.ownKey then e.kslot else x.keySlot
  if slot = 0 then some .slot0 else (NMap.get? s.memsys.keys slot).map KeyId.key

/-- Is a device address in a host window (Table 7.1)? -/
def isHost (a : Nat) : Bool := decide (hostBase ≤ a)

/-- Where a host access goes: the port and window address, or why it fails (R449, R450). -/
def State.hostRoute (s : State) (a : Nat) : Except Code (Nat × Nat) :=
  let w := (a - hostBase) / 2 ^ 37
  let e := NMap.getD s.links.windows w 0
  if !flag e 63 then .error cHostWindowInvalid
  else
    let p := fld e 56 1
    let wa := fld e 0 56 + (a - hostBase) % 2 ^ 37
    if s.hostUp p then .ok (p, wa)
    else if flag e 57 && s.hostUp (1 - p) then .ok (1 - p, wa)
    else .error cHostPortUnavailable

/-- Pieces of a window access: at most 4 KiB and not across a 4 KiB boundary (R445). -/
def splitAccess : Nat → Nat → List Byte → List (Nat × List Byte)
  | 0, _, _ => []
  | _ + 1, _, [] => []
  | k + 1, wa, bs =>
    let n := 4096 - wa % 4096
    (wa, bs.take n) :: splitAccess k (wa + n) (bs.drop n)

/-- Write bytes to a host window as WRITE packets (R445, R447). -/
def State.hostWrite (s : State) (context gen a : Nat) (bs : List Byte) : Except Code State :=
  match s.hostRoute a with
  | .error c => .error c
  | .ok (p, wa) => .ok ((splitAccess (bs.length / 4096 + 2) wa bs).foldl
      (fun s pc => s.hostSend p 1 (packetHdr 1 pc.2.length 0 0 gen context pc.1 0) pc.2) s)

/-- Write LPDDR5X bytes under a key. -/
def State.memWrite (s : State) (k : KeyId) (a : Nat) (bs : List Byte) : State :=
  { s with memsys := { s.memsys with mem := s.memsys.mem.write k s.free a bs }, free := s.free + 1 }

/-- Write bytes of a plane in region `r` of context `c`: host windows by packet, LPDDR5X under the region's key; with an empty key slot the
access is dropped and counted (R170). -/
def State.planeWrite (s : State) (c : Nat) (w : PlaneW) : Except Code State :=
  let x := s.ctx c
  let e := x.region w.reg
  let a := e.base + w.off
  if w.bytes.isEmpty then .ok s
  else if isHost a then s.hostWrite c x.gen.toNat a w.bytes
  else match s.keyFor x e with
    | none => .ok { s with memsys := { s.memsys with keySlotDrops := s.memsys.keySlotDrops + 1 } }
    | some k => .ok (s.memWrite k a w.bytes)

/-- Several plane writes; the first failure stands and ends them. -/
def State.planeWrites (s : State) (c : Nat) : List PlaneW → Except Code State
  | [] => .ok s
  | w :: ws => match s.planeWrite c w with
    | .error e => .error e
    | .ok s => s.planeWrites c ws

/-- The lines that writes of a context cover only in part and that are uncorrectable, or found so now (`extra`): such a write stores nothing there (R157). -/
def State.badWrites (s : State) (c : Nat) (ws : List PlaneW) (extra : List Nat) : List Nat :=
  dedup (ws.flatMap (fun w =>
    let e := (s.ctx c).region w.reg
    let a := e.base + w.off
    if isHost a || (s.keyFor (s.ctx c) e).isNone then []
    else (linesOf a w.bytes.length).filter (fun l =>
      !(wholeLines a w.bytes.length).contains l && (s.memsys.mem.bad.contains l || extra.contains l))))

/-- Lines that a write for a run found uncorrectable: each is recorded, and the run's open step is flagged (R157). -/
def State.foundBad (s : State) (l : List Nat) (slot : Nat) : State :=
  if l.isEmpty then s else (l.foldl (fun s b => s.lineBad b (s.whoRun slot)) s).fault slot

/-- Writes that the device makes for a run: a line found uncorrectable is recorded and flags the run's open step (R157). -/
def State.runWrites (s : State) (slot c : Nat) (ws : List PlaneW) : State :=
  match s.planeWrites c ws with
  | .error _ => s
  | .ok t => t.foundBad (s.badWrites c ws []) slot

/-- The reader of a context's planes: LPDDR5X under the region's key, or the bytes staged from host windows. -/
def State.rdOf (s : State) (c : Nat) (staged : List Host.Cell) : Rd := fun r off =>
  let x := s.ctx c
  let e := x.region r
  let a := e.base + off
  if isHost a then (cellGet staged a).getD 0
  else match s.keyFor x e with
    | none => 0
    | some k => s.memsys.mem.read k a

/-! ### Completion records (R241, R242) -/

/-- One bit as a number. -/
def bit (b : Bool) : Nat := if b then 1 else 0

/-- The bytes of a completion record (Table 9.5). -/
def CompRec.bytes (r : CompRec) (phase : Bool) : List Byte :=
  leBytes 8 r.userTag.toNat ++ leBytes 4 r.opSeq.toNat ++ leBytes 2 r.opcode.toNat ++ leBytes 2 r.code.toNat ++
  leBytes 16 (r.stream % 2 ^ 18 + r.gen.toNat * 2 ^ 24 + r.context % 2 ^ 20 * 2 ^ 32 + bit phase * 2 ^ 55 + bit r.noop * 2 ^ 56 +
    bit r.stat.cvtSat * 2 ^ 57 + bit r.stat.cvtNonfinite * 2 ^ 58 + bit r.stat.gridNonfinite * 2 ^ 59 + bit r.stat.vxInvalid * 2 ^ 60 +
    bit r.stat.vxDivzero * 2 ^ 61 + bit r.stat.vxOverflow * 2 ^ 62 + bit r.stat.vxUnderflow * 2 ^ 63 + bit r.stat.permOob * 2 ^ 64 +
    bit r.stat.katPass * 2 ^ 65 + bit r.stat.deadline * 2 ^ 66 + r.coreFirst % 1024 * 2 ^ 72 + r.coreCount % 1024 * 2 ^ 82 +
    r.ports % 64 * 2 ^ 92) ++
  leBytes 8 r.flushed ++ leBytes 8 r.clamped ++ leBytes 8 r.cycles ++ leBytes 8 r.detail.toNat

/-- The record of an entry; its totals stop at the greatest value (R68). -/
def OpEntry.comp (e : OpEntry) : CompRec :=
  ⟨e.d.userTag, e.d.opSeq, BitVec.ofNat 16 e.d.opcode, e.code, e.d.stream, e.gen, e.ctx, e.noop, e.stat, e.coreFirst, e.coreCount,
    e.ports, sat64 e.flushed, sat64 e.clamped, e.cycles, e.detail⟩

/-- The region of a context that holds `[a, a + n)` with the given right. -/
def Ctx.regionAt (x : Ctx) (a n : Nat) (right : RegionE → Bool) : Option Nat :=
  (List.range 64).find? (fun r => let e := x.region r
    e.valid && right e && decide (e.base ≤ a) && decide (a + n ≤ e.base + e.size))

/-- Write one record to the ring of its context, which has room (R242). -/
def State.ringWrite (s : State) (c : Nat) (r : CompRec) : State :=
  let x := s.ctx c
  let size := 2 ^ x.crLog2
  let a := x.crBase + 64 * (x.crHead % size)
  let w := (x.regionAt a 64 RegionE.w).getD 0
  let pw : PlaneW := ⟨w, a - (x.region w).base, r.bytes (x.crHead / size % 2 == 0)⟩
  let bad := s.badWrites c [pw] []
  match s.planeWrite c pw with
  | .ok s' =>
    let s' := s'.foundBad bad x.runSlot
    let s' := s'.updCtx c (fun x => { x with crHead := (x.crHead + 1) % 2 ^ 32 })
    if x.crNotify && x.crHead == x.crTail then s'.notice x.notifyPort cRingNonempty c else s'
  | .error code =>
    let slot := x.runSlot
    let q := s.run slot
    let w : Who := ⟨true, r.opcode.toNat, c, r.opSeq.toNat, slot, q.openStep.isSome, q.openStep.getD 0, if q.openStep.isSome then q.attempt else 0⟩
    (s.record uidHub code 2 0 w).fault slot

/-- Records in the ring not consumed yet. -/
def Ctx.ringUsed (x : Ctx) : Nat := (x.crHead + 2 ^ 32 - x.crTail) % 2 ^ 32

/-- Write waiting records while the ring has room. -/
def State.ringDrain (s : State) (c : Nat) : Nat → State
  | 0 => s
  | k + 1 =>
    let x := s.ctx c
    match x.crBuffer with
    | [] => s
    | r :: rs => if x.ringUsed < 2 ^ x.crLog2 then ((s.setCtx c { x with crBuffer := rs }).ringWrite c r).ringDrain c k else s

/-- A record enters its context's ring, behind the records that wait (R242; those beyond the buffer's 64 wait with the operator's entry). -/
def State.putRecord (s : State) (c : Nat) (r : CompRec) : State :=
  (s.updCtx c (fun x => { x with crBuffer := x.crBuffer ++ [r] })).ringDrain c ((s.ctx c).crBuffer.length + 1)

/-- Is the code one that halts the operator's stream (R240)? -/
def haltsStream (opcode : Nat) (code : Code) : Bool := code != cOk && opcode / 256 != 0x0A && code != cStreamOwner

/-- What an operator's completion does apart from its entry: the record (unless its context is releasing, R252), `fault_count`, the halt of
its stream and the check-failure flag of an open step (R240, R241). -/
def State.complete (s : State) (e : OpEntry) : State :=
  let x := s.ctx e.ctx
  let s := if x.state == .releasing then s else s.putRecord e.ctx e.comp
  if e.code = cOk then s
  else
    let s := s.updCtx e.ctx (fun x => { x with faultCount := min (x.faultCount + 1) (2 ^ 32 - 1) })
    let s := if haltsStream e.d.opcode e.code then
        { s with ctxs := { s.ctxs with streams := NMap.set s.ctxs.streams e.d.stream ⟨e.ctx, true⟩ } } else s
    s.fault x.runSlot

/-- Take an operator's entry out of the scheduler: its reservation, its rows in gatherer queues, its exchange instance and its reads. -/
def State.dropOp (s : State) (id : Nat) : State :=
  { s with
    sched := { s.sched with
      ops := NMap.erase s.sched.ops id
      reservations := s.sched.reservations.filter (fun r => r.op != id)
      gather := s.sched.gather.map (fun g => (g.1, { g.2 with rows := g.2.rows.filter (fun r => r.op != id) }))
      reads := s.sched.reads.map (fun r => if r.requester == .op id || r.requester == .unsent id then
          { r with requester := .dropped ((NMap.get? s.sched.ops id).map OpEntry.ctx |>.getD 0) } else r) }
    exch := s.exch.filter (fun x => x.op != some id) }

/-- The planes of a tensor: region, offset and length of each that has bytes; `scale` for a scale-state tensor (R187). -/
def TDesc.planes (t : TDesc) (scale : Bool) : List (Nat × Nat × Nat) :=
  [(t.eReg, t.eOff, t.planeBytes), (t.bReg, t.bOff, t.blockBytes scale), (t.xReg, t.xOff, t.auxBytes)].filter (fun p => p.2.2 != 0)

/-- The contents of a plane become undefined (R499): no value is chosen for them. A host window's bytes lie outside the module. -/
def State.forgetPlane (s : State) (c : Nat) (p : Nat × Nat × Nat) : State :=
  let x := s.ctx c
  let e := x.region p.1
  let a := e.base + p.2.1
  if isHost a then s
  else match s.keyFor x e with
    | none => s
    | some k => { s with memsys := { s.memsys with mem := s.memsys.mem.forget k s.free a p.2.2 }, free := s.free + 1 }

/-- Every output tensor of an operator is undefined (R276, R499). -/
def State.forgetOutputs (s : State) (e : OpEntry) : State :=
  let scale := e.d.opcode == 0x0501 || e.d.opcode == 0x040B
  ((e.ts.drop e.d.nIn).flatMap (fun t => t.planes scale)).foldl (fun s p => s.forgetPlane e.ctx p) s

/-- Is an opcode that of a group operator (R225: SEND and RECV name a peer)? -/
def isGroupOp (o : Nat) : Bool := o / 256 == 9 && o != 0x0906 && o != 0x0907

/-- End an operator with a code; one that has started leaves its outputs undefined, and its record counts the cycles from its start (R499).
The detail of its body stays only with the body's own code (Table 9.5). -/
def State.endOp (s : State) (id : Nat) (code : Code) : State :=
  match NMap.get? s.sched.ops id with
  | none => s
  | some e =>
    let ran := e.phase == .started || e.phase == .finished
    let s := if ran && code != cOk then s.forgetOutputs e else s
    let t := if e.phase == .finished && code == e.code then e.cycles else if ran then s.now - e.startedAt else 0
    let d := if code == e.code || code == cMemoryUncorrectable then e.detail else 0
    (s.dropOp id).complete { e with code := code, cycles := t, detail := d }

/-- The ids of a context's operators, in issue order. -/
def State.opsOf (s : State) (c : Nat) : List Nat := (s.sched.ops.filter (fun e => e.2.ctx == c)).map Prod.fst

/-! ### Context reset (R251) -/

/-- Stack offset just past the newest frame. -/
def Stack.top (k : Stack) : Nat := match k.frames with
  | [] => 0
  | f :: _ => f.off + f.len

/-- Return a stack to depth `n`: frames above are discarded, and with them their pages and transfers (R174). -/
def Stack.cut (k : Stack) (n : Nat) : Stack :=
  let fs := k.frames.drop (k.frames.length - n)
  let top := ({ k with frames := fs } : Stack).top
  { k with frames := fs, pages := k.pages.filter (fun p => decide (p.1 * 65536 < top)), bytes := k.bytes.filter (fun c => decide (c.1 < top)) }

def State.stackOf (s : State) (c : Nat) : Stack := NMap.getD s.ctxs.stackTab c {}
def State.setStack (s : State) (c : Nat) (k : Stack) : State := { s with ctxs := { s.ctxs with stackTab := NMap.set s.ctxs.stackTab c k } }

/-- Halt or release every stream of a context. -/
def State.haltStreams (s : State) (c : Nat) (h : Bool) : State :=
  { s with ctxs := { s.ctxs with streams := s.ctxs.streams.map (fun e => if e.2.ctx == c then (e.1, { e.2 with halted := h }) else e) } }

/-- The logical cores on which a context has operators running or staged. -/
def State.coresOf (s : State) (c : Nat) : List Nat :=
  dedup ((s.sched.ops.filter (fun e => e.2.ctx == c && e.2.phase != .issued)).flatMap
    (fun e => (List.range e.2.coreCount).map (· + e.2.coreFirst)))

/-- Least time between advances of one generation tag (R250). -/
def tagGap : Nat := 50 * Config.usCycles

/-- A context's tag advances, unless its last advance is less than 50 µs ago: it then waits (R250). -/
def Ctx.advanceTag (x : Ctx) (now : Nat) : Ctx :=
  if x.tagAt.any (fun t => decide (now < t + tagGap)) then { x with tagDue := true } else { x with gen := x.gen + 1, tagAt := some now }

/-- An advance of a context's tag that has waited takes place, at the end of its 50 µs. -/
def State.tagCatchUp (s : State) (c : Nat) : State :=
  if !(s.ctx c).tagDue then s
  else
    let s := s.advanceTo ((s.ctx c).tagAt.getD 0 + tagGap)
    s.updCtx c (fun x => { x with gen := x.gen + 1, tagAt := some s.now, tagDue := false })

/-- Successive advances of one generation tag are at least 50 µs apart (R250). -/
def nextTagAt (now : Nat) (last : Option Nat) : Nat := match last with
  | some t => max now (t + tagGap)
  | none => now

/-- What a pass adds to its core's counters when its operator is cut off `t` cycles after its start (R118): nothing if it has not begun; its rows that have
not entered by then are masked, and its timing is unchanged. The counts of the terms of a pass still in flight are left out (DESIGN CHOICE, log entry 55). -/
def ArrPass.cut (p : ArrPass) (t : Nat) (k : CoreCtr) : CoreCtr :=
  if t < p.at_ then k
  else
    let entered := min p.rows ((t - p.at_) / p.rho + 1)
    let whole := decide (p.at_ + p.rho * p.rows + 72 ≤ t)
    { k with
      arrayBusy := sat64 (k.arrayBusy + p.rho * p.rows)
      arrayLoadStall := sat64 (k.arrayLoadStall + p.stall)
      arrayPasses := sat64 (k.arrayPasses + 1)
      arrayRowsMasked := sat64 (k.arrayRowsMasked + (p.masked.filter (fun r => decide (r < entered))).length + (p.rows - entered))
      gridFlushed := sat64 (k.gridFlushed + if whole then p.flushed else 0)
      gridClamped := sat64 (k.gridClamped + if whole then p.clamped else 0) }

/-- The passes of a running operator that is cut off count as far as they have begun (R118). -/
def State.cutPasses (s : State) (e : OpEntry) : State :=
  if e.phase != .started then s
  else { s with cores := { s.cores with recs := e.passes.foldl (fun m p =>
    NMap.upd m (e.coreFirst + p.core) {} (fun k => { k with ctr := p.cut (s.now - e.startedAt) k.ctr })) s.cores.recs } }

/-- Cut an operator off by a context reset: a group operator that has not started leaves its outputs undefined too (R276). -/
def State.cutOp (s : State) (e : OpEntry) : State :=
  (if (e.phase == .issued || e.phase == .checked) && isGroupOp e.d.opcode then s.forgetOutputs e else s).cutPasses e

/-- Start a context reset: steps 1 to 6 of R251. -/
def State.resetCtx (s : State) (c : Nat) : State :=
  let cores := s.coresOf c
  let s := s.updCtx c (fun x => { x with state := .resetting, resetCores := cores, resetAt := s.now })
  let s := (s.opsOf c).foldl (fun s id => (match NMap.get? s.sched.ops id with
    | some e => s.cutOp e
    | none => s).endOp id cContextReset) s
  let s := s.updCtx c (fun x => x.advanceTag s.now)
  let s := s.haltStreams c true
  let s := s.setStack c ((s.stackOf c).cut (s.stackOf c).floor)
  s.fault (s.ctx c).runSlot

/-- Reset every context of a list that is OPEN. -/
def State.resetCtxs (s : State) (cs : List Nat) : State :=
  cs.foldl (fun s c => if (s.ctx c).state == .open_ then s.resetCtx c else s) s

/-! ### Cores -/

def State.core (s : State) (c : Nat) : CoreRec := NMap.getD s.cores.recs c {}
def State.updCore (s : State) (c : Nat) (f : CoreRec → CoreRec) : State :=
  { s with cores := { s.cores with recs := NMap.upd s.cores.recs c {} f } }
/-- The physical core that serves logical core `c` (R103). -/
def State.phys (s : State) (c : Nat) : Nat := NMap.getD s.cores.map c (c / 50 * 52 + c % 50)
/-- The logical core a physical core serves, if any. -/
def State.logicalOf (s : State) (p : Nat) : Option Nat := (s.cores.map.find? (fun e => e.2 == p)).map Prod.fst
/-- The partition of a logical core (R103). -/
def partOf (c : Nat) : Nat := c / 50

/-- The operators that have work on the given logical cores: running, staged or queued at the gatherer there. -/
def State.opsOn (s : State) (cs : List Nat) : List Nat :=
  (s.sched.ops.filter (fun e => cs.any (fun c => decide (e.2.coreFirst ≤ c) && decide (c < e.2.coreFirst + e.2.coreCount)) &&
      e.2.phase != .issued)).map Prod.fst ++
  ((s.sched.gather.filter (fun g => cs.any (fun c => decide (g.2.coreFirst ≤ c) && decide (c < g.2.coreFirst + g.2.coreCount)))).map
    (fun g => g.2.rows.map GRow.op)).flatten

/-- The contexts of those operators, rising. -/
def State.ctxsOn (s : State) (cs : List Nat) : List Nat :=
  (s.opsOn cs).foldl (fun l id => match NMap.get? s.sched.ops id with
    | some e => insertRising l e.ctx
    | none => l) []

/-! ### Digest of what Vigil keeps -/

/-- The store copy in use: the higher generation whose CRC matches (R419). -/
def Flash.store (f : Flash) : Store :=
  if f.storeA.crcOk && (!f.storeB.crcOk || decide (f.storeB.gen ≤ f.storeA.gen)) then f.storeA.values
  else if f.storeB.crcOk then f.storeB.values else {}

/-- Update the persistent store: the new contents are written whole to the copy that holds the older contents (R419). -/
def Flash.saveStore (f : Flash) (v : Store) : Flash :=
  if f.storeA.crcOk && (!f.storeB.crcOk || decide (f.storeB.gen ≤ f.storeA.gen)) then
    { f with storeB := ⟨f.storeA.gen + 1, true, v⟩ }
  else { f with storeA := ⟨f.storeB.gen + 1, true, v⟩ }

def State.store (s : State) : Store := s.flash.store
def State.setStore (s : State) (v : Store) : State := { s with flash := s.flash.saveStore v }

end Sys2Proof.Machine
end

