-- ==== Sys2Proof/Machine/Cells.lean ====
section
/-! DEFINITION. Fabric and bridge cells: the common header (Table 10.2), the check value (R277), and their entry into a transmit queue. -/

namespace Sys2Proof

open Machine

def Cell.lane (c : Cell) : Nat := fld c.hdr 0 2
def Cell.kind (c : Cell) : Nat := fld c.hdr 2 6
def Cell.dst (c : Cell) : Nat := fld c.hdr 8 18
def Cell.src (c : Cell) : Nat := fld c.hdr 26 18
def Cell.attempt (c : Cell) : Nat := fld c.hdr 44 4
def Cell.step (c : Cell) : Nat := fld c.hdr 48 40
def Cell.gen (c : Cell) : Nat := fld c.hdr 88 8
def Cell.len (c : Cell) : Nat := fld c.hdr 96 5
def Cell.hops (c : Cell) : Nat := fld c.hdr 101 6
def Cell.res (c : Cell) : Nat := fld c.hdr 107 5
def Cell.group (c : Cell) : Nat := fld c.hdr 112 16

/-- The 32 header bytes and the payload as they are sent. -/
def Cell.bytes (c : Cell) : List Byte := leBytes 32 c.hdr.toNat ++ c.payload

/-- The cell check value (R277): `hops`, `attempt` and `gen` are taken as zero. -/
def Cell.check (c : Cell) : Nat :=
  (crc64 (leBytes 32 (setFld (setFld (setFld c.hdr 101 6 0) 44 4 0) 88 8 0).toNat ++ c.payload)).toNat

/-- Bits `[lo + 128 + len - 1 : lo + 128]` of a cell's header. -/
def Cell.hi (c : Cell) (lo len : Nat) : Nat := fld c.hdr (128 + lo) len

/-! Fields of a Yalvo packet's header (Table 17.1). -/

def Packet.cls (p : Packet) : Nat := fld p.hdr 0 4
def Packet.bytes_ (p : Packet) : Nat := fld p.hdr 128 13
def Packet.units (p : Packet) : Nat := fld p.hdr 8 8
def Packet.tag (p : Packet) : Nat := fld p.hdr 16 12
def Packet.cstatus (p : Packet) : Nat := fld p.hdr 28 4
def Packet.gen (p : Packet) : Nat := fld p.hdr 32 8

end Sys2Proof

namespace Sys2Proof.Machine

/-- The group field of a cell of no group. -/
def noGroup : Nat := 0xFFFF
/-- The destination of a flooded RANK_MOVE (R307). -/
def floodDst : Nat := 0x3FFFF

/-- A cell from its common fields, bits [255:128] of its header, and its payload (zero filled to whole units). -/
def cellOf (lane kind dst src attempt step gen group high : Nat) (payload : List Byte) : Cell :=
  ⟨BitVec.ofNat 256 (lane % 4 + kind % 64 * 2 ^ 2 + dst % 2 ^ 18 * 2 ^ 8 + src % 2 ^ 18 * 2 ^ 26 + attempt % 16 * 2 ^ 44 + step % 2 ^ 40 * 2 ^ 48 +
    gen % 256 * 2 ^ 88 + cdiv payload.length 32 % 32 * 2 ^ 96 + group % 2 ^ 16 * 2 ^ 112 + high % 2 ^ 128 * 2 ^ 128), padTo 32 payload⟩

/-- Put a cell into a link's transmit queue. -/
def State.cellOut (s : State) (l : LinkRef) (c : Cell) : State :=
  s.updLink l (fun k => { k with txq := k.txq ++ [⟨c.lane, c.hdr, c.payload, s.now⟩] })

/-- The fused serial (Table 15.2). -/
def State.serial (s : State) : Nat := fld s.fuses.shadow 256 64

/-- TWIN_IDENT (Table 17.6). -/
def State.identCell (s : State) : Cell :=
  cellOf 3 0x38 0 0 0 noStep 0 noGroup 0
    (leBytes 8 s.serial ++ leBytes 4 s.store.ownSite.toNat ++ leBytes 1 Config.numericsLevel ++ leBytes 3 0 ++
      leBytes 2 s.memsys.twinReserveActive ++ leBytes 6 0 ++ (digestBytes s.boot.mFirmware).take 32 ++ leBytes 8 0)

end Sys2Proof.Machine
end

