-- ==== Sys2Proof/Machine/Crypto.lean ====
section
/-! DEFINITION. The cryptographic functions of file 18: ECDSA and ECDH on P-521 (FIPS 186-5, SEC 1), AES-256 and the key unwrap of
RFC 3394, the keys of Table 18.1. Signatures the module makes are free values (log entry 6): only their verification is a function. -/

namespace Sys2Proof.Machine

/-! ### P-521 -/

/-- The field prime of P-521. -/
def p521 : Nat := 2 ^ 521 - 1
/-- The order of the base point. -/
def n521 : Nat := 0x1FFFFFFFFFFFFFFFFFFFFFFFFFFFFFFFFFFFFFFFFFFFFFFFFFFFFFFFFFFFFFFFFFA51868783BF2F966B7FCC0148F709A5D03BB5C9B8899C47AEBB6FB71E91386409
/-- The coefficient b. -/
def b521 : Nat := 0x51953EB9618E1C9A1F929A21A0B68540EEA2DA725B99B315F3B8B489918EF109E156193951EC7E937B1652C0BD3BB1BF073573DF883D2C34F1EF451FD46B503F00

/-- A point, or none for the point at infinity. -/
abbrev Pt := Option (Nat × Nat)

/-- The base point. -/
def g521 : Pt := some
  (0xC6858E06B70404E9CD9E3ECB662395B4429C648139053FB521F828AF606B4D3DBAA14B5E77EFE75928FE1DC127A2FFA8DE3348B3C1856A429BF97E7E31C2E5BD66,
   0x11839296A789A3BC0045C8A5FB42C7D1BD998F54449579B446817AFBD17273E662C97EE72995EF42640C550B9013FAD0761353C7086A272C24088BE94769FD16650)

/-- a^k mod m over the low bits of `k`. -/
def powModGo (m : Nat) : Nat → Nat → Nat → Nat → Nat
  | 0, _, _, acc => acc
  | f + 1, a, k, acc => powModGo m f (a * a % m) (k / 2) (if k % 2 = 1 then acc * a % m else acc)

/-- a^k mod m for exponents below 2^522. -/
def powMod (a k m : Nat) : Nat := powModGo m 522 (a % m) k (1 % m)

/-- The inverse modulo a prime. -/
def invMod (a m : Nat) : Nat := powMod a (m - 2) m

/-- Subtraction modulo m of residues. -/
def subMod (a b m : Nat) : Nat := (a + (m - b % m)) % m

/-- Point addition. -/
def ptAdd : Pt → Pt → Pt
  | none, q => q
  | p, none => p
  | some (x1, y1), some (x2, y2) =>
    if x1 = x2 && (y1 + y2) % p521 = 0 then none
    else
      let l := if x1 = x2 then subMod (3 * x1 * x1) 3 p521 * invMod (2 * y1) p521 % p521
        else subMod y2 y1 p521 * invMod (subMod x2 x1 p521) p521 % p521
      let x := subMod (subMod (l * l) x1 p521) x2 p521
      some (x, subMod (l * subMod x1 x p521) y1 p521)

/-- Double and add over `f` bits. -/
def ptMulGo : Nat → Nat → Pt → Pt → Pt
  | 0, _, _, acc => acc
  | f + 1, k, p, acc => ptMulGo f (k / 2) (ptAdd p p) (if k % 2 = 1 then ptAdd acc p else acc)

/-- Scalar multiplication. -/
def ptMul (k : Nat) (p : Pt) : Pt := ptMulGo 522 k p none

/-- Is it a point on the curve, in reduced coordinates? -/
def onCurve (x y : Nat) : Bool :=
  x < p521 && y < p521 && y * y % p521 == (subMod (x * x * x) (3 * x) p521 + b521) % p521

/-- The point of a 133-byte uncompressed SEC 1 key (R466), if it is one. -/
def pointOf (k : List Byte) : Option (Nat × Nat) :=
  let x := beNat ((k.drop 1).take 66)
  let y := beNat ((k.drop 67).take 66)
  if k.length = 133 && k[0]? == some 4 && onCurve x y then some (x, y) else none

/-- The 133 bytes of a point (R466). -/
def pointBytes : Pt → List Byte
  | some (x, y) => (4 : Byte) :: beBytes 66 x ++ beBytes 66 y
  | none => List.replicate 133 0

/-- ECDSA verification (FIPS 186-5) of the 132-byte signature r ‖ s over a message's SHA-512 (R466). -/
def ecdsaOk (key sig msg : List Byte) : Bool :=
  match pointOf key with
  | none => false
  | some q =>
    let r := beNat (sig.take 66)
    let s := beNat (sig.drop 66)
    if sig.length = 132 && 0 < r && r < n521 && 0 < s && s < n521 then
      let w := invMod s n521
      let z := (sha512 msg).toNat
      match ptAdd (ptMul (z * w % n521) g521) (ptMul (r * w % n521) (some q)) with
      | some (x, _) => x % n521 == r
      | none => false
    else false

/-! ### The keys of Table 18.1 -/

/-- The private scalar of a key (R467). -/
def deviceScalar (seed : List Byte) (serial : Nat) (info : String) : Nat :=
  beNat (hkdf512 seed (leBytes 8 serial) (asciiBytes info) 80) % (n521 - 1) + 1

def infoIdentity : String := "MYL-BZ identity 1"
def infoAttest : String := "MYL-BZ attest 1"
def infoTransport : String := "MYL-BZ transport 1"
def infoSlotWrap : String := "MYL-BZ slot wrap 1"

/-- The public key of a scalar. -/
def pubKey (d : Nat) : List Byte := pointBytes (ptMul d g521)

/-! ### AES-256 decryption (FIPS 197) and the key unwrap of RFC 3394 -/

/-- The substitution table of AES. -/
def aesS : List Nat :=
  [0x63, 0x7c, 0x77, 0x7b, 0xf2, 0x6b, 0x6f, 0xc5, 0x30, 0x01, 0x67, 0x2b, 0xfe, 0xd7, 0xab, 0x76] ++
  [0xca, 0x82, 0xc9, 0x7d, 0xfa, 0x59, 0x47, 0xf0, 0xad, 0xd4, 0xa2, 0xaf, 0x9c, 0xa4, 0x72, 0xc0] ++
  [0xb7, 0xfd, 0x93, 0x26, 0x36, 0x3f, 0xf7, 0xcc, 0x34, 0xa5, 0xe5, 0xf1, 0x71, 0xd8, 0x31, 0x15] ++
  [0x04, 0xc7, 0x23, 0xc3, 0x18, 0x96, 0x05, 0x9a, 0x07, 0x12, 0x80, 0xe2, 0xeb, 0x27, 0xb2, 0x75] ++
  [0x09, 0x83, 0x2c, 0x1a, 0x1b, 0x6e, 0x5a, 0xa0, 0x52, 0x3b, 0xd6, 0xb3, 0x29, 0xe3, 0x2f, 0x84] ++
  [0x53, 0xd1, 0x00, 0xed, 0x20, 0xfc, 0xb1, 0x5b, 0x6a, 0xcb, 0xbe, 0x39, 0x4a, 0x4c, 0x58, 0xcf] ++
  [0xd0, 0xef, 0xaa, 0xfb, 0x43, 0x4d, 0x33, 0x85, 0x45, 0xf9, 0x02, 0x7f, 0x50, 0x3c, 0x9f, 0xa8] ++
  [0x51, 0xa3, 0x40, 0x8f, 0x92, 0x9d, 0x38, 0xf5, 0xbc, 0xb6, 0xda, 0x21, 0x10, 0xff, 0xf3, 0xd2] ++
  [0xcd, 0x0c, 0x13, 0xec, 0x5f, 0x97, 0x44, 0x17, 0xc4, 0xa7, 0x7e, 0x3d, 0x64, 0x5d, 0x19, 0x73] ++
  [0x60, 0x81, 0x4f, 0xdc, 0x22, 0x2a, 0x90, 0x88, 0x46, 0xee, 0xb8, 0x14, 0xde, 0x5e, 0x0b, 0xdb] ++
  [0xe0, 0x32, 0x3a, 0x0a, 0x49, 0x06, 0x24, 0x5c, 0xc2, 0xd3, 0xac, 0x62, 0x91, 0x95, 0xe4, 0x79] ++
  [0xe7, 0xc8, 0x37, 0x6d, 0x8d, 0xd5, 0x4e, 0xa9, 0x6c, 0x56, 0xf4, 0xea, 0x65, 0x7a, 0xae, 0x08] ++
  [0xba, 0x78, 0x25, 0x2e, 0x1c, 0xa6, 0xb4, 0xc6, 0xe8, 0xdd, 0x74, 0x1f, 0x4b, 0xbd, 0x8b, 0x8a] ++
  [0x70, 0x3e, 0xb5, 0x66, 0x48, 0x03, 0xf6, 0x0e, 0x61, 0x35, 0x57, 0xb9, 0x86, 0xc1, 0x1d, 0x9e] ++
  [0xe1, 0xf8, 0x98, 0x11, 0x69, 0xd9, 0x8e, 0x94, 0x9b, 0x1e, 0x87, 0xe9, 0xce, 0x55, 0x28, 0xdf] ++
  [0x8c, 0xa1, 0x89, 0x0d, 0xbf, 0xe6, 0x42, 0x68, 0x41, 0x99, 0x2d, 0x0f, 0xb0, 0x54, 0xbb, 0x16]

/-- One substituted byte. -/
def aesSub (b : Nat) : Nat := nth aesS b 0

/-- The inverse substitution. -/
def aesInvSub (b : Nat) : Nat := aesS.idxOf b

/-- Multiplication by x in the field of AES. -/
def aesX (b : Nat) : Nat := if b < 128 then 2 * b else (2 * b - 256) ^^^ 0x1b

/-- Multiplication in the field of AES by a factor below 16. -/
def aesMul (k b : Nat) : Nat :=
  (if k % 2 = 1 then b else 0) ^^^ (if k / 2 % 2 = 1 then aesX b else 0) ^^^
  (if k / 4 % 2 = 1 then aesX (aesX b) else 0) ^^^ (if k / 8 % 2 = 1 then aesX (aesX (aesX b)) else 0)

/-- Byte-wise exclusive or. -/
def xorList (a b : List Nat) : List Nat := List.zipWith (· ^^^ ·) a b

/-- Extend the key schedule by `k` words; `i` is the index of the next, `ws` the words so far, newest first. -/
def aesExpand : Nat → Nat → Nat → List (List Nat) → List (List Nat)
  | 0, _, _, ws => ws
  | k + 1, i, rc, ws =>
    let t := nth ws 0 []
    let t' := if i % 8 = 0 then xorList ((t.drop 1 ++ t.take 1).map aesSub) [rc, 0, 0, 0]
      else if i % 8 = 4 then t.map aesSub else t
    aesExpand k (i + 1) (if i % 8 = 0 then aesX rc else rc) (xorList (nth ws 7 []) t' :: ws)

/-- The 15 round keys of a 32-byte key. -/
def aesKeys (key : List Nat) : List (List Nat) :=
  (chunks 4 15 (aesExpand 52 8 1 (chunks 4 8 key).reverse).reverse).map List.flatten

/-- The inverse of ShiftRows; the state is column-major. -/
def aesInvShift (s : List Nat) : List Nat :=
  [0, 13, 10, 7, 4, 1, 14, 11, 8, 5, 2, 15, 12, 9, 6, 3].map (fun i => nth s i 0)

/-- The inverse of MixColumns. -/
def aesInvMix (s : List Nat) : List Nat :=
  ((chunks 4 4 s).map (fun c =>
    let a := nth c 0 0
    let b := nth c 1 0
    let d := nth c 2 0
    let e := nth c 3 0
    [aesMul 14 a ^^^ aesMul 11 b ^^^ aesMul 13 d ^^^ aesMul 9 e,
     aesMul 9 a ^^^ aesMul 14 b ^^^ aesMul 11 d ^^^ aesMul 13 e,
     aesMul 13 a ^^^ aesMul 9 b ^^^ aesMul 14 d ^^^ aesMul 11 e,
     aesMul 11 a ^^^ aesMul 13 b ^^^ aesMul 9 d ^^^ aesMul 14 e])).flatten

/-- Decrypt one block of 16 bytes under a 32-byte key. -/
def aesDecrypt (key blk : List Nat) : List Nat :=
  match (aesKeys key).reverse with
  | [] => blk
  | k14 :: rest =>
    let s := (rest.take 13).foldl (fun s k => aesInvMix (xorList ((aesInvShift s).map aesInvSub) k)) (xorList blk k14)
    xorList ((aesInvShift s).map aesInvSub) (nth rest 13 [])

/-- One step of the unwrap: `t` is the step number, `j` the block. -/
def unwrapStep (kek : List Nat) (st : List Nat × List (List Nat)) (t : Nat) : List Nat × List (List Nat) :=
  let j := (t - 1) % 8
  let b := aesDecrypt kek (xorList st.1 ((beBytes 8 t).map BitVec.toNat) ++ nth st.2 j [])
  (b.take 8, updAt st.2 j (fun _ => b.drop 8))

/-- Unwrap 72 bytes to the 64-byte key (RFC 3394), none where the integrity check fails. -/
def keyUnwrap (kek wrapped : List Byte) : Option (List Byte) :=
  let w := wrapped.map BitVec.toNat
  let r := ((List.range 48).reverse.map (· + 1)).foldl (unwrapStep (kek.map BitVec.toNat)) (w.take 8, chunks 8 8 (w.drop 8))
  if r.1 = List.replicate 8 0xA6 then some (r.2.flatten.map (BitVec.ofNat 8)) else none

end Sys2Proof.Machine
end

