-- ==== Sys2Proof/Machine/Power.lean ====
section
/-! DEFINITION. Power, start-up and clocks (files 14, 15, 19): the meaning of the rows from PWR_EN_RISE to VIGIL_SRAM_UNCORRECTABLE and of the
pin events. -/

namespace Sys2Proof.Machine

/-! ### What stays when power goes -/

/-- The module without power: fuses, flash and pins stay, everything else is at its reset value (R415). -/
def State.unpowered (s : State) : State :=
  { pending := s.pending, free := s.free, now := s.now, fuses := { bits := s.fuses.bits }, flash := s.flash
    pins := { s.pins with pgood := false, faultN := true } }

/-- RAILS starts (R400). -/
def State.startRails (s : State) : State :=
  let u := s.unpowered
  { u with boot := { stage := .rails, powered := true }, pins := { u.pins with pwrEnHeld := false } }

/-- The `seq` after the newest record of the log (Table 12.4). -/
def Flash.nextSeq (f : Flash) : Nat := match f.log.getLast? with
  | some r => r.seq + 1
  | none => 0

/-- Add a record to the event log: at least the newest 260,096 records stay readable (R420). -/
def Flash.append (f : Flash) (r : ErrorRecord) : Flash :=
  { f with log := (f.log ++ [r]).filter (fun x => decide (r.seq < x.seq + 260096)) }

/-- Entry to BOXWOOD (R357, R400, R415): everything but flash, fuses, pins and the records of service is cleared; the log goes on. Records still
buffered reach flash first (R420). -/
def State.enterBoxwood (s : State) (chip : Bool) : State :=
  let f := s.vigil.buffer.foldl Flash.append s.flash
  { s.unpowered with
    flash := f
    pins := { s.pins with pgood := true, faultN := !chip }
    boot := { stage := .boxwood, powered := true, chipResetting := chip, heldChipReset := s.boot.heldChipReset && !chip
              faultLowSince := if chip then s.boot.faultLowSince else none }
    vigil := { nextSeq := f.nextSeq }
    clk := { refLost := s.clk.refLost, lockLost := s.clk.lockLost, onFallback := s.clk.onFallback } }

/-- A core sub-unit's dump entry fields that the core's operator gives: opcode, context, tag, elapsed and predicted cycles, `op_seq`. -/
def State.runningOn (s : State) (p : Nat) : Option OpEntry := match s.logicalOf p with
  | none => none
  | some c => ((s.sched.ops.find? (fun e => e.2.phase == .started && decide (e.2.coreFirst ≤ c) && decide (c < e.2.coreFirst + e.2.coreCount)))).map Prod.snd

/-- The state of one unit as the dump engine finds it (R378, R380, R395, R398): a unit with a stopped clock does not answer; without the divided clocks
only Vigil answers. -/
def State.dumpEntry (s : State) (u : BitVec 32) (core : Option Nat) (held : Bool) : DumpEntry :=
  let hb := NMap.get? s.cores.heartbeat u.toNat
  let quiet := core.any (fun p => (s.logicalOf p).isNone) || (!s.clk.aligned && u != uidVigil 0 0)
  let op := core.bind s.runningOn
  let ans := !held && !quiet
  { unit := u, status := if held then 2 else if quiet then 1 else 0, words := if ans then 16 else 0
    hbMirror := (hb.map Heartbeat.word).getD 0, hbAge := match hb with
      | some h => min ((s.now - h.at_) / 4) (2 ^ 32 - 1)
      | none => 2 ^ 32 - 1
    w0Opcode := BitVec.ofNat 16 ((op.map (fun e => e.d.opcode)).getD 0), w0Context := (op.map OpEntry.ctx).getD 0
    w0Gen := match core.bind s.logicalOf with
      | some c => (s.core c).tag
      | none => 0
    w1Elapsed := (op.map (fun e => s.now - e.startedAt)).getD 0, w2Predicted := (op.map OpEntry.cycles).getD 0
    w3OpSeq := (op.map (fun e => e.d.opSeq)).getD 0, w4w15 := Config.dumpWords s.free u }

/-- Is a sub-unit of a physical core held in reset: by its partition's, or by its engine's, which leaves the tile memory alone (Table 13.3)? -/
def State.heldUnit (s : State) (p sub : Nat) : Bool :=
  s.cores.partResetting.contains (p / 52) || (sub != 3 && (s.logicalOf p).any (fun c => (s.core c).resetting))

/-- The entries of the cores of a partition, in increasing UnitID (Tables 12.2, 12.3). -/
def State.coreEntries (s : State) (part : Nat) : List DumpEntry :=
  (List.range 52).flatMap (fun i => (List.range 7).map (fun sub =>
    s.dumpEntry (uidCore (52 * part + i) sub (if sub = 3 then 0xFF else 0)) (some (52 * part + i))
      (s.heldUnit (52 * part + i) sub)))

/-- The UnitID of the router at column x, row y of the mesh (R181): `partition` is x div 2, `index` is 28 (x mod 2) + y. -/
def uidRouter (x y : Nat) : BitVec 32 := uid 7 (x / 2) (28 * (x % 2) + y) 0 0

/-- The entries of the routers of a partition's mesh columns: rows 1 to 26 are the partition's own (Table 13.3). -/
def State.routerEntries (s : State) (part : Nat) (rows : List Nat) : List DumpEntry :=
  [0, 1].flatMap (fun k => rows.map (fun y => s.dumpEntry (uidRouter (2 * part + k) y) none
    (s.cores.partResetting.contains part && decide (1 ≤ y) && decide (y ≤ 26))))

/-- The 6,765 units of the module in increasing UnitID (R378). -/
def State.chipEntries (s : State) : List DumpEntry :=
  (List.range 16).flatMap s.coreEntries ++
  (List.range 8).map (fun c => s.dumpEntry (uidLpddr c 0xFF) none false) ++
  (List.range 32).map (fun n => s.dumpEntry (uidLink (.fabric n) 0xFF) none false) ++
  [s.dumpEntry (uidLink (.host 0) 0xFF) none false, s.dumpEntry (uidLink (.host 1) 0xFF) none false,
   s.dumpEntry (uidLink .bridge 0xFF) none false, s.dumpEntry uidHub none false, s.dumpEntry (uidVigil 0 0) none false] ++
  (List.range 16).flatMap (fun p => s.routerEntries p (List.range 28))

/-- A dump is wanted (R377): the units' state at the trigger is staged. Kind 0 chip, 1 partition, 2 request. -/
def State.wantDump (s : State) (kind part : Nat) (trigger : BitVec 64) : State :=
  { s with
    dump := { s.dump with wanted := some kind, partition := part, trigger := trigger, time := s.uptime
                          staged := if kind = 1 then s.coreEntries part ++ s.routerEntries part ((List.range 26).map (· + 1)) else s.chipEntries }
    free := s.free + 1
    flash := { s.flash with dumpOpen := true }
    sched := { s.sched with captures := s.sched.captures.filter (fun c => c.2.flushed) } }

/-- A chip reset starts (R357 to R359, R377): FAULT_N goes low, a chip dump is staged, and the module re-enters start-up at BOXWOOD. During a dump's
flush the flush completes first (Table 13.11). -/
def State.startChipReset (s : State) (trigger : BitVec 64) : State :=
  let s := { s with pins := { s.pins with faultN := false }, boot := { s.boot with chipResetting := true, faultLowSince := some (s.boot.faultLowSince.getD s.now) } }
  if s.dump.wanted.isSome then { s with dump := { s.dump with resetAfter := true } }
  else
    let d := (s.wantDump 0 0 trigger).dump
    { (s.wantDump 0 0 trigger).enterBoxwood true with dump := d }

/-- All ones: the trigger of a dump without a causing record (Table 13.9). -/
def noTrigger : BitVec 64 := BitVec.allOnes 64

/-- A chip reset that was held is performed as soon as the module is in HALTED or RECOVERY (R416). -/
def State.heldReset (s : State) : State := if s.boot.heldChipReset then s.startChipReset noTrigger else s

/-- HALTED: FAULT_N is held low (R401). -/
def State.halt (s : State) : State :=
  ({ s with boot := { s.boot with stage := .halted, faultLowSince := some s.now }, pins := { s.pins with faultN := false } } : State).heldReset

/-- A chip-reset request (R416): held before RELEASED, performed at once in RELEASED, HALTED or RECOVERY. -/
def State.requestChipReset (s : State) (trigger : BitVec 64) : State :=
  match s.boot.stage with
  | .released | .halted | .recovery => if s.boot.chipResetting then s else s.startChipReset trigger
  | _ => { s with boot := { s.boot with heldChipReset := true } }

/-- The `seq` of the record written last. -/
def State.lastSeq (s : State) : BitVec 64 := BitVec.ofNat 64 (s.vigil.nextSeq + 2 ^ 64 - 1)

/-- Rails go down while the module is powered: PGOOD falls and Vigil lives on through the hold-up (R416, R421). -/
def State.railsDown (s : State) : State :=
  if s.pins.pgood then
    { s.unpowered with
      vigil := { s.vigil with requesters := [], out := s.vigil.out }
      boot := { stage := s.boot.stage }
      clk := { aligned := s.clk.aligned, uptime := s.clk.uptime }
      dump := s.dump }
  else s.unpowered

/-! ### Start-up rows -/

/-- PWR_EN_RISE (R400, R487): power-up starts at RAILS; a rise within 100 ms of the fall is held. -/
def execPwrEnRise (s : State) : Out :=
  if s.pins.pwrEn then .next s
  else
    let s := { s with pins := { s.pins with pwrEn := true } }
    if !s.pins.inputOk || s.pins.tripLatch then .next s
    else match s.pins.pwrEnFellAt with
      | some t => if s.now < t + 100 * Config.msCycles then .next { s with pins := { s.pins with pwrEnHeld := true } } else .next s.startRails
      | none => .next s.startRails

/-- RAILS (R400): the regulators report good and PGOOD goes high, or PGOOD stays low. -/
def execRails (good : Bool) (s : State) : Out :=
  if s.boot.powered && s.boot.stage == .rails && good then .next (s.enterBoxwood false) else .next s

/-- The count of a thermometer field of `w` bits at `lo`, if no set bit lies above a clear one (R403). -/
def thermometer (b : BitVec 32768) (lo w : Nat) : Option Nat :=
  let v := fld b lo w
  (List.range (w + 1)).find? (fun n => v == 2 ^ n - 1)

/-- The repair entries of the fuse block (Tables 15.2, 15.3). -/
def repairEntries (b : BitVec 32768) : List (BitVec 32) := (List.range 872).map (fun i => BitVec.ofNat 32 (fld b (4864 + 32 * i) 32))

/-- Which valid repair entries are mapped, and how many conflict (R404). -/
def repairScan : List (BitVec 32) → List (BitVec 32) → Nat → List (BitVec 32) × Nat
  | [], m, n => (m.reverse, n)
  | e :: es, m, n =>
    if !flag e 0 then repairScan es m n
    else if 831 < fld e 1 10 || m.any (fun x => fld x 1 21 == fld e 1 21) then repairScan es m (n + 1)
    else repairScan es (e :: m) n

/-- Write a record several times. -/
def State.recordN (s : State) (unit : BitVec 32) (code : Code) (severity : Nat) : Nat → State
  | 0 => s
  | k + 1 => (s.record unit code severity 0).recordN unit code severity k

/-- The life-cycle state, coded as `lc_state` (R404, R414). -/
def lcState (sh : BitVec 32768) : Nat :=
  let b := (thermometer sh 320 3).getD 0
  if b = 2 ∧ (thermometer sh 328 32).getD 0 % 2 = 1 then 3 else if b = 3 then 4 else b

/-- The set points of the 24 regulators in mV (R404, Table 19.6). -/
def setPoints (sh : BitVec 32768) : List Nat :=
  (List.range 16).map (fun p => 650 + fld sh (456 + 8 * p) 8) ++ [750, 750, 1200, 750, 1050, 500, 1800, 3300]

/-- BOXWOOD (R403, R404). -/
def execBoxwood (s : State) : Out :=
  if !(s.boot.powered && s.boot.stage == .boxwood && s.dump.wanted.isNone) then .next s
  else
    let b := s.fuses.bits
    if (thermometer b 320 3).isNone || fld b 323 5 != 0 || (thermometer b 328 32).isNone || (thermometer b 360 64).isNone then
      .next (s.record (uidVigil 0 0) cFuseReadFailed 4 0).halt
    else
      let sh := setFld b 0 256 0
      let r := repairScan (repairEntries b) [] 0
      let pts := setPoints sh
      let s := { s with
        fuses := { s.fuses with shadow := sh, repairMap := r.1 }
        vigil := { s.vigil with railSetPoint := (List.range 24).zip pts, seconds := s.store.serviceSeconds }
        boot := { s.boot with stage := .bootImage } }
      .next (s.recordN (uidVigil 0 0) cFuseRepairConflict 0 r.2)

/-- The check of one image (R405, R471): its code, 0 when it passes. -/
def imageCode (sh : BitVec 32768) (kind maxBytes : Nat) (img : List Byte) : Code :=
  let body := leAt img 8 8
  if img.length < 512 || leAt img 0 4 != 0x4D59494D || leAt img 4 1 != kind || leAt img 5 1 != fld sh 424 8 || 64 < leAt img 6 1 ||
      leAt img 7 1 != 0 || maxBytes - 512 < body || img.length < 512 + body || leAt img 213 167 != 0 then cImageFormat
  else
    let key := (img.drop 80).take 133
    let sig := (img.drop 380).take 132
    let msg := img.take 380 ++ (img.drop 512).take body
    if (sha512 key).toNat != beNat (leBytes 64 (fld sh 1608 512)) || !ecdsaOk key sig msg then cImageSignature
    else if leAt img 6 1 < (thermometer sh 360 64).getD 0 then cImageRollback
    else cOk

/-- 16 MiB and 32 MiB: the greatest images (R418). -/
def fwMax : Nat := 0x1000000
def cfgMax : Nat := 0x2000000

/-- The check of a slot: firmware image, then configuration image (R405). A slot left at status 3 fails as it stands (R439). -/
def slotCheck (sh : BitVec 32768) (k : FlashSlot) : Code :=
  let a := imageCode sh 0 fwMax k.firmware
  if a != cOk then a else
    let b := imageCode sh 1 cfgMax k.config
    if b != cOk then b else if k.status = 3 then cImageFormat else cOk

def Flash.slot (f : Flash) (n : Nat) : FlashSlot := if n = 0 then f.slotA else f.slotB
def Flash.setSlot (f : Flash) (n : Nat) (k : FlashSlot) : Flash := if n = 0 then { f with slotA := k } else { f with slotB := k }

/-- The status of a checked slot (Table 16.8): an empty slot stays empty. -/
def FlashSlot.checked (k : FlashSlot) (c : Code) : FlashSlot :=
  { k with status := if c = cOk then 1 else if k.status = 0 then 0 else 2 }

/-- An image as it was accepted: header and body. -/
def imageOf (img : List Byte) : List Byte := img.take (512 + leAt img 8 8)

/-- A zero-padded STR field without its padding. -/
def strOf (bs : List Byte) : List Byte := bs.takeWhile (· != 0)

/-- Fuse bits [32767:256] as 4,064 bytes (R472). -/
def fuseMeasure (b : BitVec 32768) : Digest := sha512 (leBytes 4064 (b.toNat >>> 256))

/-- Boot from slot `n`: versions, measurement registers, keys (R405, R467, R472). -/
def State.bootSlot (s : State) (n : Nat) (fell : Bool) : State :=
  let k := s.flash.slot n
  let fw := imageOf k.firmware
  let cf := imageOf k.config
  { s with
    boot := { s.boot with
      stage := .clockAlign, slotBooted := n, fellBack := fell
      fwVersion := strOf ((fw.drop 16).take 64), configVersion := strOf ((cf.drop 16).take 64)
      rollbackFloor := min (leAt fw 6 1) (leAt cf 6 1)
      mBoxwood := Config.boxwoodHash, mFirmware := sha512 fw, mConfig := sha512 cf, mFuses := fuseMeasure s.fuses.bits
      keysDerived := lcState s.fuses.shadow != 4 } }

/-- What Vigil reports at a power-up: a gap in the log (R422) and a dump lost in its flush (R381). -/
def State.powerUpReports (s : State) : State :=
  let s := match s.flash.log.getLast? with
    | some r => if r.code = cPowerFailFlush then s else s.record (uidVigil 0 0) cEventLogGap 0 0
    | none => s
  if s.flash.dumpOpen then { s.record (uidVigil 1 1) cCrashDumpLost 0 0 with flash := { s.flash with dumpOpen := false } } else s

/-- BOOT_IMAGE (R405, R406, R422, R467, R472). -/
def execBootImage (s : State) : Out :=
  if !(s.boot.powered && s.boot.stage == .bootImage) then .next s
  else
    let s := if s.boot.chipResetting then s else s.powerUpReports
    let sh := s.fuses.shadow
    let a := s.store.bootSlot
    let b := 1 - a
    let ca := slotCheck sh (s.flash.slot a)
    let s := { s with flash := s.flash.setSlot a ((s.flash.slot a).checked ca) }
    if ca = cOk then .next (s.bootSlot a false)
    else
      let s := s.record (uidVigil 1 a) ca 2 0
      let cb := slotCheck sh (s.flash.slot b)
      let s := { s with flash := s.flash.setSlot b ((s.flash.slot b).checked cb) }
      if cb = cOk then .next ((s.record (uidVigil 1 b) cBootSlotFallback 0 0).bootSlot b true)
      else
        let s := (s.record (uidVigil 1 b) cb 2 0).record (uidVigil 0 0) cBootImageInvalid 4 0
        .next ({ s with boot := { s.boot with stage := .recovery }, pins := { s.pins with faultN := true } } : State).heldReset

/-- How an alignment ends (R386, R387): attempts used, did the PLL lock, is it aligned. -/
def alignRun : Nat → List AlignTry → Nat × Bool × Bool
  | n, [] => (n, false, false)
  | n, t :: ts =>
    if !t.locked then (n + 1, false, false)
    else if t.phaseOk then (n + 1, true, true)
    else if n + 1 = 3 then (3, true, false)
    else match ts with
      | [] => (n + 1, true, false)
      | _ => alignRun (n + 1) ts

/-- CLOCK_ALIGN (R386, R387, R393). Without a reference the stage fails (R394). -/
def execClockAlign (tries : List AlignTry) (delays : List UnitDelay) (s : State) : Out :=
  if !(s.boot.powered && s.boot.stage == .clockAlign) then .next s
  else
    let (n, lock, ok) := if s.pins.refclk then alignRun 0 tries else (min 1 tries.length, false, false)
    let c := { s.clk with pllLock := lock, alignTries := n, alignOk := ok }
    if ok then
      .next { s with
        clk := { c with aligned := true, uptime := 0, onBypass := false
                        unitDelay := delays.foldl (fun m d => NMap.set m d.unit.toNat d.delay) [] }
        boot := { s.boot with stage := .memTrain } }
    else .next (({ s with clk := c } : State).record (uidVigil 0 0) cClockAlignFailed 4 0).halt

/-- MEM_TRAIN (R407, R152). -/
def execMemTrain (fails : List TrainFault) (s : State) : Out :=
  if !(s.boot.powered && s.boot.stage == .memTrain) then .next s
  else if fails.isEmpty then
    .next { s with memsys := { s.memsys with twinReserveActive := s.store.twinReserve }, boot := { s.boot with stage := .wipe } }
  else .next (fails.foldl (fun s f => s.record (uidLpddr f.ctrl f.channel) cMemTrainFailed 4 0) s).halt

/-- The unit that holds a memory address: the LPDDR controller and channel, or the tile memory of a logical core (Table 7.1). -/
def State.memUnit (s : State) (a : Nat) : BitVec 32 :=
  if a < lpddrEnd then uidLpddr (ctrlOf a) (channelOf a)
  else uidCore (s.phys ((a - tileBase) / 0x2000000)) 3 ((a - tileBase) % 0x2000000 / 16 % 32)

/-- WIPE (R408, R415): every memory holds zeros under slot 0, the key slots are clear, every granule is free. -/
def execWipe (bad : List Nat) (s : State) : Out :=
  if !(s.boot.powered && s.boot.stage == .wipe) then .next s
  else
    let s := { s with memsys := { twinReserveActive := s.memsys.twinReserveActive }, ctxs := {}, sched := {}, vec := [], exch := [], runs := [] }
    if bad.isEmpty then .next { s with boot := { s.boot with stage := .selfTest } }
    else .next (bad.foldl (fun s a => s.record (s.memUnit a) cWipeFailed 4 a) s).halt

/-- Is `core_bad` set for a physical core (Table 15.2)? -/
def coreBad (sh : BitVec 32768) (p : Nat) : Bool := flag sh (584 + p)

/-- The spare indices a partition's `spare_map` names. -/
def spareMap (sh : BitVec 32768) (part : Nat) : List Nat := [fld sh (1416 + 12 * part) 6, fld sh (1422 + 12 * part) 6]

/-- The candidate order of a partition (R410), as physical cores. -/
def candidates (sh : BitVec 32768) (good : Nat → Bool) (part : Nat) : List Nat :=
  let sp := spareMap sh part
  let g := (List.range 52).filter (fun i => good (52 * part + i))
  ((g.filter (fun i => !sp.contains i)) ++ (g.filter (fun i => sp.contains i))).map (· + 52 * part)

/-- SELF_TEST (R347, R409 to R411). -/
def execSelfTest (fails : List KatFail) (s : State) : Out :=
  if !(s.boot.powered && s.boot.stage == .selfTest) then .next s
  else
    let sh := s.fuses.shadow
    let run := fails.filter (fun f => decide (f.core < Config.physCores) && !coreBad sh f.core)
    let good := fun p => !coreBad sh p && !s.store.retired.contains p && !run.any (fun f => f.core == p)
    let s := run.foldl (fun s f => s.record (uidCore f.core 0 0) cKatMismatch 3
      (f.kernel % 256 + f.core * 2 ^ 8 + 2 ^ 18 + f.hash8.toNat * 2 ^ 64)) s
    let cs := (List.range 16).map (candidates sh good)
    let map := ((List.range 16).zip cs).flatMap (fun e => ((List.range 50).zip e.2).map (fun x => (50 * e.1 + x.1, x.2)))
    let s := { s with
      cores := { s.cores with map := map, good := cs.flatten, spares := cs.flatMap (fun l => l.drop 50) }
      boot := { s.boot with stage := .linkUp, degraded := cs.any (fun l => decide (l.length < 50)) } }
    .next (cs.foldl (fun s l =>
      if l.length < 50 then s.record (uidVigil 0 0) cCoreShortfall 4 0
      else if l.length = 50 then s.record (uidVigil 0 0) cPartitionNoSpare 0 0 else s) s)

/-- The receive buffers of a link in units, by lane (R263, R455); a host port's are those its adapter advertises (R446). -/
def laneCaps : LinkRef → List Nat
  | .fabric _ => [512, 5120, 1536, 1536]
  | .host _ => [0, 0, 0, 0, 0, 0, 0, 0]
  | .bridge => [0, 0, 0, 16384]

/-- A link after its training (R255): UP with fresh sequence numbers, credits, buffers and violation count (Table 10.7), or DOWN. -/
def Link.trained (k : Link) (l : LinkRef) (now : Nat) (ok : Bool) : Link :=
  if ok then
    { state := .up, unit := .running, capUnits := laneCaps l, lastReturn := now
      partnerViol := k.partnerViol, retrainStamps := k.retrainStamps, lastViolRecord := k.lastViolRecord, violStamps := k.violStamps, ctr := k.ctr }
  else { k with state := .down, unit := .stopped }

/-- LINK_UP (R412, R441, R456): enabled fabric ports, both host ports and, in a twin position, the bridge end UP or DOWN. -/
def execLinkUp (up : List LinkRef) (s : State) : Out :=
  if !(s.boot.powered && s.boot.stage == .linkUp && (s.link (.host 0)).state == .disabled) then .next s
  else
    let sense := s.pins.twinSenseLow
    let ports := (List.range 32).filter (fun n => NMap.getD s.store.medium n 0 != 0)
    let s := { s with twin := { s.twin with sense := sense } }
    let s := (ports.map LinkRef.fabric ++ [LinkRef.host 0, LinkRef.host 1] ++ (if sense then [LinkRef.bridge] else [])).foldl
      (fun s l => s.updLink l (fun k => k.trained l s.now (up.contains l))) s
    if !sense then .next s
    else if up.contains .bridge then .next (s.cellOut .bridge s.identCell)
    else .next (s.record (uidLink .bridge 0) cTwinAbsent 0 0)

/-- Burn `rollback` bits up to a floor (R406). -/
def burnRollback (b : BitVec 32768) (floor : Nat) : BitVec 32768 :=
  if (thermometer b 360 64).getD 0 < floor then setFld b 360 64 (2 ^ floor - 1) else b

/-- ENTER_RELEASED (R406, R413): the uptime counter restarts, the record is written, FAULT_N is released; a held chip reset is performed (R416). -/
def execEnterReleased (s : State) : Out :=
  if !(s.boot.powered && s.boot.stage == .linkUp && (s.link (.host 0)).state != .disabled) then .next s
  else
    let s := { s with
      clk := { s.clk with uptime := 0 }
      pins := { s.pins with faultN := true }
      boot := { s.boot with stage := .released, chipResetting := false, faultLowSince := none, reportSeq := 0, heldChipReset := false }
      vigil := { s.vigil with secondsFrom := s.now }
      fuses := { s.fuses with bits := burnRollback s.fuses.bits s.boot.rollbackFloor, shadow := burnRollback s.fuses.shadow s.boot.rollbackFloor } }
    let held := s.boot.heldChipReset
    let s := s.record (uidVigil 0 0) cReleased 0 (Config.releasedDetail (s.boot.slotBooted == 1) Config.numericsLevel s.boot.degraded).toNat
    .next (if held then s.startChipReset noTrigger else s)

/-! ### Power and pin events -/

/-- PWR_EN_FALL (R416, R489): every stage stops, the rails go down, a trip latch clears. -/
def execPwrEnFall (s : State) : Out :=
  if !s.pins.pwrEn then .next s
  else
    let s := s.railsDown
    .next { s with pins := { s.pins with pwrEn := false, pwrEnFellAt := some s.now, pwrEnHeld := false, tripLatch := false, thermtripN := true } }

/-- INPUT_UNDERVOLTAGE (R490): PGOOD goes as PWR_EN would take it. -/
def execInputUndervoltage (s : State) : Out :=
  let s := s.railsDown
  .next { s with pins := { s.pins with inputOk := false, pwrEnHeld := false } }

/-- INPUT_POWER_RETURN (R490): above 42 V the regulators are let go, and with PWR_EN high power-up starts at RAILS. -/
def execInputPowerReturn (s : State) : Out :=
  if s.pins.inputOk then .next s
  else
    let s := { s with pins := { s.pins with inputOk := true } }
    .next (if s.pins.pwrEn && !s.pins.tripLatch then s.startRails else s)

/-- POWER_FAIL_FLUSH (R419, R421): the buffered records, at least 96 of them, and the marker reach flash; then Vigil stops. -/
def execPowerFailFlush (written : Nat) (s : State) : Out :=
  if s.pins.pgood || s.boot.stage == .rails then .next s
  else
    let n := min (max written 96) s.vigil.buffer.length
    let left := s.vigil.buffer.length - n
    let f := (s.vigil.buffer.take n).foldl Flash.append s.flash
    let s := { s with vigil := { s.vigil with buffer := [] } }
    let t := s.record (uidVigil 0 0) cPowerFailFlush 0 (left % 2 ^ 32 + s.vigil.seconds * 2 ^ 64)
    let f := t.vigil.buffer.foldl Flash.append f
    .next { t.unpowered with flash := f.saveStore { f.store with serviceSeconds := s.vigil.seconds } }

/-- THERMTRIP (R489): the latch drives THERMTRIP_N low and every regulator goes off. -/
def execThermtrip (_sensor : Nat) (s : State) : Out :=
  if !s.pins.inputOk then .next s
  else
    let s := s.railsDown
    .next { s with pins := { s.pins with thermtripN := false, tripLatch := true } }

/-- RESET_N_FALL (R488, R497): a low pulse of at least 1 µs requests a chip reset. -/
def execResetNFall (lowNs : Nat) (s : State) : Out :=
  if lowNs < 1000 || !s.pins.pwrEn || !s.boot.powered then .next s else .next (s.requestChipReset noTrigger)

/-- REFCLK_LOST (R394): `ref_lost` is set and Vigil's bypass clock is the on-die oscillator. -/
def execRefclkLost (s : State) : Out :=
  if !s.boot.powered then .next { s with pins := { s.pins with refclk := false } }
  else .next { s with pins := { s.pins with refclk := false }, clk := { s.clk with refLost := true, onFallback := true } }

/-- REFCLK_RESTORED (R393): the bypass clock is REFCLK again. -/
def execRefclkRestored (s : State) : Out :=
  .next { s with pins := { s.pins with refclk := true }, clk := { s.clk with onFallback := false } }

/-- PLL_LOCK_LOST (R395). -/
def execPllLockLost (s : State) : Out :=
  if !s.clk.aligned then .next s
  else
    let s := s.record (uidVigil 0 0) cPllLockLost 4 0
    let s := { s with clk := { s.clk with aligned := false, pllLock := false, lockLost := true, onBypass := true } }
    .next (s.startChipReset s.lastSeq)

/-- VIGIL_WATCHDOG (R359): FAULT_N is driven low. -/
def execVigilWatchdog (s : State) : Out :=
  if !s.boot.powered then .next s
  else .next { s with pins := { s.pins with faultN := false }, boot := { s.boot with faultLowSince := some (s.boot.faultLowSince.getD s.now) } }

/-- VIGIL_SRAM_UNCORRECTABLE (R417): a severity-4 record and a chip reset. -/
def execVigilSramUncorrectable (s : State) : Out :=
  if !s.boot.powered then .next s
  else
    let s := s.record (uidVigil 0 0) cVigilSramUncorrectable 4 0
    .next (s.startChipReset s.lastSeq)

/-- PWR_EN_LOW_TIME_EXPIRE (R487): a held rise is acted on once 100 ms have passed since the fall. -/
def execPwrEnLowTimeExpire (s : State) : Out :=
  if !(s.pins.pwrEnHeld && s.pins.pwrEn && s.pins.inputOk) then .next s
  else .next (s.advanceTo (s.pins.pwrEnFellAt.getD 0 + 100 * Config.msCycles)).startRails

end Sys2Proof.Machine
end

