-- ==== Sys2Proof/Machine/DictTable.lean ====
section
/-! DEFINITION. The object dictionary's table (Tables 16.8 to 16.12, 17.7): which objects exist, their sizes and who may access them. -/

namespace Sys2Proof.Machine

/-- An object: the size of its value in bytes (greatest size of a STR or DOMAIN), its kind, entry granule, readability, writability, and the least
privilege to write and read it (0 Observer, 1 Operator, 2 Provisioner, 3 Vendor; R427). -/
structure ObjInfo where
  size : Nat
  str : Bool := false
  domain : Bool := false
  granule : Nat := 1
  rd : Bool := true
  wr : Bool := false
  level : Nat := 1
  rdLevel : Nat := 0
deriving DecidableEq, Repr

def oRo (n : Nat) : Option ObjInfo := some { size := n }
def oRw (n : Nat) (lvl : Nat := 1) : Option ObjInfo := some { size := n, wr := true, level := lvl }
def oWo (n : Nat) (lvl : Nat := 1) : Option ObjInfo := some { size := n, rd := false, wr := true, level := lvl }
def oStr : Option ObjInfo := some { size := 64, str := true }
def oDomRo (n : Nat) : Option ObjInfo := some { size := n, domain := true }
def oDomRw (n g : Nat) (lvl : Nat := 1) : Option ObjInfo := some { size := n, domain := true, granule := g, wr := true, level := lvl }
def oDomWo (n g : Nat) (lvl : Nat := 1) : Option ObjInfo := some { size := n, domain := true, granule := g, rd := false, wr := true, level := lvl }

/-- The greatest size of a DOMAIN (Table 16.3). -/
def domMax : Nat := 0x10000000

/-- The objects of the fixed indices, without privilege to read. -/
def objFixed (i sub : Nat) : Option ObjInfo := match i, sub with
  | 0x1000, 0x01 | 0x1000, 0x02 | 0x1000, 0x03 | 0x1000, 0x07 | 0x1000, 0x08 => oStr
  | 0x1000, 0x04 | 0x1000, 0x06 => oRo 8
  | 0x1000, 0x05 | 0x1000, 0x09 | 0x1000, 0x0A | 0x1000, 0x0B => oRo 1
  | 0x1100, 0x01 => oRo 8
  | 0x1100, 0x02 | 0x1100, 0x03 | 0x1100, 0x04 | 0x1100, 0x06 => oRw 1
  | 0x1100, 0x05 => oDomRw 128 16 2
  | 0x1100, 0x07 => oRo 4
  | 0x1200, 0x01 => oRo 1
  | 0x1200, 0x02 => oWo 1 2
  | 0x1200, 0x03 => oDomRo 16
  | 0x1200, 0x04 => oDomWo 64 64
  | 0x1200, 0x05 => oDomRo 892
  | 0x1200, 0x06 => oDomRo domMax
  | 0x1200, 0x07 => oDomWo 133 133 3
  | 0x1200, 0x08 => oDomWo 1048320 256 2
  | 0x1200, 0x09 => oWo 2 2
  | 0x1200, 0x0A => oRo 2
  | 0x1300, 0x01 | 0x1300, 0x03 | 0x1300, 0x04 | 0x1300, 0x08 => oRo 1
  | 0x1300, 0x02 => oRw 1 2
  | 0x1300, 0x05 => oRo 2
  | 0x1300, 0x06 => oDomWo fwMax 1 2
  | 0x1300, 0x07 => oDomWo cfgMax 1 2
  | 0x1300, 0x09 => oWo 1
  | 0x2000, 0x01 | 0x2000, 0x02 | 0x2000, 0x05 => oRo 2
  | 0x2000, 0x03 | 0x2000, 0x04 => oRw 2
  | 0x2000, 0x06 => oRo 1
  | 0x2103, 0x01 => oRo 4
  | 0x2103, 0x02 => oRo 2
  | 0x2103, 0x03 => oRo 8
  | 0x2200, 0x01 | 0x2200, 0x02 => oRo 8
  | 0x2200, 0x03 => oDomRo 0x1000000
  | 0x2200, 0x04 => oRo 2
  | 0x2200, 0x05 => oRo 4
  | 0x2300, 0x01 => oWo 1
  | 0x2300, 0x02 => oDomRo 3008
  | 0x2300, 0x03 => oDomRo (47 * 0x100000)
  | 0x2300, 0x04 => oDomRo 0x1000000
  | 0x2300, 0x05 | 0x2300, 0x06 => oRo 4
  | 0x5010, 0x01 => oRw 2
  | 0x5010, 0x02 => oRo 2
  | 0x5010, 0x03 => oRo 4
  | 0x5120, 0x01 | 0x5120, 0x20 | 0x5120, 0x21 | 0x5120, 0x24 | 0x5120, 0x25 => oRo 1
  | 0x5120, 0x02 | 0x5120, 0x26 => oWo 1
  | 0x5120, 0x22 | 0x5120, 0x27 | 0x5120, 0x29 | 0x5120, 0x2A => oRo 8
  | 0x5120, 0x23 | 0x5120, 0x28 => oRo 4
  | 0x5130, 0x28 => oDomRw 8192 8
  | 0x5130, 0x29 => oDomRw 65536 16
  | 0x6000, 0x01 => oWo 1
  | 0x6000, 0x02 => oRo 4
  | 0x6000, 0x03 | 0x6000, 0x04 => oRo 8
  | 0x6000, 0x05 => oRw 8
  | 0x7000, 0x01 => oRw 2
  | 0x7000, 0x02 => oDomRw 0x100000 16
  | 0x7000, 0x03 => oRo 2
  | 0x7001, 0x01 => oDomWo 128 128
  | 0x7001, 0x02 | 0x7001, 0x04 => oWo 1
  | 0x7001, 0x03 => oRo 1
  | 0x7001, 0x05 => oDomWo domMax 1
  | 0x7002, 0x01 => oDomRw 0x80000 8
  | 0x7002, 0x02 => oDomRw 131072 8
  | 0x7002, 0x03 => oDomRw 256 4
  | 0x7002, 0x04 => oDomRw 0x100000 4
  | 0x7002, 0x05 => oDomRw 32768 8
  | 0x7002, 0x06 => oDomRw 524288 128
  | 0x7003, 0x01 => oWo 1
  | 0x7003, 0x02 | 0x7003, 0x03 => oDomRo domMax
  | 0x7003, 0x04 => oDomWo domMax 1
  | 0x7003, 0x05 | 0x7003, 0x06 => oRo 8
  | 0x7100, 0x01 => oDomRw 0x8000000 128
  | 0x7100, 0x02 | 0x7100, 0x05 => oWo 4
  | 0x7100, 0x03 => oDomRo 0x100000
  | 0x7100, 0x04 => oRw 2
  | 0x7100, 0x06 => oRo 4
  | 0x7200, 0x01 => oRw 4
  | 0x7200, 0x02 => oDomRw 0x100000 4
  | 0x7200, 0x03 | 0x7200, 0x04 => oDomRw 8192 8
  | 0x7200, 0x05 => oDomRw 262144 4
  | 0x7200, 0x06 => oWo 8
  | 0x7200, 0x07 => oRw 2
  | 0x7200, 0x08 => oRo 1
  | 0x7300, 0x01 | 0x7300, 0x05 => oRo 1
  | 0x7300, 0x02 | 0x7300, 0x03 => oRo 8
  | 0x7300, 0x04 => oDomRo 128
  | _, _ => none

/-- The objects of the repeated indices (Tables 16.9, 16.10, 17.7). -/
def objRepeated (i sub : Nat) : Option ObjInfo :=
  if i = 0x2100 then (if 1 ≤ sub ∧ sub ≤ 0x80 then oRo 2 else none)
  else if i = 0x2101 then (if 1 ≤ sub ∧ sub ≤ 0x30 then oRo 2 else none)
  else if i = 0x2102 then (if 1 ≤ sub ∧ sub ≤ 0x18 then oRo 2 else none)
  else if 0x3000 ≤ i ∧ i < 0x3010 then
    (if sub = 1 then oRo 2 else if 2 ≤ sub ∧ sub ≤ 4 then oRo 1 else if sub = 5 then oWo 1 else none)
  else if 0x4000 ≤ i ∧ i < 0x4320 then
    (if sub = 1 then oRo 2 else if sub = 2 ∨ sub = 5 ∨ sub = 0x1B then oRo 1 else if sub = 3 ∨ sub = 4 then oWo 1
     else if sub = 6 ∨ sub = 7 then oRo 4 else if 0x10 ≤ sub ∧ sub ≤ 0x15 then oRo 8 else if 0x16 ≤ sub ∧ sub ≤ 0x19 then oRo 4
     else if sub = 0x1A then oRo 8 else none)
  else if 0x5000 ≤ i ∧ i < 0x5008 then
    (if sub = 1 then oRo 1 else if sub = 2 ∨ sub = 3 then oRo 4 else if sub = 4 then oRo 8 else none)
  else if 0x5100 ≤ i ∧ i < 0x5120 then
    (if sub = 1 then oRo 1 else if sub = 2 then oRw 1 else if sub = 3 then oWo 1 else if 4 ≤ sub ∧ sub ≤ 9 then oRo 8
     else if sub = 0x0A then oRo 2 else none)
  else if i = 0x5130 ∨ i = 0x5131 then
    (if sub = 1 ∨ sub = 0x20 then oRo 1 else if sub = 2 then oWo 1 else if sub = 0x21 then oRw 1
     else if 0x22 ≤ sub ∧ sub ≤ 0x24 then oRo 8 else if 0x25 ≤ sub ∧ sub ≤ 0x27 then oRo 4 else if sub = 0x2A then oRo 2
     else if sub = 0x2B then oRo 4 else none)
  else if i = 0x6001 then (if 1 ≤ sub ∧ sub ≤ 0x0B then oRo 8 else none)
  else none

/-- The object at an index and a nonzero subindex. -/
def objAt (i sub : Nat) : Option ObjInfo := (objFixed i sub).or (objRepeated i sub)

/-- The highest subindex defined at an index, 0 where the index does not exist (R425). -/
def highestSub (i : Nat) : Nat := ((List.range 256).filter (fun k => (objAt i k).isSome)).getLastD 0

/-- The least privilege to read an object (R427). -/
def readLevel (i sub : Nat) : Nat :=
  if (0x7100 ≤ i ∧ i ≤ 0x72FF) ∨ (i = 0x2200 ∧ sub = 3) ∨ (i = 0x2300 ∧ (sub = 3 ∨ sub = 4)) ∨ (i = 0x7003 ∧ sub = 3) then 1 else 0

/-- An object with its privilege to read; subindex 0 of an index in use is a Constant U8 (R425). -/
def objInfo (i sub : Nat) : Option ObjInfo :=
  if sub = 0 then (if highestSub i = 0 then none else oRo 1)
  else (objAt i sub).map (fun o => { o with rdLevel := readLevel i sub })

/-- Why an index and subindex name no object (Table 16.7). -/
def noObject (i : Nat) : Code := if highestSub i = 0 then cObjNoIndex else cObjNoSubindex

end Sys2Proof.Machine
end

