-- ==== Sys2Proof/Machine/Dict.lean ====
section
/-! DEFINITION. The object dictionary's protocol (R425 to R436): requesters, kept responses, privilege, transfers and authorisation. -/

namespace Sys2Proof.Machine

/-! ### Requesters (R428) -/

/-- What Vigil keeps of a requester, or a fresh entry. -/
def State.reqOf (s : State) (w : Requester) : ReqState := (s.vigil.requesters.find? (fun r => r.who == w)).getD { who := w, lastUse := s.now }

/-- Keep at most 16 requesters: the one idle longest gives way (R428). -/
def evictOldest (l : List ReqState) : List ReqState :=
  if l.length < 16 then l
  else
    let m := l.foldl (fun m r => min m r.lastUse) ((l.head?.map ReqState.lastUse).getD 0)
    match l.findIdx? (fun r => r.lastUse == m) with
    | some i => l.eraseIdx i
    | none => l

/-- Store a requester's entry. -/
def State.setReq (s : State) (r : ReqState) : State :=
  let l := s.vigil.requesters
  let l := if l.any (fun x => x.who == r.who) then l.map (fun x => if x.who == r.who then r else x) else evictOldest l ++ [r]
  { s with vigil := { s.vigil with requesters := l } }

/-- A requester's entry with its last use now. -/
def State.touch (s : State) (w : Requester) : State := s.setReq { s.reqOf w with lastUse := s.now }

def State.updReq (s : State) (w : Requester) (f : ReqState → ReqState) : State := s.setReq (f (s.reqOf w))

/-! ### Messages (R430, R431) -/

/-- The bytes of a response message (Table 16.4). -/
def Response.bytes (r : Response) : List Byte :=
  [1, r.op] ++ leBytes 2 r.seq.toNat ++ leBytes 2 r.index.toNat ++ [r.sub, 0] ++ leBytes 4 r.status.toNat ++ leBytes 2 r.payload.length ++ [0, 0] ++
    r.payload

/-- Send a response: a datagram, or DICT on the port the request came on (R429). -/
def State.sendResponse (s : State) (w : Requester) (r : Response) : State := match w with
  | .yalvo p => s.hostSend p 6 (packetHdr 6 r.bytes.length 0 0 0 0 0 0) r.bytes
  | .field _ _ => { s with vigil := { s.vigil with out := s.vigil.out ++ [.response w r] } }

/-- Send a response and keep it among the requester's last 32 (R432). -/
def State.respond (s : State) (w : Requester) (r : Response) : State :=
  (s.sendResponse w r).updReq w (fun x => { x with kept := (x.kept ++ [r]).drop (x.kept.length + 1 - 32) })

/-- Does Vigil, or Boxwood in RECOVERY, answer this requester (R402, R405, R429)? -/
def State.answers (s : State) (w : Requester) : Bool :=
  s.boot.powered && s.pins.pgood &&
  (match s.boot.stage with
    | .rails | .boxwood | .bootImage => false
    | .recovery => (match w with | .field _ _ => true | .yalvo _ => false)
    | _ => true) &&
  (match w with | .field _ _ => s.vigil.fieldState != 2 | .yalvo _ => true)

/-- What RETIRED leaves of the dictionary (Table 15.4): reads of the identity, the life-cycle state, the event log and Yew. -/
def retiredReads (op i sub : Nat) : Bool :=
  (op == 1 || op == 3) && ((0x1000 ≤ i && i ≤ 0x10FF) || (i == 0x1200 && sub == 1) || i == 0x2200 || i == 0x2300)

/-- Why an object is out of reach in the present stage (R405, Table 16.14) or life-cycle state (R414). AUTH names no object, and a life-cycle request in
RECOVERY has an answer of its own (Table 15.6). -/
def State.reachCode (s : State) (op i sub : Nat) : Code :=
  if s.boot.stage == .recovery then
    (if (0x1000 ≤ i && i ≤ 0x10FF) || (0x1300 ≤ i && i ≤ 0x13FF) || op == 8 || (i == 0x1200 && sub == 2) then cOk else cNotReleased)
  else if lcState s.fuses.shadow == 4 && op != 8 && !retiredReads op i sub then cLcState else cOk

/-- Is an object in reach? -/
def State.inReach (s : State) (op i sub : Nat) : Bool := s.reachCode op i sub == cOk

/-- A DICT packet that waits in a host port's receive buffer is taken out and its units are freed (R446). -/
def State.takeDict (s : State) (w : Requester) : State := match w with
  | .field _ _ => s
  | .yalvo p => s.updLink (.host p) (fun k => match k.rx.find? (fun i => i.lane == 6) with
    | none => k
    | some i => { k with rx := k.rx.erase i, freedUnits := updAt k.freedUnits 6 (fun n => (n + 1 + cdiv i.data.length 32) % 2 ^ 32) })

/-- Serve one request (R428, R432): a repeated `sequence` gets its kept response again, a ninth outstanding one BUSY, and any other is executed by
`act`, which answers a code and a payload, or nothing yet (the response then waits). The second part of the answer is the code, and `cBusy` where
nothing was executed. -/
def State.dictOpt (s : State) (q : Req) (op : Nat) (i sub : Nat) (act : State → State × Option (Code × List Byte)) : State × Code :=
  if !s.answers q.who then (s, cBusy)
  else
    let s := (s.takeDict q.who).touch q.who
    let x := s.reqOf q.who
    let res := fun (c : Code) (pl : List Byte) =>
      (⟨BitVec.ofNat 8 (op + 128), q.seq, BitVec.ofNat 16 i, BitVec.ofNat 8 sub, c, if c = cOk then pl else []⟩ : Response)
    match x.kept.find? (fun r => r.seq == q.seq) with
    | some r => (s.sendResponse q.who r, cBusy)
    | none =>
      if x.deferred.contains q.seq then (s, cBusy)
      else if 8 ≤ x.deferred.length then (s.respond q.who (res cBusy []), cBusy)
      else if !s.inReach op i sub then (s.respond q.who (res (s.reachCode op i sub) []), s.reachCode op i sub)
      else match act s with
        | (t, some (c, pl)) => (t.respond q.who (res c pl), c)
        | (t, none) => (t.updReq q.who (fun x => { x with deferred := x.deferred ++ [q.seq] }), cOk)

/-- A request answered at once. -/
def State.dict (s : State) (q : Req) (op : Nat) (i sub : Nat) (act : State → State × Code × List Byte) : State × Code :=
  s.dictOpt q op i sub (fun s => let (t, c, pl) := act s; (t, some (c, pl)))

/-- The response of a request that waited. -/
def State.answerLater (s : State) (q : Req) (op i sub : Nat) (c : Code) : State :=
  if ((s.reqOf q.who).deferred.contains q.seq) then
    (s.updReq q.who (fun x => { x with deferred := x.deferred.erase q.seq })).respond q.who
      ⟨BitVec.ofNat 8 (op + 128), q.seq, BitVec.ofNat 16 i, BitVec.ofNat 8 sub, c, []⟩
  else s

/-! ### Privilege (R427, R434, R477) -/

/-- Is an elevation in force (R434)? -/
def Elevation.live (e : Elevation) (now : Nat) : Bool := e.inTransfer || decide (now ≤ e.grantedAt + 10 * Config.sCycles)

/-- Does an elevation cover an object (R477)? -/
def Elevation.covers (e : Elevation) (i sub : Nat) : Bool :=
  (e.index.toNat == i && e.sub.toNat == sub) || (e.index == 0xFFFF && e.sub == 0xFF)

/-- The privilege of a requester without elevation. -/
def State.baseLevel (s : State) (w : Requester) : Nat := match w with
  | .yalvo _ => 1
  | .field a _ => if s.store.operatorNodes.contains a then 1 else 0

/-- May the requester write the object, which needs `need`? An elevation in force speaks for its own object only (R477). -/
def State.mayWrite (s : State) (w : Requester) (i sub need : Nat) : Bool :=
  match (s.reqOf w).elevation with
  | some e => if e.live s.now then e.covers i sub && decide (need ≤ e.level) else decide (need ≤ s.baseLevel w)
  | none => decide (need ≤ s.baseLevel w)

/-- An elevation ends with the write it was granted for. -/
def State.endElevation (s : State) (w : Requester) : State := s.updReq w (fun x => { x with elevation := none })

/-- A WRITE (R426, R427, R431): existence, access, privilege and length, then the object's own action. -/
def State.dictWrite (s : State) (q : Req) (i sub : Nat) (bytes : List Byte) (act : State → State × Code) : State × Code :=
  s.dict q 2 i sub (fun s =>
    match objInfo i sub with
    | none => (s, noObject i, [])
    | some o =>
      if !o.wr then (s, cObjReadOnly, [])
      else if o.domain then (s, cObjTypeLength, [])
      else if !s.mayWrite q.who i sub o.level then (s.endElevation q.who, cObjPrivilege, [])
      else
        let s := s.endElevation q.who
        if (o.str && 64 < bytes.length) || (!o.str && bytes.length != o.size) then (s, cObjTypeLength, [])
        else
          let (t, c) := act s
          (t, c, []))

/-- A DOMAIN_END (R433): the transfer and its SHA-512, then the object's own checks and its action on the bytes. The transfer is over either way. -/
def State.dictEnd (s : State) (q : Req) (i sub : Nat) (sha : Digest) (act : State → Transfer → State × Code) : State × Code :=
  s.dict q 6 i sub (fun s =>
    match (s.reqOf q.who).transfer with
    | none => (s, cDomainNoTransfer, [])
    | some t =>
      if t.index.toNat != i || t.sub.toNat != sub then (s, cDomainNoTransfer, [])
      else if !s.mayWrite q.who i sub ((objInfo i sub).getD { size := 0 }).level then (s, cObjPrivilege, [])
      else
        let s := s.updReq q.who (fun x => { x with transfer := none, elevation := none })
        if t.got.length != t.total then (s, cDomainSize, [])
        else if sha512 t.got != sha then (s, cDomainDigest, [])
        else
          let (u, c) := act s t
          (u, c, []))

/-- The run slot a requester has selected (Table 16.12). -/
def State.selected (s : State) (w : Requester) : Option Nat :=
  let r := (s.reqOf w).runSelect.toNat
  if r < 4096 then some r else none

/-! ### Transfers (R433) -/

/-- Is the object run-scoped (Table 16.12)? -/
def runScoped (i : Nat) : Bool := (0x7001 ≤ i && i ≤ 0x70FF) || i == 0x7300

/-- The slot a firmware update writes: the one that does not run (R439). -/
def State.inactiveSlot (s : State) : Nat := 1 - s.boot.slotBooted

/-- DOMAIN_BEGIN (R433, R439). -/
def execDomainBegin (q : Req) (index : BitVec 16) (sub : Byte) (offset total : Nat) (s : State) : Out :=
  .next (s.dict q 4 index.toNat sub.toNat (fun s =>
    let i := index.toNat
    let k := sub.toNat
    match objInfo i k with
    | none => (s, noObject i, [])
    | some o =>
      if !o.wr then (s, cObjReadOnly, [])
      else if !o.domain then (s, cObjTypeLength, [])
      else if !s.mayWrite q.who i k o.level then (s.endElevation q.who, cObjPrivilege, [])
      else if o.size < offset + total || offset % o.granule != 0 || total % o.granule != 0 then (s.endElevation q.who, cDomainSize, [])
      else if s.vigil.requesters.any (fun r => r.who != q.who && (r.transfer.any (fun t => t.index == index && t.sub == sub))) then
        (s, cDomainBusy, [])
      else if runScoped i && (s.selected q.who).isNone then (s, cObjState, [])
      else if total = 0 then (s.endElevation q.who, cOk, [])
      else
        let s := s.updReq q.who (fun x => { x with
          transfer := some ⟨index, sub, x.runSelect.toNat, offset, total, [], none, s.now⟩
          elevation := x.elevation.map (fun e => { e with inTransfer := true }) })
        let s := if i = 0x1300 then
            let n := s.inactiveSlot
            let f := s.flash.slot n
            let f := if f.status = 3 then f else { f with fwDone := false, cfgDone := false }
            { s with flash := s.flash.setSlot n { f with status := 3 } } else s
        (s, cOk, []))).1

/-- DOMAIN_SEG (R433). -/
def execDomainSeg (q : Req) (index : BitVec 16) (sub : Byte) (offset : Nat) (bytes : List Byte) (s : State) : Out :=
  .next (s.dict q 5 index.toNat sub.toNat (fun s =>
    match (s.reqOf q.who).transfer with
    | none => (s, cDomainNoTransfer, [])
    | some t =>
      let at_ := t.offset + t.got.length
      if t.index != index || t.sub != sub then (s, cDomainNoTransfer, [])
      else if t.lastOffset == some offset && offset != at_ then
        (s.updReq q.who (fun x => { x with transfer := some { t with touchedAt := s.now } }), cOk, [])
      else if offset != at_ then (s.updReq q.who (fun x => { x with transfer := some { t with touchedAt := s.now } }), cDomainSequence, [])
      else if bytes.isEmpty || 1396 < bytes.length || t.total < t.got.length + bytes.length then (s, cDomainSize, [])
      else
        let t := { t with got := t.got ++ bytes, lastOffset := some offset, touchedAt := s.now }
        (s.updReq q.who (fun x => { x with transfer := some t }), cOk, []))).1

/-- A transfer is abandoned, with the elevation it used. -/
def ReqState.abandon (x : ReqState) : ReqState :=
  { x with transfer := none, elevation := if x.transfer.isSome then none else x.elevation }

/-- DOMAIN_CANCEL (R433). -/
def execDomainCancel (q : Req) (index : BitVec 16) (sub : Byte) (s : State) : Out :=
  .next (s.dict q 7 index.toNat sub.toNat (fun s =>
    match (s.reqOf q.who).transfer with
    | none => (s, cDomainNoTransfer, [])
    | some t => if t.index != index || t.sub != sub then (s, cDomainNoTransfer, []) else (s.updReq q.who ReqState.abandon, cOk, []))).1

/-- DOMAIN_TIMEOUT (R433): 10 s without a message abandon the transfer. -/
def execDomainTimeout (r : Requester) (s : State) : Out :=
  match (s.reqOf r).transfer with
  | none => .next s
  | some t => .next ((s.advanceTo (t.touchedAt + 10 * Config.sCycles)).updReq r ReqState.abandon)

/-- REQUESTER_EVICT (R428): 60 s idle. -/
def execRequesterEvict (r : Requester) (s : State) : Out :=
  if s.vigil.requesters.any (fun x => x.who == r) then
    let s := s.advanceTo ((s.reqOf r).lastUse + 60 * Config.sCycles)
    .next { s with vigil := { s.vigil with requesters := s.vigil.requesters.filter (fun x => x.who != r) } }
  else .next s

/-! ### Authorisation (R434, R477) -/

/-- NONCE_READ (R434): each read issues a new 16-byte nonce, a free value. -/
def execNonceRead (q : Req) (s : State) : Out :=
  .next (s.dict q 3 0x1200 3 (fun s =>
    let v := Config.freeNonce s.free
    let s := { s with free := s.free + 1 }
    (s.updReq q.who (fun x => { x with nonce := some ⟨v, s.now, false⟩ }), cOk, leBytes 16 v.toNat))).1

/-- The code a token gets (R434, R477): nonce first, then format, serial, level with its key, and signature. -/
def State.tokenCode (s : State) (x : ReqState) (tok : List Byte) : Code :=
  let sh := s.fuses.shadow
  let key := (tok.drop 32).take 133
  let level := leAt tok 3 1
  let hash := beNat (digestBytes (sha512 key))
  let fleet := beNat (leBytes 64 (fld sh 2120 512))
  let vendor := beNat (leBytes 64 (fld sh 1608 512))
  if tok.length != 300 then cAuthTokenInvalid
  else match x.nonce with
    | none => cAuthNonce
    | some n =>
      if n.used || n.issuedAt + 60 * Config.sCycles < s.now || leAt tok 16 16 != n.value.toNat then cAuthNonce
      else if leAt tok 0 2 != 0x4154 || leAt tok 2 1 != 1 || leAt tok 7 1 != 0 || leAt tok 165 3 != 0 || leAt tok 8 8 != s.serial then
        cAuthTokenInvalid
      else if !((level = 2 && fleet != 0 && hash == fleet) || (level = 3 && hash == vendor)) then cAuthTokenInvalid
      else if !ecdsaOk key ((tok.drop 168).take 132) (tok.take 168) then cAuthTokenInvalid
      else cOk

/-- AUTH (R434): an accepted token raises the privilege for the next write; each refusal writes AUTH_FAILED. -/
def execAuth (q : Req) (token : List Byte) (s : State) : Out :=
  .next (s.dict q 8 0 0 (fun s =>
    let c := s.tokenCode (s.reqOf q.who) token
    let s := s.updReq q.who (fun x => { x with nonce := x.nonce.map (fun n => { n with used := true }) })
    if c = cOk then
      (s.updReq q.who (fun x => { x with
        elevation := some ⟨leAt token 3 1, BitVec.ofNat 16 (leAt token 4 2), BitVec.ofNat 8 (leAt token 6 1), s.now, false⟩ }), cOk, [])
    else (s.record (uidVigil 0 0) cAuthFailed 0 0, c, []))).1

/-- ELEVATION_LAPSE (R434): 10 s without the request. -/
def execElevationLapse (r : Requester) (s : State) : Out :=
  match (s.reqOf r).elevation with
  | none => .next s
  | some e =>
    if e.inTransfer then .next s
    else .next ((s.advanceTo (e.grantedAt + 10 * Config.sCycles)).endElevation r)

end Sys2Proof.Machine
end

