-- ==== Sys2Proof/Machine/DictRead.lean ====
section
/-! DEFINITION. Reading objects (Tables 16.8 to 16.12, 17.7), and datagrams of the field network (R435). -/

namespace Sys2Proof.Machine

/-- The codes of Table 13.4, the port states, the life-cycle and boot stages as objects give them. -/
def UnitState.code : UnitState → Nat
  | .stopped => 0 | .starting => 1 | .running => 2 | .stopping => 3 | .restartPending => 4
def PortState.code : PortState → Nat
  | .disabled => 0 | .training => 1 | .up => 2 | .guarded => 3 | .down => 4
def Stage.code : Stage → Nat
  | .rails => 0 | .boxwood => 1 | .bootImage => 2 | .clockAlign => 3 | .memTrain => 4 | .wipe => 5 | .selfTest => 6 | .linkUp => 7
  | .released => 8 | .recovery => 9 | .halted => 10
def CtxState.code : CtxState → Nat
  | .free => 0 | .open_ => 1 | .halted => 2 | .resetting => 3 | .releasing => 4
def RunState.code : RunState → Nat
  | .closed => 0 | .open_ => 1 | .halted => 2

/-- A unit's state: STARTING until its stage has finished (R402). -/
def State.unitCode (s : State) (u : UnitState) : Nat := if s.released || s.boot.stage == .linkUp then u.code else 1

/-- The clock status word (Table 14.2). -/
def State.clockStatus (s : State) : Nat :=
  bit s.clk.pllLock + 2 * bit s.clk.alignOk + 4 * (s.clk.alignTries % 4) + 16 * bit s.clk.refLost + 32 * bit s.clk.onFallback +
    64 * bit s.clk.lockLost + 2 ^ 16 * s.clk.gatedParts.toNat

/-- The mirror word of `open_step` and `snap_step`. -/
def stepWord (step attempt : Nat) (top : Bool) : Nat := step % 2 ^ 40 + attempt % 16 * 2 ^ 40 + bit top * 2 ^ 63

/-- A crash-dump entry (Table 13.10). -/
def DumpEntry.bytes (e : DumpEntry) : List Byte :=
  leBytes 4 e.unit.toNat ++ leBytes 1 e.status ++ leBytes 1 e.words ++ leBytes 2 0 ++ leBytes 4 e.hbMirror.toNat ++ leBytes 4 e.hbAge ++
  leBytes 8 (e.w0Opcode.toNat + e.w0Context % 2 ^ 20 * 2 ^ 16 + e.w0Gen.toNat * 2 ^ 40) ++ leBytes 8 e.w1Elapsed ++ leBytes 8 e.w2Predicted ++
  leBytes 8 e.w3OpSeq.toNat ++ leBytes 96 e.w4w15.toNat

/-- A crash dump (Table 13.9). -/
def Dump.bytes (d : Dump) : List Byte :=
  leBytes 4 (0x5944 + d.kind % 256 * 2 ^ 16 + d.partition % 16 * 2 ^ 24) ++ leBytes 8 d.triggerSeq.toNat ++ leBytes 8 d.time ++
  leBytes 2 d.entries.length ++ leBytes 2 d.noAnswer ++ leBytes 8 d.serviceS ++ leBytes 32 0 ++ (d.entries.map DumpEntry.bytes).flatten

/-- A context descriptor as the objects give it: the SW fields with the RO fields in place (Table 9.1). -/
def Ctx.word (x : Ctx) : BitVec 1024 :=
  let d := setFld x.desc 24 8 x.gen.toNat
  let d := setFld d 32 3 x.state.code
  let d := setFld d 35 1 (bit x.cached)
  let d := setFld d 36 1 (bit x.pend.isSome)
  let d := setFld d 256 32 x.crHead
  let d := setFld d 288 32 x.crTail
  let d := setFld d 320 32 x.faultCount
  let d := setFld d 352 32 x.lateDrops
  (List.range 4).foldl (fun d q => setFld (setFld d (448 + 128 * q) 32 (nth x.qhead q 0)) (480 + 128 * q) 32 (nth x.qtail q 0)) d

/-- The descriptor of context `c`, whose index a FREE context that was never written does not carry. -/
def State.ctxWord (s : State) (c : Nat) : BitVec 1024 := match NMap.get? s.ctxs.tab c with
  | some x => x.word
  | none => 0

/-- Bytes `[off, off + n)` of a table of entries of `w` bytes. -/
def tableBytes (w : Nat) (entry : Nat → Nat) (off n : Nat) : List Byte :=
  (List.range n).map (fun k => BitVec.ofNat 8 (entry ((off + k) / w) / 2 ^ (8 * ((off + k) % w))))

/-- The newest and oldest readable `seq` of the log, and one byte of it (R420). -/
def Flash.logHead (f : Flash) : Nat := match f.log.getLast? with
  | some r => r.seq
  | none => 0
def Flash.logOldest (f : Flash) : Nat := match f.log.head? with
  | some r => r.seq
  | none => 0
def Flash.logEntry (f : Flash) (p : Nat) : Nat := match f.log.find? (fun r => r.seq % 262144 == p) with
  | some r => leNat r.bytes
  | none => 2 ^ 512 - 1

/-- The counters of Table 5.5 in table order, then those of Table 16.10, as subindex 0x10 onward reads them. -/
def CoreCtr.at_ (k : CoreCtr) (sub : Nat) : Nat :=
  nth [k.arrayBusy, k.arrayLoadStall, k.arrayPasses, k.arrayRowsMasked, k.gridFlushed, k.gridClamped, k.chkMismatch, k.tileEccCorrected,
    k.tileEccUncorrectable, k.engineLateDrops, k.dupCheckStall] (sub - 0x10) 0

/-- Strikes of a physical core within the window of R346. -/
def State.strikesOf (s : State) (p : Nat) : List Nat :=
  (NMap.getD s.store.strikes p []).filter (fun t => decide (s.vigil.seconds < t + 86400))

/-- The highest temperature read (Table 16.9). -/
def State.tempMax (s : State) : BitVec 16 :=
  match s.vigil.temps.map (fun e => e.2.toInt) with
  | [] => 0x8000
  | t :: ts => BitVec.ofInt 16 (ts.foldl max t)

/-- The module counters of 0x6001 in table order. -/
def ModCtr.at_ (k : ModCtr) (i : Nat) : Nat :=
  nth [k.contextCacheMisses, k.contextCacheStall, k.gathererOverflowRows, k.stackSpillPages, k.stackSpillStall, k.stackRefillStall,
    k.stagingRereadBytes, k.expertSpillRows, k.exchangeCreditStall, k.ringFullStall, k.gathererOverflowStall] i 0

/-- Is the module armed as a spare: released, whole, without a context, with a role (R366, R411)? -/
def State.armedSpare (s : State) : Bool := s.recov.armed && s.released && !s.boot.degraded && s.ctxs.tab.all (fun e => e.2.state == .free)

/-- The value of a plain object of the fixed indices, as a number. -/
def State.objFixedVal (s : State) (w : Requester) (i sub : Nat) : Nat :=
  let r := s.run ((s.selected w).getD 0)
  let sh := s.fuses.shadow
  match i, sub with
  | 0x1000, 0x04 => s.serial
  | 0x1000, 0x05 => 1
  | 0x1000, 0x06 => 0x1F
  | 0x1000, 0x09 => 1
  | 0x1000, 0x0A => s.boot.stage.code
  | 0x1000, 0x0B => bit s.boot.degraded
  | 0x1100, 0x01 => 0x02 * 2 ^ 40 + 0x4D * 2 ^ 32 + 0x59 * 2 ^ 24 + s.serial % 2 ^ 24
  | 0x1100, 0x02 => s.store.plcaNodeId
  | 0x1100, 0x03 => s.store.plcaNodeCount
  | 0x1100, 0x04 => s.store.plcaBurst
  | 0x1100, 0x06 => s.vigil.fieldState
  | 0x1100, 0x07 => s.vigil.fieldViolations
  | 0x1200, 0x01 => lcState sh
  | 0x1200, 0x0A => s.memsys.keys.length
  | 0x1300, 0x01 => s.boot.slotBooted
  | 0x1300, 0x02 => s.store.bootSlot
  | 0x1300, 0x03 => s.flash.slotA.status
  | 0x1300, 0x04 => s.flash.slotB.status
  | 0x1300, 0x05 => s.flash.slotCode.toNat
  | 0x1300, 0x08 => (thermometer sh 360 64).getD 0
  | 0x2000, 0x01 => s.vigil.powerW
  | 0x2000, 0x02 => 2400
  | 0x2000, 0x03 => s.store.tempWarn.toNat
  | 0x2000, 0x04 => s.store.tempStop.toNat
  | 0x2000, 0x05 => 1000
  | 0x2000, 0x06 => bit s.vigil.stopPending
  | 0x2103, 0x01 => s.clockStatus
  | 0x2103, 0x02 => s.tempMax.toNat
  | 0x2103, 0x03 => s.vigil.seconds
  | 0x2200, 0x01 => s.flash.logHead
  | 0x2200, 0x02 => s.flash.logOldest
  | 0x2200, 0x04 => s.vigil.buffer.length
  | 0x2200, 0x05 => s.vigil.logDropped
  | 0x2300, 0x05 => s.dump.merged
  | 0x2300, 0x06 => s.sched.captureOverflow
  | 0x5010, 0x01 => s.store.twinReserve
  | 0x5010, 0x02 => s.memsys.twinReserveActive
  | 0x5010, 0x03 => s.memsys.keySlotDrops
  | 0x5120, 0x01 => s.unitCode s.links.bridge.unit
  | 0x5120, 0x20 => s.links.bridge.state.code
  | 0x5120, 0x21 => bit s.twin.sense
  | 0x5120, 0x22 => s.twin.serial.toNat
  | 0x5120, 0x23 => s.twin.site.toNat
  | 0x5120, 0x24 => s.twin.state.code
  | 0x5120, 0x25 => bit s.twin.degraded
  | 0x5120, 0x27 => s.twin.reserveUsed
  | 0x5120, 0x28 => s.twin.seeds
  | 0x5120, 0x29 => s.ctrl.shadows.mirrorBytes
  | 0x5120, 0x2A => s.ctrl.shadows.bridge.retryEvents
  | 0x6000, 0x02 => s.ctrl.snapId
  | 0x6000, 0x03 => s.ctrl.snapCycle
  | 0x6000, 0x04 => s.ctrl.snapStep.toNat
  | 0x6000, 0x05 => s.vigil.timeOrigin.toNat
  | 0x7000, 0x01 => (s.reqOf w).runSelect.toNat
  | 0x7000, 0x03 => s.openRuns.length
  | 0x7001, 0x03 => r.state.code
  | 0x7003, 0x05 => r.almBase
  | 0x7003, 0x06 => r.almBase + r.almWindow.length
  | 0x7100, 0x04 => s.vigil.gatherDeadline
  | 0x7100, 0x06 => (s.ctxs.tab.filter (fun e => e.2.state != .free)).length
  | 0x7200, 0x01 => s.store.ownSite.toNat
  | 0x7200, 0x07 => s.recov.spareRole.toNat
  | 0x7200, 0x08 => bit s.armedSpare
  | 0x7300, 0x01 => bit r.bank
  | 0x7300, 0x02 => r.lastCommitted
  | 0x7300, 0x03 => match r.openStep with
    | some n => stepWord n r.attempt true
    | none => 0
  | 0x7300, 0x05 => bit r.checkFailure
  | _, _ => 0

/-- The value of a plain object of the repeated indices. -/
def State.objRepeatedVal (s : State) (i sub : Nat) : Nat :=
  if i = 0x2100 then (NMap.getD s.vigil.temps (sub - 1) 0x8000).toNat
  else if i = 0x2101 then (NMap.getD s.vigil.volts (sub - 1) 0xFFFF).toNat
  else if i = 0x2102 then (NMap.getD s.vigil.regIout (sub - 1) 0).toNat
  else if i < 0x3010 then
    let p := i - 0x3000
    if sub = 1 then NMap.getD s.vigil.railSetPoint p 0
    else if sub = 2 then (s.cores.good.filter (fun c => c / 52 == p)).length
    else if sub = 3 then (s.cores.spares.filter (fun c => c / 52 == p)).length
    else s.unitCode (NMap.getD s.cores.partState p .running)
  else if i < 0x5000 then
    let c := i - 0x4000
    let k := s.core c
    if sub = 1 then s.phys c
    else if sub = 2 then s.unitCode k.state
    else if sub = 5 then (s.strikesOf (s.phys c)).length
    else if sub = 6 then k.transientFaults
    else if sub = 7 then k.transientHangs
    else if sub = 0x1B then bit (s.ctrl.shadows.late.contains c)
    else (NMap.getD s.ctrl.shadows.cores c {}).at_ sub
  else if i < 0x5010 then
    let n := i - 0x5000
    let k := NMap.getD s.ctrl.shadows.mem n {}
    if sub = 1 then (NMap.getD s.vigil.mr4 n 0).toNat
    else if sub = 2 then k.corrected else if sub = 3 then k.uncorrectable else k.refreshStall
  else if i < 0x5120 then
    let n := i - 0x5100
    let l := s.link (.fabric n)
    let k := NMap.getD s.ctrl.shadows.fabric n {}
    if sub = 1 then l.state.code else if sub = 2 then NMap.getD s.store.medium n 0
    else if sub = 0x0A then l.partnerViol.toNat
    else nth [k.retryEvents, k.violations, k.unroutableDrops, k.hopLimitDrops, k.staleCells, k.planContention] (sub - 4) 0
  else if i < 0x5132 then
    let n := i - 0x5130
    let l := s.link (.host n)
    let k := NMap.getD s.ctrl.shadows.host n {}
    if sub = 1 then s.unitCode l.unit else if sub = 0x20 then l.state.code else if sub = 0x21 then NMap.getD s.store.hostMedium n 2
    else if sub = 0x2A then l.partnerViol.toNat
    else if sub = 0x2B then k.noticesDropped
    else nth [k.violations, k.retryEvents, k.hostCreditStall, k.requestExpired, k.lateCompletions, k.doorbellDropped] (sub - 0x22) 0
  else s.ctrl.shadows.mods.at_ (sub - 1)

/-- The bytes of a STR object. -/
def State.strVal (s : State) (sub : Nat) : List Byte :=
  if sub = 1 then asciiBytes "Myldaset" else if sub = 2 then asciiBytes "Rallum Burzu" else if sub = 3 then asciiBytes "MYL-BZ8-768"
  else if sub = 7 then s.boot.fwVersion else s.boot.configVersion

/-- The length of a readable DOMAIN object now. -/
def State.domLen (s : State) (w : Requester) (i sub : Nat) : Nat :=
  let r := s.run ((s.selected w).getD 0)
  match i, sub with
  | 0x1100, 5 => 16 * s.store.operatorNodes.length
  | 0x1200, 6 => s.store.vendorCert.length
  | 0x7003, 2 => r.lineageCert.length
  | 0x7003, 3 => r.almWindow.length
  | _, _ => ((objAt i sub).getD { size := 0 }).size

/-- Bytes `[off, off + n)` of a readable DOMAIN object. -/
def State.domVal (s : State) (w : Requester) (i sub off n : Nat) : List Byte :=
  let r := s.run ((s.selected w).getD 0)
  let x := s.reqOf w
  let cut := fun (bs : List Byte) => (bs.drop off).take n
  match i, sub with
  | 0x1100, 5 => cut ((s.store.operatorNodes.map (fun a => beBytes 16 a.toNat)).flatten)
  | 0x1200, 5 => cut (x.report.getD [])
  | 0x1200, 6 => cut s.store.vendorCert
  | 0x2200, 3 => tableBytes 64 s.flash.logEntry off n
  | 0x2300, 2 => tableBytes 64 (fun k => match NMap.get? s.flash.dumps k with
      | some d => (Config.dumpDirEntry k d.triggerSeq true).toNat
      | none => (Config.dumpDirEntry k 0 false).toNat) off n
  | 0x2300, 3 => (List.range n).map (fun j => match NMap.get? s.flash.dumps ((off + j) / 0x100000) with
      | some d => nth d.bytes ((off + j) % 0x100000) (Config.erasedByte (off + j))
      | none => Config.erasedByte (off + j))
  | 0x2300, 4 => (List.range n).map (fun j => match NMap.get? s.flash.captures ((off + j) / 0x4000) with
      | some c => Config.captureByte [c.held.block, c.held.scales, c.held.slices, c.held.rowScales]
          [c.held.fmtRow, c.held.fmtBlock, bit c.held.transposed, intBits 16 c.held.floor, bit c.held.masked, c.unit.toNat] ((off + j) % 0x4000)
      | none => Config.erasedByte (off + j + 0x4000000))
  | 0x5130, 0x28 => tableBytes 8 (fun k => (NMap.getD s.links.windows k 0).toNat) off n
  | 0x5130, 0x29 => tableBytes 16 (fun k => (NMap.getD s.links.rings k 0).toNat) off n
  | 0x7000, 2 => tableBytes 16 (fun k => (NMap.getD s.links.groups k 0).toNat) off n
  | 0x7002, 1 => tableBytes 8 (fun k => (NMap.getD r.expertSlots k 0).toNat) off n
  | 0x7002, 2 => tableBytes 8 (fun k => (NMap.getD r.replicaTable k 0).toNat) off n
  | 0x7002, 3 => tableBytes 4 (fun k => (NMap.getD r.spareList k 0).toNat) off n
  | 0x7002, 4 => tableBytes 4 (fun k => (NMap.getD r.twinMap k 0).toNat) off n
  | 0x7002, 5 => tableBytes 8 (fun k => (NMap.getD r.bankPairs k 0).toNat) off n
  | 0x7002, 6 => tableBytes 128 (fun k => (NMap.getD r.stateTensors k 0).toNat) off n
  | 0x7003, 2 => cut r.lineageCert
  | 0x7003, 3 => cut r.almWindow
  | 0x7100, 1 => tableBytes 128 (fun k => (s.ctxWord k).toNat) off n
  | 0x7100, 3 => tableBytes 1 (fun k => (s.ctx k).state.code + 8 * bit (s.ctx k).pend.isSome) off n
  | 0x7200, 2 => tableBytes 4 (fun k => (NMap.getD s.links.rankTable k 0).toNat) off n
  | 0x7200, 3 => tableBytes 8 (fun k => (NMap.getD s.links.podRoutes k 0).toNat) off n
  | 0x7200, 4 => tableBytes 8 (fun k => (NMap.getD s.links.slotRoutes k 0).toNat) off n
  | 0x7200, 5 => tableBytes 4 (fun k => (NMap.getD s.links.planMasks k 0).toNat) off n
  | 0x7300, 4 => cut (leBytes 128 r.stepRecord.toNat)
  | _, _ => []

/-- A READ (R426, R427, R431). -/
def State.readObj (s : State) (w : Requester) (i sub : Nat) : Code × List Byte :=
  match objInfo i sub with
  | none => (noObject i, [])
  | some o =>
    if !o.rd then (cObjWriteOnly, [])
    else if s.baseLevel w < o.rdLevel then (cObjPrivilege, [])
    else if o.domain then (cObjTypeLength, [])
    else if runScoped i && (s.selected w).isNone then (cObjState, [])
    else if o.str then (cOk, s.strVal sub)
    else if sub = 0 then (cOk, leBytes 1 (highestSub i))
    else if (objFixed i sub).isSome then (cOk, leBytes o.size (s.objFixedVal w i sub))
    else (cOk, leBytes o.size (s.objRepeatedVal i sub))

/-- A DOMAIN_READ (R431, R433). -/
def State.readDomain (s : State) (w : Requester) (i sub off n : Nat) : Code × List Byte :=
  match objInfo i sub with
  | none => (noObject i, [])
  | some o =>
    if !o.domain then (cObjTypeLength, [])
    else if !o.rd then (cObjWriteOnly, [])
    else if s.baseLevel w < o.rdLevel then (cObjPrivilege, [])
    else if runScoped i && (s.selected w).isNone then (cObjState, [])
    else if i = 0x1200 && sub = 5 && (s.reqOf w).report.isNone then (cObjState, [])
    else if 1400 < n || s.domLen w i sub < off + n then (cDomainSize, [])
    else (cOk, s.domVal w i sub off n)

/-- Serve a well-formed READ or DOMAIN_READ message; the other operations have rows of their own. -/
def State.serveRead (s : State) (w : Requester) (bs : List Byte) : State :=
  let op := leAt bs 1 1
  let q : Req := ⟨w, BitVec.ofNat 16 (leAt bs 2 2)⟩
  let i := leAt bs 4 2
  let sub := leAt bs 6 1
  let pl := bs.drop 16
  if i = 0x1200 && sub = 3 then s
  else if op = 1 then (s.dict q 1 i sub (fun s => let (c, v) := s.readObj w i sub; (s, if pl.isEmpty then c else cObjTypeLength, v))).1
  else if op = 3 then (s.dict q 3 i sub (fun s =>
    let (c, v) := s.readDomain w i sub (leAt pl 0 4) (leAt pl 4 2); (s, if pl.length = 6 then c else cObjTypeLength, v))).1
  else s

/-- How a message breaks the format (Table 16.6): none, dropped, or an answer's code. -/
def messageFault (bs : List Byte) : Option (Option Code) :=
  let op := leAt bs 1 1
  if bs.length < 16 then some none
  else if leAt bs 0 1 != 1 then some (some cProtoVersion)
  else if op = 0 || 8 < op then some (some cProtoOperation)
  else if leAt bs 7 1 != 0 || leAt bs 8 4 != 0 || leAt bs 14 2 != 0 || 1400 < leAt bs 12 2 || leAt bs 12 2 != bs.length - 16 then some (some cProtoHeader)
  else none

/-- The answer to a message that breaks the format. -/
def faultResponse (bs : List Byte) (c : Code) : Response :=
  ⟨BitVec.ofNat 8 (leAt bs 1 1) ||| 0x80, BitVec.ofNat 16 (leAt bs 2 2), BitVec.ofNat 16 (leAt bs 4 2), BitVec.ofNat 8 (leAt bs 6 1), c, []⟩

/-- FIELD_DATAGRAM (R429, R435): a violation is counted, recorded at most once a second and answered as Table 16.6 gives; in guarded mode it is
dropped uncounted. A read is served here; the other messages have rows of their own. -/
def execFieldDatagram (r : Requester) (bytes : List Byte) (s : State) : Out :=
  if !s.answers r then .next s
  else match messageFault bytes with
    | none => .next (s.serveRead r bytes)
    | some ans =>
      if s.vigil.fieldState = 1 then .next s
      else
        let v := s.vigil
        let s := { s with vigil := { v with
          fieldViolations := min (v.fieldViolations + 1) (2 ^ 32 - 1)
          fieldViolStamps := recent s.now (10 * Config.sCycles) v.fieldViolStamps ++ [s.now] } }
        let s := if v.lastFieldRecord.any (fun t => decide (s.now < t + Config.sCycles)) then s
          else
            let t := s.record (uidVigil 0 0) cFieldViolation 0 0
            { t with vigil := { t.vigil with lastFieldRecord := some s.now } }
        .next (match ans with
          | none => s
          | some c => s.sendResponse r (faultResponse bytes c))

/-- FIELD_GUARDED (R435): 64 violations within 1 ms. -/
def execFieldGuarded (s : State) : Out :=
  if s.vigil.fieldState = 0 && 64 ≤ (recent s.now Config.msCycles s.vigil.fieldViolStamps).length then
    let s := s.record (uidVigil 0 0) cFieldGuarded 0 0
    .next { s with vigil := { s.vigil with fieldState := 1 } }
  else .next s

/-- FIELD_GUARD_EXPIRE (R435): 10 s without a violation. -/
def execFieldGuardExpire (s : State) : Out :=
  if s.vigil.fieldState = 1 then
    let s := s.advanceTo (s.vigil.fieldViolStamps.getLastD 0 + 10 * Config.sCycles)
    .next { s with vigil := { s.vigil with fieldState := 0, fieldViolStamps := [] } }
  else .next s

/-- FIELD_STATE_CLEAR (R435, Table 16.8): an Operator writes 0 over Yalvo. -/
def execFieldStateClear (q : Req) (v : Byte) (s : State) : Out :=
  .next (s.dictWrite q 0x1100 6 [v] (fun s =>
    match q.who with
    | .field _ _ => (s, cObjPrivilege)
    | .yalvo _ =>
      if v != 0 then (s, cObjValueRange)
      else if s.vigil.fieldState = 1 then ({ s with vigil := { s.vigil with fieldState := 0, fieldViolStamps := [] } }, cOk)
      else if s.vigil.fieldState = 2 then (s, cObjState) else (s, cOk))).1

/-- The module's link-local address: fe80::/64 with the modified EUI-64 of `mac_address` (R429). -/
def State.linkLocal (s : State) : BitVec 128 :=
  BitVec.ofNat 128 (0xFE80 * 2 ^ 112 + 0x00 * 2 ^ 56 + 0x4D * 2 ^ 48 + 0x59 * 2 ^ 40 + 0xFFFE * 2 ^ 24 + s.serial % 2 ^ 24)

/-- NEIGHBOUR_DISCOVERY (R429): a solicitation of the module's address is advertised, an echo request to it is answered. -/
def execNeighbourDiscovery (m : IcmpMsg) (s : State) : Out :=
  if !s.answers (.field 0 0) then .next s
  else
    let a := s.linkLocal
    let out := fun o => ({ s with vigil := { s.vigil with out := s.vigil.out ++ [o] } } : State)
    match m with
    | .neighbourSolicitation src target => if target = a then .next (out (.neighbourAdvert src target)) else .next s
    | .echoRequest src dst payload => if dst = a && s.vigil.fieldState != 1 then .next (out (.echoReply src dst payload)) else .next s

/-- DUPLICATE_ADDRESS_DETECTION (R429): a conflict is recorded and leaves service over Yalvo only. -/
def execDuplicateAddressDetection (conflict : Bool) (s : State) : Out :=
  if conflict && s.answers (.field 0 0) then
    let s := s.record (uidVigil 0 0) cFieldAddressConflict 0 0
    .next { s with vigil := { s.vigil with fieldState := 2 } }
  else .next s

end Sys2Proof.Machine
end

