-- ==== Sys2Proof/Machine/Strikes.lean ====
section
/-! DEFINITION. Strikes and transient faults (R345, R346), and uncorrectable words and lines (R122, R157, R160). -/

namespace Sys2Proof.Machine

/-- Stamps of service seconds within the window of R346. -/
def inWindow (now : Nat) (l : List Nat) : List Nat := l.filter (fun t => decide (now < t + 86400))

/-- The third strike of a logical core: it is due for retirement. Without a spare in its partition the exhaustion is recorded and the open step of the
strike's run is voided (R105, R346). -/
def State.makeDue (s : State) (c seq : Nat) (slot : Option Nat) : State :=
  let p := s.phys c
  if s.cores.due.any (fun d => d.core == c) then s
  else
    let spare := s.cores.spares.any (fun q => q / 52 == p / 52)
    let s := { s with cores := { s.cores with due := s.cores.due ++ [⟨c, seq, !spare⟩] } }
    if spare then s
    else match slot with
      | some r => (s.record (uidCore p 0 0) cPartitionSparesExhausted 4 0 (s.whoRun r)).fault r
      | none => s.record (uidCore p 0 0) cPartitionSparesExhausted 4 0

/-- Charge a strike to a logical core from a source of Table 12.10, caused by the record `seq`: at most one per step attempt; the third within the
window makes the core due for retirement (R345, R346). -/
def State.strike (s : State) (c source seq : Nat) (slot : Option Nat) : State :=
  if slot.any (fun r => (s.run r).strikes.contains c) then s
  else
    let p := s.phys c
    let l := inWindow s.vigil.seconds (NMap.getD s.store.strikes p []) ++ [s.vigil.seconds]
    let s := s.setStore { s.store with strikes := NMap.set s.store.strikes p l }
    let s := match slot with
      | some r => s.updRun r (fun x => { x with strikes := x.strikes ++ [c] })
      | none => s
    let w : Who := match slot with
      | some r => s.whoRun r
      | none => {}
    let s := s.record (uidCore p 0 0) cCoreStrike 0 (c + min l.length 3 * 2 ^ 10 + source * 2 ^ 12 + seq * 2 ^ 64) w
    if 3 ≤ l.length then s.makeDue c seq slot else s

/-- Add 1 to `transient_faults` of a core; the eighth within the window is strike source 5, and the count restarts (Table 12.10). -/
def State.transient (s : State) (c seq : Nat) (slot : Option Nat) : State :=
  let p := s.phys c
  let s := s.updCore c (fun k => { k with transientFaults := min (k.transientFaults + 1) (2 ^ 32 - 1) })
  let l := inWindow s.vigil.seconds (NMap.getD s.store.transients p []) ++ [s.vigil.seconds]
  if l.length < 8 then s.setStore { s.store with transients := NMap.set s.store.transients p l }
  else (s.setStore { s.store with transients := NMap.set s.store.transients p [] }).strike c 5 seq slot

/-- Change a core's counters. -/
def State.updCtr (s : State) (c : Nat) (f : CoreCtr → CoreCtr) : State := s.updCore c (fun k => { k with ctr := f k.ctr })

/-- The device address of a tile-memory word (Table 7.1). -/
def tileAddr (core off : Nat) : Nat := tileBase + core * 0x2000000 + off

/-- An uncorrectable tile-memory word of a logical core: counted, recorded at severity 2, a strike of source 4 (R122, R160, Table 12.10). -/
def State.tileBad (s : State) (core off : Nat) (w : Who) (slot : Option Nat) : State :=
  let s := s.updCtr core (fun k => { k with tileEccUncorrectable := sat32 (k.tileEccUncorrectable + 1) })
  let s := { s with cores := { s.cores with badTile := s.cores.badTile.filter (fun t => t != (⟨core, off⟩ : TileFault)) ++ [(⟨core, off⟩ : TileFault)] } }
  let s := s.record (uidCore (s.phys core) 3 (off / 16 % 32)) cTileEccUncorrectable 2 (tileAddr core off % 2 ^ 48) w
  s.strike core 4 s.lastSeq.toNat slot

/-- The run slot of a context, if the context is loaded with one. -/
def State.slotOf (s : State) (c : Nat) : Option Nat := if (s.ctx c).runSlot = noRun then none else some (s.ctx c).runSlot

/-- A suspect leaves the list; quarantine ends with the last, and `transient_hangs` advances where it was cleared (R355, R356). -/
def State.dropSuspect (s : State) (c : Nat) (cleared : Bool) : State :=
  let q := s.sched.quarantine
  let l := q.suspects.filter (· != c)
  if !l.isEmpty || q.cores.isEmpty then { s with sched := { s.sched with quarantine := { q with suspects := l } } }
  else
    let s := if cleared && q.suspects.contains c then
        q.cores.foldl (fun s k => s.updCore k (fun r => { r with transientHangs := sat32 (r.transientHangs + 1) })) s else s
    { s with sched := { s.sched with quarantine := {} } }

end Sys2Proof.Machine
end

