-- ==== Sys2Proof/Machine/Resets.lean ====
section
/-! DEFINITION. Resets and crash dumps (R357 to R360, R377 to R382): engine, partition and chip resets, escalation, dumps, silent units. -/

namespace Sys2Proof.Machine

/-- A core whose reset starts: counters cleared, tag advanced, not in service (R126, R360). -/
def CoreRec.beginReset (k : CoreRec) (now : Nat) : CoreRec :=
  { k with ctr := {}, resetting := true, state := .stopping, tag := k.tag + 1, tagAt := some (nextTagAt now k.tagAt) }

/-- A partition reset (Table 13.3, R358): contexts with work in it are reset, its slices are zeroed, stacks with pages there are emptied, counters and
registers are cleared, its clocks stop while it clears (R396). A dump of its units is staged first (R377). -/
def State.partitionReset (s : State) (p : Nat) (trigger : BitVec 64) : State :=
  let cs := (List.range 50).map (· + 50 * p)
  let s := if s.dump.wanted.isSome then s else s.wantDump 1 p trigger
  let s := s.resetCtxs (s.ctxsOn cs)
  let lost := (s.ctxs.stackTab.filter (fun e => e.2.pages.any (fun g => g.2.state != .spilled && cs.contains g.2.core))).map Prod.fst
  let s := lost.foldl (fun s c =>
    let s := s.setStack c { (s.stackOf c) with frames := [], pages := [], bytes := [] }
    let slot := (s.ctx c).runSlot
    (s.record (uidCore (52 * p) 6 0) cStackLost 2 0 (s.whoRun slot)).fault slot) s
  { s with
    cores := { s.cores with
      recs := cs.foldl (fun m c => NMap.upd m c {} (fun k => k.beginReset s.now)) s.cores.recs
      partState := NMap.set s.cores.partState p .stopping
      partResetting := insertRising s.cores.partResetting p
      badTile := s.cores.badTile.filter (fun t => !cs.contains t.core) }
    vec := s.vec.filter (fun e => !cs.contains e.1)
    clk := { s.clk with gatedParts := s.clk.gatedParts ||| BitVec.ofNat 16 (2 ^ p) } }

/-- An engine reset of a physical core (Table 13.3, R360): contexts with work on it are reset, registers, counters and staging are cleared, the engine's
tag advances. A spare is already clear (R399). A second one within 1 s resets the partition. -/
def State.engineReset (s : State) (p : Nat) (trigger : BitVec 64) : State :=
  match s.logicalOf p with
  | none => s
  | some c =>
    let k := s.core c
    if k.engineResetAt.any (fun t => decide (s.now < t + Config.sCycles)) then s.partitionReset (p / 52) trigger
    else
      let s := s.resetCtxs (s.ctxsOn [c])
      let s := s.updCore c (fun k => { k.beginReset s.now with engineResetAt := some s.now })
      { s with vec := NMap.erase s.vec c }

/-- The end of a context reset: the state returns to OPEN (R251 step 7); the held doorbells are applied by CONTEXT_RESET_DONE's own action. -/
def State.coreBack (s : State) (c : Nat) : State :=
  s.updCore c (fun k => if k.resetting then { k with resetting := false, state := if k.held then .stopped else .running, held := false, backAt := some s.now } else k)

/-- CHIP_RESET (R357, R361, R416): 0x5A requests the reset, which follows the response. -/
def execChipReset (q : Req) (v : Byte) (s : State) : Out :=
  let r := s.dictWrite q 0x1300 9 [v] (fun s =>
    if v != 0x5A then (s, cObjValueRange) else if s.boot.heldChipReset then (s, cUnitState) else (s, cOk))
  .next (if r.2 = cOk then r.1.requestChipReset noTrigger else r.1)

/-- PARTITION_RESET (R357, R358): by the object, or by Vigil. -/
def execPartitionReset (p : Nat) (src : ResetSrc) (s : State) : Out :=
  match src with
  | .request q v =>
    .next (s.dictWrite q (0x3000 + p) 5 [v] (fun s =>
      if 1 < v.toNat then (s, cObjValueRange)
      else if !s.released then (s, cNotReleased)
      else if v = 0 then (s, cOk)
      else if s.cores.partResetting.contains p then (s, cUnitState)
      else (s.partitionReset p noTrigger, cOk))).1
  | .vigil => if s.released then .next (s.partitionReset p s.lastSeq) else .next s

/-- ENGINE_RESET (R357, R360): by the object of the logical core that the physical core serves, or by Vigil. -/
def execEngineReset (core : Nat) (src : ResetSrc) (s : State) : Out :=
  match src with
  | .request q v =>
    match s.logicalOf core with
    | none => .next s
    | some c =>
      .next (s.dictWrite q (0x4000 + c) 4 [v] (fun s =>
        if 1 < v.toNat then (s, cObjValueRange)
        else if !s.released then (s, cNotReleased)
        else if v = 0 then (s, cOk)
        else if (s.core c).resetting then (s, cUnitState)
        else (s.engineReset core noTrigger, cOk))).1
  | .vigil => if s.released then .next (s.engineReset core s.lastSeq) else .next s

/-- RESET_ESCALATE (R358): a reset that overruns its bound goes to the next level. -/
def execResetEscalate (scope : ResetScope) (s : State) : Out :=
  match scope with
  | .context c =>
    if (s.ctx c).state == .resetting then
      let s := s.advanceTo ((s.ctx c).resetAt + 100 * Config.usCycles)
      .next ((s.ctx c).resetCores.foldl (fun s k => s.engineReset (s.phys k) noTrigger) s)
    else .next s
  | .engine p => match s.logicalOf p with
    | none => .next s
    | some c =>
      if (s.core c).resetting then
        .next ((s.advanceTo (((s.core c).engineResetAt.getD s.now) + 2 * Config.msCycles)).partitionReset (p / 52) noTrigger)
      else .next s
  | .partition p => if s.cores.partResetting.contains p then .next (s.startChipReset noTrigger) else .next s

/-- CRASH_DUMP (R377 to R382): the staged entries, with the silent units marked, are flushed to the next Yew slot; a chip reset that waited for the flush
follows. -/
def execCrashDump (silent : List (BitVec 32)) (s : State) : Out :=
  match s.dump.wanted with
  | none => .next s
  | some kind =>
    let es := s.dump.staged.map (fun e => if silent.contains e.unit && e.status = 0 then { e with status := 1, words := 0 } else e)
    let d : Dump := ⟨kind, if kind = 1 then s.dump.partition else 0, s.dump.trigger, s.dump.time, (es.filter (fun e => e.status == 1)).length, s.vigil.seconds, es⟩
    let slot := s.flash.dumpNext
    let again := s.dump.resetAfter
    let s := { s with
      flash := { s.flash with dumps := NMap.set s.flash.dumps slot d, dumpNext := (slot + 1) % 47, dumpOpen := false }
      dump := { s.dump with wanted := none, staged := [], resetAfter := false } }
    let s := s.record (uidVigil 1 1) cCrashDumpWritten 0 0
    .next (if again then s.startChipReset noTrigger else s)

/-- DUMP_REQUEST (R377, Table 13.11): a request during a dump is merged with it and counted. -/
def execDumpRequest (q : Req) (v : Byte) (s : State) : Out :=
  .next (s.dictWrite q 0x2300 1 [v] (fun s =>
    if 1 < v.toNat then (s, cObjValueRange)
    else if v = 0 then (s, cOk)
    else if s.dump.wanted.isSome then ({ s with dump := { s.dump with merged := sat32 (s.dump.merged + 1) } }, cOk)
    else (s.wantDump 2 0 noTrigger, cOk))).1

/-- CAPTURE_FLUSH (R335): a capture goes to the next place of the capture ring; its slot is freed only after its attribution. -/
def execCaptureFlush (slot : Nat) (s : State) : Out :=
  match NMap.get? s.sched.captures slot with
  | none => .next s
  | some c =>
    if c.flushed then .next s
    else .next { s with
      flash := { s.flash with captures := NMap.set s.flash.captures s.flash.captureNext { c with flushed := true },
                              captureNext := (s.flash.captureNext + 1) % 1024 }
      sched := { s.sched with captures := NMap.set s.sched.captures slot { c with flushed := true } } }

/-- Is a unit's clock stopped, so that its silence is suppressed (R398)? -/
def State.quietUnit (s : State) (u : BitVec 32) : Bool :=
  fld u 28 4 == 0 &&
  (match s.logicalOf (52 * fld u 24 4 + fld u 16 8) with
    | none => true
    | some c => (s.core c).resetting || s.cores.partResetting.contains (fld u 24 4))

/-- UNIT_HEARTBEAT (R300): the hub keeps the last word of each unit. -/
def execUnitHeartbeat (unit : BitVec 32) (word : BitVec 32) (s : State) : Out :=
  if !s.clk.aligned then .next s
  else .next { s with cores := { s.cores with heartbeat := NMap.set s.cores.heartbeat unit.toNat ⟨word, s.now⟩ } }

/-- When the clock of a unit was last opened, if it is a core's (R398). -/
def State.openedAt (s : State) (u : BitVec 32) : Option Nat :=
  if fld u 28 4 = 0 then (s.logicalOf (52 * fld u 24 4 + fld u 16 8)).bind (fun c => (s.core c).backAt) else none

/-- UNIT_SILENT (R300, R398, R498, Table 13.3): four words missed, and four periods past since the unit's clock was opened. A core sub-unit enters an engine reset, a router of rows 1 to 26 a partition reset, any other
unit a chip reset. -/
def execUnitSilent (unit : BitVec 32) (s : State) : Out :=
  if !s.released || s.quietUnit unit then .next s
  else
    let s := match NMap.get? s.cores.heartbeat unit.toNat with
      | some h => s.advanceTo (max h.at_ ((s.openedAt unit).getD 0) + 4 * 4096)
      | none => s
    let dom := fld unit 28 4
    let y := fld unit 16 8 % 28
    let part := fld unit 24 4
    if dom = 0 then
      let s := s.record unit cUnitSilent 2 0
      .next (s.engineReset (52 * part + fld unit 16 8) s.lastSeq)
    else if dom = 7 && 1 ≤ y && y ≤ 26 then
      let s := s.record unit cUnitSilent 2 0
      .next (s.partitionReset part s.lastSeq)
    else if dom = 2 || dom = 6 then .next (s.record unit cUnitSilent 2 0)
    else
      let s := s.record unit cUnitSilent 4 0
      .next (s.startChipReset s.lastSeq)

end Sys2Proof.Machine
end

