-- ==== Sys2Proof/Machine/VigilRows.lean ====
section
/-! DEFINITION. Vigil's log, sensors and counters of time, the maintenance slots and scrubs, and snapshots (R155 to R160, R311, R346, R419 to R424). -/

namespace Sys2Proof.Machine

/-- Does Vigil's firmware run (R402, R417)? -/
def State.vigilRuns (s : State) : Bool :=
  s.boot.powered && s.pins.pgood && (match s.boot.stage with | .rails | .boxwood | .bootImage | .recovery => false | _ => true)

/-- LOG_FLUSH (R420): the buffered records reach flash in increasing `seq`. -/
def execLogFlush (s : State) : Out :=
  if !(s.boot.powered && s.pins.pgood) then .next s
  else .next { s with flash := s.vigil.buffer.foldl Flash.append s.flash, vigil := { s.vigil with buffer := [] } }

/-- THERMAL_SAMPLE (R423): samples, the warning with its rearming, and the stop threshold when it is reached. -/
def execThermalSample (temps : List (BitVec 16)) (s : State) : Out :=
  if !s.vigilRuns || temps.isEmpty then .next s
  else
    let was := s.tempMax.toInt
    let ts := temps.map BitVec.toInt
    let m := ts.foldl max (-32768)
    let hot := (ts.findIdx? (fun t => t == m)).getD 0
    let warn := s.store.tempWarn.toInt
    let stop := s.store.tempStop.toInt
    let s := { s with vigil := { s.vigil with temps := ((List.range 128).zip temps) } }
    let s :=
      if s.vigil.warnArmed && decide (warn ≤ m) then
        let t := s.record (uidVigil 2 hot) cThermalWarning 0 0
        { t with vigil := { t.vigil with warnArmed := false } }
      else if !s.vigil.warnArmed && decide (m ≤ warn - 16) then { s with vigil := { s.vigil with warnArmed := true } }
      else s
    .next (if decide (stop ≤ m) && decide (was < stop) then s.record (uidVigil 2 hot) cThermalLimit 4 0 else s)

/-- VOLTAGE_SAMPLE (R423, R332). -/
def execVoltageSample (volts : List (BitVec 16)) (s : State) : Out :=
  if !s.vigilRuns then .next s else .next { s with vigil := { s.vigil with volts := (List.range 48).zip volts } }

/-- RAIL_OUT_OF_RANGE (R423): a monitor outside ±5 % of its rail's set point for 100 µs. -/
def execRailOutOfRange (monitor : Nat) (s : State) : Out :=
  if !s.vigilRuns then .next s else .next (s.record (uidVigil 2 (128 + monitor)) cRailOutOfRange 4 0)

/-- POWER_LIMIT (R423): the 10 ms average input power. -/
def execPowerLimit (watts : Nat) (s : State) : Out :=
  if !s.vigilRuns then .next s
  else
    let s := { s with vigil := { s.vigil with powerW := watts } }
    .next (if 2400 < watts then s.record (uidVigil 0 0) cPowerLimit 4 0 else s)

/-- REGULATOR_POLL (R424): three missed polls in a row, or a fault in STATUS_WORD. -/
def execRegulatorPoll (n : Nat) (reply : PollReply) (s : State) : Out :=
  if !s.vigilRuns then .next s
  else match reply with
    | .missed =>
      let k := NMap.getD s.vigil.missedPolls n 0 + 1
      let s := { s with vigil := { s.vigil with missedPolls := NMap.set s.vigil.missedPolls n k } }
      .next (if k = 3 then s.record (uidVigil 3 n) cRegulatorFault 4 0 else s)
    | .answer fault iout =>
      let s := { s with vigil := { s.vigil with missedPolls := NMap.set s.vigil.missedPolls n 0, regIout := NMap.set s.vigil.regIout n iout } }
      .next (if fault then s.record (uidVigil 3 n) cRegulatorFault 4 0 else s)

/-- SERVICE_SECOND_TICK (R346): a whole second in RELEASED. -/
def execServiceSecondTick (s : State) : Out :=
  if !s.released then .next s
  else
    let t := s.advanceTo (s.vigil.secondsFrom + Config.sCycles)
    .next { t with vigil := { t.vigil with seconds := t.vigil.seconds + 1, secondsFrom := s.vigil.secondsFrom + Config.sCycles } }

/-- SERVICE_SECONDS_SAVE (R419). -/
def execServiceSecondsSave (s : State) : Out :=
  if !s.released then .next s else .next (s.setStore { s.store with serviceSeconds := s.vigil.seconds })

/-- LPDDR_TEMP_LIMIT (R156). -/
def execLpddrTempLimit (ctrl : Nat) (field : Byte) (s : State) : Out :=
  if !s.released then .next s
  else .next (({ s with vigil := { s.vigil with mr4 := NMap.set s.vigil.mr4 ctrl field } } : State).record (uidLpddr ctrl 0) cLpddrTempLimit 4 0)

/-- The lowest granule that is zeroing (R167). -/
def State.zeroingNext (s : State) : Option Nat := (s.memsys.grants.find? (fun e => e.2 == .zeroing)).map Prod.fst

/-- The run slot whose context holds a line exclusively. -/
def State.ownerSlot (s : State) (line : Nat) : Option Nat := match NMap.get? s.memsys.grants (256 * line / granule) with
  | some (.exclusive c) => s.slotOf c
  | _ => none

/-- LPDDR_MAINT_SLOT (R155, R157, R167): refresh with its stall, patrol scrub of a line, or zeroing of the next line. -/
def execLpddrMaintSlot (work : MaintWork) (s : State) : Out :=
  match work with
  | .refresh ctrl stall => .next (s.updMemCtr ctrl (fun k => { k with refreshStall := sat64 (k.refreshStall + stall) }))
  | .scrub line symbols =>
    if lpddrEnd ≤ 256 * line then .fault .noSuchAddress
    else
    let s := if s.memsys.mem.bad.contains line then s else s.meetErrors [⟨line, symbols⟩]
    if s.memsys.mem.bad.contains line then
      let slot := s.ownerSlot line
      let s := s.lineBad line ((slot.map s.whoRun).getD {})
      .next (match slot with
        | some r => s.fault r
        | none => s)
    else .next s
  | .zero line =>
    if lpddrEnd ≤ 256 * line then .fault .noSuchAddress
    else
      let g := 256 * line / granule
      let n := NMap.getD s.memsys.zeroed g 0
      if s.zeroingNext == some g && line == g * 8192 + n then
        .next { s with memsys := { s.memsys with mem := s.memsys.mem.zeroLine line, zeroed := NMap.set s.memsys.zeroed g (n + 1) } }
      else .next s

/-- ZEROING_DONE (R165, R167): the lowest granule in the zeroing state returns to free once all its lines have been zeroed. -/
def execZeroingDone (granule : Nat) (s : State) : Out :=
  if s.zeroingNext == some granule && NMap.getD s.memsys.zeroed granule 0 == 8192 then
    .next { s with memsys := { s.memsys with
      grants := NMap.erase s.memsys.grants granule, zeroed := NMap.erase s.memsys.zeroed granule } }
  else .next s

/-- One word a tile scrub found (R160). -/
def State.tileFound (s : State) (core : Nat) (f : TileFind) : State :=
  match f.find with
  | .clean => s
  | .corrected => s.updCtr core (fun k => { k with tileEccCorrected := sat32 (k.tileEccCorrected + 1) })
  | .uncorrectable =>
    let slot := (f.owner.bind s.slotOf).filter (fun r => (s.run r).openStep.isSome)
    let s := s.tileBad core f.addr ((slot.map s.whoRun).getD {}) slot
    match slot with
    | some r => s.fault r
    | none => s

/-- TILE_SCRUB (R160): corrected words are counted and written back, uncorrectable ones recorded. A slice has 30 MiB (Table 7.4). -/
def execTileScrub (core : Nat) (finds : List TileFind) (s : State) : Out :=
  if finds.any (fun f => decide (0x1E00000 ≤ f.addr)) then .fault .noSuchAddress
  else .next (finds.foldl (fun s f => s.tileFound core f) s)

/-! ### Snapshots (R311, R312) -/

/-- Latch every counter into its shadow, with the stamps (R311). A core in reset has its clock stopped: it latches its cleared values late (R312). -/
def State.latch (s : State) (key : Option (Nat × Nat)) : State :=
  { s with ctrl := { s.ctrl with
      snapId := (s.ctrl.snapId + 1) % 2 ^ 32
      snapCycle := s.uptime
      snapStep := BitVec.ofNat 64 (match key with | some (n, a) => stepWord n a true | none => 0)
      shadows := {
        cores := s.cores.recs.map (fun e => (e.1, e.2.ctr))
        late := (s.cores.recs.filter (fun e => e.2.resetting)).map Prod.fst
        mem := s.memsys.ctr
        mods := s.ctxs.ctr
        fabric := s.links.fabric.map (fun e => (e.1, e.2.ctr))
        host := s.links.host.map (fun e => (e.1, e.2.ctr))
        bridge := s.links.bridge.ctr
        mirrorBytes := s.twin.bytesSent } } }

/-- A strobe is asked for: one at a time, in order (R312). -/
def State.strobe (s : State) (f : SnapFor) : State :=
  { s with ctrl := { s.ctrl with strobes := s.ctrl.strobes ++ [f], strobeAt := if s.ctrl.strobes.isEmpty then s.now else s.ctrl.strobeAt } }

/-- SNAPSHOT_OBJECT (R312): the write is answered once the strobe has latched. -/
def execSnapshotObject (q : Req) (v : Byte) (s : State) : Out :=
  .next (s.dictOpt q 2 0x6000 1 (fun s =>
    if !s.mayWrite q.who 0x6000 1 1 then (s.endElevation q.who, some (cObjPrivilege, []))
    else if 1 < v.toNat then (s, some (cObjValueRange, []))
    else if v = 0 then (s, some (cOk, []))
    else if !s.clk.aligned then (s, some (cNotReleased, []))
    else (s.strobe (.object q), none))).1

/-- SNAPSHOT_LATCH (R311, R312): the front strobe latches at the edge of control-network cycle t + 256; its requester is answered. -/
def execSnapshotLatch (s : State) : Out :=
  match s.ctrl.strobes with
  | [] => .next s
  | f :: fs =>
    let t := s.ctrl.strobeAt
    let s := s.advanceTo (t + 1024)
    let s := match f with
      | .boundary n a => s.latch (some (n, a))
      | _ => s.latch none
    let s := { s with ctrl := { s.ctrl with strobes := fs, strobeAt := s.now } }
    .next (match f with
      | .object q => s.answerLater q 2 0x6000 1 cOk
      | .op id => { s with sched := { s.sched with ops := match NMap.get? s.sched.ops id with
          | some e => NMap.set s.sched.ops id { e with phase := .finished, startedAt := t, cycles := 80 + 1024 }
          | none => s.sched.ops } }
      | .boundary _ _ => s)

end Sys2Proof.Machine
end

