-- ==== Sys2Proof/Machine/Security.lean ====
section
/-! DEFINITION. Life cycle, keys, attestation and images (R405, R414, R439, R466 to R483). -/

namespace Sys2Proof.Machine

/-- The serial as 8 bytes (R3). -/
def State.serialBytes (s : State) : List Byte := leBytes 8 s.serial

/-- A derived private scalar (R467). -/
def State.scalar (s : State) (info : String) : Nat := deviceScalar (leBytes 32 (fld s.fuses.bits 0 256)) s.serial info

/-- A signature of the key engine, 132 bytes: its bits are a free value (R466, log entry 6). -/
def signBytes (n d : Nat) (msg : List Byte) : List Byte := beBytes 132 (Config.signature n d (sha512 msg)).toNat

/-- The attestation and transport public keys, and the endorsement, the same for the module's whole life (R470). -/
def State.attPub (s : State) : List Byte := pubKey (s.scalar infoAttest)
def State.transPub (s : State) : List Byte := pubKey (s.scalar infoTransport)
def State.endorsement (s : State) : List Byte := signBytes 0 (s.scalar infoIdentity) (s.serialBytes ++ s.attPub ++ s.transPub)

/-- Is some context not FREE? -/
def State.anyContext (s : State) : Bool := s.ctxs.tab.any (fun e => e.2.state != .free)

/-- Set a thermometer field to `n` bits, in the array and its shadow. -/
def State.burn (s : State) (lo w n : Nat) : State :=
  { s with fuses := { s.fuses with bits := setFld s.fuses.bits lo w (2 ^ n - 1), shadow := setFld s.fuses.shadow lo w (2 ^ n - 1) } }

/-- A life-cycle transition (R414): its checks and its fuse change; the chip reset follows the response. `from_` are the states it may be asked in with
the least privilege in each, `extra` a further check. -/
def State.lifeCycle (s : State) (q : Req) (target : Nat) (need : Nat → Option Nat) (extra : State → Code) (change : State → State) : State :=
  let r := s.dictWrite q 0x1200 2 [BitVec.ofNat 8 target] (fun s' =>
    if s.boot.stage == .recovery then (s', cLcState)
    else if !s.released then (s', cNotReleased)
    else match need (lcState s.fuses.shadow) with
      | none => (s', cLcState)
      | some lvl =>
        if !s.mayWrite q.who 0x1200 2 lvl then (s', cObjPrivilege)
        else if extra s' != cOk then (s', extra s')
        else if s'.anyContext then (s', cLcContextsOpen)
        else (change s', cOk))
  if r.2 = cOk then r.1.startChipReset noTrigger else r.1

/-- The check of R469: the stored certificate names this serial and the derived identity key. -/
def State.certOk (s : State) : Bool :=
  let c := sha512 s.store.vendorCert
  !s.store.vendorCert.isEmpty && (Config.certSerial c).toNat == s.serial && beBytes 133 (Config.certSubject c).toNat == pubKey (s.scalar infoIdentity)

/-- LC_TO_PROVISIONED (R414, R469): from MANUFACTURE, Vendor. -/
def execLcToProvisioned (q : Req) (s : State) : Out :=
  .next (s.lifeCycle q 1 (fun l => if l = 0 then some 3 else none) (fun s => if s.certOk then cOk else cObjState) (fun s => s.burn 320 3 1))

/-- LC_TO_FLEET (R414): from PROVISIONED, Provisioner, once the fleet key is set; from SERVICE, Vendor. -/
def execLcToFleet (q : Req) (s : State) : Out :=
  .next (s.lifeCycle q 2 (fun l => if l = 1 then some 2 else if l = 3 then some 3 else none)
    (fun s => if lcState s.fuses.shadow = 1 && fld s.fuses.shadow 2120 512 == 0 then cObjState else cOk)
    (fun s => if lcState s.fuses.shadow = 3 then s.burn 328 32 ((thermometer s.fuses.shadow 328 32).getD 0 + 1) else s.burn 320 3 2))

/-- LC_TO_SERVICE (R414): from FLEET, Vendor, while the counter has room. -/
def execLcToService (q : Req) (s : State) : Out :=
  .next (s.lifeCycle q 3 (fun l => if l = 2 then some 3 else none)
    (fun s => if (thermometer s.fuses.shadow 328 32).getD 0 = 32 then cLcServiceExhausted else cOk)
    (fun s => s.burn 328 32 ((thermometer s.fuses.shadow 328 32).getD 0 + 1)))

/-- LC_TO_RETIRED (R414): from any state, Provisioner or Vendor; none leaves RETIRED. -/
def execLcToRetired (q : Req) (s : State) : Out :=
  .next (s.lifeCycle q 4 (fun l => if l = 4 then none else some 2) (fun _ => cOk) (fun s => s.burn 320 3 3))

/-- A 64-byte digest as the 512-bit fuse field that holds its bytes in order. -/
def fuseDigest (d : Digest) : Nat := leNat (digestBytes d)

/-- FLEET_KEY (R478). -/
def execFleetKey (q : Req) (sha : BitVec 512) (s : State) : Out :=
  .next (s.dictEnd q 0x1200 7 sha (fun s t =>
    if (pointOf t.got).isNone then (s, cObjValueRange)
    else if fld s.fuses.bits 2120 512 != 0 then (s, cFleetKeySet)
    else
      let h := fuseDigest (sha512 t.got)
      ({ s with fuses := { s.fuses with bits := setFld s.fuses.bits 2120 512 h, shadow := setFld s.fuses.shadow 2120 512 h } }, cOk))).1

/-- Is a key slot in use (R480): named as `key_slot`, or as `kslot` of a valid region, by a context OPEN, HALTED or RESETTING? -/
def State.slotInUse (s : State) (k : Nat) : Bool :=
  s.ctxs.tab.any (fun e =>
    (e.2.state == .open_ || e.2.state == .halted || e.2.state == .resetting) &&
    (e.2.keySlot == k || e.2.regions.any (fun r => let g : RegionE := r; g.valid && g.ownKey && g.kslot == k)))

/-- One key-slot record for slot `k` (R479, R480): the code, or the key. -/
def State.keyRecord (s : State) (k : Nat) (e : List Byte) : Except Code (BitVec 512) :=
  if leAt e 0 2 / 4096 != 0 || leAt e 3 5 != 0 || leAt e 149 3 != 0 || leAt e 224 32 != 0 || leAt e 0 2 % 4096 != k || leAt e 2 1 != 1 then
    .error cObjValueRange
  else match pointOf ((e.drop 16).take 133) with
    | none => .error cKeyRecordInvalid
    | some (x, y) =>
      if leAt e 8 8 != s.serial then .error cKeyRecordInvalid
      else match ptMul (s.scalar infoTransport) (some (x, y)) with
        | none => .error cKeyRecordInvalid
        | some (zx, _) =>
          let kek := hkdf512 (beBytes 66 zx) (s.serialBytes ++ leBytes 2 k) (asciiBytes infoSlotWrap) 32
          match keyUnwrap kek ((e.drop 152).take 72) with
          | none => .error cKeyRecordInvalid
          | some key =>
            if key.take 32 == key.drop 32 then .error cKeyRecordInvalid
            else if s.slotInUse k then .error cKeySlotInUse
            else .ok (BitVec.ofNat 512 (beNat key))

/-- All records of a transfer, in order; the first failure refuses the whole. -/
def State.keyRecords (s : State) : Nat → List (List Byte) → Except Code (List (Nat × BitVec 512))
  | _, [] => .ok []
  | k, e :: es =>
    if e.all (· == 0) then s.keyRecords (k + 1) es
    else match s.keyRecord k e with
      | .error c => .error c
      | .ok v => match s.keyRecords (k + 1) es with
        | .error c => .error c
        | .ok l => .ok ((k, v) :: l)

/-- KEY_SLOT_WRITE (R468, R479, R480): every key is installed together. -/
def execKeySlotWrite (q : Req) (sha : BitVec 512) (s : State) : Out :=
  .next (s.dictEnd q 0x1200 8 sha (fun s t =>
    if !s.boot.keysDerived then (s, cLcState)
    else match s.keyRecords (t.offset / 256 + 1) (chunks 256 4096 t.got) with
      | .error c => (s, c)
      | .ok l => ({ s with memsys := { s.memsys with keys := l.foldl (fun m e => NMap.set m e.1 e.2) s.memsys.keys } }, cOk))).1

/-- KEY_SLOT_CLEAR (R481). -/
def execKeySlotClear (q : Req) (v : BitVec 16) (s : State) : Out :=
  .next (s.dictWrite q 0x1200 9 (leBytes 2 v.toNat) (fun s =>
    if v = 0 || 4095 < v.toNat then (s, cObjValueRange)
    else if s.slotInUse v.toNat then (s, cKeySlotInUse)
    else ({ s with memsys := { s.memsys with keys := NMap.erase s.memsys.keys v.toNat } }, cOk))).1

/-- The attestation report (Table 18.3) without its signature. -/
def State.reportBody (s : State) (nonce : List Byte) : List Byte :=
  leBytes 2 0x4152 ++ [1] ++ leBytes 1 (lcState s.fuses.shadow) ++ [1] ++ leBytes 1 s.boot.slotBooted ++
  leBytes 1 ((thermometer s.fuses.shadow 360 64).getD 0) ++ leBytes 1 (bit s.boot.degraded + 2 * bit s.boot.fellBack) ++ s.serialBytes ++
  fitBytes 64 nonce ++ digestBytes s.boot.mBoxwood ++ digestBytes s.boot.mFirmware ++ digestBytes s.boot.mConfig ++ digestBytes s.boot.mFuses ++
  leBytes 8 s.vigil.seconds ++ leBytes 8 s.boot.reportSeq ++ s.attPub ++ s.transPub ++ leBytes 6 0 ++ s.endorsement ++ leBytes 4 0

/-- ATTEST_NONCE (R468, R473, R474): a signed report with the nonce. -/
def execAttestNonce (q : Req) (sha : BitVec 512) (s : State) : Out :=
  .next (s.dictEnd q 0x1200 4 sha (fun s t =>
    let lc := lcState s.fuses.shadow
    if lc = 0 || lc = 4 then (s, cLcState)
    else if !s.released then (s, cNotReleased)
    else
      let body := s.reportBody t.got
      let rep := body ++ signBytes s.free (s.scalar infoAttest) body
      let s := { s with boot := { s.boot with reportSeq := s.boot.reportSeq + 1 }, free := s.free + 1 }
      (s.updReq q.who (fun x => { x with attestNonce := t.got, report := some rep }), cOk))).1

/-- A list of bytes with `new` at offset `o`, zero filled up to there. -/
def overlay (old : List Byte) (o : Nat) (new : List Byte) : List Byte :=
  fitBytes o old ++ new ++ old.drop (o + new.length)

/-- An image transfer to the inactive slot (R405, R439): programmed and checked; with both images in place the slot is valid, and in RECOVERY a chip
reset follows. -/
def State.imageEnd (s : State) (t : Transfer) (fw programOk : Bool) : State × Code :=
  let n := s.inactiveSlot
  let k := s.flash.slot n
  if !programOk then ({ s with flash := s.flash.setSlot n { k with status := 2, fwDone := false, cfgDone := false } }, cFlashWriteFailed)
  else
    let img := overlay (if fw then k.firmware else k.config) t.offset t.got
    let c := imageCode s.fuses.shadow (if fw then 0 else 1) (if fw then fwMax else cfgMax) img
    if c != cOk then
      ({ s with flash := { (s.flash.setSlot n { k with status := 2, fwDone := false, cfgDone := false }) with slotCode := c } }, c)
    else
      let k := if fw then { k with firmware := img, fwDone := true } else { k with config := img, cfgDone := true }
      if k.fwDone && k.cfgDone then
        (({ s with flash := { (s.flash.setSlot n { k with status := 1 }) with slotCode := cOk } } : State).record (uidVigil 1 n) cFwSlotWritten 0 0, cOk)
      else ({ s with flash := s.flash.setSlot n { k with status := 3 } }, cOk)

/-- What follows an accepted image in RECOVERY (R405). -/
def State.afterImage (r : State × Code) : State :=
  if r.2 = cOk && r.1.boot.stage == .recovery && (r.1.flash.slot r.1.inactiveSlot).status == 1 then r.1.startChipReset noTrigger else r.1

/-- FW_IMAGE (R405, R439, R471). -/
def execFwImage (q : Req) (sha : BitVec 512) (programOk : Bool) (s : State) : Out :=
  .next (State.afterImage (s.dictEnd q 0x1300 6 sha (fun s t => s.imageEnd t true programOk)))

/-- CONFIG_IMAGE (R405, R439, R471). -/
def execConfigImage (q : Req) (sha : BitVec 512) (programOk : Bool) (s : State) : Out :=
  .next (State.afterImage (s.dictEnd q 0x1300 7 sha (fun s t => s.imageEnd t false programOk)))

/-! ### OBJECT_WRITE -/

/-- The little-endian entries of `w` bytes of a transfer. -/
def entriesOf (w : Nat) (t : Transfer) : List (Nat × Nat) :=
  ((List.range (t.got.length / w)).map (fun j => (t.offset / w + j, leAt t.got (w * j) w)))

/-- Set table entries; a zero entry is not listed. -/
def setEntries {n : Nat} (m : NMap (BitVec n)) (es : List (Nat × Nat)) : NMap (BitVec n) :=
  es.foldl (fun m e => if e.2 = 0 then NMap.erase m e.1 else NMap.set m e.1 (BitVec.ofNat n e.2)) m

/-- Table entries with their reserved bits zero: a write with a nonzero reserved field is performed with the reserved bits ignored (R6). A field is
its low bit and its width. -/
def unreserved (fs : List (Nat × Nat)) (es : List (Nat × Nat)) : List (Nat × Nat) :=
  es.map (fun e => (e.1, sumOf (fs.map (fun f => bitsOf e.2 f.1 f.2 * 2 ^ f.1))))

/-- A site or rank entry of 32 bits whose field has `w` bits (Table 16.12, R265), and a route entry (R265). -/
def siteFields (w : Nat) : List (Nat × Nat) := [(0, w), (31, 1)]
def routeFields : List (Nat × Nat) := [(0, 42), (63, 1)]

/-- A value that its range admits is stored; another is refused with OBJ_VALUE_RANGE. -/
def ranged (ok : Bool) (s t : State) : State × Code := if ok then (t, cOk) else (s, cObjValueRange)

/-- A plain WRITE of an object without a row of its own (Tables 16.8 to 16.12, 17.7). -/
def State.writePlain (s : State) (w : Requester) (i sub v : Nat) : State × Code :=
  let st := s.store
  if i = 0x1100 && sub = 2 then (s.setStore { st with plcaNodeId := v }, cOk)
  else if i = 0x1100 && sub = 3 then ranged (1 ≤ v) s (s.setStore { st with plcaNodeCount := v })
  else if i = 0x1100 && sub = 4 then (s.setStore { st with plcaBurst := v }, cOk)
  else if i = 0x1300 && sub = 2 then ranged (v ≤ 1) s (s.setStore { st with bootSlot := v })
  else if i = 0x2000 && sub = 3 then ranged (400 ≤ v && v ≤ 880 && v + 40 ≤ st.tempStop.toNat) s (s.setStore { st with tempWarn := BitVec.ofNat 16 v })
  else if i = 0x2000 && sub = 4 then ranged (480 ≤ v && v ≤ 880 && st.tempWarn.toNat + 40 ≤ v) s (s.setStore { st with tempStop := BitVec.ofNat 16 v })
  else if i = 0x5010 && sub = 1 then ranged (v ≤ 372) s (s.setStore { st with twinReserve := v })
  else if 0x5100 ≤ i && i < 0x5120 && sub = 2 then ranged (v ≤ 2) s (s.setStore { st with medium := NMap.set st.medium (i - 0x5100) v })
  else if (i = 0x5130 || i = 0x5131) && sub = 0x21 then ranged (v = 1 || v = 2) s (s.setStore { st with hostMedium := NMap.set st.hostMedium (i - 0x5130) v })
  else if i = 0x6000 && sub = 5 then ({ s with vigil := { s.vigil with timeOrigin := BitVec.ofNat 64 v } }, cOk)
  else if i = 0x7000 && sub = 1 then ranged (v < 4096 || v = 0xFFFF) s (s.updReq w (fun x => { x with runSelect := BitVec.ofNat 16 v }))
  else if i = 0x7100 && sub = 4 then ranged (v ≤ 1000) s { s with vigil := { s.vigil with gatherDeadline := v } }
  else if i = 0x7200 && sub = 1 then ranged (v < 2 ^ 20 || v = 2 ^ 32 - 1) s (s.setStore { st with ownSite := BitVec.ofNat 32 v })
  else (s, cObjState)

/-- A DOMAIN_END of a table without a row of its own. The 16 bytes of an `operator_nodes` address stand in network order, as the datagrams of R429
carry it (DESIGN CHOICE, log entry 47). -/
def State.writeTable (s : State) (i sub : Nat) (t : Transfer) : State × Code :=
  let es4 := entriesOf 4 t
  let es8 := entriesOf 8 t
  if i = 0x1100 && sub = 5 then
    let old := (s.store.operatorNodes.map (fun a => beBytes 16 a.toNat)).flatten
    let new := overlay old t.offset t.got
    ranged (new.length ≤ 128) s (s.setStore { s.store with operatorNodes := ((chunks 16 8 new).map (fun b => BitVec.ofNat 128 (beNat b))).filter (· != 0) })
  else if i = 0x7002 && sub = 1 then
    (s.updRun t.runSlot (fun r => { r with expertSlots := setEntries r.expertSlots (unreserved [(0, 18), (32, 20), (63, 1)] es8) }), cOk)
  else if i = 0x7002 && sub = 3 then
    (s.updRun t.runSlot (fun r => { r with spareList := setEntries r.spareList (unreserved (siteFields 20) es4) }), cOk)
  else if i = 0x7002 && sub = 4 then
    (s.updRun t.runSlot (fun r => { r with twinMap := setEntries r.twinMap (unreserved (siteFields 18) es4) }), cOk)
  else if i = 0x7200 && sub = 2 then
    ({ s with links := { s.links with rankTable := setEntries s.links.rankTable (unreserved (siteFields 20) es4) } }, cOk)
  else if i = 0x7200 && sub = 3 then
    ({ s with links := { s.links with podRoutes := setEntries s.links.podRoutes (unreserved routeFields es8) } }, cOk)
  else if i = 0x7200 && sub = 4 then
    ({ s with links := { s.links with slotRoutes := setEntries s.links.slotRoutes (unreserved routeFields es8) } }, cOk)
  else if i = 0x7200 && sub = 5 then ({ s with links := { s.links with planMasks := setEntries s.links.planMasks es4 } }, cOk)
  else (s, cObjState)

/-- The vendor object that writes the certificate, during MANUFACTURE with Vendor privilege (R469): its place in 0x8000 to 0x8FFF is a free value. -/
def isVendorCert (i sub : Nat) : Bool := i == 0x8000 + Config.vendorCertObject.1.toNat && sub == Config.vendorCertObject.2.toNat

/-- Does another row carry out a write of the object? -/
def ownRow (i sub : Nat) : Bool :=
  (i == 0x1100 && sub == 6) || (i == 0x1200 && (sub == 2 || sub == 4 || sub == 7 || sub == 8 || sub == 9)) ||
  (i == 0x1300 && (sub == 6 || sub == 7 || sub == 9)) || (i == 0x2300 && sub == 1) || (0x3000 ≤ i && i < 0x3010 && sub == 5) ||
  (0x4000 ≤ i && i < 0x4320 && (sub == 3 || sub == 4)) || (0x5100 ≤ i && i < 0x5120 && sub == 3) || (i == 0x5120 && (sub == 2 || sub == 0x26)) ||
  ((i == 0x5130 || i == 0x5131) && sub == 2) || (i == 0x5130 && (sub == 0x28 || sub == 0x29)) || (i == 0x6000 && sub == 1) ||
  (i == 0x7000 && sub == 2) || (i == 0x7001 && (sub == 1 || sub == 2 || sub == 4 || sub == 5)) || (i == 0x7002 && (sub == 2 || sub == 5 || sub == 6)) ||
  (i == 0x7003 && (sub == 1 || sub == 4)) || (i == 0x7100 && (sub == 1 || sub == 2 || sub == 5)) || (i == 0x7200 && (sub == 6 || sub == 7))

/-- OBJECT_WRITE (R426, R427, R433, R437): a WRITE or a DOMAIN_END to an object without a row of its own. -/
def execObjectWrite (q : Req) (index : BitVec 16) (sub : Byte) (w : WriteData) (s : State) : Out :=
  let i := index.toNat
  let k := sub.toNat
  if ownRow i k then .next s
  else match w with
    | .value bytes => .next (s.dictWrite q i k bytes (fun s => s.writePlain q.who i k (leNat bytes))).1
    | .domainEnd sha =>
      if isVendorCert i k then
        .next (s.dictEnd q i k sha (fun s t =>
          if lcState s.fuses.shadow != 0 then (s, cLcState)
          else if !s.mayWrite q.who i k 3 then (s, cObjPrivilege)
          else (s.setStore { s.store with vendorCert := t.got }, cOk))).1
      else .next (s.dictEnd q i k sha (fun s t => s.writeTable i k t)).1

end Sys2Proof.Machine
end

