-- ==== Sys2Proof/Machine/Links.lean ====
section
/-! DEFINITION. The links (files 10, 17): routing of cells, partner violations, link blocks and retry, training and retrains, LINK_CTRL. -/

namespace Sys2Proof.Machine

/-! ### Routes (R265 to R267) -/

/-- The site a rank-table entry names, if it is valid (R265). -/
def State.rankSite (s : State) (r : Nat) : Option Nat :=
  let e := NMap.getD s.links.rankTable r 0
  if flag e 31 then some (fld e 0 20) else none

/-- The module's own site. -/
def State.site (s : State) : Nat := fld s.store.ownSite 0 20

/-- Is the rank's site the module's own? -/
def State.isOwnRank (s : State) (r : Nat) : Bool := s.rankSite r == some s.site

/-- The module's rank for cells of no group: the lowest rank whose site is its own; 0 if none (DESIGN CHOICE, log entry 23). -/
def State.myRank (s : State) : Nat := ((s.links.rankTable.find? (fun e => flag e.2 31 && fld e.2 0 20 == s.site)).map Prod.fst).getD 0

def State.fabricUp (s : State) (n : Nat) : Bool := (s.link (.fabric n)).state == .up

/-- The route entry toward a site (R266). -/
def State.routeTo (s : State) (site : Nat) : BitVec 64 :=
  if site / 1024 != s.site / 1024 then NMap.getD s.links.podRoutes (site / 1024) 0 else NMap.getD s.links.slotRoutes (site % 1024) 0

/-- The port a cell leaves on (R266, R272). -/
def State.pickPort (s : State) (arr : Option Nat) (lane group : Nat) (e : BitVec 64) : Option Nat :=
  if !flag e 63 then none
  else if lane = 0 then
    let p := if s.fabricUp (fld e 32 5) then fld e 32 5 else fld e 37 5
    if s.fabricUp p && arr != some p then some p else none
  else
    let mask := if group = noGroup then 0 else (NMap.getD s.links.planMasks group 0).toNat
    let ps := (List.range 32).filter (fun p => flag e p && s.fabricUp p && arr != some p && (mask == 0 || bitsOf mask p 1 == 1))
    let credit := fun p => let k := s.link (.fabric p); k.laneCredit lane - k.queuedUnits lane
    ps.foldl (fun b p => match b with
      | none => some p
      | some q => if credit q < credit p then some p else some q) none

/-- Where a cell for a rank leaves, if anywhere. -/
def State.routeRank (s : State) (arr : Option Nat) (c : Cell) : Option Nat := match s.rankSite c.dst with
  | none => none
  | some site => s.pickPort arr c.lane c.group (s.routeTo site)

def Link.count (k : Link) (f : LinkCtr → LinkCtr) : Link := { k with ctr := f k.ctr }

/-- Count a dropped cell on a port (R266). -/
def State.unroutable (s : State) (n : Nat) : State :=
  s.updLink (.fabric n) (fun k => k.count (fun t => { t with unroutableDrops := sat64 (t.unroutableDrops + 1) }))

/-- Send a cell of the module's own: to a rank on its own site locally, else into the fabric (R266); one without a route is dropped and counted, on port 0
(DESIGN CHOICE, log entry 23). -/
def State.sendCell (s : State) (c : Cell) : State :=
  if s.isOwnRank c.dst then { s with links := { s.links with own := s.links.own ++ [c] } }
  else match s.routeRank none c with
    | some p => s.cellOut (.fabric p) c
    | none => s.unroutable 0

/-! ### Violations (R295, R453) -/

/-- A violation on a link: counted, reported in the next LINK_CTRL or LINK, recorded at most once per millisecond. -/
def State.violation (s : State) (l : LinkRef) (v : Nat) : State :=
  let host := match l with
    | .host _ => true
    | _ => false
  let due := !((s.link l).lastViolRecord.any (fun t => decide (s.now < t + Config.msCycles)))
  let s := s.updLink l (fun k => { k.count (fun t => { t with violations := sat64 (t.violations + 1) }) with
    violCode := BitVec.ofNat 16 v, violCount := (k.violCount + 1) % 2 ^ 16
    violStamps := recent s.now Config.msCycles k.violStamps ++ [s.now]
    lastViolRecord := if due then some s.now else k.lastViolRecord })
  if due then s.record (uidLink l 0xFF) (if host then cHostViolation else cFabricViolation) 0 v else s

/-- Has the link 64 violations within 1 ms (R296, R454)? -/
def State.guardDue (s : State) (l : LinkRef) : Bool := decide (64 ≤ (recent s.now Config.msCycles (s.link l).violStamps).length)

/-! ### The format of cells (R260 to R262, R302, Tables 10.3 to 10.7, 13.6, 17.6) -/

/-- Lane and lengths of a kind. -/
def kindShape (kind seg : Nat) : Option (Nat × List Nat) :=
  let any := (List.range 16).map (· + 1)
  match kind with
  | 0x01 => some (0, [0])
  | 0x02 => some (0, List.range 17)
  | 0x10 | 0x12 => some (1, [16])
  | 0x11 => some (1, [if seg = 2 then 8 else 16])
  | 0x13 => some (1, any)
  | 0x18 => some (4, [0])
  | 0x19 => some (1, [0])
  | 0x20 | 0x21 => some (2, any)
  | 0x30 => some (3, any)
  | 0x31 | 0x32 => some (3, List.range 17)
  | 0x38 => some (3, [2])
  | 0x39 => some (3, any)
  | 0x3A => some (3, [0])
  | _ => none

/-- May the kind travel on the link (R261, R455)? The bridge also carries the CLOSE of R458. -/
def kindOn (l : LinkRef) (kind : Nat) : Bool := match l with
  | .bridge => kind == 0x01 || kind == 0x18 || kind == 0x38 || kind == 0x39 || kind == 0x3A
  | _ => kind != 0x38

/-- The number of reduction lanes of a control message (Table 11.2). -/
def ctrlLanes (cmsg : Nat) : Option Nat := match cmsg with
  | 0x01 => some 4 | 0x02 => some 3 | 0x03 => some 1 | 0x04 => some 14 | 0x05 => some 1
  | 0x06 | 0x07 | 0x09 | 0x0A => some 0 | 0x0B => some 3
  | _ => none

/-- Does a control cell break Table 11.1 or 11.2? -/
def ctrlFault (c : Cell) : Bool :=
  let m := c.hi 0 8
  let down := c.hi 8 1
  let tag := c.hi 32 32
  let arg := c.hi 64 64
  match ctrlLanes m with
  | none => true
  | some n =>
    c.len != cdiv n 4 || c.hi 9 7 != 0 || c.hi 30 2 != 0 || (m != 2 && c.hi 16 14 != 0) ||
    leNat (c.payload.drop (8 * n)) != 0 ||
    ((m == 1 || m == 2 || m == 4 || m == 5 || m == 7) && tag != 0) || (m == 0x0B && 1 < tag) ||
    ((m == 1 || m == 2 || m == 3) && arg != 0) || ((m == 4 || m == 5) && (1 < arg || (down == 0 && arg != 0))) || (m == 7 && arg != 1) ||
    (m == 9 && arg / 2 ^ 38 != 0) || (m == 6 && arg / 2 ^ 26 != 0) || (m == 0x0B && arg / 2 ^ 40 != 0) || (m == 0x0A && arg / 2 ^ 40 != 0)

/-- The violation a cell's own fields make (Table 10.11), if any. -/
def cellFault (l : LinkRef) (c : Cell) : Option Nat :=
  let k := c.kind
  let obs := c.hi 16 16
  let bhdr := c.hi 64 64
  match kindShape k (c.hi 14 2) with
  | none => some 2
  | some (lane, lens) =>
    if !kindOn l k || (if lane = 4 then c.lane = 0 || (l == .bridge && c.lane != 3) else c.lane != lane) then some 2
    else if k = 0x11 && c.hi 14 2 = 3 then some 0x0A
    else if !lens.contains c.len then some 3
    else if c.res != 0 then some 4
    else match k with
      | 0x02 => if ctrlFault c then some 4 else none
      | 0x10 => if c.hi 14 2 != 0 then some 4 else none
      | 0x11 => if c.hi 14 2 != 0 && (obs != 0 || bhdr != 0) then some 0x0A else none
      | 0x12 | 0x13 => if c.hi 14 2 != 0 then some 4 else if obs != 0 || bhdr / 256 != 0 then some 0x0A else none
      | 0x18 => if c.hi 14 2 != 0 then some 4 else if obs != 0 then some 0x0A else none
      | 0x19 => if c.hi 14 2 != 0 || c.hi 32 32 != 0 then some 4 else if obs != 0 || bhdr != 0 then some 0x0A else none
      | 0x20 | 0x21 => if c.hi 14 2 != 0 || c.hi 90 6 != 0 then some 4 else none
      | 0x30 => if c.hi 14 2 != 0 || c.hi 72 56 != 0 then some 4 else none
      | 0x31 => if c.hi 8 8 != 0 || c.hi 112 16 != 0 then some 4 else none
      | 0x32 | 0x39 => if c.hi 9 7 != 0 || c.hi 88 40 != 0 then some 4 else none
      | 0x38 => if c.hi 0 128 != 0 || leAt c.payload 13 3 != 0 || leAt c.payload 18 6 != 0 || leAt c.payload 56 8 != 0 then some 4 else none
      | 0x3A => if c.hi 1 15 != 0 || c.hi 32 96 != 0 || (c.hi 0 1 = 1 && obs != 0) then some 4 else none
      | _ => none

/-! ### Receive buffers and credit (R263, R446) -/

/-- Units of a lane or class waiting in the receive buffer. LINK_CTRL waits as lane 4, without credit. -/
def Link.held_ (k : Link) (lane : Nat) : Nat := sumOf ((k.rx.filter (fun i => i.lane == lane)).map (fun i => 1 + cdiv i.data.length 32))

/-- Was an item of `u` units sent beyond the credit the link has advertised? -/
def Link.beyond (k : Link) (cap lane u : Nat) : Bool :=
  decide (cap < k.held_ lane + (nth k.freedUnits lane 0 + 2 ^ 32 - nth k.returned lane 0 % 2 ^ 32) % 2 ^ 32 + u)

/-- Free units of a lane. -/
def Link.free (k : Link) (lane u : Nat) : Link := { k with freedUnits := updAt k.freedUnits lane (fun n => (n + u) % 2 ^ 32) }

/-- Take a cell out of the link's receive buffer, where it waits, and free its units; one delivered locally has none. -/
def State.takeCell (s : State) (l : LinkRef) (c : Cell) : State :=
  match (s.link l).rx.find? (fun i => i.hdr == c.hdr && i.data == c.payload) with
  | none => { s with links := { s.links with own := s.links.own.erase c } }
  | some i => s.updLink l (fun k => let k := { k with rx := k.rx.erase i }; if i.lane = 4 then k else k.free i.lane (1 + cdiv i.data.length 32))

/-- The same for a packet. -/
def State.takePacket (s : State) (n : Nat) (p : Packet) : State :=
  s.updLink (.host n) (fun k => match k.rx.find? (fun i => i.hdr == p.hdr && i.data == p.data) with
    | none => k
    | some i => ({ k with rx := k.rx.erase i }).free i.lane (1 + cdiv i.data.length 32))

/-! ### The cell stream (R256, R260, R266, R267) -/

/-- A cell that keeps the format: it waits locally, is forwarded or is dropped. -/
def State.acceptCell (s : State) (l : LinkRef) (c : Cell) : State :=
  let u := 1 + c.len
  let here := fun (s : State) => s.updLink l (fun k => { k with rx := k.rx ++ [⟨if c.kind = 1 then 4 else c.lane, c.hdr, c.payload, s.now⟩] })
  match l with
  | .fabric n =>
    if c.kind = 1 || (c.kind = 2 && c.dst = floodDst) || s.isOwnRank c.dst then here s
    else
      let s := s.updLink l (fun k => k.free c.lane u)
      if c.hops = 63 then
        (s.updLink l (fun k => k.count (fun t => { t with hopLimitDrops := sat64 (t.hopLimitDrops + 1) }))).violation l 8
      else match s.routeRank (some n) c with
        | none => (s.unroutable n).violation l 7
        | some p => s.cellOut (.fabric p) { c with hdr := setFld c.hdr 101 6 (c.hops + 1) }
  | _ => here s

/-- What is left of a stream is a cell cut by the block's end. -/
def Link.part (k : Link) (bs : List Byte) (resync : Bool) : Link := { k with partialCell := bs, resync := resync }

/-- Eat the cells of a fabric or bridge stream, fill skipped. A header whose length is not allowed ends its block (Table 10.11); on a GUARDED port nothing but
LINK_CTRL counts (R296). -/
def State.eatCells (l : LinkRef) : Nat → List Byte → State → State
  | 0, bs, s => s.updLink l (fun k => k.part bs false)
  | f + 1, bs, s =>
    let unit := bs.take 32
    if unit.length < 32 then s.updLink l (fun k => k.part bs false)
    else if unit.all (· == 0) then eatCells l f (bs.drop 32) s
    else
      let h : Header := BitVec.ofNat 256 (leNat unit)
      let n := 32 * (1 + fld h 96 5)
      let guarded := (s.link l).state == .guarded && fld h 2 6 != 1
      if 16 < fld h 96 5 || cellFault l ⟨h, []⟩ = some 3 then (if guarded then s else s.violation l 3).updLink l (fun k => k.part [] true)
      else if bs.length < n then s.updLink l (fun k => k.part bs false)
      else
        let c : Cell := ⟨h, (bs.take n).drop 32⟩
        if guarded then eatCells l f (bs.drop n) (s.updLink l (fun k => k.free c.lane (n / 32)))
        else match cellFault l c with
          | some v =>
            eatCells l f (bs.drop n) ((s.violation l v).updLink l (fun k => if c.kind = 1 then k else k.free c.lane (n / 32)))
          | none =>
            if c.kind != 1 && (s.link l).beyond (nth (laneCaps l) c.lane 0) c.lane (n / 32) then eatCells l f (bs.drop n) (s.violation l 5)
            else eatCells l f (bs.drop n) (s.acceptCell l c)

/-! ### The packet stream (R444 to R447, R453) -/


/-- The module's receive capacity for a class (R446). -/
def hostCap (cls : Nat) : Nat := if cls = 4 then 2048 else if cls = 6 then 512 else 0

/-- The outstanding READ a COMPLETION answers. -/
def State.readOf (s : State) (n tag : Nat) : Option HostRead := s.sched.reads.find? (fun r => r.port == n && r.tag == tag)

/-- Is a COMPLETION a violation 0x0007: no READ on its tag, or another length? -/
def State.strayCompletion (s : State) (n : Nat) (p : Packet) : Bool := match s.readOf n p.tag with
  | none => true
  | some r => (match r.requester with
    | .op _ => true
    | _ => false) && p.cstatus = 0 && p.bytes_ != r.bytes

/-- The violation a packet makes (Table 17.5), if any; 0x0003 ends the block. -/
def State.packetFault (s : State) (n : Nat) (p : Packet) : Option Nat :=
  let c := p.cls
  if 8 ≤ c || c = 1 || c = 2 || c = 5 || c = 7 then some 2
  else if fld p.hdr 4 4 != 0 || fld p.hdr 60 4 != 0 || fld p.hdr 40 20 != 0 || fld p.hdr 64 64 != 0 || fld p.hdr 141 115 != 0 ||
      (c != 3 && (p.tag != 0 || p.cstatus != 0 || p.gen != 0)) || 2 < p.cstatus then some 4
  else if hostCap c != 0 && (s.link (.host n)).beyond (hostCap c) c (1 + p.units) then some 5
  else if c = 3 && s.strayCompletion n p then some 7
  else if c = 4 && (p.bytes_ != 16 || leAt p.data 0 16 / 2 ^ 20 % 16 != 0 || 5 < leAt p.data 4 1 % 8 || leAt p.data 4 4 / 8 != 0 ||
      leAt p.data 12 4 / 2 ^ 18 != 0) then some 8
  else if c = 6 && (1416 < p.bytes_ || p.bytes_ < 16 || p.bytes_ != 16 + leAt p.data 12 2) then some 9
  else none

/-- A DICT message: a read, or a message that breaks Table 16.6, is answered at once; the others wait for rows of their own. -/
def State.takeDictPacket (s : State) (n : Nat) (bs : List Byte) : State :=
  let who : Requester := .yalvo n
  if !s.answers who then s.takeDict who
  else match messageFault bs with
    | some a =>
      let s := (s.takeDict who).updLink (.host n) (fun k => k.count (fun t => { t with violations := sat64 (t.violations + 1) }))
      match a with
        | none => s
        | some c => s.sendResponse who (faultResponse bs c)
    | none => s.serveRead who bs

/-- A packet that keeps the format waits in its class's buffer. -/
def State.acceptPacket (s : State) (n : Nat) (p : Packet) : State :=
  let s := s.updLink (.host n) (fun k => { k with rx := k.rx ++ [⟨p.cls, p.hdr, p.data, s.now⟩] })
  if p.cls = 6 then s.takeDictPacket n p.data else s

/-- Eat the packets of a host port's stream. -/
def State.eatPackets (n : Nat) : Nat → List Byte → State → State
  | 0, bs, s => s.updLink (.host n) (fun k => k.part bs false)
  | f + 1, bs, s =>
    let l : LinkRef := .host n
    let unit := bs.take 32
    if unit.length < 32 then s.updLink l (fun k => k.part bs false)
    else if unit.all (· == 0) then eatPackets n f (bs.drop 32) s
    else
      let h : Header := BitVec.ofNat 256 (leNat unit)
      let len := 32 * (1 + fld h 8 8)
      if 128 < fld h 8 8 || fld h 8 8 != cdiv (fld h 128 13) 32 then (s.violation l 3).updLink l (fun k => k.part [] true)
      else if bs.length < len then s.updLink l (fun k => k.part bs false)
      else
        let p : Packet := ⟨h, ((bs.take len).drop 32).take (fld h 128 13)⟩
        let freed := fun (s : State) => s.updLink l (fun k => if hostCap p.cls = 0 then k else k.free p.cls (len / 32))
        if (s.link l).state == .guarded && p.cls != 0 && p.cls != 6 then eatPackets n f (bs.drop len) (freed s)
        else match s.packetFault n p with
          | some 5 => eatPackets n f (bs.drop len) (s.violation l 5)
          | some v => eatPackets n f (bs.drop len) (freed (s.violation l v))
          | none => eatPackets n f (bs.drop len) (s.acceptPacket n p)

/-! ### Link blocks (R256 to R259) -/

/-- How far number `b` lies ahead of `a`, modulo 2^16. -/
def ahead (a b : Nat) : Nat := (b + 2 ^ 16 - a % 2 ^ 16) % 2 ^ 16

/-- A block failed: `nak` goes out with every block until the expected one comes; a retry event begins (R258). -/
def Link.failed (k : Link) (now : Nat) : Link :=
  if k.inRetry then { k with nakOut := true }
  else { k.count (fun t => { t with retryEvents := sat64 (t.retryEvents + 1) }) with
         nakOut := true, inRetry := true, retryStamps := recent now Config.msCycles k.retryStamps ++ [now] }

/-- The header of a block that is sent now (Table 10.1): every block carries the present `ack` and `nak` (R257). -/
def Link.blockHdr (k : Link) (seq first : Nat) (null : Bool) : BitVec 40 :=
  BitVec.ofNat 40 (seq % 2 ^ 16 + k.rxNext % 2 ^ 16 * 2 ^ 16 + bit k.nakOut * 2 ^ 32 + bit null * 2 ^ 33 + first % 64 * 2 ^ 34)

/-- Send the whole retry buffer again, in order. -/
def Link.resend (k : Link) : Link := { k with wire := k.retry.map (fun b => ⟨true, k.blockHdr b.seq b.first false, b.stream⟩) }

/-- Apply a block's `ack` and `nak` to the retry buffer (R257, R258). -/
def Link.acked (k : Link) (ack : Nat) (nak : Bool) : Link :=
  let r := k.retry.filter (fun b => decide (2 ^ 15 ≤ ahead ack b.seq) == false)
  if nak then ({ k with retry := r.map (fun b => { b with sends := b.sends + 1 }) } : Link).resend else { k with retry := r }

/-- Can a link receive? -/
def Link.live (k : Link) : Bool := k.state == .up || k.state == .guarded

/-- LINK_BLOCK (R256 to R260, R266, R267, R295, R443, R453). -/
def execLinkBlock (l : LinkRef) (b : Block) (s : State) : Out :=
  if !(s.link l).live then .next s
  else if !b.decoded then .next (s.updLink l (fun k => k.failed s.now))
  else
    let seq := fld b.hdr 0 16
    let first := fld b.hdr 34 6
    if 40 < first then .next ((s.violation l 1).updLink l (fun k => k.failed s.now))
    else
      let s := s.updLink l (fun k => k.acked (fld b.hdr 16 16) (flag b.hdr 32))
      let k := s.link l
      if flag b.hdr 33 || seq != k.rxNext then .next s
      else
        let s := s.updLink l (fun k => { k with rxNext := (k.rxNext + 1) % 2 ^ 16, nakOut := false, inRetry := false })
        let bs := fitBytes 1280 b.stream
        let bs := if k.resync then bs.drop (32 * first) else k.partialCell ++ bs
        .next (match l with
          | .host n => s.eatPackets n 256 bs
          | _ => s.eatCells l 64 bs)

/-! ### Loss and retrains (R259, R443) -/

/-- A fabric port that was UP retrains or is lost: the event, and the running group operators end (R259). -/
def State.fabricLost (s : State) (n sev : Nat) : State :=
  let s := s.record (uidLink (.fabric n) 0xFF) cFabricPortLost sev 0
  ((s.sched.ops.filter (fun e => e.2.phase == .started && isGroupOp e.2.d.opcode)).map Prod.fst).foldl (fun s id => s.endOp id cPortLost) s

/-- The operator that waits for a READ. -/
def ReadFor.opId : ReadFor → Option Nat
  | .op id | .unsent id => some id
  | _ => none

/-- Outstanding READs of a host port complete with HOST_PORT_UNAVAILABLE (R443, R454). -/
def State.failReads (s : State) (n : Nat) : State :=
  let ids := s.sched.reads.filterMap (fun r => if r.port == n then r.requester.opId else none)
  let s := { s with sched := { s.sched with reads := s.sched.reads.filter (fun r => r.port != n) } }
  (dedup ids).foldl (fun s id => s.endOp id cHostPortUnavailable) s

/-- What the loss of a link that was UP or GUARDED means by its kind: `lost` cells or WRITEs when it goes DOWN. -/
def State.linkLost (s : State) (l : LinkRef) (down : Bool) (lost : Nat) : State := match l with
  | .fabric n => s.fabricLost n (if down then 3 else 2)
  | .host _ => s.record (uidLink l 0xFF) cHostPortLost 3 lost
  | .bridge => s

/-- LINK_RETRAIN_START (R259, R443): a block sent 8 times without acceptance, or 256 retry events within 1 ms. A fabric port that was GUARDED carried no
routed cells, and is GUARDED again afterwards (R296). -/
def execLinkRetrainStart (l : LinkRef) (s : State) : Out :=
  let k := s.link l
  if k.live && (k.retry.any (fun b => decide (8 ≤ b.sends)) || 256 ≤ (recent s.now Config.msCycles k.retryStamps).length) then
    let g := k.state == .guarded
    let s := s.updLink l (fun k => { k with state := .training, retraining := true, wasGuarded := g, trainStart := s.now, retryStamps := [], wire := [] })
    .next (match l with
      | .fabric _ => if g then s else s.linkLost l false 0
      | _ => s.linkLost l false 0)
  else .next s

/-- LINK_RETRAIN_DONE (R259): replay from the last `ack`, or after three failures within 10 s DOWN; the cells of the retry buffer are then
discarded and counted (in `stale_cells`: DESIGN CHOICE, log entry 23). -/
def execLinkRetrainDone (l : LinkRef) (ok : Bool) (s : State) : Out :=
  let k := s.link l
  if !(k.state == .training && k.retraining) then .next s
  else if ok then
    .next (s.updLink l (fun k => ({ k with
      state := if k.wasGuarded then .guarded else .up, retraining := false, wasGuarded := false, inRetry := false, nakOut := true, retrainStamps := []
      retry := k.retry.map (fun b => { b with sends := 1 }) } : Link).resend))
  else
    let st := recent s.now (10 * Config.sCycles) k.retrainStamps ++ [s.now]
    if st.length < 3 then .next (s.updLink l (fun k => { k with retrainStamps := st, trainStart := s.now }))
    else
      let n := sumOf (k.retry.map RetryBlk.cells)
      let s := s.updLink l (fun k => { k.count (fun t => { t with staleCells := sat64 (t.staleCells + n) }) with
        state := .down, unit := .stopped, retraining := false, wasGuarded := false, retrainStamps := [], retry := [] })
      .next (s.linkLost l true n)

/-- PORT_TRAINED (R255, R412, R456): the port is UP; the bridge sends TWIN_IDENT. -/
def execPortTrained (l : LinkRef) (s : State) : Out :=
  let k := s.link l
  if k.state == .training && !k.retraining then
    let s := s.updLink l (fun k => k.trained l s.now true)
    .next (match l with
      | .bridge => s.cellOut .bridge s.identCell
      | _ => s)
  else .next s

/-- PORT_TRAINING_TIMEOUT (R255): 1 s after the start of training. -/
def execPortTrainingTimeout (l : LinkRef) (s : State) : Out :=
  let k := s.link l
  if k.state == .training && !k.retraining then
    let s := s.advanceTo (k.trainStart + Config.sCycles)
    .next (s.updLink l (fun k => k.trained l s.now false))
  else .next s

/-- LANE_FIFO_SLIP (R392): the block counts as failed and the lane FIFO is recentred. -/
def execLaneFifoSlip (l : LinkRef) (lane : Nat) (s : State) : Out :=
  let lanes := match l with
    | .fabric _ => 4
    | .host _ => 8
    | .bridge => 16
  if (s.link l).live && lane < lanes then .next (s.updLink l (fun k => k.failed s.now)) else .next s

/-- LINK_CTRL_SEND (R263, R295): the freed counts and the last violation go to the partner. -/
def execLinkCtrlSend (l : LinkRef) (s : State) : Out :=
  let k := s.link l
  match l with
  | .host _ => .next s
  | _ =>
    if !k.live then .next s
    else
      let f := fun i => nth k.freedUnits i 0 % 2 ^ 24
      let c := cellOf 0 1 floodDst s.myRank 0 noStep 0 noGroup
        (f 0 + f 1 * 2 ^ 24 + f 2 * 2 ^ 48 + f 3 * 2 ^ 72 + k.violCode.toNat * 2 ^ 96 + k.violCount * 2 ^ 112) []
      .next ((s.updLink l (fun k => { k with returned := k.freedUnits, lastReturn := s.now })).cellOut l c)

/-- The units a LINK_CTRL returns on lane `i`, and whether they are more than were sent (R295). -/
def Link.grow (k : Link) (i v : Nat) : Nat × Bool :=
  let back := nth k.backUnits i 0
  let d := (v + 2 ^ 24 - back % 2 ^ 24) % 2 ^ 24
  let out := nth k.sentUnits i 0 - back
  if out < d then (back + out, true) else (back + d, false)

/-- LINK_CTRL (R263, R295). -/
def execLinkCtrl (l : LinkRef) (c : Cell) (s : State) : Out :=
  match l with
  | .host _ => .next s
  | _ =>
    if !((s.link l).live && c.kind = 1 && (cellFault l c).isNone) then .next s
    else
      let s := s.takeCell l c
      let k := s.link l
      let g := (List.range 4).map (fun i => k.grow i (c.hi (24 * i) 24))
      let s := s.updLink l (fun k => { k with backUnits := g.map Prod.fst, gotLink := true, partnerViol := BitVec.ofNat 16 (c.hi 96 16) })
      .next (if g.any Prod.snd then s.violation l 6 else s)

/-- PORT_GUARDED (R296): 64 violations within 1 ms. -/
def execPortGuarded (n : Nat) (s : State) : Out :=
  if (s.link (.fabric n)).state == .up && s.guardDue (.fabric n) then
    .next ((s.updLink (.fabric n) (fun k => { k with state := .guarded })).record (uidLink (.fabric n) 0xFF) cPortGuarded 3 0)
  else .next s

end Sys2Proof.Machine
end

