-- ==== Sys2Proof/Machine/Float32.lean ====
section
/-! DEFINITION. The binary32 lane operations of R128 and the functions of Table 6.3, with the status bits of R132. -/

namespace Sys2Proof.Machine

/-- The IEEE events of a lane operation (R132). -/
structure Fl where
  inv : Bool := false
  dz : Bool := false
  ov : Bool := false
  uf : Bool := false
deriving DecidableEq, Repr

/-- Events of two operations together. -/
def Fl.or (a b : Fl) : Fl := ⟨a.inv || b.inv, a.dz || b.dz, a.ov || b.ov, a.uf || b.uf⟩

/-- The canonical NaN of binary32 (Table 2.3). -/
def nan32 : Word := 0x7FC00000

/-- The value of a binary32 word. -/
def val32 (w : Word) : Val := ffB32.decode w.toNat

/-- Is the finite nonzero value tiny after rounding (R128)? -/
def tiny32 (neg : Bool) (m : Nat) (e : Int) : Bool :=
  let u := exponOf m e - 23
  let n := (roundUnit .rne 0 neg m e u).natAbs
  ltFin false n u false 1 (-126)

/-- Round an exact value to binary32 with its events. -/
def round32 (v : Val) : Word × Fl :=
  match v with
  | .fin neg m e =>
    let c := ffB32.convert true .rne 0 v
    let w : Word := BitVec.ofNat 32 c.code
    let inexact := !Val.eqv (val32 w) v
    (w, { ov := c.sat, uf := m != 0 && tiny32 neg m e && inexact })
  | v => (BitVec.ofNat 32 (ffB32.convert true .rne 0 v).code, {})

/-- a + b. -/
def add32 (a b : Word) : Word × Fl :=
  let x := val32 a
  let y := val32 b
  let s := Val.add x y
  let r := round32 s
  (r.1, { r.2 with inv := s.isNan && !x.isNan && !y.isNan })

/-- −a, the canonical NaN for a NaN (R128). -/
def neg32 (a : Word) : Word := if (val32 a).isNan then nan32 else a ^^^ 0x80000000

/-- |a|, the canonical NaN for a NaN (R128). -/
def abs32 (a : Word) : Word := if (val32 a).isNan then nan32 else a &&& 0x7FFFFFFF

/-- |a| with the sign of b. -/
def cpysgn32 (a b : Word) : Word :=
  if (val32 a).isNan then nan32 else (a &&& 0x7FFFFFFF) ||| (b &&& 0x80000000)

/-- a − b. -/
def sub32 (a b : Word) : Word × Fl := add32 a (if (val32 b).isNan then b else b ^^^ 0x80000000)

/-- a × b. -/
def mul32 (a b : Word) : Word × Fl :=
  let x := val32 a
  let y := val32 b
  let s := Val.mul x y
  let r := round32 s
  (r.1, { r.2 with inv := s.isNan && !x.isNan && !y.isNan })

/-- a × b + c rounded once; a zero times an infinity is invalid even beside a NaN addend (R128). -/
def fma32v (x y z : Val) : Word × Fl :=
  let p := Val.mul x y
  let s := Val.add p z
  let r := round32 s
  (r.1, { r.2 with inv := (p.isNan && !x.isNan && !y.isNan) || (s.isNan && !p.isNan && !z.isNan) })

def fma32 (a b c : Word) : Word × Fl := fma32v (val32 a) (val32 b) (val32 c)
def fms32 (a b c : Word) : Word × Fl := fma32v (val32 a) (val32 b) (val32 c).neg
def fnma32 (a b c : Word) : Word × Fl := fma32v (val32 a).neg (val32 b) (val32 c)

/-- An exact dyadic that lies where n/d lies between neighbours far below the rounding position: the quotient with a sticky bit. -/
def quotVal (neg : Bool) (n d : Nat) (e : Int) : Val :=
  let k := 64 + Nat.log2 d
  let q := n * 2 ^ k / d
  let st := if n * 2 ^ k % d = 0 then 0 else 1
  .fin neg (2 * q + st) (e - k - 1)

/-- a / b, correctly rounded. -/
def div32 (a b : Word) : Word × Fl :=
  match val32 a, val32 b with
  | .nan, _ => (nan32, {})
  | _, .nan => (nan32, {})
  | .inf _, .inf _ => (nan32, { inv := true })
  | .inf s, .fin t _ _ => round32 (.inf (s != t))
  | .fin s _ _, .inf t => round32 (.fin (s != t) 0 0)
  | .fin s m e, .fin t n f =>
    if n = 0 then
      if m = 0 then (nan32, { inv := true })
      else ((round32 (.inf (s != t))).1, { dz := true })
    else if m = 0 then round32 (.fin (s != t) 0 0)
    else round32 (quotVal (s != t) m n (e - f))

/-- Integer square root by bits. -/
def isqrtGo : Nat → Nat → Nat → Nat
  | 0, _, r => r
  | b + 1, n, r => let c := r + 2 ^ b; if c * c ≤ n then isqrtGo b n c else isqrtGo b n r

/-- The greatest integer whose square is at most `n`. -/
def isqrt (n : Nat) : Nat := isqrtGo (Nat.log2 n / 2 + 1) n 0

/-- The square root of m·2^e as a dyadic with a sticky bit; the exponent is made even first. -/
def sqrtVal (m : Nat) (e : Int) : Val :=
  let m' := if e % 2 = 0 then m else 2 * m
  let e' := if e % 2 = 0 then e else e - 1
  let n := m' * 2 ^ 128
  let r := isqrt n
  let st := if r * r = n then 0 else 1
  .fin false (2 * r + st) (e' / 2 - 64 - 1)

/-- √a, correctly rounded; the root of −0 is −0. -/
def sqrt32 (a : Word) : Word × Fl :=
  match val32 a with
  | .nan => (nan32, {})
  | .inf neg => if neg then (nan32, { inv := true }) else round32 (.inf false)
  | .fin neg m e =>
    if m = 0 then (a, {})
    else if neg then (nan32, { inv := true })
    else round32 (sqrtVal m e)

/-- Minimum with −0 below +0; NaN when either operand is NaN (R128). -/
def min32 (a b : Word) : Word :=
  let x := val32 a
  let y := val32 b
  if x.isNan || y.isNan then nan32
  else if Val.lt x y then a
  else if Val.lt y x then b
  else if x.isNeg then a else b

/-- Maximum with −0 below +0; NaN when either operand is NaN (R128). -/
def max32 (a b : Word) : Word :=
  let x := val32 a
  let y := val32 b
  if x.isNan || y.isNan then nan32
  else if Val.lt x y then b
  else if Val.lt y x then a
  else if x.isNeg then b else a

/-! ### Enclosures for Table 6.3 (log entry 13)

A real number is enclosed by two integers in units of 2^−p. -/

/-- An enclosure. -/
structure Ivl where
  lo : Int
  hi : Int
deriving DecidableEq, Repr

/-- The quotient rounded down. -/
def fdiv (a b : Int) : Int := a / b
/-- The quotient rounded up. -/
def udiv (a b : Int) : Int := -((-a) / b)

/-- m·2^e in units of 2^−p. -/
def ivlOf (p m : Nat) (e : Int) : Ivl :=
  let k := e + p
  if 0 ≤ k then ⟨m * 2 ^ k.toNat, m * 2 ^ k.toNat⟩
  else ⟨fdiv m (2 ^ (-k).toNat), udiv m (2 ^ (-k).toNat)⟩

def ivlAdd (a b : Ivl) : Ivl := ⟨a.lo + b.lo, a.hi + b.hi⟩
def ivlSub (a b : Ivl) : Ivl := ⟨a.lo - b.hi, a.hi - b.lo⟩
/-- Product of nonnegative enclosures. -/
def ivlMul (p : Nat) (a b : Ivl) : Ivl := ⟨fdiv (a.lo * b.lo) (2 ^ p), udiv (a.hi * b.hi) (2 ^ p)⟩
/-- Quotient of nonnegative enclosures, the divisor positive. -/
def ivlDiv (p : Nat) (a b : Ivl) : Ivl := ⟨fdiv (a.lo * 2 ^ p) b.hi, udiv (a.hi * 2 ^ p) b.lo⟩
/-- Times a positive integer over a positive integer. -/
def ivlRat (n d : Nat) (a : Ivl) : Ivl := ⟨fdiv (a.lo * n) d, udiv (a.hi * n) d⟩

/-- Sum of k terms t, t·z/(n), …: the exponential series from term index `n`. -/
def expSeries (p : Nat) (z : Ivl) : Nat → Nat → Ivl → Ivl → Ivl
  | 0, _, t, acc => ⟨acc.lo, acc.hi + 2 * t.hi + 1⟩
  | k + 1, n, t, acc => expSeries p z k (n + 1) (ivlRat 1 n (ivlMul p t z)) (ivlAdd acc t)

/-- Repeated squaring. -/
def ivlSquares (p : Nat) : Nat → Ivl → Ivl
  | 0, a => a
  | k + 1, a => ivlSquares p k (ivlMul p a a)

/-- e^y for 0 ≤ y < 256. -/
def expIvl (p m : Nat) (e : Int) : Ivl :=
  let z := ivlOf p m (e - 12)
  ivlSquares p 12 (expSeries p z (p / 4) 1 ⟨2 ^ p, 2 ^ p⟩ ⟨0, 0⟩)

/-- Sum of z^(2i+1)/(2i+1) over k terms from odd index `n`; |z| at most 1/2. -/
def atanhSeries (p : Nat) (zz : Ivl) : Nat → Nat → Ivl → Ivl → Ivl
  | 0, _, t, acc => ⟨acc.lo, acc.hi + 2 * t.hi + 1⟩
  | k + 1, n, t, acc => atanhSeries p zz k (n + 2) (ivlMul p t zz) (ivlAdd acc (ivlRat 1 n t))

/-- atanh of a nonnegative enclosure. -/
def atanhIvl (p : Nat) (z : Ivl) : Ivl := atanhSeries p (ivlMul p z z) (p / 2) 1 z ⟨0, 0⟩

/-- ln 2 = 2·atanh(1/3). -/
def ln2Ivl (p : Nat) : Ivl := ivlRat 2 1 (atanhIvl p (ivlRat 1 3 ⟨2 ^ p, 2 ^ p⟩))

/-- ln (m·2^e), m > 0. -/
def lnIvl (p m : Nat) (e : Int) : Ivl :=
  let x := exponOf m e
  -- f = m / 2^log2 m lies in [1, 2); above 3/2 the next binade is used
  let d := 2 ^ Nat.log2 m
  let up := 2 * m > 3 * d
  let k : Int := if up then x + 1 else x
  let den := if up then 2 * d else d
  let one : Ivl := ⟨2 ^ p, 2 ^ p⟩
  let lf := if den ≤ m then ivlRat 2 1 (atanhIvl p (ivlRat (m - den) (m + den) one))
    else let a := ivlRat 2 1 (atanhIvl p (ivlRat (den - m) (m + den) one)); ⟨-a.hi, -a.lo⟩
  let l2 := ln2Ivl p
  ivlAdd lf (if 0 ≤ k then ⟨k * l2.lo, k * l2.hi⟩ else ⟨k * l2.hi, k * l2.lo⟩)

/-- Alternating arctangent series of 1/q: pairs of terms, `k` of them from odd index `n`, with t = 1/q^n. -/
def atanSeries (p q : Nat) : Nat → Nat → Ivl → Ivl → Ivl
  | 0, _, t, acc => ⟨acc.lo - 1, acc.hi + t.hi + 1⟩
  | k + 1, n, t, acc =>
    let t2 := ivlRat 1 (q * q) t
    atanSeries p q k (n + 4) (ivlRat 1 (q * q) t2) (ivlAdd acc (ivlSub (ivlRat 1 n t) (ivlRat 1 (n + 2) t2)))

/-- π by Machin's formula. -/
def piIvl (p : Nat) : Ivl :=
  let one : Ivl := ⟨2 ^ p, 2 ^ p⟩
  ivlSub (ivlRat 16 1 (atanSeries p 5 (p / 4) 1 (ivlRat 1 5 one) ⟨0, 0⟩))
    (ivlRat 4 1 (atanSeries p 239 (p / 4) 1 (ivlRat 1 239 one) ⟨0, 0⟩))

/-- The square root of a nonnegative enclosure. -/
def ivlSqrt (p : Nat) (a : Ivl) : Ivl := ⟨isqrt (a.lo.toNat * 2 ^ p), isqrt (a.hi.toNat * 2 ^ p) + 1⟩

/-- Sum of the positive series of erf: x, 2x³/3, 4x⁵/15, … -/
def erfSeries (p : Nat) (xx : Ivl) : Nat → Nat → Ivl → Ivl → Ivl
  | 0, _, t, acc => ⟨acc.lo, acc.hi + 2 * t.hi + 1⟩
  | k + 1, n, t, acc => erfSeries p xx k (n + 2) (ivlRat 2 n (ivlMul p t xx)) (ivlAdd acc t)

/-- erf (m·2^e) for a positive argument below 4. -/
def erfIvl (p m : Nat) (e : Int) : Ivl :=
  let x := ivlOf p m e
  let s := erfSeries p (ivlMul p x x) p 3 x ⟨0, 0⟩
  let ex := expIvl p (m * m) (2 * e)
  let c := ivlSqrt p (ivlDiv p ⟨4 * 2 ^ p, 4 * 2 ^ p⟩ (piIvl p))
  ivlMul p (ivlDiv p s ex) c

/-- The value of an end of an enclosure. -/
def endVal (p : Nat) (z : Int) : Val := .ofInt z (-(p : Int))

/-- Round an irrational value to binary32: its word and events, tiny values always being inexact. -/
def roundIrr (v : Val) : Word × Fl :=
  let r := round32 v
  match v with
  | .fin neg m e => (r.1, { r.2 with uf := m = 0 || tiny32 neg m e })
  | _ => r

/-- The correctly rounded word of an enclosed irrational value: precisions are tried in turn until both ends round alike. -/
def ziv (f : Nat → Ivl) : List Nat → Word × Fl
  | [] => (nan32, {})
  | [p] => roundIrr (endVal p (f p).lo)
  | p :: q :: r =>
    let i := f p
    let a := roundIrr (endVal p i.lo)
    if a = roundIrr (endVal p i.hi) then a else ziv f (q :: r)

/-- The precisions tried. -/
def zivPs : List Nat := [256, 400, 800, 1600]

/-- The enclosure of the negated value. -/
def ivlNeg (a : Ivl) : Ivl := ⟨-a.hi, -a.lo⟩

/-- With the sign of the operand. -/
def ivlSgn (neg : Bool) (a : Ivl) : Ivl := if neg then ivlNeg a else a

/-- Is m·2^e at least `k`? -/
def geNat (m : Nat) (e : Int) (k : Nat) : Bool := !ltFin false m e false k 0

/-- e^x (Table 6.3). -/
def exp32 (a : Word) : Word × Fl :=
  match val32 a with
  | .nan => (nan32, {})
  | .inf neg => (if neg then 0 else 0x7F800000, {})
  | .fin neg m e =>
    if m = 0 then (0x3F800000, {})
    else if geNat m e 128 then (if neg then (0, { uf := true }) else (0x7F800000, { ov := true }))
    else if neg then ziv (fun p => ivlDiv p ⟨2 ^ p, 2 ^ p⟩ (expIvl p m e)) zivPs
    else ziv (fun p => expIvl p m e) zivPs

/-- ln x (Table 6.3). -/
def log32 (a : Word) : Word × Fl :=
  match val32 a with
  | .nan => (nan32, {})
  | .inf neg => if neg then (nan32, { inv := true }) else (0x7F800000, {})
  | .fin neg m e =>
    if m = 0 then (0xFF800000, { dz := true })
    else if neg then (nan32, { inv := true })
    else if a = 0x3F800000 then (0, {})
    else ziv (fun p => lnIvl p m e) zivPs

/-- 1/√x (Table 6.3). -/
def rsqrt32 (a : Word) : Word × Fl :=
  match val32 a with
  | .nan => (nan32, {})
  | .inf neg => if neg then (nan32, { inv := true }) else (0, {})
  | .fin neg m e =>
    if m = 0 then (if neg then 0xFF800000 else 0x7F800000, { dz := true })
    else if neg then (nan32, { inv := true })
    else
      -- make the exponent even, then 1/√(m·2^e) = √(2^(2k)/m) · 2^(−k − e/2)
      let m' := if e % 2 = 0 then m else 2 * m
      let e' := if e % 2 = 0 then e else e - 1
      let k := 64 + Nat.log2 m'
      let r := isqrt (2 ^ (2 * k) / m')
      let st := if r * r * m' = 2 ^ (2 * k) then 0 else 1
      round32 (.fin false (2 * r + st) (-(k : Int) - e' / 2 - 1))

/-- tanh x (Table 6.3). -/
def tanh32 (a : Word) : Word × Fl :=
  match val32 a with
  | .nan => (nan32, {})
  | .inf neg => (if neg then 0xBF800000 else 0x3F800000, {})
  | .fin neg m e =>
    if m = 0 then (a, {})
    else if geNat m e 32 then (if neg then 0xBF800000 else 0x3F800000, {})
    else ziv (fun p =>
      let x := expIvl p m (e + 1)
      let one : Ivl := ⟨2 ^ p, 2 ^ p⟩
      ivlSgn neg (ivlDiv p (ivlSub x one) (ivlAdd x one))) zivPs

/-- erf x (Table 6.3); from 4 on the value lies within half an ulp of 1. -/
def erf32 (a : Word) : Word × Fl :=
  match val32 a with
  | .nan => (nan32, {})
  | .inf neg => (if neg then 0xBF800000 else 0x3F800000, {})
  | .fin neg m e =>
    if m = 0 then (a, {})
    else if geNat m e 4 then (if neg then 0xBF800000 else 0x3F800000, {})
    else ziv (fun p => ivlSgn neg (erfIvl p m e)) zivPs

/-- 1/(1 + e^−x) (Table 6.3). -/
def sigm32 (a : Word) : Word × Fl :=
  match val32 a with
  | .nan => (nan32, {})
  | .inf neg => (if neg then 0 else 0x3F800000, {})
  | .fin neg m e =>
    if m = 0 then (0x3F000000, {})
    else if geNat m e 128 then (if neg then (0, { uf := true }) else (0x3F800000, {}))
    else ziv (fun p =>
      let x := expIvl p m e
      let one : Ivl := ⟨2 ^ p, 2 ^ p⟩
      if neg then ivlDiv p one (ivlAdd one x) else ivlDiv p x (ivlAdd one x)) zivPs

end Sys2Proof.Machine
end

