-- ==== Sys2Proof/Machine/Lanes.lean ====
section
/-! DEFINITION. The vector engine of one core (file 06): lanes and masks, every instruction of Table 6.7 as a change of `VCore`, accumulators. -/

namespace Sys2Proof.Machine

/-! ### Registers -/

/-- Vector register `r`. -/
def VCore.vreg (c : VCore) (r : Nat) : List Word := nth c.v r []
/-- Element `i` of vector register `r`. -/
def VCore.lane (c : VCore) (r i : Nat) : Word := nth (c.vreg r) i 0
/-- Bit `i` of mask register `r`; m0 reads as all ones (R127). -/
def VCore.mbit (c : VCore) (r i : Nat) : Bool := if r = 0 then true else nth (nth c.m r []) i false
/-- Scalar register `r`; s0 reads zero (R127). -/
def VCore.sreg (c : VCore) (r : Nat) : DWord := if r = 0 then 0 else nth c.s r 0
/-- Is lane `i` active under mask register `mk` (R130)? -/
def VCore.active (c : VCore) (mk i : Nat) : Bool := decide (i < c.vl) && c.mbit mk i
/-- The active lanes. -/
def VCore.activeLanes (c : VCore) (mk : Nat) : List Nat := (List.range c.vl).filter (c.active mk)

/-- A register with its active lanes changed; tail and masked lanes keep their elements (R130). -/
def VCore.lanes (c : VCore) (mk : Nat) (old : List Word) (f : Nat → Word) : List Word :=
  (List.range (max c.vl old.length)).map (fun i => if c.active mk i then f i else nth old i 0)

/-- Write the active lanes of register `d`. -/
def VCore.setV (c : VCore) (d mk : Nat) (f : Nat → Word) : VCore :=
  { c with v := updAt c.v d (fun old => c.lanes mk old f) }

/-- Write a scalar register: only s11 to s15 are writable (Table 6.1, R143). -/
def VCore.setS (c : VCore) (d : Nat) (x : DWord) : VCore :=
  if 11 ≤ d && d < 16 then { c with s := updAt c.s d (fun _ => x) } else c

/-- Write a mask register; m0 cannot be written (Table 6.1). Lanes at or beyond `vl` and inactive lanes keep their bits. -/
def VCore.setM (c : VCore) (d mk : Nat) (f : Nat → Bool) : VCore :=
  if d = 0 then c
  else { c with m := updAt c.m d (fun old => (List.range (max c.vl old.length)).map
    (fun i => if c.active mk i then f i else nth old i false)) }

/-! ### Status (R132) -/

/-- Add the events of lanes to the sticky status. -/
def OpStatus.addFl (t : OpStatus) (f : Fl) : OpStatus :=
  { t with vxInvalid := t.vxInvalid || f.inv, vxDivzero := t.vxDivzero || f.dz, vxOverflow := t.vxOverflow || f.ov,
           vxUnderflow := t.vxUnderflow || f.uf }

/-- Two statuses together. -/
def OpStatus.or (a b : OpStatus) : OpStatus :=
  { cvtSat := a.cvtSat || b.cvtSat, cvtNonfinite := a.cvtNonfinite || b.cvtNonfinite, gridNonfinite := a.gridNonfinite || b.gridNonfinite,
    vxInvalid := a.vxInvalid || b.vxInvalid, vxDivzero := a.vxDivzero || b.vxDivzero, vxOverflow := a.vxOverflow || b.vxOverflow,
    vxUnderflow := a.vxUnderflow || b.vxUnderflow, permOob := a.permOob || b.permOob, katPass := a.katPass || b.katPass,
    deadline := a.deadline || b.deadline }

/-- The status of conversions (R57). -/
def OpStatus.cvt (t : OpStatus) (sat nonfin : Bool) : OpStatus :=
  { t with cvtSat := t.cvtSat || sat, cvtNonfinite := t.cvtNonfinite || nonfin }

/-- A lane operation with IEEE events: the words go to the active lanes, the events of the active lanes to the status. -/
def VCore.fop (c : VCore) (d mk : Nat) (f : Nat → Word × Fl) : VCore :=
  let ev := (c.activeLanes mk).foldl (fun a i => Fl.or a (f i).2) {}
  let c' := c.setV d mk (fun i => (f i).1)
  { c' with stat := c.stat.addFl ev }

/-- One-operand operation with events. -/
def VCore.fop1 (c : VCore) (d a mk : Nat) (f : Word → Word × Fl) : VCore := c.fop d mk (fun i => f (c.lane a i))
/-- Two-operand operation with events. -/
def VCore.fop2 (c : VCore) (d a b mk : Nat) (f : Word → Word → Word × Fl) : VCore := c.fop d mk (fun i => f (c.lane a i) (c.lane b i))
/-- Three-operand operation with events. -/
def VCore.fop3 (c : VCore) (d a b e mk : Nat) (f : Word → Word → Word → Word × Fl) : VCore :=
  c.fop d mk (fun i => f (c.lane a i) (c.lane b i) (c.lane e i))
/-- One-operand operation without events. -/
def VCore.lop1 (c : VCore) (d a mk : Nat) (f : Word → Word) : VCore := c.setV d mk (fun i => f (c.lane a i))
/-- Two-operand operation without events. -/
def VCore.lop2 (c : VCore) (d a b mk : Nat) (f : Word → Word → Word) : VCore := c.setV d mk (fun i => f (c.lane a i) (c.lane b i))

/-! ### Scalar instructions -/

/-- SETVL (R130). -/
def VCore.setvl (c : VCore) (d a : Nat) : VCore :=
  let n := min (c.sreg a).toNat 2048
  ({ c with vl := n } : VCore).setS d (BitVec.ofNat 64 n)
/-- SLI: the immediate sign-extended. -/
def VCore.sli (c : VCore) (d : Nat) (imm : Word) : VCore := c.setS d (imm.signExtend 64)
def VCore.sadd (c : VCore) (d a b : Nat) : VCore := c.setS d (c.sreg a + c.sreg b)
def VCore.ssub (c : VCore) (d a b : Nat) : VCore := c.setS d (c.sreg a - c.sreg b)
def VCore.sminu (c : VCore) (d a b : Nat) : VCore :=
  c.setS d (if (c.sreg a).toNat ≤ (c.sreg b).toNat then c.sreg a else c.sreg b)

/-! ### Lane instructions -/

/-- VBCAST. -/
def VCore.vbcast (c : VCore) (d a mk : Nat) : VCore := c.setV d mk (fun _ => (c.sreg a).setWidth 32)
/-- VBCASTI. -/
def VCore.vbcasti (c : VCore) (d : Nat) (imm : Word) (mk : Nat) : VCore := c.setV d mk (fun _ => imm)
/-- VIOTA. -/
def VCore.viota (c : VCore) (d mk : Nat) : VCore := c.setV d mk (fun i => BitVec.ofNat 32 ((c.sreg 2).toNat + i))

/-- Signed minimum. -/
def imin32 (a b : Word) : Word := if a.slt b then a else b
/-- Signed maximum. -/
def imax32 (a b : Word) : Word := if a.slt b then b else a

/-- The value truncated to an integer. -/
def Val.trunc : Val → Val
  | .fin neg m e => if e < 0 then .fin neg (m / 2 ^ (-e).toNat) 0 else .fin neg m e
  | v => v

/-- binary32 to I32 (VCVTFI): RNE or toward zero, then the I32 row of Table 2.6. -/
def cvtFI (tz : Bool) (w : Word) : Cvt := toInteger 32 true .rne 0 (if tz then (val32 w).trunc else val32 w)
/-- I32 to binary32, RNE. -/
def cvtIF (w : Word) : Word := (round32 (.ofInt w.toInt 0)).1
/-- U32 to binary32, RNE. -/
def cvtUF (w : Word) : Word := (round32 (.ofInt w.toNat 0)).1

/-- VCVTFI with its conversion status. -/
def VCore.vcvtfi (c : VCore) (d a : Nat) (tz : Bool) (mk : Nat) : VCore :=
  let c' := c.setV d mk (fun i => BitVec.ofNat 32 (cvtFI tz (c.lane a i)).code)
  let rs := (c.activeLanes mk).map (fun i => cvtFI tz (c.lane a i))
  { c' with stat := c.stat.cvt (rs.any (·.sat)) (rs.any (·.nonfin)) }

/-- The predicates of VCMP. -/
def cmp32 (pred : Nat) (a b : Word) : Bool :=
  let x := val32 a
  let y := val32 b
  match pred with
  | 0 => Val.eqv x y
  | 1 => Val.lt x y
  | 2 => Val.lt x y || Val.eqv x y
  | 3 => x.isNan || y.isNan
  | 4 => !Val.eqv x y
  | 5 => a == b
  | 6 => a.slt b
  | _ => a.ult b

/-- VCMP. -/
def VCore.vcmp (c : VCore) (d a b pred mk : Nat) : VCore := c.setM d mk (fun i => cmp32 pred (c.lane a i) (c.lane b i))
/-- VSEL: the mask chooses between the sources in every lane below `vl`. -/
def VCore.vsel (c : VCore) (d a b mk : Nat) : VCore :=
  c.setV d 0 (fun i => if c.mbit mk i then c.lane a i else c.lane b i)
/-- Mask logic on lanes below `vl`. -/
def VCore.mop (c : VCore) (d : Nat) (f : Nat → Bool) : VCore := c.setM d 0 f

/-- VPERM (R133). -/
def VCore.vperm (c : VCore) (d a b mk : Nat) : VCore :=
  let c' := c.setV d mk (fun i => let j := (c.lane b i).toNat; if j < c.vl then c.lane a j else 0)
  let oob := (c.activeLanes mk).any (fun i => decide (c.vl ≤ (c.lane b i).toNat))
  { c' with stat := { c.stat with permOob := c.stat.permOob || oob } }

/-! ### Ports (R144, R145) -/

/-- The register word of a port element (R145): I32 and U32 bits, U8 zero-extended, the rest converted to binary32 by RNE with the status of R57. -/
def portCvt (fmt code entry : Nat) : Cvt :=
  if fmt = fmtI32 || fmt = fmtU32 then { code := code }
  else if fmt = fmtU8 then { code := code % 256 }
  else cvtPlain fmtB32 .rne 0 (elemVal fmt code entry 0)

/-- The port element a register word becomes, for formats without blocks (R145). -/
def storeCvt (fmt : Nat) (r : Rnd) (i : Nat) (w : Word) : Cvt :=
  if fmt = fmtI32 || fmt = fmtU32 then { code := w.toNat }
  else if fmt = fmtU8 then
    let z := w.toInt
    if z < 0 then { code := 0, sat := true } else if z > 255 then { code := 255, sat := true } else { code := z.toNat }
  else cvtPlain fmt r i (val32 w)

/-- The status of the elements a port read converts. -/
def VCore.readStat (c : VCore) (is : List Nat) (el : Nat → Cvt) : OpStatus :=
  c.stat.cvt (is.any (fun i => (el i).sat)) (is.any (fun i => (el i).nonfin))

/-- VLD: element s2 + i of a stream port. -/
def VCore.vld (c : VCore) (d mk : Nat) (el : Nat → Cvt) : VCore :=
  let at_ := fun i => (c.sreg 2).toNat + i
  let c' := c.setV d mk (fun i => BitVec.ofNat 32 (el (at_ i)).code)
  { c' with stat := c.readStat ((c.activeLanes mk).map at_) el }

/-- VLDX (R149): indices at or beyond the table's length stop the core's chunk; the least s2 + i among them is kept. -/
def VCore.vldx (c : VCore) (d a mk len : Nat) (el : Nat → Cvt) : VCore :=
  let ix := fun i => (c.lane a i).toNat
  let badLanes := (c.activeLanes mk).filter (fun i => decide (len ≤ ix i))
  let okLanes := (c.activeLanes mk).filter (fun i => decide (ix i < len))
  let c' := c.setV d mk (fun i => if ix i < len then BitVec.ofNat 32 (el (ix i)).code else c.lane d i)
  let c' : VCore := { c' with stat := c.readStat (okLanes.map ix) el }
  match badLanes, c.faultIndex with
  | i :: _, none => { c' with faultIndex := some ((c.sreg 2).toNat + i) }
  | _, _ => c'

/-- VST: the elements a store writes, as index and word. -/
def VCore.vst (c : VCore) (a mk : Nat) : List (Nat × Word) :=
  (c.activeLanes mk).map (fun i => ((c.sreg 2).toNat + i, c.lane a i))

/-! ### Reduction unit (R136 to R139) -/

/-- The start value of an accumulator kind (R136). -/
def accStart (k : AccKind) (g : Int) : Acc := match k with
  | .max => { kind := k, g := g, value := 0xFF800000, index := 0xFFFFFFFF }
  | .argmax => { kind := k, g := g, value := 0xFF800000, index := 0xFFFFFFFF }
  | .min => { kind := k, g := g, value := 0x7F800000 }
  | _ => { kind := k, g := g }

/-- Is `a` below `b` in the order of RMAX: NaN above all, −0 below +0 (R138)? -/
def rmaxLt (a b : Word) : Bool :=
  let x := val32 a
  let y := val32 b
  if x.isNan then false
  else if y.isNan then true
  else Val.lt x y || (x.isZero && y.isZero && x.isNeg && !y.isNeg)

/-- Is `a` below `b` in the order of RMIN: NaN below all, −0 below +0 (R138)? -/
def rminLt (a b : Word) : Bool :=
  let x := val32 a
  let y := val32 b
  if y.isNan then false
  else if x.isNan then true
  else Val.lt x y || (x.isZero && y.isZero && x.isNeg && !y.isNeg)

/-- The canonical NaN for a NaN, else the word. -/
def canon32 (w : Word) : Word := if (val32 w).isNan then nan32 else w

/-- Join two accumulators of one kind (R139); an unused one gives the other. -/
def accJoin (a b : Acc) : Acc :=
  match a.kind with
  | .unused => b
  | .sum => { a with n := a.n + b.n, nonfinite := a.nonfinite || b.nonfinite }
  | .max => if b.kind = .unused then a else if rmaxLt a.value b.value then b else a
  | .min => if b.kind = .unused then a else if rminLt b.value a.value then b else a
  | .argmax =>
    if b.kind = .unused then a
    else if rmaxLt a.value b.value then b
    else if rmaxLt b.value a.value then a
    else if b.index < a.index then b else a

/-- Join for the first sweep: the greater of the recorded exponents (R137). -/
def accJoinSweep (a b : Acc) : Acc :=
  if a.index = 0 then b else if b.index = 0 then a else { a with n := max a.n b.n }

/-- One term into a sum accumulator: placed at its floor, or in the first sweep recorded by its exponent (R137). -/
def accTerm (sweep : Bool) (a : Acc) (t : Val) : Acc × Nat × Nat :=
  if sweep then
    match t with
    | .fin _ m e => if m = 0 then (a, 0, 0)
      else ({ a with n := if a.index = 0 then exponOf m e else max a.n (exponOf m e), index := 1 }, 0, 0)
    | _ => (a, 0, 0)
  else
    let s := GridSum.place a.g ⟨a.n, 0, 0, a.nonfinite⟩ t
    ({ a with n := s.n, nonfinite := s.nonfinite }, s.flushed, s.clamped)

/-- Change accumulator `k`, which takes kind `kd` when an instruction first names it. -/
def VCore.accOf (c : VCore) (k : Nat) (kd : AccKind) : Acc :=
  let a := nth c.acc k {}
  if a.kind = kd then a else accStart kd a.g

/-- RSUM and RSUMP: the terms of the active lanes. -/
def VCore.rsum (c : VCore) (k mk : Nat) (term : Nat → Val) : VCore :=
  let r := (c.activeLanes mk).foldl (fun (st : Acc × Nat × Nat) i =>
    let x := accTerm c.sweep st.1 (term i)
    (x.1, st.2.1 + x.2.1, st.2.2 + x.2.2)) (c.accOf k .sum, 0, 0)
  { c with acc := updAt c.acc k (fun _ => r.1), flushed := c.flushed + r.2.1, clamped := c.clamped + r.2.2 }

/-- RMAX, RMIN and RARGMAX: the words of the active lanes joined in, argmax with the index s2 + i. -/
def VCore.rminmax (c : VCore) (k mk a : Nat) (kd : AccKind) : VCore :=
  let r := (c.activeLanes mk).foldl (fun acc i =>
    accJoin acc { kind := kd, value := canon32 (c.lane a i), index := (c.sreg 2).toNat + i }) (c.accOf k kd)
  { c with acc := updAt c.acc k (fun _ => r) }

/-- The value an accumulator is written with (R139): a sum exactly, a maximum or minimum as binary32. One that no instruction of the kernel names has no
kind, and no value is stated: a free value (log entry 53). -/
def accVal (a : Acc) : Val := match a.kind with
  | .sum => (⟨a.n, 0, 0, a.nonfinite⟩ : GridSum).val a.g
  | .unused => val32 Config.unnamedAcc
  | _ => val32 a.value

/-- The element an RSTORE writes to a result port (R139): argmax part 1 writes the index as it stands. On another kind `part` is given no meaning and is
ignored (DESIGN CHOICE, log entry 53). -/
def rstoreCvt (fmt : Nat) (r : Rnd) (elem : Nat) (part : Bool) (a : Acc) : Cvt :=
  if part && a.kind = .argmax then { code := a.index % 2 ^ 32 } else cvtPlain fmt r elem (accVal a)

end Sys2Proof.Machine
end

