-- ==== Sys2Proof/Machine/ScaleState.lean ====
section
/-! DEFINITION. Scale state (R80 to R87, R96) and XP40 blocks (R49, R84) as arithmetic on records, headers and observations. -/

namespace Sys2Proof.Machine

/-- A scale-state record as an operator sees it: the header (Table 4.1) and the codes. -/
structure ScaleSt where
  hdr : Nat
  codes : List Nat
deriving DecidableEq, Repr

def ScaleSt.tid (r : ScaleSt) : Nat := bitsOf r.hdr 0 32
def ScaleSt.base (r : ScaleSt) : Int := signedOf 16 (bitsOf r.hdr 32 16)
def ScaleSt.headroom (r : ScaleSt) : Nat := bitsOf r.hdr 48 3
def ScaleSt.valid (r : ScaleSt) : Bool := bitsOf r.hdr 51 1 = 1
def ScaleSt.step (r : ScaleSt) : Nat := bitsOf r.hdr 56 8 * 2 ^ 32 + bitsOf r.hdr 64 32
def ScaleSt.blockCount (r : ScaleSt) : Nat := bitsOf r.hdr 96 32

/-- A record header with the given fields (Table 4.1). -/
def scaleHdr (tid : Nat) (base : Int) (headroom : Nat) (step blocks : Nat) : Nat :=
  tid + intBits 16 base * 2 ^ 32 + headroom * 2 ^ 48 + 2 ^ 51 + step / 2 ^ 32 % 256 * 2 ^ 56 + step % 2 ^ 32 * 2 ^ 64 + blocks * 2 ^ 96

/-- The record a scale-state tensor holds (R187). -/
def scaleOf (t : TDesc) (rd : Rd) : ScaleSt :=
  ⟨rdLe rd t.bReg t.bOff 16, (List.range t.count).map (t.code rd)⟩

/-- Is a record of step `t` in force in step `s`: of the step before (R82), or carried over the calibration steps between (R100)? -/
def inForce (calibs : List Nat) (t s : Nat) : Bool :=
  decide (t < s) && ((dedup calibs).filter (fun k => decide (t < k) && decide (k < s))).length == s - 1 - t

/-- Is the record usable in step `s` (R82)? -/
def ScaleSt.usable (r : ScaleSt) (calibs : List Nat) (s : Nat) : Bool :=
  r.valid && inForce calibs r.step s && bitsOf r.hdr 52 4 == 0 && r.headroom != 7 && decide (-170 ≤ r.base) && decide (r.base ≤ 120)

/-- The block exponent before its clamp (R81). -/
def ScaleSt.rawExp (r : ScaleSt) (b : Nat) : Int := r.base + ((nth r.codes b 0 + 15) / 16 : Nat) - 15 + r.headroom

/-- The block exponent (R81). -/
def ScaleSt.exponent (r : ScaleSt) (b : Nat) : Int := min (max (r.rawExp b) (-149)) 88

/-- The estimate of a block (R80). -/
def ScaleSt.estimate (r : ScaleSt) (b : Nat) : Int := 16 * r.base + nth r.codes b 0

/-- The thresholds of Table 4.2. -/
def obsT : List Nat :=
  [32768, 34218, 35733, 37315, 38967, 40693, 42494, 44376, 46340, 48392, 50535, 52772, 55108, 57548, 60096, 62757, 65536]

/-- The observation of a magnitude m·2^e, m > 0 (R83). -/
def obsCode (m : Nat) (e : Int) : Int :=
  let k := exponOf m e
  -- ceil(x · 2^(15 − k)) with x = m · 2^e
  let sh := e + 15 - k
  let q : Nat := if 0 ≤ sh then m * 2 ^ sh.toNat else cdiv m (2 ^ (-sh).toNat)
  16 * k + (obsT.filter (fun t => decide (t < q))).length

/-- The least I16: no observation (R83). -/
def noObs : Int := -32768

/-- The greatest finite magnitude of a list of values, nonzero, if there is one. -/
def maxMag (vs : List Val) : Option (Nat × Int) :=
  vs.foldl (fun a v => match v, a with
    | .fin _ m e, none => if m = 0 then none else some (m, e)
    | .fin _ m e, some (n, f) => if ltFin false n f false m e then some (m, e) else a
    | _, _ => a) none

/-- The observation of a block's values (R83). -/
def obsOf (vs : List Val) : Int := match maxMag vs with
  | some (m, e) => obsCode m e
  | none => noObs

/-- The observations of all blocks of a list of values. -/
def obsAll (vs : List Val) : List Int := (List.range (cdiv vs.length 256)).map (fun b => obsOf ((vs.drop (256 * b)).take 256))

/-- Add two headers of one exponent (R49). -/
def hdrAdd (a b : Nat) : Nat :=
  xbHeader (xbExp a) (xbOvf a || xbOvf b) (xbNf a || xbNf b) (min (xbTally a + xbTally b) 0xFFFFFFFF)

/-- Division of an integer rounded up. -/
def ceilDiv (a b : Int) : Int := -((-a) / b)

/-- The new estimate of block `b` in SCALE_UPDATE (R85). -/
def lnewOf (r : ScaleSt) (obs : Int) (ovf : Bool) (b : Nat) : Int :=
  let l := r.estimate b - 1
  let l := if obs = noObs then l else max l obs
  if ovf then max l (16 * (r.exponent b + 16 - r.headroom)) else l

/-- The base of the new record (R85). -/
def newBase (lmax : Int) : Int := min (max (ceilDiv lmax 16 - 15) (-170)) 120

/-- The code of a block in the new record (R85); a block without any finite nonzero element (`noObs` in R96) gets 0. -/
def newCode (base l : Int) : Nat := (min (max (l - 16 * base) 0) 255).toNat

end Sys2Proof.Machine
end

