-- ==== Sys2Proof/Machine/ArrayMath.lean ====
section
/-! DEFINITION. Class 0x01xx (R198 to R202) and the attention operators (R203 to R206): results and cycles as functions of the operands. -/

namespace Sys2Proof.Machine

/-- What an operator's arithmetic depends on: its descriptor, its tensor list, the bytes it reads, the run seed (R74), whether the open
step is an Equinox or recalibration step (R96), its step, the number of cores of its set. -/
structure MathCtx where
  d : OpDesc
  ts : List TDesc
  rd : Rd
  seed : Nat
  calib : Bool
  cores : Nat

/-- Change of one core's counters. -/
structure CoreDelta where
  core : Nat
  busy : Nat := 0
  stall : Nat := 0
  passes : Nat := 0
  maskedRows : Nat := 0
  flushed : Nat := 0
  clamped : Nat := 0
deriving DecidableEq, Repr

/-- A block that enters digests (R320, R337): tensor ID, block number, flags byte, bytes. -/
structure DigBlock where
  tid : Nat
  blk : Nat
  flags : Nat
  bytes : List Byte
deriving DecidableEq, Repr

/-- What an operator's body produces: plane writes, status, totals of R68, T_body, per-core counter changes (core index within the set),
changes of the step's counts (R86, R87, R91), a tensor whose block stands at the exponent limit (R87), the record of a calibration (R97),
the blocks for the digests (R320), a completion code other than success with its detail, each core's accumulators and status bits at the end of its chunk
(R342), planes (region, offset, length) whose contents the
spec does not state. -/
structure Body where
  writes : List PlaneW := []
  stat : OpStatus := {}
  flushed : Nat := 0
  clamped : Nat := 0
  tBody : Nat := 0
  deltas : List CoreDelta := []
  skipOvf : Nat := 0
  skipNf : Nat := 0
  skipUpdate : Nat := 0
  floorBlocks : Nat := 0
  atLimit : Nat := 0
  limitTid : Option Nat := none
  calibRec : Option (BitVec 128 × List Byte) := none
  digs : List DigBlock := []
  code : Code := 0
  detail : Nat := 0
  undefinedOut : Bool := false
  chunkAccs : List (List Acc × OpStatus) := []
  undef : List (Nat × Nat × Nat) := []

def MathCtx.inp (x : MathCtx) (j : Nat) : TDesc := nth x.ts j 0
def MathCtx.out (x : MathCtx) (j : Nat) : TDesc := nth x.ts (x.d.nIn + j) 0
def MathCtx.sr (x : MathCtx) : Bool := x.d.rounding == 1
/-- The rounding of an output tensor: the descriptor's mode, purpose and quantum (R70, R74 to R76). -/
def MathCtx.rnd (x : MathCtx) (t : TDesc) : Rnd := Rnd.make x.sr x.seed t.tid x.d.step x.d.purpose x.d.quantum
/-- Inputs without the row mask (R195). -/
def MathCtx.nData (x : MathCtx) : Nat := if x.d.rowMask then x.d.nIn - 1 else x.d.nIn
/-- Is streaming row `r` masked (R195)? -/
def MathCtx.masked (x : MathCtx) (r : Nat) : Bool :=
  if x.d.rowMask then
    let t := x.inp (x.d.nIn - 1)
    t.code x.rd r != 0
  else false

/-! ### Convolution geometry (R199) -/

structure ConvArgs where
  sh : Nat
  sw : Nat
  ph : Nat
  pw : Nat
  dh : Nat
  dw : Nat
deriving DecidableEq, Repr

def convArgs (d : OpDesc) : ConvArgs :=
  ⟨bitsOf (d.arg 0) 0 8, bitsOf (d.arg 0) 8 8, bitsOf (d.arg 0) 16 8, bitsOf (d.arg 0) 24 8, bitsOf (d.arg 1) 0 8, bitsOf (d.arg 1) 8 8⟩

/-- Strides and dilations lie from 1 to 16 (R199). -/
def ConvArgs.ok (a : ConvArgs) : Bool :=
  [a.sh, a.sw, a.dh, a.dw].all (fun k => 1 ≤ k && k ≤ 16)

/-- The output length of a convolved axis. -/
def convLen (h r s p d : Nat) : Nat :=
  if h + 2 * p < d * (r - 1) + 1 then 0 else (h + 2 * p - d * (r - 1) - 1) / s + 1

/-- Flatten coordinates to a linear index (R36). -/
def lin4 (t : TDesc) (x0 x1 x2 x3 : Nat) : Nat := x0 + t.dim 0 * (x1 + t.dim 1 * (x2 + t.dim 2 * x3))

/-! ### The terms of each output element

`arrIdx x i` lists, in K order, the elements of the streaming and of the stationary operand whose products output element `i` sums; none is a zero that is
fed at a position outside an operand. -/

/-- MATMUL and BATCHED_MATMUL: y[b, m, n] = Σ_k x[b, m, k] w[b, n, k]. -/
def mmIdx (x : MathCtx) (i : Nat) : List (Option Nat × Option Nat) :=
  let a := x.inp 0
  let w := x.inp 1
  let y := x.out 0
  let k := a.dim 0
  let n := i % y.dim 0
  let m := i / y.dim 0 % y.dim 1
  let b := i / y.dim 0 / y.dim 1
  (List.range k).map (fun j => (some (j + k * (m + a.dim 1 * b)), some (j + k * (n + w.dim 1 * b))))

/-- MATMUL_DX: dx[m, k] = Σ_n dy[m, n] w[n, k]. -/
def dxIdx (x : MathCtx) (i : Nat) : List (Option Nat × Option Nat) :=
  let dy := x.inp 0
  let w := x.inp 1
  let y := x.out 0
  let k := i % y.dim 0
  let m := i / y.dim 0
  (List.range (dy.dim 0)).map (fun n => (some (n + dy.dim 0 * m), some (k + w.dim 0 * n)))

/-- MATMUL_DW: dw[n, k] = Σ_t xt[k, t] dy[t, n]. -/
def dwIdx (x : MathCtx) (i : Nat) : List (Option Nat × Option Nat) :=
  let xt := x.inp 0
  let dy := x.inp 1
  let y := x.out 0
  let k := i % y.dim 0
  let n := i / y.dim 0
  (List.range (xt.dim 0)).map (fun t => (some (t + xt.dim 0 * k), some (n + dy.dim 0 * t)))

/-- CONV_FWD: y[b, p, q, co] = Σ over taps and channels (tap-major) of x[b, p·s + r·d − pad, …, c] wt[co, r, s, c]. Positions outside the input are fed
as zeros, so a non-finite weight there makes the sum non-finite (R66; DEDUCED, log entry 54). -/
def convFwdIdx (x : MathCtx) (i : Nat) : List (Option Nat × Option Nat) :=
  let a := x.inp 0
  let w := x.inp 1
  let y := x.out 0
  let g := convArgs x.d
  let co := i % y.dim 0
  let q := i / y.dim 0 % y.dim 1
  let p := i / y.dim 0 / y.dim 1 % y.dim 2
  let b := i / y.dim 0 / y.dim 1 / y.dim 2
  ((List.range (w.dim 2)).map (fun r => ((List.range (w.dim 1)).map (fun s => (List.range (w.dim 0)).map (fun c =>
    let hh := p * g.sh + r * g.dh
    let ww := q * g.sw + s * g.dw
    (if hh < g.ph || a.dim 2 + g.ph ≤ hh || ww < g.pw || a.dim 1 + g.pw ≤ ww then none else some (lin4 a c (ww - g.pw) (hh - g.ph) b),
      some (lin4 w c s r co))))).flatten)).flatten

/-- CONV_DX: the terms of dx[b, h, w, c], one per tap and output channel; taps that no output position reads it with are fed as zeros (log entry 54). -/
def convDxIdx (x : MathCtx) (i : Nat) : List (Option Nat × Option Nat) :=
  let dy := x.inp 0
  let w := x.inp 1
  let o := x.out 0
  let g := convArgs x.d
  let c := i % o.dim 0
  let wd := i / o.dim 0 % o.dim 1
  let h := i / o.dim 0 / o.dim 1 % o.dim 2
  let b := i / o.dim 0 / o.dim 1 / o.dim 2
  ((List.range (w.dim 2)).map (fun r => ((List.range (w.dim 1)).map (fun s => (List.range (w.dim 3)).map (fun co =>
    let hh := h + g.ph
    let ww := wd + g.pw
    (if hh < r * g.dh || ww < s * g.dw || (hh - r * g.dh) % g.sh != 0 || (ww - s * g.dw) % g.sw != 0 then none
      else
        let p := (hh - r * g.dh) / g.sh
        let q := (ww - s * g.dw) / g.sw
        if dy.dim 2 ≤ p || dy.dim 1 ≤ q then none else some (lin4 dy co q p b),
      some (lin4 w c s r co))))).flatten)).flatten

/-- CONV_DW: the terms of dwt[co, r, s, c]: every output position; positions outside the input are fed as zeros (log entry 54). -/
def convDwIdx (x : MathCtx) (i : Nat) : List (Option Nat × Option Nat) :=
  let a := x.inp 0
  let dy := x.inp 1
  let o := x.out 0
  let g := convArgs x.d
  let c := i % o.dim 0
  let s := i / o.dim 0 % o.dim 1
  let r := i / o.dim 0 / o.dim 1 % o.dim 2
  let co := i / o.dim 0 / o.dim 1 / o.dim 2
  ((List.range (dy.dim 3)).map (fun b => ((List.range (dy.dim 2)).map (fun p => (List.range (dy.dim 1)).map (fun q =>
    let hh := p * g.sh + r * g.dh
    let ww := q * g.sw + s * g.dw
    (if hh < g.ph || a.dim 2 + g.ph ≤ hh || ww < g.pw || a.dim 1 + g.pw ≤ ww then none else some (lin4 a c (ww - g.pw) (hh - g.ph) b),
      some (lin4 dy co q p b))))).flatten)).flatten

/-- The operand elements of output element `i` by opcode (Table 8.4). -/
def arrIdx (x : MathCtx) (i : Nat) : List (Option Nat × Option Nat) :=
  match x.d.opcode with
  | 0x0101 => dxIdx x i
  | 0x0102 => dwIdx x i
  | 0x0108 => convFwdIdx x i
  | 0x0109 => convDxIdx x i
  | 0x010A => convDwIdx x i
  | _ => mmIdx x i

/-- The value of an operand element. -/
def factor (x : MathCtx) (t : TDesc) : Option Nat → Val
  | some i => t.val x.rd x.d.floor i
  | none => .zero

/-- The terms of output element `i`, exact, in K order. -/
def arrTerms (x : MathCtx) (i : Nat) : List Val :=
  (arrIdx x i).map (fun q => Val.mul (factor x (x.inp 0) q.1) (factor x (x.inp 1) q.2))

/-- The streaming row of output element `i` (R195): the row of Y, dY or dX; in the dW opcodes the row of Xᵀ, one per (tap, channel). -/
def streamRow (x : MathCtx) (i : Nat) : Nat :=
  let o := x.out 0
  match x.d.opcode with
  | 0x0102 => i % o.dim 0
  | 0x010A => i % (o.dim 0 * o.dim 1 * o.dim 2)
  | _ => i / o.dim 0

/-- Is the opcode one of the dW opcodes? -/
def isDw (op : Nat) : Bool := op == 0x0102 || op == 0x010A

/-! ### Cycles (R202) -/

/-- Rate class of a format: K per block (Table 5.2). -/
def kBlock (fmt : Nat) : Nat :=
  if fmt = fmtMxE2M1 then 512 else if fmt = fmtB16f || fmt = fmtB16 then 128 else 256

/-- The smallest k with n ≤ 2^k. -/
def clog2 (n : Nat) : Nat := if n ≤ 1 then 0 else Nat.log2 (n - 1) + 1

/-- The tiling of R202: rows per group, tile width, row factor, blocks, row groups, column tiles, tiles, split factor. -/
structure Plan where
  rmax : Nat
  width : Nat
  rho : Nat
  nblk : Nat
  outs : Nat
  groups : Nat
  tiles : Nat
  sp : Nat
  m : Nat
deriving DecidableEq, Repr

/-- The plan of an operator. -/
def mmPlan (b m n k : Nat) (transposed : Bool) (kblk c : Nat) : Plan :=
  let rmax := if transposed then 32768 / kblk else 1024
  let width := if transposed then kblk else 32
  let outs := if transposed then cdiv k kblk else cdiv n 32
  let nblk := if transposed then cdiv n 32 else cdiv k kblk
  let groups := cdiv m rmax
  let tiles := b * groups * outs
  ⟨rmax, width, if transposed then 2 else 1, nblk, outs, groups, tiles, max 1 (min (nblk / 8) (c / tiles)), m⟩

/-- The stationary blocks of part j. -/
def Plan.nb (p : Plan) (j : Nat) : Nat := p.nblk / p.sp + (if j < p.nblk % p.sp then 1 else 0)
/-- The rows of tile t's row group. -/
def Plan.rowsOf (p : Plan) (t : Nat) : Nat :=
  let g := t / p.outs % p.groups
  min p.rmax (p.m - g * p.rmax)
/-- The cycles of part u = t·sp + j. -/
def Plan.part (p : Plan) (u : Nat) : Nat :=
  let rows := p.rowsOf (u / p.sp)
  256 + (p.nb (u % p.sp) - 1) * max (p.rho * rows) 256 + p.rho * (rows - 1) + (if p.rho = 1 then 72 else 76)
/-- The parts of core i of the set, in increasing order. -/
def Plan.partsOf (p : Plan) (c i : Nat) : List Nat := (List.range (p.tiles * p.sp)).filter (fun u => u % c == i)
/-- The busy cycles of core i. -/
def Plan.busy (p : Plan) (c i : Nat) : Nat :=
  let us := p.partsOf c i
  sumOf (us.map p.part) - 256 * (us.length - 1)
/-- T_body (R202). -/
def Plan.tBody (p : Plan) (c : Nat) : Nat :=
  let mx := ((List.range (min c (p.tiles * p.sp))).map (p.busy c)).foldl max 0
  mx + (if p.sp = 1 then 0 else clog2 p.sp * (64 + cdiv (p.rmax * p.width) 6))

/-- mm_body for a shape: T_body in one call. -/
def mmBody (b m n k : Nat) (transposed : Bool) (kblk c : Nat) : Nat := (mmPlan b m n k transposed kblk (max c 1)).tBody (max c 1)

/-- The plan of an array operator (R202). -/
def arrPlan (x : MathCtx) : Plan :=
  let a := x.inp 0
  let w := x.inp 1
  let o := x.out 0
  let kb := kBlock a.fmt
  let c := max x.cores 1
  match x.d.opcode with
  | 0x0101 => mmPlan 1 (a.dim 1) (a.dim 0) (w.dim 0) true kb c
  | 0x0102 => mmPlan 1 (a.dim 1) (w.dim 0) (a.dim 0) false kb c
  | 0x0103 => mmPlan (a.dim 2) (a.dim 1) (w.dim 1) (a.dim 0) false kb c
  | 0x0108 => mmPlan 1 (o.dim 3 * o.dim 2 * o.dim 1) (o.dim 0) (w.dim 2 * w.dim 1 * w.dim 0) false kb c
  | 0x0109 => mmPlan 1 (o.dim 3 * o.dim 2 * o.dim 1) (o.dim 0) (w.dim 2 * w.dim 1 * w.dim 3) false kb c
  | 0x010A => mmPlan 1 (o.dim 2 * o.dim 1 * o.dim 0) (o.dim 3) (w.dim 3 * w.dim 2 * w.dim 1) false kb c
  | _ => mmPlan 1 (a.dim 1) (w.dim 1) (a.dim 0) false kb c

/-- The length of the reduction of an array operator (R61). -/
def arrK (x : MathCtx) : Nat :=
  let p := arrPlan x
  let a := x.inp 0
  let w := x.inp 1
  match x.d.opcode with
  | 0x0101 => a.dim 0
  | 0x0108 => w.dim 2 * w.dim 1 * w.dim 0
  | 0x0109 => w.dim 2 * w.dim 1 * w.dim 3
  | 0x010A => w.dim 3 * w.dim 2 * w.dim 1
  | _ => if p.tiles = 0 then 0 else a.dim 0

/-- The tile that computes output element `i` (R202): row group by the streaming row, column tile by the other coordinate. -/
def tileOf (x : MathCtx) (p : Plan) (i : Nat) : Nat :=
  let o := x.out 0
  let rows := p.m
  let row := streamRow x i
  let col := match x.d.opcode with
    | 0x0102 => i / o.dim 0
    | 0x010A => i / (o.dim 0 * o.dim 1 * o.dim 2)
    | _ => i % o.dim 0
  let b := if x.d.opcode = 0x0103 then row / rows else 0
  let m := if x.d.opcode = 0x0103 then row % rows else row
  (b * p.groups + m / p.rmax) * p.outs + col / p.width

/-- The part of a tile that holds reduction index `k`. -/
def partOfK (p : Plan) (blk k : Nat) : Nat :=
  let b := k / blk
  let big := p.nblk % p.sp
  let q := p.nblk / p.sp
  if b < big * (q + 1) then b / (q + 1) else if q = 0 then 0 else big + (b - big * (q + 1)) / q

/-! ### Writing the result -/

/-- The blocks of 32 of row `r`, as their number in the row and the linear indices of their elements. -/
def TDesc.rowBlocks (t : TDesc) (r : Nat) : List (Nat × List Nat) :=
  (List.range (cdiv (t.dim 0) 32)).map (fun q => (q, (List.range (min 32 (t.dim 0 - 32 * q))).map (· + (r * t.dim 0 + 32 * q))))

/-- Where the elements of block `q` of row `r` start, and how many bytes they take. -/
def TDesc.blockSpan (t : TDesc) (r q : Nat) : Nat × Nat := (t.eOff + t.rowOff r + 4 * q * elemBits t.fmt, 4 * elemBits t.fmt)

/-- Writes that leave the masked elements as they are (R117): whole rows where nothing is masked; elsewhere single elements, and of a block format the
blocks without a masked element. -/
def maskedWrites (t : TDesc) (e : Enc) (masked : Nat → Bool) : List PlaneW :=
  let n0 := t.dim 0
  let nb := cdiv n0 32
  if !((List.range t.count).any masked) then t.writes e
  else ((List.range t.rows).map (fun r =>
    let is := (List.range n0).map (· + r * n0)
    if !is.any masked then
      [⟨t.eReg, t.eOff + t.rowOff r, packCodes (elemBits t.fmt) (rowCodes t e.codes r)⟩] ++
      (if isBlock32 t.fmt then [⟨t.bReg, t.bOff + r * nb, ((e.entries.drop (r * nb)).take nb).flatMap (leBytes 1)⟩]
       else if t.fmt = fmtPair then [⟨t.bReg, t.bOff + r * n0, ((e.entries.drop (r * n0)).take n0).flatMap (leBytes 1)⟩] else [])
    else if isBlock32 t.fmt then ((t.rowBlocks r).filter (fun b => !b.2.any masked)).flatMap (fun b =>
      [⟨t.eReg, (t.blockSpan r b.1).1, packCodes (elemBits t.fmt) (b.2.map (fun i => nth e.codes i 0) ++ List.replicate (32 - b.2.length) 0)⟩,
       ⟨t.bReg, t.bOff + r * nb + b.1, leBytes 1 (nth e.entries (r * nb + b.1) 0)⟩])
    else ((is.filter (fun i => !masked i)).map (fun i =>
      [(⟨t.eReg, t.eOff + t.elemBit i / 8, leBytes (elemBits t.fmt / 8) (nth e.codes i 0)⟩ : PlaneW)] ++
      (if t.fmt = fmtPair then [⟨t.bReg, t.bOff + i, leBytes 1 (nth e.entries i 0)⟩] else []))).flatten)).flatten

/-- The blocks of a block format that hold both masked elements and others: the spec does not say what such a block holds, whose
scale would come from both (log entry 39): it is free. -/
def maskedUndef (t : TDesc) (masked : Nat → Bool) : List (Nat × Nat × Nat) :=
  if !isBlock32 t.fmt then []
  else (List.range t.rows).flatMap (fun r => ((t.rowBlocks r).filter (fun b => b.2.any masked && !b.2.all masked)).flatMap (fun b =>
    [(t.eReg, t.blockSpan r b.1), (t.bReg, t.bOff + r * cdiv (t.dim 0) 32 + b.1, 1)]))

/-- The contents an XP40 output has after XB16 blocks are added to it (R49, R84, R200): element integers, headers, observations. -/
def xpAdd (old new : List Int) (oh nh : List Nat) (oo no : List Int) : List Int × List Nat × List Int :=
  (List.zipWith (· + ·) old new, List.zipWith hdrAdd oh nh, List.zipWith max oo no)

/-- Observations of a tensor's auxiliary plane. -/
def TDesc.obs (t : TDesc) (rd : Rd) : List Int :=
  (List.range t.blocks).map (fun b => signedOf 16 (rdLe rd t.xReg (t.xOff + 2 * b) 2))

/-- XB16 (or accumulated XP40) output of exact sums under a scale record (R81, R83, R84, R200). The masked elements of `vs` are zero; the
observations take every finite value, those of masked rows too (R83). -/
def xbOutput (x : MathCtx) (o : TDesc) (sc : ScaleSt) (accumulate : Bool) (vs obsVs : List Val) : List PlaneW × Enc :=
  let nb := cdiv o.count 256
  let exps := (List.range nb).map sc.exponent
  let e := encodeVals (setFld o 32 8 fmtXB16) (x.rnd o) exps vs
  let obs := obsAll obsVs
  if accumulate then
    let old := (List.range o.count).map (fun i => signedOf 40 (o.code x.rd i))
    let new := e.codes.map (fun c => signedOf 16 c)
    let r := xpAdd old new ((List.range nb).map (o.header x.rd)) e.entries (o.obs x.rd) obs
    (o.elemWrites (r.1.map (intBits 40)) ++ o.entryWrites r.2.1 ++ o.auxWrites (r.2.2.map (intBits 16)), e)
  else
    (o.elemWrites e.codes ++ o.entryWrites e.entries ++ o.auxWrites (obs.map (intBits 16)), e)

/-- Round finished grid sums to an output tensor (R69), masked elements left (R117) or, in XB16 and XP40, zero. -/
def gridOutput (x : MathCtx) (o : TDesc) (g : Int) (sums : List GridSum) (masked : Nat → Bool) : List PlaneW × OpStatus :=
  let ms := (List.range sums.length).map masked
  let vs := (sums.zip ms).map (fun p => if p.2 then Val.zero else p.1.val g)
  let nf := (sums.zip ms).any (fun p => !p.2 && p.1.nonfinite)
  if o.fmt = fmtG128 then
    let e : Enc := ⟨(sums.zip ms).map (fun p => if p.2 then 0 else p.1.g128), [], false, false⟩
    (maskedWrites o e masked, { gridNonfinite := nf })
  else
    let e := encodeVals o (x.rnd o) [] vs
    (maskedWrites o e masked, { gridNonfinite := nf, cvtSat := e.sat, cvtNonfinite := e.nonfin })

/-- The counter changes of the cores that run a plan (Table 5.5, R114, R126): `masked` names its streaming rows, `counts` holds flush and clamp counts by
core. A pass whose successor loads a new block holds it for what the pass is shorter than the load; `array_busy` counts both halves of a transposed row
(DESIGN CHOICE, log entry 55). -/
def planDeltas (p : Plan) (c : Nat) (masked : Nat → Bool) (counts : List (Nat × Nat × Nat)) : List CoreDelta :=
  (List.range (min c (p.tiles * p.sp))).map (fun i =>
    let us := p.partsOf c i
    let rowsMasked (u : Nat) : Nat :=
      let t := u / p.sp
      let lo := t / p.outs / p.groups * p.m + t / p.outs % p.groups * p.rmax
      ((List.range (p.rowsOf t)).filter (fun r => masked (lo + r))).length
    let fc := counts.filter (fun q => q.1 == i)
    { core := i
      busy := sumOf (us.map (fun u => p.rho * p.rowsOf (u / p.sp) * p.nb (u % p.sp)))
      stall := 256 + sumOf (us.map (fun u => (p.nb (u % p.sp) - 1) * (256 - p.rho * p.rowsOf (u / p.sp))))
      passes := sumOf (us.map (fun u => p.nb (u % p.sp)))
      maskedRows := sumOf (us.map (fun u => rowsMasked u * p.nb (u % p.sp)))
      flushed := sumOf (fc.map (fun q => q.2.1))
      clamped := sumOf (fc.map (fun q => q.2.2)) })

/-- The flush and clamp counts of one grid sum by core (R68, R202): its terms by reduction index, the blocks of `blk`, the tile that computes it. -/
def termCounts (p : Plan) (c : Nat) (g : Int) (blk t : Nat) (ts : List (Nat × Val)) : List (Nat × Nat × Nat) :=
  (List.range p.sp).map (fun j =>
    let s := gridSum g ((ts.filter (fun q => partOfK p blk q.1 == j)).map (·.2))
    ((t * p.sp + j) % c, s.flushed, s.clamped))

/-- The counts of output element `i` of an array operator. -/
def elemCounts (x : MathCtx) (p : Plan) (i : Nat) : List (Nat × Nat × Nat) :=
  let ts := arrTerms x i
  termCounts p (max x.cores 1) x.d.floor (if p.rho = 2 then 32 else kBlock (x.inp 0).fmt) (tileOf x p i) ((List.range ts.length).zip ts)

/-- The counts of a sum whose terms lie on the cores named with them, as counter changes (R68). -/
def coreCounts (c : Nat) (g : Int) (ts : List (Nat × Val)) : List CoreDelta :=
  (dedup (ts.map (fun q => q.1 % c))).map (fun i =>
    let s := gridSum g ((ts.filter (fun q => q.1 % c == i)).map (·.2))
    { core := i, flushed := s.flushed, clamped := s.clamped })

/-- The body of an array operator (R199, R200). -/
def arrBody (x : MathCtx) : Body :=
  let o := x.out 0
  let p := arrPlan x
  let idx := List.range o.count
  let mk := fun i => x.masked (streamRow x i)
  let sums := idx.map (fun i => gridSum x.d.floor (arrTerms x i))
  let live := (idx.zip sums).filter (fun q => !mk q.1)
  let fl := sumOf (live.map (fun q => q.2.flushed))
  let cl := sumOf (live.map (fun q => q.2.clamped))
  let c := max x.cores 1
  let deltas := planDeltas p c x.masked (((live.map (·.1)).map (elemCounts x p)).flatten)
  if isXB o.fmt then
    let vs := (idx.zip sums).map (fun q => if mk q.1 then Val.zero else q.2.val x.d.floor)
    let sc := scaleOf (x.inp 2) x.rd
    let r := xbOutput x o sc (bitsOf x.d.cflags 1 1 == 1) vs (sums.map (fun s => s.val x.d.floor))
    { writes := r.1, flushed := fl, clamped := cl, tBody := p.tBody c, deltas := deltas
      stat := { gridNonfinite := live.any (fun q => q.2.nonfinite), cvtSat := r.2.sat, cvtNonfinite := r.2.nonfin } }
  else
    let r := gridOutput x o x.d.floor sums mk
    { writes := r.1, stat := r.2, flushed := fl, clamped := cl, tBody := p.tBody c, deltas := deltas }

/-! ### Fused attention (R203 to R206) -/

structure AttnArgs where
  causal : Bool
  scale : Word
  off : Int
  gpv : Int
  gl : Int
  gds : Int
  ifmt : Nat
deriving DecidableEq, Repr

def attnArgs (d : OpDesc) : AttnArgs :=
  ⟨bitsOf d.cflags 0 1 == 1, BitVec.ofNat 32 (d.arg 0), signedOf 32 (d.arg 1), signedOf 16 (bitsOf (d.arg 2) 0 16),
   signedOf 16 (bitsOf (d.arg 2) 16 16), signedOf 16 (bitsOf (d.arg 3) 0 16), bitsOf (d.arg 3) 16 8⟩

/-- What the sums and conversions inside an operator report (R57, R68). -/
structure Cnt where
  fl : Nat := 0
  cl : Nat := 0
  nf : Bool := false
  sat : Bool := false
  cnf : Bool := false

def Cnt.join (a b : Cnt) : Cnt := ⟨a.fl + b.fl, a.cl + b.cl, a.nf || b.nf, a.sat || b.sat, a.cnf || b.cnf⟩
def Cnt.all (l : List Cnt) : Cnt := l.foldl Cnt.join {}
def Cnt.ofSum (s : GridSum) : Cnt := { fl := s.flushed, cl := s.clamped, nf := s.nonfinite }
def Cnt.ofCvt (q : Cvt) : Cnt := { sat := q.sat, cnf := q.nonfin }
def Cnt.stat (c : Cnt) (t : OpStatus) : OpStatus :=
  { t with gridNonfinite := t.gridNonfinite || c.nf, cvtSat := t.cvtSat || c.sat, cvtNonfinite := t.cvtNonfinite || c.cnf }

/-- The binary32 rounding of a grid sum with its counts (R204); the rounding is a conversion (R69) and keeps the status of R57 (log entry 54). -/
def gsum32 (g : Int) (ts : List Val) : Word × Cnt :=
  let s := gridSum g ts
  let q := cvtPlain fmtB32 .rne 0 (s.val g)
  (BitVec.ofNat 32 q.code, (Cnt.ofSum s).join (Cnt.ofCvt q))

/-- The conversion of a binary32 word to the internal format by RNE. -/
def toIfmt (f : Nat) (w : Word) : Cvt := cvtPlain f .rne 0 (val32 w)

/-- One query row (R204): the visible keys, p and l, and the counts of its sums and conversions. -/
structure AttnRow where
  vis : List Nat
  p : List Val
  pw : List Word
  l : GridSum
  cnt : Cnt

/-- Element (j, row, batch) of a three-dimensional tensor. -/
def el3 (x : MathCtx) (t : TDesc) (j r b : Nat) : Val := t.val x.rd 0 (j + t.dim 0 * (r + t.dim 1 * b))

/-- The terms over the head width of two rows of a batch-head. -/
def dotTerms (x : MathCtx) (u v : TDesc) (b i t : Nat) : List Val :=
  (List.range (u.dim 0)).map (fun j => Val.mul (el3 x u j i b) (el3 x v j t b))

/-- s, mx, p and l of query row `i` of batch-head `b` (R204): s is formed for every key, the rest for the visible ones. -/
def attnRow (x : MathCtx) (b i : Nat) : AttnRow :=
  let q := x.inp 0
  let k := x.inp 1
  let a := attnArgs x.d
  let vis : List Nat := (List.range (k.dim 1)).filter (fun t => !a.causal || decide ((t : Int) ≤ (i : Int) + a.off))
  let ss := (List.range (k.dim 1)).map (fun t => gsum32 x.d.floor (dotTerms x q k b i t))
  let sv := vis.map (fun t => (mul32 (nth ss t (0, {})).1 a.scale).1)
  let mx := sv.foldl (fun m w => if rmaxLt m w then w else m) 0xFF800000
  let pc := sv.map (fun w => toIfmt a.ifmt (exp32 (sub32 w mx).1).1)
  let ps := pc.map (fun q => elemVal a.ifmt q.code 0 0)
  let l := gridSum a.gl ps
  { vis := vis, p := ps, pw := pc.map (fun q => BitVec.ofNat 32 q.code), l := l
    cnt := Cnt.all (ss.map (·.2) ++ pc.map Cnt.ofCvt ++ [Cnt.ofSum l]) }

/-- The exact quotient og / l as R204 rounds it: NaN for a non-finite operand, +0 for l = 0. -/
def attnQuot (og l : GridSum) (gpv gl : Int) : Val :=
  if og.nonfinite || l.nonfinite then .nan
  else if l.n = 0 || og.n = 0 then .zero
  else quotVal (decide (og.n < 0) != decide (l.n < 0)) og.n.natAbs l.n.natAbs (gpv - gl)

/-- The plan of one phase of an attention operator (R206): m rows, n columns, reduction length k. -/
def attnPlan (x : MathCtx) (m n k : Nat) : Plan := mmPlan ((x.inp 0).dim 2) m n k false (kBlock (x.inp 0).fmt) (max x.cores 1)

/-- T_body of the attention operators (R206). -/
def attnBody (x : MathCtx) : Nat :=
  let lq := (x.inp 0).dim 1
  let lk := (x.inp 1).dim 1
  let dd := (x.inp 0).dim 0
  let c := max x.cores 1
  let mm := fun m n k => (attnPlan x m n k).tBody c
  let e := cdiv ((x.inp 0).dim 2 * lq * lk) (64 * c)
  if x.d.opcode = 0x0200 then 2 * mm lq lk dd + mm lq dd lk + 10 * e
  else 3 * mm lq lk dd + mm lq dd lk + 2 * mm lk dd lq + 24 * e

/-- The counts of the grid sum at row `m`, column `n` of batch-head `b` of a phase. -/
def attnCounts (x : MathCtx) (p : Plan) (g : Int) (b m n : Nat) (ts : List (Nat × Val)) : List (Nat × Nat × Nat) :=
  termCounts p (max x.cores 1) g (kBlock (x.inp 0).fmt) ((b * p.groups + m / p.rmax) * p.outs + n / p.width) ts

/-- The counts of a sum of its own of row `m` (l, dd): on the core of the row's first tile (DESIGN CHOICE, log entry 55). -/
def attnOwn (x : MathCtx) (p : Plan) (b m fl cl : Nat) : Nat × Nat × Nat := ((b * p.groups + m / p.rmax) * p.outs * p.sp % max x.cores 1, fl, cl)

/-- The counter changes of an attention operator (R125): of each phase those of its plan, with the counts of its first sweep (log entry 55). -/
def attnDeltas (x : MathCtx) (phases : List (Plan × Nat × Bool × List (Nat × Nat × Nat))) : List CoreDelta :=
  phases.flatMap (fun f => (List.range f.2.1).flatMap (fun k =>
    planDeltas f.1 (max x.cores 1) (fun r => f.2.2.1 && x.masked r) (if k = 0 then f.2.2.2 else [])))

/-- The sums of the query rows' first phase by core: s over every key, and l. -/
def attnHeadCounts (x : MathCtx) (p : Plan) (b i : Nat) (w : AttnRow) : List (Nat × Nat × Nat) :=
  (List.range ((x.inp 1).dim 1)).flatMap (fun t => let ts := dotTerms x (x.inp 0) (x.inp 1) b i t
    attnCounts x p x.d.floor b i t ((List.range ts.length).zip ts)) ++ [attnOwn x p b i w.l.flushed w.l.clamped]

/-- ATTN_FWD (R204). -/
def attnFwdBody (x : MathCtx) : Body :=
  let v := x.inp 2
  let o := x.out 0
  let a := attnArgs x.d
  let lq := o.dim 1
  let terms := fun (r : Nat) (w : AttnRow) (j : Nat) => (w.vis.zip w.p).map (fun p => (p.1, Val.mul p.2 (el3 x v j p.1 (r / lq))))
  let rows := (List.range (o.dim 2 * lq)).map (fun r =>
    let w := attnRow x (r / lq) (r % lq)
    (r, w, (List.range (o.dim 0)).map (fun j => gridSum a.gpv ((terms r w j).map (·.2)))))
  let live := rows.filter (fun r => !x.masked r.1)
  let vs := (rows.map (fun r => r.2.2.map (fun og =>
    if x.masked r.1 || r.2.1.vis.isEmpty then Val.zero else attnQuot og r.2.1.l a.gpv a.gl))).flatten
  let e := encodeVals o (x.rnd o) [] vs
  let cnt := Cnt.all (live.flatMap (fun r => r.2.1.cnt :: r.2.2.map Cnt.ofSum))
  let pq := attnPlan x lq ((x.inp 1).dim 1) (o.dim 0)
  let pv := attnPlan x lq (o.dim 0) ((x.inp 1).dim 1)
  { writes := maskedWrites o e (fun i => x.masked (i / o.dim 0))
    stat := cnt.stat { cvtSat := e.sat, cvtNonfinite := e.nonfin }
    flushed := cnt.fl, clamped := cnt.cl, tBody := attnBody x
    deltas := attnDeltas x
      [(pq, 2, true, live.flatMap (fun r => attnHeadCounts x pq (r.1 / lq) (r.1 % lq) r.2.1)),
       (pv, 1, true, live.flatMap (fun r => (List.range (o.dim 0)).flatMap (fun j =>
          attnCounts x pv a.gpv (r.1 / lq) (r.1 % lq) j (terms r.1 r.2.1 j))))] }

/-- What ATTN_BWD forms for one query row (R205): the row, pn and ds of its visible keys as codes and values, the sum dd, the counts. -/
structure AttnBRow where
  row : AttnRow
  pnc : List Nat
  dsc : List Nat
  pn : List Val
  ds : List Val
  dd : Cnt
  cnt : Cnt

def attnBRow (x : MathCtx) (b i : Nat) : AttnBRow :=
  let v := x.inp 2
  let o := x.inp 3
  let dO := x.inp 4
  let a := attnArgs x.d
  let w := attnRow x b i
  let l32 := cvtPlain fmtB32 .rne 0 (w.l.val a.gl)
  let pnc := w.pw.map (fun p => toIfmt a.ifmt (div32 (BitVec.ofNat 32
    (cvtPlain fmtB32 .rne 0 (elemVal a.ifmt p.toNat 0 0)).code) (BitVec.ofNat 32 l32.code)).1)
  let dd := gsum32 a.gpv (dotTerms x dO o b i i)
  let dps := w.vis.map (fun t => gsum32 a.gpv (dotTerms x dO v b i t))
  let pn := pnc.map (fun q => elemVal a.ifmt q.code 0 0)
  let dsc := (pn.zip dps).map (fun p =>
    let w32 := BitVec.ofNat 32 (cvtPlain fmtB32 .rne 0 p.1).code
    toIfmt a.ifmt (mul32 (mul32 w32 (sub32 p.2.1 dd.1).1).1 a.scale).1)
  { row := w, pnc := pnc.map (·.code), dsc := dsc.map (·.code), pn := pn, ds := dsc.map (fun q => elemVal a.ifmt q.code 0 0), dd := dd.2
    cnt := Cnt.all ([w.cnt, Cnt.ofCvt l32, dd.2] ++ pnc.map Cnt.ofCvt ++ dps.map (·.2) ++ dsc.map Cnt.ofCvt) }

/-- ATTN_BWD (R205). Masked query rows give no dq and do not enter dk or dv. -/
def attnBwdBody (x : MathCtx) : Body :=
  let q := x.inp 0
  let k := x.inp 1
  let dO := x.inp 4
  let a := attnArgs x.d
  let lq := q.dim 1
  let rows := (List.range (q.dim 2 * lq)).map (fun r => (r, attnBRow x (r / lq) (r % lq)))
  let live := rows.filter (fun r => !x.masked r.1)
  let dqTerms := fun (r : Nat × AttnBRow) (j : Nat) => (r.2.row.vis.zip r.2.ds).map (fun p => (p.1, Val.mul p.2 (el3 x k j p.1 (r.1 / lq))))
  let dq := (rows.map (fun r => (List.range (q.dim 0)).map (fun j => gridSum a.gds ((dqTerms r j).map (·.2))))).flatten
  let byKey (f : AttnBRow → List Val) (m : TDesc) (j t b : Nat) : List (Nat × Val) :=
    (live.filter (fun r => r.1 / lq == b)).filterMap (fun r =>
      match (r.2.row.vis.zip (f r.2)).find? (fun p => p.1 == t) with
      | some p => some (r.1 % lq, Val.mul p.2 (el3 x m j (r.1 % lq) b))
      | none => none)
  let overKeys := fun (t3 : TDesc) => (List.range t3.count).map (fun i => (i % t3.dim 0, i / t3.dim 0 % t3.dim 1, i / t3.dim 0 / t3.dim 1))
  let kTerms := (overKeys (x.out 1)).map (fun c => (c, byKey (·.ds) q c.1 c.2.1 c.2.2))
  let vTerms := (overKeys (x.out 2)).map (fun c => (c, byKey (·.pn) dO c.1 c.2.1 c.2.2))
  let dk := kTerms.map (fun c => gridSum a.gds (c.2.map (·.2)))
  let dv := vTerms.map (fun c => gridSum a.gpv (c.2.map (·.2)))
  let mq := fun i => x.masked (i / q.dim 0)
  let w0 := gridOutput x (x.out 0) a.gds dq mq
  let w1 := gridOutput x (x.out 1) a.gds dk (fun _ => false)
  let w2 := gridOutput x (x.out 2) a.gpv dv (fun _ => false)
  let sums := ((dq.zip (List.range dq.length)).filter (fun p => !mq p.2)).map (·.1) ++ dk ++ dv
  let cnt := Cnt.all (live.map (fun r => r.2.cnt) ++ sums.map Cnt.ofSum)
  let lk := k.dim 1
  let pq := attnPlan x lq lk (q.dim 0)
  let pd := attnPlan x lq (q.dim 0) lk
  let pk := attnPlan x lk (q.dim 0) lq
  let zip := fun (ts : List Val) => (List.range ts.length).zip ts
  let byCol := fun (g : Int) (c : (Nat × Nat × Nat) × List (Nat × Val)) => attnCounts x pk g c.1.2.2 c.1.2.1 c.1.1 c.2
  { writes := w0.1 ++ w1.1 ++ w2.1
    stat := cnt.stat (w0.2.or (w1.2.or w2.2))
    flushed := cnt.fl, clamped := cnt.cl, tBody := attnBody x
    deltas := attnDeltas x
      [(pq, 2, true, live.flatMap (fun r => attnHeadCounts x pq (r.1 / lq) (r.1 % lq) r.2.row ++ [attnOwn x pq (r.1 / lq) (r.1 % lq) r.2.dd.fl r.2.dd.cl])),
       (pq, 1, true, live.flatMap (fun r => r.2.row.vis.flatMap (fun t =>
          attnCounts x pq a.gpv (r.1 / lq) (r.1 % lq) t (zip (dotTerms x dO (x.inp 2) (r.1 / lq) (r.1 % lq) t))))),
       (pd, 1, true, live.flatMap (fun r => (List.range (q.dim 0)).flatMap (fun j => attnCounts x pd a.gds (r.1 / lq) (r.1 % lq) j (dqTerms r j)))),
       (pk, 1, false, kTerms.flatMap (byCol a.gds)), (pk, 1, false, vTerms.flatMap (byCol a.gpv))] }

end Sys2Proof.Machine
end

