-- ==== Sys2Proof/Machine/Kernel.lean ====
section
/-! DEFINITION. Kernel images (R140 to R143, R148), the run of a kernel over strips and cores (R146, R147, R137, R139), its timing (R150,
R151), and class 0x03xx (R207 to R209). -/

namespace Sys2Proof.Machine

/-- An instruction word of a kernel image (Table 6.6). -/
structure VI where
  op : Nat
  d : Nat
  a : Nat
  b : Nat
  c : Nat
  msk : Nat
  res : Nat
  imm : Nat
deriving DecidableEq, Repr

def VI.ofWord (w : Nat) : VI :=
  ⟨bitsOf w 0 8, bitsOf w 8 5, bitsOf w 13 5, bitsOf w 18 5, bitsOf w 23 5, bitsOf w 28 3, bitsOf w 31 1, bitsOf w 32 32⟩

def VI.port (x : VI) : Nat := bitsOf x.imm 0 3
def VI.p (x : VI) : Nat := bitsOf x.imm 8 6
def VI.accIx (x : VI) : Nat := bitsOf x.imm 0 2

/-- The classes of Table 6.7. -/
def VI.isScalar (x : VI) : Bool := [0x01, 0x03, 0x04, 0x05, 0x06, 0x88].contains x.op
def VI.isReduce (x : VI) : Bool := 0x80 ≤ x.op && x.op ≤ 0x84
/-- The cost factor (Table 6.7). -/
def VI.cost (x : VI) : Nat :=
  if [0x30, 0x31, 0x33, 0x34, 0x35].contains x.op then 8
  else if [0x26, 0x27, 0x32].contains x.op then 4
  else if x.op = 0x11 || x.op = 0x70 then 2 else 1

/-- Which fields an opcode uses: d, a, b, c as register files (0 none, 1 scalar, 2 vector, 3 mask), mk used, immediate mask. -/
structure VShape where
  d : Nat
  a : Nat
  b : Nat
  c : Nat
  msk : Bool
  imm : Nat
deriving DecidableEq, Repr

/-- The field use of every opcode of Table 6.7; none for any other. -/
def vShape (op : Nat) : Option VShape :=
  match op with
  | 0x01 => some ⟨1, 1, 0, 0, false, 0⟩
  | 0x03 => some ⟨1, 0, 0, 0, false, 0xFFFFFFFF⟩
  | 0x04 => some ⟨1, 1, 1, 0, false, 0⟩
  | 0x05 => some ⟨1, 1, 1, 0, false, 0⟩
  | 0x06 => some ⟨1, 1, 1, 0, false, 0⟩
  | 0x10 => some ⟨2, 0, 0, 0, true, 0x7⟩
  | 0x11 => some ⟨2, 2, 0, 0, true, 0x7⟩
  | 0x12 => some ⟨0, 2, 0, 0, true, 0x3F07⟩
  | 0x13 => some ⟨2, 1, 0, 0, true, 0⟩
  | 0x14 => some ⟨2, 0, 0, 0, true, 0xFFFFFFFF⟩
  | 0x15 => some ⟨2, 0, 0, 0, true, 0⟩
  | 0x20 => some ⟨2, 2, 2, 0, true, 0⟩
  | 0x21 => some ⟨2, 2, 2, 0, true, 0⟩
  | 0x22 => some ⟨2, 2, 2, 0, true, 0⟩
  | 0x23 => some ⟨2, 2, 2, 2, true, 0⟩
  | 0x24 => some ⟨2, 2, 2, 2, true, 0⟩
  | 0x25 => some ⟨2, 2, 2, 2, true, 0⟩
  | 0x26 => some ⟨2, 2, 2, 0, true, 0⟩
  | 0x27 => some ⟨2, 2, 0, 0, true, 0⟩
  | 0x28 => some ⟨2, 2, 2, 0, true, 0⟩
  | 0x29 => some ⟨2, 2, 2, 0, true, 0⟩
  | 0x2A => some ⟨2, 2, 0, 0, true, 0⟩
  | 0x2B => some ⟨2, 2, 0, 0, true, 0⟩
  | 0x2C => some ⟨2, 2, 2, 0, true, 0⟩
  | 0x30 => some ⟨2, 2, 0, 0, true, 0⟩
  | 0x31 => some ⟨2, 2, 0, 0, true, 0⟩
  | 0x32 => some ⟨2, 2, 0, 0, true, 0⟩
  | 0x33 => some ⟨2, 2, 0, 0, true, 0⟩
  | 0x34 => some ⟨2, 2, 0, 0, true, 0⟩
  | 0x35 => some ⟨2, 2, 0, 0, true, 0⟩
  | 0x40 => some ⟨2, 2, 2, 0, true, 0⟩
  | 0x41 => some ⟨2, 2, 2, 0, true, 0⟩
  | 0x42 => some ⟨2, 2, 2, 0, true, 0⟩
  | 0x43 => some ⟨2, 2, 2, 0, true, 0⟩
  | 0x44 => some ⟨2, 2, 2, 0, true, 0⟩
  | 0x45 => some ⟨2, 2, 2, 0, true, 0⟩
  | 0x46 => some ⟨2, 2, 0, 0, true, 0x1F⟩
  | 0x47 => some ⟨2, 2, 0, 0, true, 0x1F⟩
  | 0x48 => some ⟨2, 2, 0, 0, true, 0x1F⟩
  | 0x49 => some ⟨2, 2, 2, 0, true, 0⟩
  | 0x4A => some ⟨2, 2, 2, 0, true, 0⟩
  | 0x50 => some ⟨2, 2, 0, 0, true, 0x1⟩
  | 0x51 => some ⟨2, 2, 0, 0, true, 0⟩
  | 0x52 => some ⟨2, 2, 0, 0, true, 0⟩
  | 0x60 => some ⟨3, 2, 2, 0, true, 0x7⟩
  | 0x61 => some ⟨2, 2, 2, 0, true, 0⟩
  | 0x62 => some ⟨3, 3, 3, 0, false, 0⟩
  | 0x63 => some ⟨3, 3, 3, 0, false, 0⟩
  | 0x64 => some ⟨3, 3, 3, 0, false, 0⟩
  | 0x65 => some ⟨3, 3, 0, 0, false, 0⟩
  | 0x70 => some ⟨2, 2, 2, 0, true, 0⟩
  | 0x80 => some ⟨0, 2, 0, 0, true, 0x3⟩
  | 0x81 => some ⟨0, 2, 2, 0, true, 0x3⟩
  | 0x82 => some ⟨0, 2, 0, 0, true, 0x3⟩
  | 0x83 => some ⟨0, 2, 0, 0, true, 0x3⟩
  | 0x84 => some ⟨0, 2, 0, 0, true, 0x3⟩
  | 0x88 => some ⟨0, 0, 0, 0, false, 0xFFFF3F7B⟩
  | _ => none

/-- Does the word keep unused fields zero and register fields in range (R141), and write no m0 or s0 to s10 (R143)? -/
def VI.encOk (x : VI) : Bool :=
  match vShape x.op with
  | none => false
  | some h =>
    let lim (f v : Nat) : Bool := if f = 0 then v == 0 else if f = 1 then v < 16 else if f = 3 then v < 8 else true
    lim h.d x.d && lim h.a x.a && lim h.b x.b && lim h.c x.c && (h.msk || x.msk == 0) && x.res == 0 && (x.imm &&& h.imm) == x.imm &&
    (h.d != 1 || 11 ≤ x.d) && (h.d != 3 || 1 ≤ x.d)

/-- A parsed image (Table 6.5): the header's fields and the three sections. -/
structure KImage where
  hdr : Nat
  bytes : Nat
  pro : List VI
  body : List VI
  epi : List VI
deriving DecidableEq, Repr

def KImage.magic (k : KImage) : Nat := bitsOf k.hdr 0 16
def KImage.level (k : KImage) : Nat := bitsOf k.hdr 16 8
def KImage.nPro (k : KImage) : Nat := bitsOf k.hdr 32 12
def KImage.nBody (k : KImage) : Nat := bitsOf k.hdr 44 13
def KImage.nEpi (k : KImage) : Nat := bitsOf k.hdr 64 12
def KImage.nIn (k : KImage) : Nat := bitsOf k.hdr 76 4
def KImage.nOut (k : KImage) : Nat := bitsOf k.hdr 80 3
def KImage.resOk (k : KImage) : Bool := bitsOf k.hdr 24 8 == 0 && bitsOf k.hdr 57 7 == 0 && bitsOf k.hdr 83 45 == 0
/-- The counts of Table 6.5 are in range and their total is at most 4,096. -/
def KImage.sizeOk (k : KImage) : Bool :=
  1 ≤ k.nBody && k.nBody ≤ 4096 && k.nPro + k.nBody + k.nEpi ≤ 4096 && k.nIn ≤ 8 && k.nOut ≤ 4

/-- The image at an offset of a region; instruction words are read only when the counts allow (at most 4,096). -/
def kimageOf (rd : Rd) (reg off : Nat) : KImage :=
  let hdr := rdLe rd reg off 16
  let k : KImage := ⟨hdr, 0, [], [], []⟩
  let words (s n : Nat) : List VI := (List.range (min n 4096)).map (fun i => VI.ofWord (rdLe rd reg (off + 16 + 8 * (s + i)) 8))
  { k with bytes := 16 + 8 * (k.nPro + k.nBody + k.nEpi), pro := words 0 k.nPro, body := words k.nPro k.nBody,
           epi := words (k.nPro + k.nBody) k.nEpi }

/-- The sections take only their instructions (R143). -/
def KImage.sectionsOk (k : KImage) : Bool :=
  let proOk (x : VI) : Bool := [0x03, 0x04, 0x05, 0x06].contains x.op ||
    (!x.isScalar && !x.isReduce && !([0x10, 0x11, 0x12, 0x15].contains x.op))
  let bodyOk (x : VI) : Bool := x.op != 0x01 && x.op != 0x88
  let epiOk (x : VI) : Bool := [0x03, 0x04, 0x05, 0x06, 0x88].contains x.op
  let named (o : Nat) : List Nat := (k.body.filter (fun x => x.op == o)).map VI.port
  k.pro.all proOk && k.epi.all epiOk &&
  (match k.body with
   | [] => false
   | x :: r => x.op == 0x01 && x.a == 1 && r.all bodyOk) &&
  (named 0x10).length == (dedup (named 0x10)).length && (named 0x12).length == (dedup (named 0x12)).length

/-- The kind an instruction gives the accumulator it names (Table 6.4). -/
def VI.accKind (x : VI) : Option AccKind :=
  match x.op with
  | 0x80 => some .sum
  | 0x81 => some .sum
  | 0x82 => some .max
  | 0x83 => some .min
  | 0x84 => some .argmax
  | _ => none

/-- No accumulator is named by instructions of two kinds (R136). -/
def KImage.accOk (k : KImage) : Bool :=
  (List.range 4).all (fun a =>
    let ks := (k.pro ++ k.body).filterMap (fun x => if x.isReduce && x.accIx == a then x.accKind else none)
    ks.all (fun y => ks.head? == some y))

/-- The kind of accumulator `a` of a kernel. -/
def KImage.kindOf (k : KImage) (a : Nat) : AccKind :=
  ((k.body.filterMap (fun x => if x.isReduce && x.accIx == a then x.accKind else none)).head?).getD .unused

/-- Has the kernel a sum accumulator? -/
def KImage.hasSum (k : KImage) : Bool := k.body.any (fun x => x.op == 0x80 || x.op == 0x81)
/-- Has the kernel any accumulator? -/
def KImage.hasAcc (k : KImage) : Bool := k.body.any VI.isReduce

/-! ### Running a kernel -/

/-- What the instructions of a kernel see of its ports. -/
structure KEnv where
  inEl : Nat → Nat → Cvt
  inLen : Nat → Nat

/-- One instruction on one core (Table 6.7). RSTORE is not run here: it belongs to the epilogue (R139). -/
def kstep (env : KEnv) (x : VI) (c : VCore) : VCore :=
  match x.op with
  | 0x01 => c.setvl x.d x.a
  | 0x03 => c.sli x.d (BitVec.ofNat 32 x.imm)
  | 0x04 => c.sadd x.d x.a x.b
  | 0x05 => c.ssub x.d x.a x.b
  | 0x06 => c.sminu x.d x.a x.b
  | 0x10 => c.vld x.d x.msk (env.inEl x.port)
  | 0x11 => c.vldx x.d x.a x.msk (env.inLen x.port) (env.inEl x.port)
  | 0x13 => c.vbcast x.d x.a x.msk
  | 0x14 => c.vbcasti x.d (BitVec.ofNat 32 x.imm) x.msk
  | 0x15 => c.viota x.d x.msk
  | 0x20 => c.fop2 x.d x.a x.b x.msk add32
  | 0x21 => c.fop2 x.d x.a x.b x.msk sub32
  | 0x22 => c.fop2 x.d x.a x.b x.msk mul32
  | 0x23 => c.fop3 x.d x.a x.b x.c x.msk fma32
  | 0x24 => c.fop3 x.d x.a x.b x.c x.msk fms32
  | 0x25 => c.fop3 x.d x.a x.b x.c x.msk fnma32
  | 0x26 => c.fop2 x.d x.a x.b x.msk div32
  | 0x27 => c.fop1 x.d x.a x.msk sqrt32
  | 0x28 => c.lop2 x.d x.a x.b x.msk min32
  | 0x29 => c.lop2 x.d x.a x.b x.msk max32
  | 0x2A => c.lop1 x.d x.a x.msk abs32
  | 0x2B => c.lop1 x.d x.a x.msk neg32
  | 0x2C => c.lop2 x.d x.a x.b x.msk cpysgn32
  | 0x30 => c.fop1 x.d x.a x.msk exp32
  | 0x31 => c.fop1 x.d x.a x.msk log32
  | 0x32 => c.fop1 x.d x.a x.msk rsqrt32
  | 0x33 => c.fop1 x.d x.a x.msk tanh32
  | 0x34 => c.fop1 x.d x.a x.msk erf32
  | 0x35 => c.fop1 x.d x.a x.msk sigm32
  | 0x40 => c.lop2 x.d x.a x.b x.msk (· + ·)
  | 0x41 => c.lop2 x.d x.a x.b x.msk (· - ·)
  | 0x42 => c.lop2 x.d x.a x.b x.msk (· * ·)
  | 0x43 => c.lop2 x.d x.a x.b x.msk (· &&& ·)
  | 0x44 => c.lop2 x.d x.a x.b x.msk (· ||| ·)
  | 0x45 => c.lop2 x.d x.a x.b x.msk (· ^^^ ·)
  | 0x46 => c.lop1 x.d x.a x.msk (fun w => w <<< (x.imm % 32))
  | 0x47 => c.lop1 x.d x.a x.msk (fun w => w >>> (x.imm % 32))
  | 0x48 => c.lop1 x.d x.a x.msk (fun w => w.sshiftRight (x.imm % 32))
  | 0x49 => c.lop2 x.d x.a x.b x.msk imin32
  | 0x4A => c.lop2 x.d x.a x.b x.msk imax32
  | 0x50 => c.vcvtfi x.d x.a (x.imm % 2 == 1) x.msk
  | 0x51 => c.lop1 x.d x.a x.msk cvtIF
  | 0x52 => c.lop1 x.d x.a x.msk cvtUF
  | 0x60 => c.vcmp x.d x.a x.b (x.imm % 8) x.msk
  | 0x61 => c.vsel x.d x.a x.b x.msk
  | 0x62 => c.mop x.d (fun i => c.mbit x.a i && c.mbit x.b i)
  | 0x63 => c.mop x.d (fun i => c.mbit x.a i || c.mbit x.b i)
  | 0x64 => c.mop x.d (fun i => c.mbit x.a i != c.mbit x.b i)
  | 0x65 => c.mop x.d (fun i => !c.mbit x.a i)
  | 0x70 => c.vperm x.d x.a x.b x.msk
  | 0x80 => c.rsum x.accIx x.msk (fun i => val32 (c.lane x.a i))
  | 0x81 => c.rsum x.accIx x.msk (fun i => Val.mul (val32 (c.lane x.a i)) (val32 (c.lane x.b i)))
  | 0x82 => c.rminmax x.accIx x.msk x.a .max
  | 0x83 => c.rminmax x.accIx x.msk x.a .min
  | 0x84 => c.rminmax x.accIx x.msk x.a .argmax
  | _ => c

/-- A run over a section; a faulted core stops its chunk after the faulting instruction (R149). -/
def krun (env : KEnv) : List VI → VCore × List KStore → VCore × List KStore
  | [], st => st
  | x :: r, (c, out) =>
    if c.faultIndex.isSome then (c, out)
    else
      let c' := kstep env x c
      let out' := if x.op = 0x12 then out ++ (c.vst x.a x.msk).map (fun e => ⟨x.port, x.p, e.1, e.2⟩) else out
      krun env r (c', out')

/-- The register an instruction writes: a vector register r as r, a mask register as 32 + r, a scalar register as 40 + r. -/
def VI.target (x : VI) : List Nat := match vShape x.op with
  | some h => if h.d = 1 then [40 + x.d] else if h.d = 2 then [x.d] else if h.d = 3 then [32 + x.d] else []
  | none => []

/-- Zero registers. -/
def VCore.zeroRegs (c : VCore) (l : List Nat) : VCore := l.foldl (fun c r =>
  if r < 32 then { c with v := updAt c.v r (fun _ => []) }
  else if r < 40 then { c with m := updAt c.m (r - 32) (fun _ => []) }
  else { c with s := updAt c.s (r - 40) (fun _ => 0) }) c

/-- The registers a body writes: they read as zero at the start of every pass (R147). -/
def bodyTargets (body : List VI) : List Nat := dedup (body.flatMap VI.target)

/-- The start of a pass: the body's registers are zeroed, s1 is the number of elements remaining in the chunk, s2 the first element (R146, R147). -/
def VCore.beginPass (c : VCore) (p : Nat × Nat) : VCore :=
  let c := c.zeroRegs c.wipe
  { c with s := updAt (updAt c.s 1 (fun _ => BitVec.ofNat 64 p.1)) 2 (fun _ => BitVec.ofNat 64 p.2) }

/-- The strips of core i of c (R197), as strip numbers. -/
def stripsOf (n c i : Nat) : List Nat :=
  let s := cdiv n 2048
  let lo := i * s / c
  (List.range ((i + 1) * s / c - lo)).map (· + lo)

/-- The values of s1 and s2 at the passes over a run of strips (R146). -/
def passList (n : Nat) (strips : List Nat) : List (Nat × Nat) :=
  let lastEl := (strips.map (fun t => min n (2048 * (t + 1)))).foldl max 0
  strips.map (fun t => (lastEl - 2048 * t, 2048 * t))

/-- One core's chunk: the passes over its strips (R146). -/
def kchunk (env : KEnv) (k : KImage) (passes : List (Nat × Nat)) (c : VCore) : VCore × List KStore :=
  passes.foldl (fun st p => krun env k.body (st.1.beginPass p, st.2)) (c, [])

/-- The registers an instruction takes values from; one it writes only in part keeps the rest. m0, s0 and the arguments are always given. -/
def VI.sources (x : VI) : List Nat := match vShape x.op with
  | none => []
  | some h =>
    let one (f r : Nat) : List Nat := if f = 1 then [40 + r] else if f = 2 then [r] else if f = 3 then [32 + r] else []
    (one h.a x.a ++ one h.b x.b ++ one h.c x.c ++ (if h.msk then [32 + x.msk] else []) ++
      (if h.msk && x.msk != 0 && x.op != 0x61 then x.target else [])).filter (fun r => r != 32 && r != 40 && !(43 ≤ r && r ≤ 50))

/-- The registers a kernel takes values from although nothing has given them one: in the prologue s1 and s2 too, in the body those that neither the body
nor the prologue writes. -/
def KImage.unwritten (k : KImage) : List Nat :=
  let p := k.pro.foldl (fun (st : List Nat × List Nat) x => (st.1 ++ x.sources.filter (fun r => !st.2.contains r), st.2 ++ x.target)) ([], [])
  let known := p.2 ++ bodyTargets k.body ++ [41, 42]
  dedup (p.1 ++ (k.body.flatMap VI.sources).filter (fun r => !known.contains r))

/-- A core at the start of a kernel: `vl` is 2,048, the arguments in s3 to s10 (R185), accumulators at their start values (R136); what the kernel reads and
nothing has written is a free value (log entry 46). -/
def kinit (k : KImage) (args : List Nat) (gs : List Int) : VCore :=
  let u := k.unwritten
  let s := (List.range 16).map (fun r => if 3 ≤ r && r ≤ 10 then BitVec.ofNat 64 (nth args (r - 3) 0)
    else if u.contains (40 + r) then Config.unwrittenReg (40 + r) 0 else 0)
  { v := (List.range 32).map (fun r => if u.contains r then (List.range 2048).map (fun i => (Config.unwrittenReg r i).setWidth 32) else [])
    m := (List.range 8).map (fun r => if u.contains (32 + r) then (List.range 2048).map (fun i => (Config.unwrittenReg (32 + r) i).getLsbD 0) else [])
    s := s
    vl := 2048
    acc := (List.range 4).map (fun a => accStart (k.kindOf a) (nth gs a 0))
    wipe := bodyTargets k.body }

/-- A core before the body: the prologue run. -/
def kstart (env : KEnv) (k : KImage) (args : List Nat) (gs : List Int) (sweep : Bool) : VCore :=
  (krun env k.pro ({ kinit k args gs with sweep := sweep }, [])).1

/-- The occupancy of an instruction (R150). -/
def VI.occ (x : VI) (vl : Nat) : Nat := if vl = 0 then 1 else max 8 ((if x.isReduce then 1 else x.cost) * cdiv vl 64)

/-- The pass timer of R150: time, lane and reduction unit free times, ready and busy times of registers (vector r as r, mask r as 32 + r). -/
structure PassT where
  t : Nat := 0
  lane : Nat := 0
  red : Nat := 0
  ready : NMap Nat := []
  busy : NMap Nat := []

/-- The registers an instruction reads, the mask of `mk` included (R150). -/
def VI.reads (x : VI) : List Nat :=
  match vShape x.op with
  | some h =>
    (if h.a = 2 then [x.a] else if h.a = 3 then [32 + x.a] else []) ++
    (if h.b = 2 then [x.b] else if h.b = 3 then [32 + x.b] else []) ++
    (if h.c = 2 then [x.c] else []) ++ (if h.msk then [32 + x.msk] else [])
  | none => []

/-- The register an instruction writes; VST has none. -/
def VI.writes (x : VI) : Option Nat :=
  match vShape x.op with
  | some h => if h.d = 2 then some x.d else if h.d = 3 then some (32 + x.d) else none
  | none => none

/-- One instruction of the timer (R150). -/
def passStep (vl : Nat) (p : PassT) (x : VI) : PassT :=
  if x.isScalar then { p with t := p.t + 1 }
  else if x.isReduce then
    let start := x.reads.foldl (fun m q => max m (NMap.getD p.ready q 0)) (max p.t p.red)
    let free := start + x.occ vl
    { p with red := free, busy := x.reads.foldl (fun b q => NMap.set b q (max (NMap.getD b q 0) free)) p.busy, t := start + 1 }
  else
    let start := max (max p.t p.lane) (match x.writes with | some q => NMap.getD p.busy q 0 | none => 0)
    let free := start + x.occ vl
    { p with lane := free, ready := (match x.writes with | some q => NMap.set p.ready q free | none => p.ready), t := start + 1 }

/-- pass_cycles (R150). -/
def passCycles (body : List VI) (vl : Nat) : Nat :=
  let p := body.foldl (passStep vl) {}
  max p.t (max p.lane p.red)

/-- T_comb (R197). -/
def tComb (c : Nat) : Nat := 48 + 24 * clog2 c

/-- The element counts of a core's strips. -/
def stripLens (n c i : Nat) : List Nat := (stripsOf n c i).map (fun t => min n (2048 * (t + 1)) - 2048 * t)

/-- T_body of a kernel (R151, R209). -/
def kernelT (k : KImage) (n c : Nat) (derived : Bool) : Nat :=
  let w := if derived && k.hasSum then 2 else 1
  let tPro := if k.pro.isEmpty then 0 else passCycles k.pro 2048
  let tEpi := sumOf (k.epi.map (fun x => if x.op = 0x88 then 8 else 1))
  let core (i : Nat) : Nat := 16 + cdiv k.bytes 256 + tPro + w * sumOf ((stripLens n c i).map (passCycles k.body)) + tEpi
  ((List.range c).map core).foldl max 0 + (if k.hasAcc then tComb c else 0) + (if w = 2 then tComb c else 0)

/-- What running a kernel over all cores gives: the stores, the combined accumulators, status and counts, the least faulting index. -/
structure KResult where
  stores : List KStore
  acc : List Acc
  stat : OpStatus
  flushed : Nat
  clamped : Nat
  faultIx : Option Nat
  perCore : List (Nat × Nat)
  chunkAccs : List (List Acc × OpStatus)

/-- Run the chunks of all cores and join (R139, R146, R149). -/
def kernelSweep (env : KEnv) (k : KImage) (args : List Nat) (n c : Nat) (gs : List Int) (sweep : Bool) : KResult :=
  let rs := (List.range c).map (fun i => kchunk env k (passList n (stripsOf n c i)) (kstart env k args gs sweep))
  let start := (List.range 4).map (fun a => accStart (k.kindOf a) (nth gs a 0))
  { stores := (rs.map (·.2)).flatten
    acc := rs.foldl (fun a r => List.zipWith (if sweep then accJoinSweep else accJoin) a r.1.acc) start
    stat := rs.foldl (fun t r => t.or r.1.stat) {}
    flushed := sumOf (rs.map (·.1.flushed))
    clamped := sumOf (rs.map (·.1.clamped))
    faultIx := rs.foldl (fun f r => match f, r.1.faultIndex with
      | none, y => y
      | some x, some y => some (min x y)
      | some x, none => some x) none
    perCore := rs.map (fun r => (r.1.flushed, r.1.clamped))
    chunkAccs := rs.map (fun r => (r.1.acc, r.1.stat)) }

/-- The floors of the accumulators: given, or derived in a first sweep (R137). -/
def kernelFloors (env : KEnv) (k : KImage) (args : List Nat) (n c : Nat) (floorRaw : Nat) (floor : Int) : List Int :=
  if floorRaw = derivedCode then
    (kernelSweep env k args n c [0, 0, 0, 0] true).acc.map (fun a => if a.index = 0 then 0 else max (a.n + 1 - 103) (-448))
  else [floor, floor, floor, floor]

/-- The whole run. -/
def kernelRun (env : KEnv) (k : KImage) (args : List Nat) (n c : Nat) (floorRaw : Nat) (floor : Int) : KResult :=
  kernelSweep env k args n c (kernelFloors env k args n c floorRaw floor) false

/-- The ports of an operator's tensors. -/
def kenvOf (x : MathCtx) : KEnv :=
  ⟨fun j i => let t := x.inp j; portCvt t.fmt (t.code x.rd i) (t.entry x.rd i), fun j => (x.inp j).count⟩

/-- Is the block of 32 that holds element `i` whole: no element of it missing? -/
def TDesc.wholeAt (t : TDesc) (missing : Nat → Bool) (i : Nat) : Bool :=
  let r := i / t.dim 0
  let q := i % t.dim 0 / 32
  (List.range (min 32 (t.dim 0 - 32 * q))).all (fun k => !missing (r * t.dim 0 + 32 * q + k))

/-- The writes of a stream output from its stores (R145): of a block format, the blocks all of whose elements are stored. `purp` gives the purpose code of a
store. -/
def streamWrites (x : MathCtx) (j : Nat) (purp : Nat → Nat) (stores : List KStore) : List PlaneW × OpStatus :=
  let o := x.out j
  let mine := stores.filter (fun e => e.port == j)
  match mine with
  | [] => ([], {})
  | e0 :: _ =>
    let r := Rnd.make x.sr x.seed o.tid x.d.step (purp e0.p) x.d.quantum
    let tab := mine.foldl (fun (m : NMap Word) e => NMap.set m e.idx e.w) []
    let missing := fun i => (NMap.get? tab i).isNone
    let ws := (List.range o.count).map (fun i => NMap.getD tab i 0)
    if isBlock32 o.fmt then
      let e := encodeVals o r [] ((ws.zip (List.range ws.length)).map (fun p => if o.wholeAt missing p.2 then val32 p.1 else .zero))
      (maskedWrites o e missing, { cvtSat := e.sat, cvtNonfinite := e.nonfin })
    else
      let cs := (ws.zip (List.range ws.length)).map (fun p => if missing p.2 then ({ code := 0 } : Cvt) else storeCvt o.fmt r p.2 p.1)
      (maskedWrites o ⟨cs.map (·.code), [], false, false⟩ missing, { cvtSat := cs.any (·.sat), cvtNonfinite := cs.any (·.nonfin) })

/-- The result port and the element that an RSTORE names. -/
def VI.rport (v : VI) : Nat := bitsOf v.imm 4 3
def VI.relem (v : VI) : Nat := bitsOf v.imm 16 16

/-- The write of one RSTORE to a format without blocks (R139). -/
def rstoreOne (x : MathCtx) (v : VI) (accs : List Acc) : List PlaneW × OpStatus :=
  let o := x.out v.rport
  let a := nth accs v.accIx {}
  let r := Rnd.make x.sr x.seed o.tid x.d.step (0x40 + v.p) x.d.quantum
  let c := rstoreCvt o.fmt r v.relem (bitsOf v.imm 3 1 == 1) a
  ([⟨o.eReg, o.eOff + o.elemBit v.relem / 8, leBytes (elemBits o.fmt / 8) c.code⟩],
   { cvtSat := c.sat, cvtNonfinite := c.nonfin, gridNonfinite := a.nonfinite })

/-- The elements of a result port that no RSTORE of the list names. -/
def unnamed (l : List VI) (j i : Nat) : Bool := l.all (fun v => v.rport != j || v.relem != i)

/-- The writes of RSTOREs to a result port of a block format: the blocks all of whose elements are named, each element with the purpose of the last RSTORE
that names it (R139, R142, R145). -/
def rstoreBlocks (x : MathCtx) (j : Nat) (l : List VI) (accs : List Acc) : List PlaneW × OpStatus :=
  let o := x.out j
  match l.filter (fun v => v.rport == j) with
  | [] => ([], {})
  | v :: vs =>
    let by_ := fun (i : Nat) => ((v :: vs).filter (fun w => w.relem == i)).getLast?
    let r := fun (i : Nat) => Rnd.make x.sr x.seed o.tid x.d.step (0x40 + ((by_ i).map VI.p).getD 0) x.d.quantum
    let e := encodeBlocks o r ((List.range o.count).map (fun i => match by_ i with
      | some w => accVal (nth accs w.accIx {})
      | none => .zero))
    (maskedWrites o e (unnamed l j),
     { cvtSat := e.sat, cvtNonfinite := e.nonfin, gridNonfinite := (v :: vs).any (fun w => (nth accs w.accIx {}).nonfinite) })

/-- The writes of RSTOREs, in order. -/
def rstoreWrites (x : MathCtx) (l : List VI) (accs : List Acc) : List (List PlaneW × OpStatus) :=
  (l.filter (fun v => !isBlock32 (x.out v.rport).fmt)).map (fun v => rstoreOne x v accs) ++
  ((List.range x.d.nOut).filter (fun j => isBlock32 (x.out j).fmt)).map (fun j => rstoreBlocks x j l accs)

/-- The blocks of which RSTOREs name some elements and not all: the spec does not say what they hold (log entry 39). -/
def rstoreUndef (x : MathCtx) (l : List VI) : List (Nat × Nat × Nat) :=
  (List.range x.d.nOut).flatMap (fun j => maskedUndef (x.out j) (unnamed l j))

/-- The write of one RSTORE on its own. -/
def rstoreWrite (x : MathCtx) (v : VI) (accs : List Acc) : List PlaneW × OpStatus :=
  if isBlock32 (x.out v.rport).fmt then rstoreBlocks x v.rport [v] accs else rstoreOne x v accs

/-- The body of a kernel operator, library or custom. -/
def kernelBody (x : MathCtx) (k : KImage) (args : List Nat) (purp : Nat → Nat) : Body :=
  let c := max x.cores 1
  let n := x.d.nElem
  let r := kernelRun (kenvOf x) k args n c x.d.floorRaw x.d.floor
  let derived := x.d.floorRaw = derivedCode
  let deltas := (r.perCore.zip (List.range c)).map (fun p => ({ core := p.2, flushed := p.1.1, clamped := p.1.2 } : CoreDelta))
  match r.faultIx with
  | some f => { stat := r.stat, flushed := r.flushed, clamped := r.clamped, tBody := kernelT k n c derived, deltas := deltas, chunkAccs := r.chunkAccs,
                code := cVectorIndexRange, detail := f, undefinedOut := true }
  | none =>
    let ws := (List.range x.d.nOut).map (fun j => streamWrites x j purp r.stores)
    let rs := k.epi.filter (fun v => v.op == 0x88)
    let all := ws ++ rstoreWrites x rs r.acc
    { writes := (all.map (·.1)).flatten, stat := all.foldl (fun t w => t.or w.2) r.stat, flushed := r.flushed, clamped := r.clamped,
      tBody := kernelT k n c derived, deltas := deltas, chunkAccs := r.chunkAccs, undef := rstoreUndef x rs }

/-- CUSTOM_KERNEL: its image, purposes 0x40 + p (R142, R145). -/
def customBody (x : MathCtx) : Body :=
  kernelBody x (kimageOf x.rd x.d.kimgRegion x.d.kimgOffset) ((List.range 8).map x.d.arg) (fun p => 0x40 + p)

/-- The engine of the core at place `i` of the core set, as a custom kernel starts on it: before its prologue, its passes ahead (R136, R146). -/
def engineStart (x : MathCtx) (id i : Nat) : VCore :=
  let k := kimageOf x.rd x.d.kimgRegion x.d.kimgOffset
  let args := (List.range 8).map x.d.arg
  let c := max x.cores 1
  { kinit k args (kernelFloors (kenvOf x) k args x.d.nElem c x.d.floorRaw x.d.floor) with
    op := some id, passes := passList x.d.nElem (stripsOf x.d.nElem c i) }

/-! ### Library kernels (R208) -/

/-- A lane instruction without mask. -/
def vi (op d a b c : Nat) : VI := ⟨op, d, a, b, c, 0, 0, 0⟩

/-- The prologue of every library kernel; AXPBY adds its scalars. -/
def libPro (op : Nat) : List VI :=
  [⟨0x14, 10, 0, 0, 0, 0, 0, 0⟩, ⟨0x14, 11, 0, 0, 0, 0, 0, 0x3f800000⟩] ++
  (if op = 0x0303 then [vi 0x13 12 3 0 0, vi 0x13 13 4 0 0] else [])

/-- The middle of a library kernel's body, and the register stored (R208). -/
def libMid (op f : Nat) : List VI × Nat :=
  match op, f with
  | 0x0301, _ => ([vi 0x20 3 2 9 0], 3)
  | 0x0302, _ => ([vi 0x22 3 2 9 0], 3)
  | 0x0303, _ => ([vi 0x22 4 13 9 0, vi 0x23 3 12 2 4], 3)
  | 0x0304, 0 => ([vi 0x29 3 2 10 0], 3)
  | 0x0304, 1 => ([vi 0x35 3 2 0 0], 3)
  | 0x0304, 2 => ([vi 0x35 4 2 0 0, vi 0x22 3 2 4 0], 3)
  | 0x0304, _ => ([vi 0x33 3 2 0 0], 3)
  | 0x0305, 0 => ([⟨0x60, 1, 10, 2, 0, 0, 0, 1⟩, ⟨0x61, 3, 9, 10, 0, 1, 0, 0⟩], 3)
  | 0x0305, 1 => ([vi 0x35 4 2 0 0, vi 0x21 5 11 4 0, vi 0x22 6 4 5 0, vi 0x22 3 6 9 0], 3)
  | 0x0305, 2 => ([vi 0x35 4 2 0 0, vi 0x21 5 11 4 0, vi 0x23 6 2 5 11, vi 0x22 7 4 6 0, vi 0x22 3 7 9 0], 3)
  | 0x0305, _ => ([vi 0x33 4 2 0 0, vi 0x25 5 4 4 11, vi 0x22 3 5 9 0], 3)
  | _, _ => ([], 2)

/-- The image whose run a library operator equals (R208): b = 0. -/
def libImage (op f : Nat) : KImage :=
  let two := op != 0x0304
  let m := libMid op f
  { hdr := 0, bytes := 0, pro := libPro op,
    body := [vi 0x01 11 1 0 0, ⟨0x10, 2, 0, 0, 0, 0, 0, 0⟩] ++ (if two then [⟨0x10, 9, 0, 0, 0, 0, 0, 1⟩] else []) ++ m.1 ++
      [⟨0x12, 0, m.2, 0, 0, 0, 0, 0⟩],
    epi := [] }

/-- ADD, MUL, AXPBY, ACT and ACT_BWD: purpose from the descriptor (R76, R207). -/
def libBody (x : MathCtx) : Body :=
  kernelBody x (libImage x.d.opcode (x.d.arg 0)) [x.d.arg 0, x.d.arg 1, 0, 0, 0, 0, 0, 0] (fun _ => x.d.purpose)

end Sys2Proof.Machine
end

