-- ==== Sys2Proof/Machine/RowMath.lean ====
section
/-! DEFINITION. Classes 0x04xx (R210 to R214), 0x05xx (R85, R93, R215 to R218), 0x06xx (R219) and 0x07xx (R220 to R222). -/

namespace Sys2Proof.Machine

/-- A binary32 word of a value by RNE (R56). -/
def w32 (v : Val) : Word := (round32 v).1

/-- The words of row `r` of an input, converted to binary32 (R56, R211), and their conversion status. -/
def rowWords (x : MathCtx) (t : TDesc) (r : Nat) : List Word × Cnt :=
  let cs := (List.range (t.dim 0)).map (fun j => cvtPlain fmtB32 .rne 0 (t.val x.rd x.d.floor (j + t.dim 0 * r)))
  (cs.map (fun c => BitVec.ofNat 32 c.code), Cnt.all (cs.map Cnt.ofCvt))

/-- The floor of one sum: the descriptor's, or derived for the sum (R64, R210). -/
def sumFloor (d : OpDesc) (ts : List Val) : Int := if d.floorRaw = derivedCode then derivedFloor ts else d.floor

/-- A grid sum of a row and its binary32 rounding. -/
def rsum (x : MathCtx) (ts : List Val) : Word × Cnt := gsum32 (sumFloor x.d ts) ts

/-- Products of two word lists. -/
def prods (a b : List Word) : List Val := List.zipWith (fun p q => Val.mul (val32 p) (val32 q)) a b

/-- The result of one row: output words per output, terms for sums across rows, counts. -/
structure RowRes where
  ys : List (List Word) := []
  across : List (List Val) := []
  cnt : Cnt := {}

/-- n0 as binary32 (R211). -/
def nr32 (n : Nat) : Word := w32 (.ofInt n 0)

def m32 (a b : Word) : Word := (mul32 a b).1
def a32 (a b : Word) : Word := (add32 a b).1
def s32 (a b : Word) : Word := (sub32 a b).1
def d32 (a b : Word) : Word := (div32 a b).1
def fma' (a b c : Word) : Word := (fma32 a b c).1
def fnma' (a b c : Word) : Word := (fnma32 a b c).1

/-- The greatest word under the RMAX order with its least index (R138). -/
def rowMax (ws : List Word) : Word × Nat :=
  (ws.zip (List.range ws.length)).foldl (fun a p => if rmaxLt a.1 (canon32 p.1) then (canon32 p.1, p.2) else a) (0xFF800000, 0)

/-- The k greatest with their indices, in decreasing order, ties by lowest index (R212). -/
def topK : Nat → List (Word × Nat) → List (Word × Nat)
  | 0, _ => []
  | k + 1, ps =>
    match ps with
    | [] => []
    | p :: r =>
      let best := r.foldl (fun a q => if rmaxLt a.1 q.1 then q else a) p
      best :: topK k (ps.filter (fun q => q.2 != best.2))

/-- RMSNORM and LAYERNORM share their first sums: mean-free row, rr, counts (R211). -/
def normHead (x : MathCtx) (layer : Bool) (xs : List Word) : List Word × Word × Cnt :=
  let nr := nr32 xs.length
  let eps : Word := BitVec.ofNat 32 (x.d.arg 0)
  if layer then
    let mu := rsum x (xs.map val32)
    let m := d32 mu.1 nr
    let ds := xs.map (fun w => s32 w m)
    let v := rsum x (prods ds ds)
    (ds, (rsqrt32 (a32 (d32 v.1 nr) eps)).1, mu.2.join v.2)
  else
    let s := rsum x (prods xs xs)
    (xs, (rsqrt32 (a32 (d32 s.1 nr) eps)).1, s.2)

/-- One row of a class 0x04xx operator (R211, R212). -/
def rowOp (x : MathCtx) (r : Nat) : RowRes :=
  let xs := (rowWords x (x.inp 0) r).1
  let g := (rowWords x (x.inp 1) 0).1
  match x.d.opcode with
  | 0x0400 =>
    let h := normHead x false xs
    { ys := [List.zipWith (fun a b => m32 (m32 a h.2.1) b) xs g], cnt := h.2.2 }
  | 0x0401 =>
    let h := normHead x false xs
    let rr := h.2.1
    let dy := (rowWords x (x.inp 2) r).1
    let a := List.zipWith m32 dy g
    let c := rsum x (prods a xs)
    let cq := d32 c.1 (nr32 xs.length)
    { ys := [List.zipWith (fun xv av => m32 rr (fnma' (m32 xv (m32 rr rr)) cq av)) xs a]
      across := [List.zipWith (fun d xv => Val.mul (val32 d) (val32 (m32 xv rr))) dy xs]
      cnt := h.2.2.join c.2 }
  | 0x0402 =>
    let h := normHead x true xs
    let b := (rowWords x (x.inp 2) 0).1
    { ys := [(h.1.zip (g.zip b)).map (fun p => fma' (m32 p.1 h.2.1) p.2.1 p.2.2)], cnt := h.2.2 }
  | 0x0403 =>
    let h := normHead x true xs
    let rr := h.2.1
    let dy := (rowWords x (x.inp 2) r).1
    let hh := h.1.map (fun d => m32 d rr)
    let a := List.zipWith m32 dy g
    let c1 := rsum x (a.map val32)
    let c2 := rsum x (prods a hh)
    let q1 := d32 c1.1 (nr32 xs.length)
    let q2 := d32 c2.1 (nr32 xs.length)
    { ys := [List.zipWith (fun hv av => m32 rr (fnma' hv q2 (s32 av q1))) hh a]
      across := [prods dy hh, dy.map val32]
      cnt := (h.2.2.join c1.2).join c2.2 }
  | 0x0404 =>
    let mx := (rowMax xs).1
    let p := xs.map (fun w => (exp32 (s32 w mx)).1)
    let l := rsum x (p.map val32)
    { ys := [p.map (fun w => d32 w l.1)], cnt := l.2 }
  | 0x0405 =>
    let dy := (rowWords x (x.inp 1) r).1
    let c := rsum x (prods xs dy)
    { ys := [List.zipWith (fun y d => m32 y (s32 d c.1)) xs dy], cnt := c.2 }
  | 0x0407 => { ys := [[(rowMax xs).1]] }
  | 0x0408 => { ys := [[BitVec.ofNat 32 (rowMax xs).2]] }
  | 0x0409 =>
    let t := topK (x.d.arg 0) ((xs.map canon32).zip (List.range xs.length))
    { ys := [t.map (·.1), t.map (fun p => BitVec.ofNat 32 p.2)] }
  | _ => {}

/-- The cost q of an opcode (Table 8.7). -/
def rowQ (d : OpDesc) : Nat :=
  match d.opcode with
  | 0x0400 => 6
  | 0x0401 => 12
  | 0x0402 => 9
  | 0x0403 => 16
  | 0x0404 => 13
  | 0x0405 => 6
  | 0x0409 => 3 + d.arg 0
  | 0x040B => 4
  | _ => 3

/-- T_body of class 0x04xx (R214). -/
def rowT (x : MathCtx) (across : Bool) : Nat :=
  let t := x.inp 0
  let c := max x.cores 1
  let w := if x.d.floorRaw = derivedCode then 2 else 1
  cdiv t.rows c * (24 + w * rowQ x.d * cdiv (t.dim 0) 64) + (if across then tComb c else 0)

/-- How many data inputs an opcode has before its scale inputs (Table 8.7). -/
def rowIns (op : Nat) : Nat :=
  match op with
  | 0x0400 => 2
  | 0x0401 => 3
  | 0x0402 => 3
  | 0x0403 => 3
  | 0x0405 => 2
  | _ => 1

/-- A sum across rows written to XB16 under its scale input, or in a calibration step to bfloat16 (R200, R211). -/
def acrossOut (x : MathCtx) (o : TDesc) (scaleIx : Nat) (sums : List GridSum) (vals obsVs : List Val) : List PlaneW × OpStatus :=
  let nf := sums.any (·.nonfinite)
  if o.fmt = fmtXB16 then
    let r := xbOutput x o (scaleOf (x.inp scaleIx) x.rd) false vals obsVs
    (r.1, { gridNonfinite := nf, cvtSat := r.2.sat, cvtNonfinite := r.2.nonfin })
  else
    let e := encodeVals o (x.rnd o) [] vals
    (o.writes e, { gridNonfinite := nf, cvtSat := e.sat, cvtNonfinite := e.nonfin })

/-- A per-row output from words, each converted to its format (R56, R211); `ix`: the words are indices and keep their bits. Masked rows are left. -/
def wordsOut (x : MathCtx) (o : TDesc) (ix : Bool) (ws : List Word) (masked : Nat → Bool) : List PlaneW × OpStatus :=
  let ms := (List.range ws.length).map masked
  if isBlock32 o.fmt then
    let e := encodeVals o (x.rnd o) [] ((ws.zip ms).map (fun p => if p.2 then .zero else val32 p.1))
    (maskedWrites o e masked, { cvtSat := e.sat, cvtNonfinite := e.nonfin })
  else
    let cs := (ws.zip ms).zip (List.range ws.length) |>.map (fun p =>
      if p.1.2 then ({ code := 0 } : Cvt) else if ix then { code := p.1.1.toNat }
      else cvtPlain o.fmt (x.rnd o) p.2 (val32 p.1.1))
    (maskedWrites o ⟨cs.map (·.code), [], false, false⟩ masked, { cvtSat := cs.any (·.sat), cvtNonfinite := cs.any (·.nonfin) })

/-- The counter changes of sums of rows: row `r` lies on core r mod c (R214, R68). -/
def rowDeltas (x : MathCtx) (l : List (Nat × Cnt)) : List CoreDelta :=
  l.map (fun q => { core := q.1 % max x.cores 1, flushed := q.2.fl, clamped := q.2.cl })

/-- REDUCE_SUM: one grid sum per row, rounded once (R211). -/
def reduceSumBody (x : MathCtx) : Body :=
  let t := x.inp 0
  let o := x.out 0
  let rows := (List.range t.rows).map (fun r => let w := rowWords x t r; (w.1.map val32, w.2))
  let gs := rows.map (fun r => sumFloor x.d r.1)
  let sums := (rows.zip gs).map (fun p => gridSum p.2 p.1.1)
  let ms := (List.range t.rows).map x.masked
  let exact := (sums.zip gs).map (fun p => p.1.val p.2)
  let vals := (exact.zip ms).map (fun p => if p.2 then Val.zero else p.1)
  let live := (List.range t.rows).filter (fun r => !x.masked r)
  let cnts : List (Nat × Cnt) := live.map (fun r => (r, (nth (rows.map Prod.snd) r {}).join (nth (sums.map Cnt.ofSum) r {})))
  let cnt := Cnt.all (cnts.map (·.2))
  let liveSums := live.filterMap (fun r => sums[r]?)
  let w := if isXB o.fmt then acrossOut x o 1 liveSums vals exact
    else if o.fmt = fmtG128 then
      (maskedWrites o ⟨(sums.zip ms).map (fun p => if p.2 then 0 else p.1.g128), [], false, false⟩ x.masked, {})
    else
      let e := encodeVals o (x.rnd o) [] vals
      (maskedWrites o e x.masked, { cvtSat := e.sat, cvtNonfinite := e.nonfin })
  { writes := w.1, stat := cnt.stat w.2, flushed := cnt.fl, clamped := cnt.cl, tBody := rowT x false
    deltas := rowDeltas x cnts, undef := maskedUndef o x.masked }

/-- A class 0x04xx operator other than REDUCE_SUM and SCALE_CALIBRATE. -/
def rowBody (x : MathCtx) : Body :=
  let t := x.inp 0
  let rows := (List.range t.rows).map (fun r => (r, rowOp x r))
  let live := rows.filter (fun r => !x.masked r.1)
  let outs := List.range ((rows.head?.map (fun r => r.2.ys.length)).getD 0)
  let mk := fun (j i : Nat) => x.masked (i / max (if t.rows = 0 then 1 else (x.out j).count / t.rows) 1)
  let rowOuts := outs.map (fun j =>
    wordsOut x (x.out j) (x.d.opcode == 0x0408 || j == 1) ((rows.map (fun r => nth r.2.ys j [])).flatten) (mk j))
  let nOut0 := rowOuts.length
  let acr := (List.range (x.d.nOut - nOut0)).map (fun j =>
    let o := x.out (nOut0 + j)
    let cols := (List.range o.count).map (fun e => live.map (fun r => (r.1, nth (nth r.2.across j []) e .zero)))
    let gs := cols.map (fun c => sumFloor x.d (c.map (·.2)))
    let sums := (cols.zip gs).map (fun p => gridSum p.2 (p.1.map (·.2)))
    let vals := (sums.zip gs).map (fun p => p.1.val p.2)
    (acrossOut x o (rowIns x.d.opcode + j) sums vals vals, sums, (cols.zip gs).flatMap (fun p => coreCounts (max x.cores 1) p.2 p.1)))
  let cnt := (Cnt.all (live.map (fun r => r.2.cnt))).join (Cnt.all (acr.flatMap (fun a => a.2.1.map Cnt.ofSum)))
  let rd := Cnt.all ((List.range (rowIns x.d.opcode)).flatMap (fun j =>
    live.map (fun r => (rowWords x (x.inp j) (if (x.inp j).rows = 1 then 0 else r.1)).2)))
  let st := (rowOuts ++ acr.map (·.1)).foldl (fun s w => s.or w.2) {}
  { writes := ((rowOuts ++ acr.map (·.1)).map (·.1)).flatten
    stat := (cnt.join rd).stat st
    flushed := cnt.fl, clamped := cnt.cl, tBody := rowT x ((x.ts.drop (x.d.nIn + 1)).any (fun o => o.fmt == fmtXB16))
    deltas := rowDeltas x (live.map (fun r => (r.1, r.2.cnt))) ++ acr.flatMap (·.2.2)
    undef := outs.flatMap (fun j => maskedUndef (x.out j) (mk j)) }

/-! ### Scale update and calibration (R85, R96, R213, R215) -/

/-- The new estimates of a calibration (R96 step 4): the block maxima of the reduced sum over Q. Of a maximum that the division takes to 0 the code is free
(log entry 49). -/
def calibLnew (x : MathCtx) : List Int :=
  let t := x.inp 0
  let vs := (List.range t.count).map (fun i => if x.masked (i / t.dim 0) then Val.zero else t.val x.rd 0 i)
  let inv := d32 0x3F800000 (w32 (.ofInt (x.d.arg 0) 0))
  (List.range (x.out 0).count).map (fun b =>
    match maxMag ((vs.drop (256 * b)).take 256) with
    | none => noObs
    | some (m, e) => match val32 (m32 (w32 (.fin false m e)) inv) with
      | .fin _ n f => if n = 0 then (Config.codeOfZero (x.d.arg 0)).toInt + 16 else obsCode n f + 16
      | _ => noObs)

/-- The new estimates of SCALE_UPDATE (R85) from the record, the observations and the `ovf` bits of the reduced gradient. -/
def updateLnew (x : MathCtx) : List Int :=
  let r := scaleOf (x.inp 0) x.rd
  let g := x.inp 1
  let obs := g.obs x.rd
  (List.range (x.out 0).count).map (fun b => lnewOf r (nth obs b noObs) (xbOvf (g.header x.rd b)) b)

/-- The blocks a record tensor adds to the digests (R320): code blocks of 256, then the header. -/
def recDigs (tid : Nat) (hdr : Nat) (codes : List Byte) : List DigBlock :=
  (List.range (cdiv codes.length 256)).map (fun b => ⟨tid, b, 0, fitBytes 256 ((codes.drop (256 * b)).take 256)⟩) ++
  [⟨tid, 0xFFFFFFFF, 0, leBytes 16 hdr⟩]

/-- The rest of R85 once the maximum over all blocks of the tensor is known. SCALE_CALIBRATE counts its clamped blocks in `scale_floor_blocks` too, but for
blocks without a value (DESIGN CHOICE, log entry 56). -/
def scaleFinish (x : MathCtx) (lnew : List Int) (lmax : Int) : Body :=
  let o := x.out 0
  let calib := x.d.opcode == 0x040B
  let base := newBase lmax
  let codes := lnew.map (fun l => if calib && l = noObs then 0 else newCode base l)
  let old := scaleOf (x.inp 0) x.rd
  let hdr := if calib then scaleHdr (x.inp 0).tid base 2 x.d.step o.count
    else scaleHdr old.tid base old.headroom x.d.step old.blockCount
  let cb := codes.map (BitVec.ofNat 8)
  let g := x.inp 1
  let lim := if calib then 0 else ((List.range o.count).filter (fun b => xbOvf (g.header x.rd b) && old.exponent b == 88)).length
  { writes := [⟨o.eReg, o.eOff, cb⟩, ⟨o.bReg, o.bOff, leBytes 16 hdr⟩]
    floorBlocks := (lnew.filter (fun l => decide (l - 16 * base < 0) && !(calib && l = noObs))).length
    atLimit := lim
    limitTid := if lim = 0 then none else some old.tid
    calibRec := if calib then some (BitVec.ofNat 128 hdr, cb) else none
    digs := recDigs o.tid hdr cb
    tBody := if calib then rowT x true
      else
      let c := max x.cores 1
      ((List.range c).map (fun i => 16 + 6 * sumOf (stripLens o.count c i))).foldl max 0 + tComb c }

/-- A record loaded from a reference's calibration event (R21, R98): the header as recorded, and the codes of the operator's blocks from block `first`. -/
def scaleLoad (x : MathCtx) (q : BitVec 128 × List Byte) (first : Nat) : Body :=
  let o := x.out 0
  let cb := fitBytes o.count (q.2.drop first)
  { writes := [⟨o.eReg, o.eOff, cb⟩, ⟨o.bReg, o.bOff, leBytes 16 q.1.toNat⟩]
    calibRec := some (q.1, q.2)
    digs := recDigs o.tid q.1.toNat cb
    tBody := rowT x true }

/-! ### AdamW (R88, R90, R93, R94, R216) -/

structure AdamArgs where
  gscale : Word
  lr : Word
  wd : Word
  b1 : Word
  c1 : Word
  b2 : Word
  c2 : Word
  bc1 : Word
  bc2 : Word
  eps : Word

def adamArgs (d : OpDesc) : AdamArgs :=
  let a := fun j => (BitVec.ofNat 32 (d.arg j) : Word)
  ⟨a 0, a 1, a 2, a 3, a 4, a 5, a 6, a 7, a 8, a 9⟩

/-- One updated element: head, tail, m, v codes, whether the update of its block must be skipped (R90), the status of its conversions (R57). -/
structure AdamEl where
  h : Nat
  t : Nat
  m : Nat
  v : Nat
  bad : Bool
  sat : Bool := false
  nf : Bool := false
deriving DecidableEq, Repr

/-- The sequence of R93 for one element. `g0` is the reduced gradient's value. -/
def adamEl (k : AdamArgs) (rw rm rv : Rnd) (i : Nat) (g0 : Val) (m v : Nat) (h t : Nat) : AdamEl :=
  let mv := w32 (ffBf.decode m)
  let vv := w32 (ffBf.decode v)
  let g := m32 (w32 g0) k.gscale
  let c1g := m32 k.c1 g
  let mn := fma' k.b1 mv c1g
  let gg := m32 g g
  let c2gg := m32 k.c2 gg
  let vn := fma' k.b2 vv c2gg
  let vb := m32 vn k.bc2
  let sq := (sqrt32 vb).1
  let d := a32 sq k.eps
  let pv := pairVal h t
  let w := w32 pv
  let mb := m32 mn k.bc1
  let q := d32 mb d
  let ww := m32 k.wd w
  let sm := a32 q ww
  let lu := m32 k.lr sm
  let u := lu ^^^ 0x80000000
  let np := pairFrom rw i (Val.add pv (val32 u))
  let nm := ffBf.convert true rm i (val32 mn)
  let nv := ffBf.convert true rv i (val32 vn)
  let inter := [mv, vv, g, c1g, mn, gg, c2gg, vn, vb, sq, d, w, mb, q, ww, sm, lu]
  { h := np.1, t := np.2.1, m := nm.code, v := nv.code
    sat := np.2.2.1 || nm.sat || nv.sat, nf := np.2.2.2 || nm.nonfin || nv.nonfin
    bad := inter.any (fun z => !(val32 z).isFin) || np.2.2.1 || np.2.2.2 || !(ffBf.decode nm.code).isFin || !(ffBf.decode nv.code).isFin }

/-- What ADAMW writes for one block, with its skip flags (R320: ovf 1, nf 2, update-skip 4, frozen 8). -/
structure AdamBlk where
  els : List AdamEl
  flags : Nat
  sat : Bool := false
  nf : Bool := false
deriving DecidableEq, Repr

def adamBlock (x : MathCtx) (b : Nat) : AdamBlk :=
  let g := x.inp 0
  let m := x.inp 1
  let v := x.inp 2
  let w := x.inp 3
  let k := adamArgs x.d
  let is := (List.range (min 256 (w.count - 256 * b))).map (· + 256 * b)
  let keep := is.map (fun i => (⟨w.code x.rd i, w.entry x.rd i, m.code x.rd i, v.code x.rd i, false, false, false⟩ : AdamEl))
  let ovf := g.blockOvf x.rd b
  let nf := xbNf (g.header x.rd b)
  let frozen := x.nData = 5 && (x.inp 4).code x.rd b != 0
  if frozen then ⟨keep, 8, false, false⟩
  else if ovf || nf then ⟨keep, (if ovf then 1 else 0) + (if nf then 2 else 0), false, false⟩
  else
    let st := x.d.step
    let rw := Rnd.make true x.seed (x.out 2).tid st 0x02 noQuantum
    let rm := Rnd.make true x.seed (x.out 0).tid st 0x03 noQuantum
    let rv := Rnd.make true x.seed (x.out 1).tid st 0x04 noQuantum
    let els := is.map (fun i => adamEl k rw rm rv i (g.val x.rd 0 i) (m.code x.rd i) (v.code x.rd i) (w.code x.rd i) (w.entry x.rd i))
    ⟨if els.any (·.bad) then keep else els, if els.any (·.bad) then 4 else 0, els.any (·.sat), els.any (·.nf)⟩

/-- ADAMW: its writes, skip counts, digest blocks, time (R91, R94, R218, R320). -/
def adamBody (x : MathCtx) : Body :=
  let n := (x.inp 3).count
  let bs := (List.range (cdiv n 256)).map (adamBlock x)
  let all := (bs.map (·.els)).flatten
  let mo := x.out 0
  let vo := x.out 1
  let wo := x.out 2
  let cnt (f : Nat) : Nat := (bs.filter (fun b => bitsOf b.flags f 1 == 1)).length
  let dig (t : TDesc) (f : AdamBlk → List Byte) (k : Nat) : List DigBlock :=
    (bs.zip (List.range bs.length)).map (fun p => ⟨t.tid, p.2, p.1.flags, fitBytes k (f p.1)⟩)
  let by16 (f : AdamEl → Nat) (b : AdamBlk) : List Byte := (b.els.map (fun e => leBytes 2 (f e))).flatten
  let c := max x.cores 1
  { writes := mo.elemWrites (all.map (·.m)) ++ vo.elemWrites (all.map (·.v)) ++ wo.elemWrites (all.map (·.h)) ++ wo.entryWrites (all.map (·.t))
    skipOvf := cnt 0, skipNf := cnt 1, skipUpdate := cnt 2
    stat := { cvtSat := bs.any (·.sat), cvtNonfinite := bs.any (·.nf) }
    digs := dig wo (fun b => fitBytes 512 (by16 (·.h) b) ++ fitBytes 256 (b.els.map (fun e => BitVec.ofNat 8 e.t))) 768 ++
            dig mo (by16 (·.m)) 512 ++ dig vo (by16 (·.v)) 512
    tBody := ((List.range c).map (fun i => 16 + sumOf ((stripLens n c i).map (fun l => 40 * cdiv l 64)))).foldl max 0 }

/-! ### Conversion (R219) -/

def cvtQ (op : Nat) : Nat := if op = 0x0600 then 3 else 4

/-- CONVERT, QUANT_XB16, PAIR_TO_WORKING (always RNE, R55) and PAIR_FROM. -/
def cvtBody (x : MathCtx) : Body :=
  let a := x.inp 0
  let o := x.out 0
  let vs := a.vals x.rd x.d.floor
  let n := x.d.nElem
  let c := max x.cores 1
  let t := ((List.range c).map (fun i => 16 + sumOf ((stripLens n c i).map (fun l => cvtQ x.d.opcode * cdiv l 64)))).foldl max 0
  if x.d.opcode = 0x0601 then
    let r := xbOutput x o (scaleOf (x.inp 1) x.rd) false vs vs
    { writes := r.1, stat := { cvtSat := r.2.sat, cvtNonfinite := r.2.nonfin }, tBody := t }
  else
    let e := encodeVals o (if x.d.opcode = 0x0602 then Rnd.rne else x.rnd o) [] vs
    { writes := o.writes e, stat := { cvtSat := e.sat, cvtNonfinite := e.nonfin }, tBody := t }

/-! ### Copy, gather and permute (R220 to R222) -/

/-- The codes and entries of a tensor as they stand. -/
def rawEnc (x : MathCtx) (t : TDesc) : Enc :=
  ⟨(List.range t.count).map (t.code x.rd),
   if isBlock32 t.fmt then (List.range t.blocks).map (fun b => rdLe x.rd t.bReg (t.bOff + b) 1)
   else if isXB t.fmt then (List.range t.blocks).map (t.header x.rd)
   else if t.fmt = fmtPair then (List.range t.count).map (t.entry x.rd) else [], false, false⟩

/-- The bytes of every plane of a tensor that hold its elements from `lo` to `hi` − 1; the last ones with the fill of their block (R37). -/
def spanBytes (t : TDesc) (lo hi : Nat) : Nat :=
  let w := elemBits t.fmt
  if hi ≤ lo then 0
  else if isBlock32 t.fmt then
    let nb := cdiv (t.dim 0) 32
    let slot := fun i => (i / t.dim 0 * nb + i % t.dim 0 / 32) * 32 + i % t.dim 0 % 32
    let s1 := if hi % t.dim 0 = 0 then slot (hi - 1) / 32 * 32 + 32 else slot (hi - 1) + 1
    cdiv (s1 * w) 8 - slot lo * w / 8 + ((s1 - 1) / 32 + 1 - slot lo / 32)
  else if isXB t.fmt then
    let h := if hi = t.count && t.dense then cdiv hi 256 * 256 else hi
    (h - lo) * w / 8 + 10 * (cdiv hi 256 - lo / 256)
  else cdiv (hi * w) 8 - lo * w / 8 + (if t.fmt = fmtPair then hi - lo else 0)

/-- T_body of the strip-split opcodes (R222). -/
def copyT (x : MathCtx) (beta : Nat) : Nat :=
  let o := x.out 0
  let n := o.count
  let c := max x.cores 1
  let s := cdiv n 2048
  ((List.range c).map (fun i => 16 + cdiv (spanBytes o (min n (2048 * (i * s / c))) (min n (2048 * ((i + 1) * s / c)))) beta)).foldl max 0

/-- T_body of the row opcodes (R222): row j on core j mod c. -/
def rowCopyT (x : MathCtx) (rows : Nat) (comb : Bool) : Nat :=
  let c := max x.cores 1
  let r := cdiv rows c
  16 + cdiv (r * spanBytes (x.out 0) 0 ((x.out 0).dim 0)) 256 + 8 * r + (if comb then tComb c else 0)

/-- COPY: the bits of every plane, whatever the pitches. -/
def copyBody (x : MathCtx) : Body :=
  let a := x.inp 0
  let o := x.out 0
  { writes := o.writes (rawEnc x a) ++ o.auxWrites ((a.obs x.rd).map (intBits 16)), tBody := copyT x 256 }

/-- The source index of output element `i` of PERMUTE: `arg0`[3d+2:3d] names the source dimension of output dimension d. -/
def permSrc (x : MathCtx) (i : Nat) : Nat :=
  let o := x.out 0
  let a := x.inp 0
  let coords := ((List.range 6).foldl (fun (st : List Nat × Nat) d => (st.1 ++ [st.2 % max (o.dim d) 1], st.2 / max (o.dim d) 1)) ([], i)).1
  let src (d : Nat) : Nat := ((List.range 6).find? (fun e => bitsOf (x.d.arg 0) (3 * e) 3 == d)).getD 0
  ((List.range 6).foldl (fun (st : Nat × Nat) d => (st.1 + st.2 * nth coords (src d) 0, st.2 * a.dim d)) (0, 1)).1

/-- The block and auxiliary planes of a tensor. -/
def TDesc.sidePlanes (t : TDesc) : List (Nat × Nat × Nat) :=
  [(t.bReg, t.bOff, t.blockBytes false), (t.xReg, t.xOff, t.auxBytes)].filter (fun p => p.2.2 != 0)

/-- The entries of whole blocks of one row, moved from row `r` of a tensor to row `q` of another (none: entries of encoding 0). Rows that are no
whole blocks have no entries of their own. -/
def rowSide (x : MathCtx) (a : Option (TDesc × Nat)) (o : TDesc) (q : Nat) : List PlaneW :=
  let get := fun (reg off : TDesc → Nat) (n : Nat) => match a with
    | some (t, r) => (List.range n).map (fun k => x.rd (reg t) (off t + r * n + k))
    | none => List.replicate n 0
  if isBlock32 o.fmt then let n := cdiv (o.dim 0) 32; [⟨o.bReg, o.bOff + q * n, get TDesc.bReg TDesc.bOff n⟩]
  else if o.fmt = fmtPair then [⟨o.bReg, o.bOff + q * o.dim 0, get TDesc.bReg TDesc.bOff (o.dim 0)⟩]
  else if isXB o.fmt && o.dim 0 % 256 == 0 then
    let n := o.dim 0 / 256
    [⟨o.bReg, o.bOff + q * 8 * n, get TDesc.bReg TDesc.bOff (8 * n)⟩, ⟨o.xReg, o.xOff + q * 2 * n, get TDesc.xReg TDesc.xOff (2 * n)⟩]
  else []

/-- The planes that a row operator leaves unstated: those of XB16 and XP40 rows that are no whole blocks. -/
def rowUndef (o : TDesc) : List (Nat × Nat × Nat) := if isXB o.fmt && o.dim 0 % 256 != 0 then o.sidePlanes else []

/-- PERMUTE: elements move as they stand. A pair's tails move with them; the block entries move where dimension 0 stays whole blocks, and are
not stated otherwise. -/
def permuteBody (x : MathCtx) : Body :=
  let a := x.inp 0
  let o := x.out 0
  let ix := (List.range o.count).map (permSrc x)
  let codes := ix.map (a.code x.rd)
  let stays := bitsOf (x.d.arg 0) 0 3 == 0
  let whole := stays && (isBlock32 a.fmt || (isXB a.fmt && a.dim 0 % 256 == 0))
  let side := if a.fmt = fmtPair then o.entryWrites (ix.map (a.entry x.rd))
    else if whole then (List.range o.rows).flatMap (fun r => rowSide x (some (a, permSrc x (r * o.dim 0) / a.dim 0)) o r) else []
  { writes := o.elemWrites codes ++ side, tBody := copyT x 256
    undef := if hasPlane2 a.fmt && side.isEmpty then o.sidePlanes else [] }

/-- TRANSPOSE by the turner (R179, R220): the same format, or B16 from a 16-bit one. -/
def transposeEnc (x : MathCtx) (a o : TDesc) (code : Nat → Nat) : Enc :=
  let src (i : Nat) : Nat :=
    let c0 := i % o.dim 0
    let r := i / o.dim 0
    let c1 := r % o.dim 1
    c1 + a.dim 0 * (c0 + a.dim 1 * (r / o.dim 1))
  if o.fmt = a.fmt then ⟨(List.range o.count).map (fun i => code (src i)), [], false, false⟩
  else encodeVals o .rne [] ((List.range o.count).map (fun i => elemVal a.fmt (code (src i)) 0 x.d.floor))

def transposeBody (x : MathCtx) : Body :=
  let a := x.inp 0
  let o := x.out 0
  let e := transposeEnc x a o (a.code x.rd)
  { writes := o.writes e, stat := { cvtSat := e.sat, cvtNonfinite := e.nonfin }, tBody := copyT x 128 }

/-- The row index an index element names, none where it is out of range (R221). -/
def rowIndex (x : MathCtx) (ix : TDesc) (limit i : Nat) : Option Nat :=
  let c := ix.code x.rd i
  if ix.fmt = fmtI32 && decide (2 ^ 31 ≤ c) then none else if c < limit then some c else none

/-- The codes of a row. -/
def rowOfCodes (x : MathCtx) (t : TDesc) (r : Nat) : List Nat := (List.range (t.dim 0)).map (fun j => t.code x.rd (j + t.dim 0 * r))

/-- The element bytes of one row of a tensor. -/
def rowWrite (t : TDesc) (r : Nat) (codes : List Nat) : List PlaneW :=
  [⟨t.eReg, t.eOff + t.rowOff r, packCodes (elemBits t.fmt) (codes ++ List.replicate (t.slots - codes.length) 0)⟩]

/-- The encoding 0 that stands in the elements a dense XB16 or XP40 plane lacks of its last block, where a row operator writes row `q`, its last (R37). -/
def fillWrite (o : TDesc) (q : Nat) : List PlaneW :=
  let n := cdiv o.count 256 * 256 - o.count
  if isXB o.fmt && o.dense && q + 1 == o.rows && n != 0 then
    [⟨o.eReg, o.eOff + o.count * (elemBits o.fmt / 8), List.replicate (n * (elemBits o.fmt / 8)) 0⟩] else []

/-- GATHER_ROWS (R221). -/
def gatherBody (x : MathCtx) : Body :=
  let t := x.inp 0
  let ix := x.inp 1
  let o := x.out 0
  let rs := (List.range o.rows).map (fun i => (i, rowIndex x ix t.rows i))
  { writes := (rs.map (fun p => match p.2 with
      | some r => rowWrite o p.1 (rowOfCodes x t r) ++ rowSide x (some (t, r)) o p.1 ++ fillWrite o p.1
      | none => rowWrite o p.1 (List.replicate (o.dim 0) 0) ++ rowSide x none o p.1 ++ fillWrite o p.1)).flatten
    stat := { permOob := rs.any (fun p => p.2.isNone) }
    undef := rowUndef o
    tBody := rowCopyT x o.rows false }

/-- SCATTER_ROWS (R221): the greatest source index wins, so rows are written in increasing source order. -/
def scatterBody (x : MathCtx) : Body :=
  let src := x.inp 0
  let ix := x.inp 1
  let o := x.out 0
  let rs := (List.range src.rows).map (fun i => (i, rowIndex x ix o.rows i))
  { writes := (rs.map (fun p => match p.2 with
      | some r => rowWrite o r (rowOfCodes x src p.1) ++ rowSide x (some (src, p.1)) o r ++ fillWrite o r
      | none => [])).flatten
    stat := { permOob := rs.any (fun p => p.2.isNone) }
    undef := rowUndef o
    tBody := rowCopyT x src.rows false }

/-- SCATTER_ADD_ROWS (R221): each destination element one grid sum with its old value, rounded once. Source row p lies on core p mod c (R222); the old value
of a row is counted on the core of its number (DESIGN CHOICE, log entry 55). -/
def scatterAddBody (x : MathCtx) : Body :=
  let src := x.inp 0
  let ix := x.inp 1
  let dst := x.inp 2
  let o := x.out 0
  let rs := (List.range src.rows).map (fun i => (i, rowIndex x ix o.rows i))
  let terms := (List.range o.count).map (fun e =>
    let row := e / o.dim 0
    let j := e % o.dim 0
    (row, dst.val x.rd x.d.floor e) ::
      (rs.filter (fun p => p.2 == some row)).map (fun p => (p.1, src.val x.rd x.d.floor (j + src.dim 0 * p.1))))
  let sums := terms.map (fun l => gridSum x.d.floor (l.map (·.2)))
  let w := gridOutput x o x.d.floor sums (fun _ => false)
  { writes := w.1, stat := { w.2 with permOob := rs.any (fun p => p.2.isNone) }
    flushed := sumOf (sums.map (·.flushed)), clamped := sumOf (sums.map (·.clamped))
    deltas := terms.flatMap (coreCounts (max x.cores 1) x.d.floor)
    tBody := rowCopyT x src.rows true }

end Sys2Proof.Machine
end

