-- ==== Sys2Proof/Machine/HostRows.lean ====
section
/-! DEFINITION. The Yalvo host link (file 17): credits, READs and their COMPLETIONs, expiry, GUARDED. -/

namespace Sys2Proof.Machine

/-! ### READs (R445, R447) -/

/-- Cut a device range at 4 KiB boundaries. -/
def pieces : Nat → Nat → Nat → List (Nat × Nat)
  | 0, _, _ => []
  | f + 1, a, len => if len = 0 then [] else
    let n := min len (4096 - a % 4096)
    (a, n) :: pieces f (a + n) (len - n)

/-- The tensors an operator reads: its inputs, and the output of an `accumulate` (R200). -/
def OpEntry.readTensors (e : OpEntry) : List TDesc :=
  let acc := flag e.desc 25 && (e.d.opcode == 0x0102 || e.d.opcode == 0x010A)
  if acc then e.ts else e.ts.take e.d.nIn

/-- May a tensor of an operator's list be a scale-state tensor with a block plane (R187)? A dW has no scale input in a calibration step (R200). -/
def OpEntry.scaleAt (e : OpEntry) (i : Nat) : Bool :=
  let o := e.d.opcode
  let fmtOk := (nth e.ts i 0 : TDesc).fmt == fmtU8
  fmtOk && (((o == 0x0102 || o == 0x010A) && i == 2 && decide (2 + bit e.d.rowMask < e.d.nIn)) || (o == 0x0601 && i == 1) || (o == 0x0501 && (i == 0 || i == e.d.nIn)) ||
    (o == 0x040B && i == e.d.nIn) ||
    (o / 256 == 4 && o != 0x040B && decide (rowIns o ≤ i) && decide (i + bit e.d.rowMask < e.d.nIn)))

/-- The host-window ranges of an operator's inputs, in pieces. -/
def State.hostPieces (s : State) (e : OpEntry) : List (Nat × Nat) :=
  let x := s.ctx e.ctx
  ((List.range e.readTensors.length).zip e.readTensors).flatMap (fun t => (t.2.planes (e.scaleAt t.1)).flatMap (fun p =>
    let a := (x.region p.1).base + p.2.1
    if isHost a then pieces (p.2.2 / 4096 + 2) a p.2.2 else []))

/-- The lowest tag of a port that is free: an expired one is not reused for a further 10 ms. -/
def State.freeTag (s : State) (n : Nat) : Option Nat :=
  let used := (s.sched.reads.filter (fun r => r.port == n && (r.requester != .expired || decide (s.now < r.at_ + 20 * Config.msCycles)))).map HostRead.tag
  (List.range 4096).find? (fun t => !used.contains t)

/-- Bytes reserved in a port's read-return buffer. -/
def State.returnBytes (s : State) (n : Nat) : Nat :=
  sumOf ((s.sched.reads.filter (fun r => r.port == n && r.requester != .expired)).map HostRead.bytes)

/-- Issue the READs of an operator that have a tag and room in the read-return buffer; a route that fails ends the operator (R450, R499). -/
def State.issuePieces (id : Nat) : List (Nat × Nat) → State → State
  | [], s => s
  | (a, n) :: ps, s => match NMap.get? s.sched.ops id with
    | none => s
    | some e =>
      if (cellGet e.staged a).isSome || s.sched.reads.any (fun r => r.requester.opId == some id && r.addr == a) then issuePieces id ps s
      else match s.hostRoute a with
        | .error c => s.endOp id c
        | .ok (p, wa) => match s.freeTag p with
          | none => s
          | some t =>
            if 0x80000 < s.returnBytes p + n then s
            else
              let r : HostRead := ⟨p, t, .op id, a, n, e.gen, s.now⟩
              let reads := s.sched.reads.filter (fun r => !(r.port == p && r.tag == t)) ++ [r]
              let ops := NMap.set s.sched.ops id { e with stagedAt := some (e.stagedAt.getD s.now) }
              let s := { s with sched := { s.sched with reads := reads, ops := ops } }
              issuePieces id ps (s.hostSend p 2 (packetHdr 2 n t 0 e.gen.toNat e.ctx wa 0) [])

def State.issueReads (s : State) (id : Nat) : State := match NMap.get? s.sched.ops id with
  | none => s
  | some e => s.issuePieces id (s.hostPieces e)

/-- Has an operator every operand byte it reads from host windows? -/
def State.stagedAll (s : State) (e : OpEntry) : Bool := (s.hostPieces e).all (fun p => (cellGet e.staged p.1).isSome)

/-- Bytes as cells from an address on. -/
def putCells (l : List Host.Cell) (a : Nat) (bs : List Byte) : List Host.Cell :=
  (((List.range bs.length).map (· + a)).zip bs).foldl (fun l c => cellPut l c.1 c.2) l

def State.dropRead (s : State) (n tag : Nat) : State :=
  { s with sched := { s.sched with reads := s.sched.reads.filter (fun r => !(r.port == n && r.tag == tag)) } }

def State.countHost (s : State) (n : Nat) (f : LinkCtr → LinkCtr) : State := s.updLink (.host n) (fun k => k.count f)

/-- A reply dropped by its generation tag (R250). -/
def State.lateDrop (s : State) (c : Nat) : State := s.updCtx c (fun x => { x with lateDrops := sat32 (x.lateDrops + 1) })

/-- A doorbell or a reply for an OPEN context that is not cached triggers its load (R233, R234). -/
def State.wantLoad (s : State) (c : Nat) : State :=
  let x := s.ctx c
  if x.state == .open_ && !x.cached && !x.loading then
    let s := s.updCtx c (fun x => { x with loading := true })
    { s with ctxs := { s.ctxs with ctr := { s.ctxs.ctr with contextCacheMisses := sat64 (s.ctxs.ctr.contextCacheMisses + 1) } } }
  else s

/-- COMPLETION (R234, R250, R447, R453). -/
def execCompletion (port : Nat) (p : Packet) (s : State) : Out :=
  if !(s.hostUp port && p.cls = 3) then .next s
  else
    let s := s.takePacket port p
    match s.readOf port p.tag with
    | none => .next (s.violation (.host port) 7)
    | some r => match r.requester with
      | .expired => .next (s.countHost port (fun t => { t with lateCompletions := sat32 (t.lateCompletions + 1) }))
      | .unsent _ => .next (s.violation (.host port) 7)
      | .dropped c =>
        let s := s.dropRead port p.tag
        .next (if r.gen = (s.ctx c).gen then s.wantLoad c else s.lateDrop c)
      | .op id => match NMap.get? s.sched.ops id with
        | none => .next (s.dropRead port p.tag)
        | some e =>
          if p.gen != e.gen.toNat then .next (s.lateDrop e.ctx)
          else if p.cstatus != 0 then .next ((s.dropRead port p.tag).endOp id cHostCompletionError)
          else if p.bytes_ != r.bytes then .next (s.violation (.host port) 7)
          else
            let s := s.dropRead port p.tag
            let e := { e with staged := putCells e.staged r.addr (fitBytes r.bytes p.data) }
            .next ({ s with sched := { s.sched with ops := NMap.set s.sched.ops id e } }.issueReads id)

/-- HOST_READ_TIMEOUT (R447): 10 ms without a COMPLETION. -/
def execHostReadTimeout (port tag : Nat) (s : State) : Out := match s.readOf port tag with
  | none => .next s
  | some r => match r.requester with
    | .expired => .next s
    | _ =>
      let s := s.advanceTo (r.at_ + 10 * Config.msCycles)
      let s := if (match r.requester with
          | .unsent _ => true
          | _ => false) then s else s.countHost port (fun t => { t with requestExpired := sat32 (t.requestExpired + 1) })
      let s := { s with sched := { s.sched with
        reads := s.sched.reads.map (fun q => if q.port == port && q.tag == tag then { q with requester := .expired } else q) } }
      .next (match r.requester.opId with
        | some id => s.endOp id cHostReadTimeout
        | none => s)

/-- REQUEST_EXPIRE (R250): a port discards a READ it has not sent within 10 ms and counts it. -/
def execRequestExpire (port tag : Nat) (s : State) : Out :=
  match (s.link (.host port)).txq.find? (fun i => i.lane == 2 && fld i.hdr 16 12 == tag) with
  | none => .next s
  | some i =>
    let s := s.advanceTo (i.at_ + 10 * Config.msCycles)
    let s := s.updLink (.host port) (fun k => { k.count (fun t => { t with requestExpired := sat32 (t.requestExpired + 1) }) with txq := k.txq.erase i })
    .next { s with sched := { s.sched with
      reads := s.sched.reads.map (fun r => if r.port == port && r.tag == tag then (match r.requester with
        | .op id => { r with requester := .unsent id }
        | _ => r) else r) } }

/-! ### Credits (R446) -/

/-- The least capacity an adapter must advertise for a class that the module sends. -/
def hostMin (cls : Nat) : Nat := match cls with
  | 1 => 129 | 6 => 46 | 7 => 3 | 2 => 1 | 5 => 1 | _ => 0

/-- What a LINK word does to a class: the capacity, the count in force, and whether it is a violation. -/
def Link.linkWord (k : Link) (cls w : Nat) : Nat × Nat × Bool :=
  let cap := nth k.capUnits cls 0
  let back := nth k.backUnits cls 0
  let sent := nth k.sentUnits cls 0
  if hostMin cls = 0 then (0, 0, false)
  else if cap = 0 then (if w < hostMin cls then (0, back, true) else (w, w, false))
  else
    let d := (w + 2 ^ 32 - back % 2 ^ 32) % 2 ^ 32
    let out := (sent + cap + 2 ^ 32 - back % 2 ^ 32) % 2 ^ 32
    if out < d then (cap, (sent + cap) % 2 ^ 32, true) else (cap, w, false)

/-- YALVO_LINK (R446, R453). -/
def execYalvoLink (port : Nat) (p : Packet) (s : State) : Out :=
  let l : LinkRef := .host port
  if !((s.link l).live && p.cls = 0) then .next s
  else
    let s := s.takePacket port p
    let k := s.link l
    let g := (List.range 8).map (fun c => if c = 0 then (0, 0, false) else k.linkWord c (leAt p.data (4 * (c - 1)) 4))
    let s := s.updLink l (fun k => { k with
      capUnits := g.map (fun x => x.1), backUnits := g.map (fun x => x.2.1), gotLink := true, partnerViol := BitVec.ofNat 16 (leAt p.data 28 2) })
    .next (if g.any (fun x => x.2.2) then s.violation l 6 else s)

/-- YALVO_LINK_SEND (R446, R453): capacities plus freed units, and the last violation. -/
def execYalvoLinkSend (port : Nat) (s : State) : Out :=
  let l : LinkRef := .host port
  let k := s.link l
  if !k.live then .next s
  else
    let word := fun c => leBytes 4 (hostCap c + (if hostCap c = 0 then 0 else nth k.freedUnits c 0))
    let bs := (List.range 7).flatMap (fun c => word (c + 1)) ++ leBytes 2 k.violCode.toNat ++ leBytes 2 k.violCount
    .next ((s.updLink l (fun k => { k with returned := k.freedUnits, lastReturn := s.now })).hostSend port 0 (packetHdr 0 32 0 0 0 0 0 0) bs)

/-- HOST_PORT_GUARDED (R454): 64 violations within 1 ms; outstanding READs complete. -/
def execHostPortGuarded (n : Nat) (s : State) : Out :=
  let l : LinkRef := .host n
  if (s.link l).state == .up && s.guardDue l then
    .next (((s.updLink l (fun k => { k with state := .guarded })).record (uidLink l 0xFF) cPortGuarded 3 0).failReads n)
  else .next s

end Sys2Proof.Machine
end

