-- ==== Sys2Proof/Machine/Units.lean ====
section
/-! DEFINITION. Units that software stops and restarts (R361, Table 13.4): fabric ports, host ports, the twin bridge, mirroring, logical cores; the
return of a reset scope to service. -/

namespace Sys2Proof.Machine

/-- The bridge leaves service: the mirrors that ran over it are lost for their open attempts (R461). -/
def State.bridgeGone (s : State) : State :=
  { s with runs := s.runs.map (fun e =>
      if e.2.openStep.isSome && !s.twin.degraded then (e.1, { e.2 with mirror := { e.2.mirror with lost := true } }) else e) }

/-- Does a link carry what its loss would end? A GUARDED fabric port carries no routed cells (R296). -/
def State.carries (s : State) (l : LinkRef) : Bool := match l with
  | .fabric _ => (s.link l).state == .up
  | _ => (s.link l).live

/-- Training starts by command (R255); a link in service is thereby lost (R259, R443). -/
def State.startTraining (s : State) (l : LinkRef) : State :=
  let was := s.carries l
  let s := s.updLink l (fun k => { k with
    wasGuarded := false, state := .training, unit := .starting, retraining := false, disabling := false, trainStart := s.now, txq := [], rx := [], wire := [] })
  let s := if was then s.linkLost l false 0 else s
  if was && l == .bridge then s.bridgeGone else s

/-- A link is DISABLED (R361, R443): READs outstanding on a host port complete, a fabric port that was UP is lost. -/
def State.disableLink (s : State) (l : LinkRef) : State :=
  let was := s.carries l
  let s := s.updLink l (fun k => { ctr := k.ctr, capUnits := laneCaps l })
  match l with
  | .fabric n => if was then s.fabricLost n 2 else s
  | .host n => s.failReads n
  | .bridge => if was then s.bridgeGone else s

/-- A retrain command (R255, R361, R442). -/
def State.retrainCmd (s : State) (l : LinkRef) : State × Code :=
  if !s.released then (s, cNotReleased)
  else match (s.link l).unit with
    | .stopping => (s.updLink l (fun k => { k with unit := .restartPending }), cOk)
    | .restartPending | .starting => (s, cUnitState)
    | .running | .stopped => (s.startTraining l, cOk)

/-- A disable command (R361, R443). -/
def State.disableCmd (s : State) (l : LinkRef) : State × Code :=
  if !s.released then (s, cNotReleased)
  else match (s.link l).unit with
    | .stopping => (s, cUnitState)
    | .restartPending => (s.updLink l (fun k => { k with unit := .stopping }), cOk)
    | .running => (s.updLink l (fun k => { k with unit := .stopping, disabling := true, disableAt := s.now }), cOk)
    | .starting | .stopped => (s.disableLink l, cOk)

/-- FABRIC_PORT_RETRAIN (R255, R296, R361). -/
def execFabricPortRetrain (q : Req) (n : Nat) (s : State) : Out :=
  .next (s.dictWrite q (0x5100 + n) 3 [1] (fun s => s.retrainCmd (.fabric n))).1

/-- FABRIC_PORT_DISABLE (R361). -/
def execFabricPortDisable (q : Req) (n : Nat) (s : State) : Out :=
  .next (s.dictWrite q (0x5100 + n) 3 [2] (fun s => s.disableCmd (.fabric n))).1

/-- HOST_PORT_RETRAIN (R442, R454). -/
def execHostPortRetrain (q : Req) (n : Nat) (s : State) : Out :=
  .next (s.dictWrite q (0x5130 + n) 2 [1] (fun s => s.retrainCmd (.host n))).1

/-- HOST_PORT_DISABLE (R443): it takes effect once the retry buffer is acknowledged. -/
def execHostPortDisable (q : Req) (n : Nat) (s : State) : Out :=
  .next (s.dictWrite q (0x5130 + n) 2 [2] (fun s => s.disableCmd (.host n))).1

/-- BRIDGE_RETRAIN (R441, R462, R465): held while a step is open. -/
def execBridgeRetrain (q : Req) (s : State) : Out :=
  .next (s.dictWrite q 0x5120 2 [1] (fun s =>
    if s.released && !s.twin.sense then (s, cUnitState)
    else if s.released && !s.openSteps.isEmpty then
      (if s.twin.heldRetrain then (s, cUnitState) else ({ s with twin := { s.twin with heldRetrain := true } }, cOk))
    else s.retrainCmd .bridge)).1

/-- BRIDGE_DISABLE (R361): it cancels a held retrain. -/
def execBridgeDisable (q : Req) (s : State) : Out :=
  .next (s.dictWrite q 0x5120 2 [2] (fun s =>
    if s.twin.heldRetrain then ({ s with twin := { s.twin with heldRetrain := false } }, cOk) else s.disableCmd .bridge)).1

/-- A held bridge retrain runs at the step boundary (R465). -/
def State.boundaryRetrain (s : State) : State :=
  if s.twin.heldRetrain && s.openSteps.isEmpty then
    { s with twin := { s.twin with heldRetrain := false } }.startTraining .bridge
  else s

/-- Mirroring runs anew: every mirror is to be seeded (R460). -/
def State.mirrorRuns (s : State) : State :=
  { s with
    twin := { s.twin with state := .running }
    runs := s.runs.map (fun e => (e.1, { e.2 with mirror := { e.2.mirror with seeded := false } })) }

/-- MIRROR_START (R361): without an accepted twin mirroring stays STOPPED (R456). -/
def execMirrorStart (q : Req) (s : State) : Out :=
  .next (s.dictWrite q 0x5120 0x26 [1] (fun s =>
    if !s.released then (s, cNotReleased)
    else match s.twin.state with
      | .stopping => ({ s with twin := { s.twin with state := .restartPending } }, cOk)
      | .stopped => if s.twin.accepted then (s.mirrorRuns, cOk) else (s, cUnitState)
      | _ => (s, cUnitState))).1

/-- MIRROR_STOP (R361). -/
def execMirrorStop (q : Req) (s : State) : Out :=
  .next (s.dictWrite q 0x5120 0x26 [0] (fun s =>
    if !s.released then (s, cNotReleased)
    else match s.twin.state with
      | .running | .starting => ({ s with twin := { s.twin with state := .stopping } }, cOk)
      | .restartPending => ({ s with twin := { s.twin with state := .stopping } }, cOk)
      | _ => (s, cUnitState))).1

/-- CORE_DRAIN_STOP (R361): a drain during an engine or partition reset is held. -/
def execCoreDrainStop (q : Req) (core : Nat) (s : State) : Out :=
  .next (s.dictWrite q (0x4000 + core) 3 [0] (fun s =>
    let k := s.core core
    if !s.released then (s, cNotReleased)
    else if k.resetting then (if k.held then (s, cUnitState) else (s.updCore core (fun k => { k with held := true }), cOk))
    else match k.state with
      | .running | .starting => (s.updCore core (fun k => { k with state := .stopping }), cOk)
      | .restartPending => (s.updCore core (fun k => { k with state := .stopping }), cOk)
      | _ => (s, cUnitState))).1

/-- CORE_DRAIN_START (R361): a restart while the core stops is held. -/
def execCoreDrainStart (q : Req) (core : Nat) (s : State) : Out :=
  .next (s.dictWrite q (0x4000 + core) 3 [1] (fun s =>
    let k := s.core core
    if !s.released then (s, cNotReleased)
    else if k.resetting then (if k.held then (s.updCore core (fun k => { k with held := false }), cOk) else (s, cUnitState))
    else match k.state with
      | .stopping => (s.updCore core (fun k => { k with state := .restartPending }), cOk)
      | .stopped => (s.updCore core (fun k => { k with state := .running }), cOk)
      | _ => (s, cUnitState))).1

/-- The end of a link's stop: DISABLED, then a held restart. -/
def State.linkStopped (s : State) (l : LinkRef) : State :=
  let again := (s.link l).unit == .restartPending
  let s := s.disableLink l
  if again then s.startTraining l else s

/-- Is a unit on its way to STOPPED? -/
def UnitState.ending (u : UnitState) : Bool := u == .stopping || u == .restartPending

/-- STOP_COMPLETES (R361, R443): the unit is STOPPED and a held restart is performed. A host port's retry buffer must be acknowledged, a core's
operators must have ended. -/
def execStopCompletes (u : StopUnit) (s : State) : Out :=
  match u with
  | .fabric n => if (s.link (.fabric n)).unit.ending then .next (s.linkStopped (.fabric n)) else .next s
  | .host n =>
    if (s.link (.host n)).unit.ending && (s.link (.host n)).retry.isEmpty then .next (s.linkStopped (.host n)) else .next s
  | .bridge => if (s.link .bridge).unit.ending then .next (s.linkStopped .bridge) else .next s
  | .mirror =>
    match s.twin.state with
    | .stopping => .next { s with twin := { s.twin with state := .stopped } }
    | .restartPending => .next (if s.twin.accepted then s.mirrorRuns else { s with twin := { s.twin with state := .stopped } })
    | _ => .next s
  | .core c =>
    let k := s.core c
    if k.state.ending && !k.resetting && (s.opsOn [c]).isEmpty then
      .next (s.updCore c (fun k => { k with state := if k.state == .restartPending then .running else .stopped }))
    else .next s

/-- HOST_PORT_DISABLE_TIMEOUT (R443): after 1 s the disable ends as a loss; the unacknowledged WRITEs are its detail. -/
def execHostPortDisableTimeout (n : Nat) (s : State) : Out :=
  let k := s.link (.host n)
  if k.unit.ending && k.disabling && !k.retry.isEmpty then
    let s := s.advanceTo (k.disableAt + Config.sCycles)
    let s := s.record (uidLink (.host n) 0xFF) cHostPortLost 3 (sumOf (k.retry.map RetryBlk.cells))
    .next (s.linkStopped (.host n))
  else .next s

/-- RESET_RETURN_TO_SERVICE (R357, R360, R361, R396): an engine's or partition's reset completes; its clocks reopen and held requests run. -/
def execResetReturnToService (scope : ResetScope) (s : State) : Out :=
  match scope with
  | .context _ => .next s
  | .engine p => match s.logicalOf p with
    | none => .next s
    | some c =>
      if (s.core c).resetting && !s.cores.partResetting.contains (p / 52) then .next ((s.advanceTo ((s.core c).tagAt.getD 0)).coreBack c)
      else .next s
  | .partition p =>
    if s.cores.partResetting.contains p then
      let s := ((List.range 50).map (· + 50 * p)).foldl State.coreBack s
      .next { s with
        cores := { s.cores with partState := NMap.set s.cores.partState p .running, partResetting := s.cores.partResetting.filter (· != p) }
        clk := { s.clk with gatedParts := s.clk.gatedParts &&& ~~~(BitVec.ofNat 16 (2 ^ p)) } }
    else .next s

end Sys2Proof.Machine
end

