-- ==== Sys2Proof/Machine/Almanac.lean ====
section
/-! DEFINITION. The Almanac of a run (R27 to R33): its header and entries, the staging window, what a replay takes from a reference, and the lineage
certificate (R475, R476). -/

namespace Sys2Proof.Machine

/-- An Almanac entry (Tables 1.6, 1.7). -/
structure AlmEntry where
  etype : Nat
  estep : Nat
  body : List Byte
deriving DecidableEq, Repr

/-- The bytes of an entry; the body is padded to 16 bytes (R28). -/
def AlmEntry.bytes (e : AlmEntry) : List Byte :=
  let b := padTo 16 e.body
  leBytes 2 e.etype ++ leBytes 2 0 ++ leBytes 4 b.length ++ leBytes 5 e.estep ++ leBytes 3 0 ++ b

/-- Read whole entries (R28, R29): none where a reserved field is nonzero, a type lies outside 1 to `top`, or a length does not fit. -/
def almEntries (top : Nat) : Nat → List Byte → Option (List AlmEntry)
  | _, [] => some []
  | 0, _ => none
  | f + 1, bs =>
    let n := leAt bs 4 4
    let t := leAt bs 0 2
    if bs.length < 16 + n || n % 16 != 0 || t = 0 || top < t || leAt bs 2 2 != 0 || leAt bs 13 3 != 0 then none
    else (almEntries top f (bs.drop (16 + n))).map (fun l => ⟨t, leAt bs 8 5, (bs.drop 16).take n⟩ :: l)

/-- The header of Table 1.5 for a run. -/
def almHeader (r : Run) : List Byte :=
  let c := r.rec_
  leBytes 2 0x414C ++ [1] ++ leBytes 1 (fld c 220 8) ++
  leBytes 4 (bit (flag c 228) + 2 * bit (flag c 229) + 4 * bit (flag c 230) + 8 * bit (flag c 231)) ++
  leBytes 16 (fld c 0 128) ++ leBytes 16 r.refRunId.toNat ++ leBytes 8 (fld c 128 64) ++
  leBytes 13 (fld c 192 21 + fld c 296 40 * 2 ^ 48 + fld c 232 16 * 2 ^ 88) ++ leBytes 195 0

/-- Does an Almanac keep the framing of Tables 1.5 and 1.6 (R31)? -/
def almFraming (bs : List Byte) : Bool :=
  decide (256 ≤ bs.length) && leAt bs 0 2 == 0x414C && leAt bs 2 1 == 1 && leAt bs 4 4 / 16 == 0 && bitsOf (leAt bs 48 8) 21 27 == 0 &&
  leAt bs 61 195 == 0 && (almEntries 8 (bs.length / 16) (bs.drop 256)).isSome

/-! ### Appending (R30) -/

/-- The Almanac staging area (Table 7.3). -/
def almArea : Nat := 0x10000000

/-- The head of a window leaves: at most its oldest part. -/
def Run.almDrop (r : Run) (excess : Nat) : Run := match r.almParts with
  | [] => r
  | (t, n) :: ps =>
    let k := min excess n
    { r with almBase := r.almBase + k, almWindow := r.almWindow.drop k, almParts := if n ≤ k then ps else (t, n - k) :: ps }

/-- When the area is full, the oldest staged bytes of any run leave first. -/
def State.almTrim : Nat → State → State
  | 0, s => s
  | f + 1, s =>
    let total := sumOf (s.runs.map (fun e => e.2.almWindow.length))
    let oldest := s.runs.foldl (fun (b : Option (Nat × Nat)) e => match e.2.almParts, b with
      | (t, _) :: _, none => some (t, e.1)
      | (t, _) :: _, some (u, k) => if t < u then some (t, e.1) else some (u, k)
      | [], _ => b) none
    match oldest with
    | none => s
    | some (_, slot) => if total ≤ almArea then s else almTrim f (s.updRun slot (fun r => r.almDrop (total - almArea)))

/-- Append bytes to a run's Almanac. -/
def State.almAppend (s : State) (slot : Nat) (bs : List Byte) : State :=
  let s := s.updRun slot (fun r => { r with
    sha := r.sha.absorb bs, almWindow := r.almWindow ++ bs, almParts := r.almParts ++ [(s.now, bs.length)] })
  s.almTrim (sumOf (s.runs.map (fun e => e.2.almParts.length)))

/-- Append an entry. -/
def State.almEntry (s : State) (slot : Nat) (e : AlmEntry) : State := s.almAppend slot e.bytes

/-! ### Scale-state records in entries -/

/-- A record's bytes: its header, then its codes padded to 16 bytes (Table 1.7). -/
def ScaleRec.bytes (r : ScaleRec) : List Byte := leBytes 16 r.header.toNat ++ padTo 16 r.codes
def ScaleRec.tid (r : ScaleRec) : Nat := fld r.header 0 32

/-- Records in increasing tensor ID; one tensor has one record. -/
def putRec : List ScaleRec → ScaleRec → List ScaleRec
  | [], r => [r]
  | a :: l, r => if r.tid < a.tid then r :: a :: l else if r.tid = a.tid then r :: l else a :: putRec l r

/-- Read `n` records from a body. -/
def recsOf : Nat → List Byte → List ScaleRec
  | 0, _ => []
  | n + 1, bs =>
    let k := leAt bs 12 4
    ⟨BitVec.ofNat 128 (leAt bs 0 16), fitBytes k (bs.drop 16)⟩ :: recsOf n (bs.drop (16 + cdiv k 16 * 16))

/-- A CALIBRATION entry (Table 1.7). -/
def calibEntry (step : Nat) (recalib : Bool) (l : List ScaleRec) : AlmEntry :=
  ⟨5, step, leBytes 16 (bit recalib + l.length * 2 ^ 8) ++ (l.map ScaleRec.bytes).flatten⟩

/-- A CHECKPOINT entry (Table 1.7). -/
def ckptEntry (k : Ckpt) : AlmEntry := ⟨6, k.step, digestBytes k.digest ++ leBytes 16 k.records.length ++ (k.records.map ScaleRec.bytes).flatten⟩

/-- A RESTORE entry. -/
def restoreEntry (step : Nat) (loaded : Bool) : AlmEntry := ⟨8, step, leBytes 16 (step % 2 ^ 40 + bit loaded * 2 ^ 40)⟩

/-- A SUPERSEDED entry. -/
def supersededEntry (c first last : Nat) : AlmEntry := ⟨7, c, leBytes 8 first ++ leBytes 8 last⟩

/-! ### What is taken from a reference (R31) -/

/-- The entries of the run's reference. -/
def Run.refEntries (r : Run) : List AlmEntry := match r.refAlmanac with
  | none => []
  | some bs => (almEntries 8 (bs.length / 16) (bs.drop 256)).getD []

/-- The last committed step of an Almanac: its start step, moved by the STEP, SUPERSEDED and RESTORE entries in order. -/
def refLast (hdr : List Byte) (l : List AlmEntry) : Nat :=
  l.foldl (fun a e => if e.etype = 4 || e.etype = 7 || e.etype = 8 then e.estep else a) (bitsOf (leAt hdr 48 16) 48 40)

/-- The step record recorded for a step: the last STEP entry that no later SUPERSEDED entry covers (R18). -/
def refStep (l : List AlmEntry) (step : Nat) : Option (BitVec 1024) :=
  l.foldl (fun a e =>
    if e.etype = 4 && e.estep = step then some (BitVec.ofNat 1024 (leAt e.body 0 128))
    else if e.etype = 7 && leAt e.body 0 5 ≤ step && step ≤ leAt e.body 8 5 then none
    else a) none

/-- The CHECKPOINT entry of a step; the last one holds. -/
def refCkpt (l : List AlmEntry) (step : Nat) : Option Ckpt :=
  l.foldl (fun a e => if e.etype = 6 && e.estep = step then some ⟨step, digestOf (e.body.take 64), recsOf (leAt e.body 64 4) (e.body.drop 80)⟩ else a) none

/-- The records a CALIBRATION entry of a step holds. -/
def refCalib (l : List AlmEntry) (step : Nat) : Option (List ScaleRec) :=
  l.foldl (fun a e => if e.etype = 5 && e.estep = step then some (recsOf (leAt e.body 1 4) (e.body.drop 16)) else a) none

/-- The calibration steps that entries tell of. -/
def calibStepsOf (l : List AlmEntry) : List Nat := dedup ((l.filter (fun e => e.etype == 5)).map AlmEntry.estep)

/-- The records that a replay takes for a calibration step that its reference holds (R21, R98). -/
def Run.recorded (r : Run) (n : Nat) : Option (List ScaleRec) :=
  if !r.replay then none
  else match refStep r.refEntries n with
    | some o => if flag o 44 || flag o 45 then refCalib r.refEntries n else none
    | none => none

/-- Is there a break at or before a step without a calibration event (Table 1.3)? -/
def refBreakLost (l : List AlmEntry) (start : Nat) : Bool :=
  l.any (fun e => e.etype == 4 && decide (e.estep ≤ start) && bitsOf (leAt e.body 0 8) 46 1 == 1 && (refCalib l e.estep).isNone)

/-- Does the reference record a kernel's hash (R16)? -/
def refKernel (l : List AlmEntry) (h : Digest) : Bool :=
  l.any (fun e => e.etype == 1 && (chunks 64 (e.body.length / 64) (e.body.drop 64)).contains (digestBytes h))

/-- The opening checks of Table 1.3 (R17). -/
def replayCode (bs : List Byte) (start : Nat) : Code :=
  let l := (almEntries 8 (bs.length / 16) (bs.drop 256)).getD []
  if leAt bs 3 1 != Config.numericsLevel then cRunNumericsLevel
  else if refLast bs l < start then cRunBeyondLineage
  else if (refCkpt l start).isNone then cRunNoScaleSnapshot
  else if refBreakLost l start then cRunNoCalibration
  else cOk

/-- The checkpoint a run verifies step C against: from the reference when one has been written, else from its own Almanac (R33). -/
def Run.ckptOf (r : Run) (c : Nat) : Option Ckpt :=
  if r.refAlmanac.isSome then refCkpt r.refEntries c else r.ckpts.foldl (fun a k => if k.step = c then some k else a) none

/-! ### Lineage certificates (R475, R476) -/

/-- Does the run commit without the twin's acknowledgement (R318, R375)? -/
def Run.noTwin (r : Run) : Bool := !r.twinRequired || r.compatInterval != 0

/-- Checkpoints by rising step. -/
def putCkpt : List Ckpt → Ckpt → List Ckpt
  | [], k => [k]
  | a :: l, k => if k.step < a.step then k :: a :: l else a :: putCkpt l k

/-- The certificate of a run without its signature (Table 18.4). -/
def State.certBody (s : State) (slot : Nat) (closed : Bool) : List Byte :=
  let r := s.run slot
  let ks := r.ckpts.foldl putCkpt []
  leBytes 2 0x4C43 ++ [1] ++ leBytes 1 (fld r.rec_ 220 8) ++
  leBytes 4 (bit r.replay + 2 * bit (!r.breaks.isEmpty) + 4 * bit closed + 8 * bit (r.noTwin && r.committedAny)) ++ s.serialBytes ++
  leBytes 16 (fld r.rec_ 0 128) ++ leBytes 16 r.refRunId.toNat ++ leBytes 8 r.startStep ++ leBytes 8 r.lastCommitted ++
  digestBytes r.sha.digest ++ digestBytes r.chain ++ digestBytes s.boot.mFirmware ++ fitBytes 64 s.boot.fwVersion ++
  leBytes 4 ks.length ++ leBytes 4 r.breaks.length ++ leBytes 8 s.boot.reportSeq ++
  (ks.map (fun k => leBytes 8 k.step ++ digestBytes k.digest)).flatten ++ (r.breaks.map (leBytes 8)).flatten ++
  s.attPub ++ s.transPub ++ leBytes 6 0 ++ s.endorsement ++ leBytes 4 0

/-- Issue a run's certificate. -/
def State.issueCert (s : State) (slot : Nat) (closed : Bool) : State :=
  let body := s.certBody slot closed
  let c := body ++ signBytes s.free (s.scalar infoAttest) body
  { s with boot := { s.boot with reportSeq := s.boot.reportSeq + 1 }, free := s.free + 1 }.updRun slot (fun r =>
    { r with lineageCert := c, lineageHeld := false })

end Sys2Proof.Machine
end

