-- ==== Sys2Proof/Machine/Checksum.lean ====
section
/-! DEFINITION. The dot array's passes as they run on a core (R109, R123), the sums that the turner forms of a stationary block (R119), the residues of the
cells (R108) and the comparison of the checksum column (R120), the output stage's accumulators (R110). -/

namespace Sys2Proof.Machine

/-! ### Elements as fixed-point integers -/

/-- An element of an operand as the array holds it: format, code, the block scale or exponent that belongs to it. -/
structure ArrElem where
  fmt : Nat
  code : Nat
  entry : Nat
deriving DecidableEq, Repr

def ArrElem.val (e : ArrElem) : Val := elemVal e.fmt e.code e.entry 0

/-- The unit exponent of an element (Table 3.1): that of the format's least magnitude, with the block's scale. -/
def ArrElem.unit (e : ArrElem) : Int :=
  if e.fmt = fmtMxInt8 then (e.entry : Int) - 133
  else if e.fmt = fmtB16 then (e.entry : Int) - 141
  else match ffOf e.fmt with
    | some f => 1 - f.bias - f.mb + (if isMx e.fmt then (e.entry : Int) - 127 else 0)
    | none => 0

/-- The element in units of 2^u; non-finite elements count as 0. -/
def ArrElem.intAt (e : ArrElem) (u : Int) : Int := match e.val with
  | .fin neg m x => alignTo (sgnM neg m) x u
  | _ => 0

/-- The least unit exponent of the finite elements of a list (of none: 0). -/
def leastUnit (l : List ArrElem) : Int := match (l.filter (fun e => e.val.isFin)).map ArrElem.unit with
  | [] => 0
  | u :: r => r.foldl min u

/-! ### Arithmetic modulo 2^64 − 1 -/

/-- The modulus M of the checksum column. -/
def chkM : Int := 2 ^ 64 - 1
/-- A residue. -/
def modM (z : Int) : Int := z % chkM
/-- Multiplication by 2^k, a left rotation by k mod 64 bits. -/
def rotM (z : Int) (k : Nat) : Int := modM (z * (2 : Int) ^ (k % 64))
/-- A sum of residues. -/
def sumM (l : List Int) : Int := l.foldl (fun a z => modM (a + z)) 0

/-! ### The sums of a block (R119) -/

/-- Rows to columns, of rows of one length. -/
def turned (n : Nat) (l : List (List ArrElem)) : List (List ArrElem) :=
  (List.range n).map (fun c => l.map (fun r => nth r c ⟨0, 0, 0⟩))

/-- A stationary block W[k, c] as its K positions' rows. -/
abbrev StatBlock := List (List ArrElem)

def StatBlock.width (b : StatBlock) : Nat := (b.map List.length).foldl max 0
/-- w0: the least unit exponent of the block's elements. -/
def StatBlock.w0 (b : StatBlock) : Int := leastUnit b.flatten
/-- C[k]: the row sums. -/
def StatBlock.rowSums (b : StatBlock) : List Int := let u := b.w0; b.map (fun r => sumM (r.map (fun e => e.intAt u)))
/-- D[c]: the column sums. -/
def StatBlock.colSums (b : StatBlock) : List Int := let u := b.w0; (turned b.width b).map (fun r => sumM (r.map (fun e => e.intAt u)))

/-! ### The cells (R108) -/

/-- What the cells of a column hand on: the grid partial, the residue, the non-finite bit, the counts. -/
structure CellOut where
  s : Int := 0
  res : Int := 0
  nf : Bool := false
  flushed : Nat := 0
  clamped : Nat := 0
deriving DecidableEq, Repr

/-- One product (R108): its operands as integers in units of 2^a0 and 2^w0, placed on the grid at `g`; the residue in units of 2^v. -/
def cellStep (a0 w0 g v : Int) (masked : Bool) (o : CellOut) (q : ArrElem × ArrElem) : CellOut :=
  if !(q.1.val.isFin && q.2.val.isFin) then { o with nf := o.nf || !masked }
  else
    let u := a0 + w0
    let p := q.1.intAt a0 * q.2.intAt w0
    let z := if g ≤ u then p * (2 : Int) ^ (u - g).toNat else Int.tdiv p ((2 : Int) ^ (g - u).toNat)
    let lim : Int := 2 ^ 103 - 1
    let big := decide (lim < z ∨ z < -lim)
    let w := if big then (if p < 0 then -lim else lim) else z
    let lost := !big && decide (u < g) && w * (2 : Int) ^ (g - u).toNat != p
    { s := o.s + w
      res := modM (o.res + p * (2 : Int) ^ (u - v).toNat - w * (2 : Int) ^ (g - v).toNat)
      nf := o.nf
      flushed := o.flushed + (if lost && !masked then 1 else 0)
      clamped := o.clamped + (if big && !masked then 1 else 0) }

/-- The products of one output. -/
def cellSum (a0 w0 g v : Int) (masked : Bool) (l : List (ArrElem × ArrElem)) : CellOut := l.foldl (cellStep a0 w0 g v masked) {}

/-! ### The comparison (R120) -/

/-- Both sides of the comparison of one row through a block: in normal reading the row's elements meet the K positions, in transposed reading the columns. -/
def checkRow (g : Int) (trans : Bool) (b : StatBlock) (row : List ArrElem) (masked : Bool) : Int × Int :=
  let w0 := b.w0
  let a0 := leastUnit row
  let v := min g (a0 + w0)
  let outs := if trans then b else turned b.width b
  let chk := outs.map (fun o => let r := cellSum a0 w0 g v masked (row.zip o); modM (rotM (modM r.s) (g - v).toNat + r.res))
  let z := sumM ((row.zip (if trans then b.colSums else b.rowSums)).map (fun q => modM (q.1.intAt a0 * q.2)))
  (sumM chk, rotM z (a0 + w0 - v).toNat)

/-! ### The passes of an operator -/

/-- One phase of an operator on the array: its plan, grid floor, K positions of a block, reduction length and column count, the streaming element of a row and
a reduction index, the stationary element of a batch, a column and a reduction index. -/
structure ArrPhase where
  plan : Plan
  floor : Int
  kb : Nat
  red : Nat
  cols : Nat
  masked : Nat → Bool
  xAt : Nat → Nat → ArrElem
  wAt : Nat → Nat → Nat → ArrElem

/-- Transposed reading? -/
def ArrPhase.trans (p : ArrPhase) : Bool := p.plan.rho == 2
/-- The indices of a block of `w` among `n`. -/
def spanOf (w n k : Nat) : List Nat := (List.range (min w (n - w * k))).map (· + w * k)
/-- The output columns of tile `t`. -/
def ArrPhase.colsOf (p : ArrPhase) (t : Nat) : List Nat := spanOf p.plan.width p.cols (t % p.plan.outs)
/-- The reduction indices of stationary block `b`. -/
def ArrPhase.redOf (p : ArrPhase) (b : Nat) : List Nat := spanOf (if p.trans then 32 else p.kb) p.red b
/-- Stationary block `b` of tile `t`, by K position. -/
def ArrPhase.block (p : ArrPhase) (t b : Nat) : StatBlock :=
  let n := t / p.plan.outs / p.plan.groups
  if p.trans then (p.colsOf t).map (fun k => (p.redOf b).map (fun c => p.wAt n k c))
  else (p.redOf b).map (fun k => (p.colsOf t).map (fun c => p.wAt n c k))
/-- The streaming row that is row `r` of tile `t`. -/
def ArrPhase.rowNo (p : ArrPhase) (t r : Nat) : Nat := t / p.plan.outs / p.plan.groups * p.plan.m + t / p.plan.outs % p.plan.groups * p.plan.rmax + r
/-- The elements of that row that meet block `b`. -/
def ArrPhase.row (p : ArrPhase) (t b r : Nat) : List ArrElem := (p.redOf b).map (p.xAt (p.rowNo t r))
/-- The first block of part `j`. -/
def Plan.firstBlk (p : Plan) (j : Nat) : Nat := p.nblk / p.sp * j + min j (p.nblk % p.sp)

/-- An element of an operand of a class 0x01xx operator. A zero that is fed has the operand's format and a neutral scale. -/
def arrElem (x : MathCtx) (t : TDesc) : Option Nat → ArrElem
  | some i => ⟨t.fmt, t.code x.rd i, t.entry x.rd i⟩
  | none => ⟨t.fmt, 0, 127⟩

/-- The output element of a streaming row and a column. -/
def elemAt (x : MathCtx) (row col : Nat) : Nat :=
  let o := x.out 0
  match x.d.opcode with
  | 0x0102 => row + o.dim 0 * col
  | 0x010A => row + o.dim 0 * o.dim 1 * o.dim 2 * col
  | _ => col + o.dim 0 * row

/-- The phase of a class 0x01xx operator. -/
def arrPhase (x : MathCtx) : ArrPhase :=
  let o := x.out 0
  let p := arrPlan x
  let cols := match x.d.opcode with
    | 0x0102 => o.dim 1
    | 0x010A => o.dim 3
    | _ => o.dim 0
  let at_ := fun (row col k : Nat) => nth (arrIdx x (elemAt x row col)) k (none, none)
  { plan := p, floor := x.d.floor, kb := kBlock (x.inp 0).fmt, red := arrK x, cols := cols, masked := x.masked
    xAt := fun row k => arrElem x (x.inp 0) (at_ row 0 k).1
    wAt := fun b col k => arrElem x (x.inp 1) (at_ (b * p.m) col k).2 }

/-- Element (j, row, batch) of a three-dimensional tensor. -/
def elem3 (x : MathCtx) (t : TDesc) (j r b : Nat) : ArrElem := let i := j + t.dim 0 * (r + t.dim 1 * b); ⟨t.fmt, t.code x.rd i, t.entry x.rd i⟩

/-- An internal element of an attention operator: the code that belongs to a visible key, 0 elsewhere. -/
def keyElem (f : Nat) (vis codes : List Nat) (t : Nat) : ArrElem := match (vis.zip codes).find? (fun p => p.1 == t) with
  | some p => ⟨f, p.2, 127⟩
  | none => ⟨f, 0, 127⟩

/-- The phases of a class 0x02xx operator (R206), in order. -/
def attnPhases (x : MathCtx) : List ArrPhase :=
  let q := x.inp 0
  let k := x.inp 1
  let v := x.inp 2
  let a := attnArgs x.d
  let lq := q.dim 1
  let lk := k.dim 1
  let dd := q.dim 0
  let kb := kBlock q.fmt
  let dots (g : Int) (u w : TDesc) : ArrPhase :=
    ⟨attnPlan x lq lk dd, g, kb, dd, lk, x.masked, fun r j => elem3 x u j (r % lq) (r / lq), fun b n j => elem3 x w j n b⟩
  let keys (g : Int) (w : TDesc) (f : Nat → Nat → ArrElem) : ArrPhase :=
    ⟨attnPlan x lq dd lk, g, kb, lk, dd, x.masked, f, fun b n t => elem3 x w n t b⟩
  let rows (g : Int) (w : TDesc) (f : Nat → Nat → ArrElem) : ArrPhase :=
    ⟨attnPlan x lk dd lq, g, kb, lq, dd, fun _ => false, f, fun b n i => elem3 x w n i b⟩
  if x.d.opcode = 0x0200 then
    [dots x.d.floor q k, dots x.d.floor q k,
     keys a.gpv v (fun r t => let w := attnRow x (r / lq) (r % lq); keyElem a.ifmt w.vis (w.pw.map BitVec.toNat) t)]
  else
    let live := fun (b i : Nat) (e : ArrElem) => if x.masked (b * lq + i) then { e with code := 0 } else e
    [dots x.d.floor q k, dots x.d.floor q k, dots a.gpv (x.inp 4) v,
     keys a.gds k (fun r t => let w := attnBRow x (r / lq) (r % lq); keyElem a.ifmt w.row.vis w.dsc t),
     rows a.gds q (fun r i => let w := attnBRow x (r / lk) i; live (r / lk) i (keyElem a.ifmt w.row.vis w.dsc (r % lk))),
     rows a.gpv (x.inp 4) (fun r i => let w := attnBRow x (r / lk) i; live (r / lk) i (keyElem a.ifmt w.row.vis w.pnc (r % lk)))]

/-- The phases of an operator on the array. -/
def phasesOf (x : MathCtx) : List ArrPhase := match x.d.cls with
  | 1 => [arrPhase x]
  | 2 => attnPhases x
  | _ => []

/-- The tiles of core `i`, in order: phase and part (R202, R206). -/
def tilesOf (x : MathCtx) (i : Nat) : List (ArrPhase × Nat) :=
  (phasesOf x).flatMap (fun p => (p.plan.partsOf (max x.cores 1) i).map (fun u => (p, u)))

/-- Pass number `q` of part `u` of a phase: stationary block, and the counts of its unmasked rows. -/
def ArrPhase.passAt (p : ArrPhase) (core at_ stall u q : Nat) : ArrPass :=
  let t := u / p.plan.sp
  let b := p.plan.firstBlk (u % p.plan.sp) + q
  let n := p.plan.rowsOf t
  let ms := (List.range n).filter (fun r => p.masked (p.rowNo t r))
  let blk := p.block t b
  let outs := if p.trans then blk else turned blk.width blk
  let sums := ((List.range n).filter (fun r => !ms.contains r)).flatMap (fun r =>
    outs.map (fun o => gridSum p.floor (((p.row t b r).zip o).map (fun e => Val.mul e.1.val e.2.val))))
  ⟨core, at_, stall, p.plan.rho, n, ms, sumOf (sums.map (·.flushed)), sumOf (sums.map (·.clamped))⟩

/-- The passes of one tile from cycle `t0` (R123), and the cycle after its last row's write. The first tile of a core waits for its first load. -/
def ArrPhase.tilePasses (p : ArrPhase) (core t0 u : Nat) (first : Bool) : List ArrPass × Nat :=
  let rows := p.plan.rho * p.plan.rowsOf (u / p.plan.sp)
  let a := max rows 256
  let l := if first then 256 else 0
  let n := p.plan.nb (u % p.plan.sp)
  ((List.range n).map (fun q => p.passAt core (t0 + l + q * a) (if q = 0 then l else 256 - rows) u q),
    t0 + l + (n - 1) * a + p.plan.rho * (p.plan.rowsOf (u / p.plan.sp) - 1) + (if p.plan.rho = 1 then 72 else 76))

/-- The passes of core `i` in a phase that begins at cycle `t0`. -/
def ArrPhase.corePasses (p : ArrPhase) (c t0 i : Nat) : List ArrPass :=
  ((p.plan.partsOf c i).foldl (fun (acc : List ArrPass × Nat × Bool) u =>
    let r := p.tilePasses i acc.2.1 u acc.2.2
    (acc.1 ++ r.1, r.2, false)) ([], t0, true)).1

/-- The passes of an operator on all cores of its set, by core index. The phases of an attention operator do not overlap (R206). -/
def passesOf (x : MathCtx) : List ArrPass :=
  let c := max x.cores 1
  ((phasesOf x).foldl (fun (acc : List ArrPass × Nat) p =>
    (acc.1 ++ (List.range (min c (p.plan.tiles * p.plan.sp))).flatMap (p.corePasses c acc.2), acc.2 + p.plan.tBody c)) ([], 0)).1

/-! ### A row's comparison and its capture (R120, R335) -/

/-- The bytes of a list of elements of one format. -/
def packElems (l : List ArrElem) : List Byte := packCodes (elemBits ((l.head?.map ArrElem.fmt).getD 0)) (l.map ArrElem.code)
/-- The block scales of a list of elements along K, one per block of 32. -/
def scalesAlong (l : List ArrElem) : List Byte :=
  (List.range (cdiv l.length 32)).map (fun q => BitVec.ofNat 8 (nth l (32 * q) ⟨0, 0, 0⟩).entry)

/-- A row of a pass as the checksum column sees it: both sides of its comparison, and what a capture holds of it. -/
structure RowCheck where
  lhs : Int := 0
  rhs : Int := 0
  held : CapturedRow := {}
deriving DecidableEq, Repr

/-- Row `r` of pass `q` of tile number `k` of core `i`; none where there is no such row. -/
def rowCheck (x : MathCtx) (i k q r : Nat) : Option RowCheck := match (tilesOf x i)[k]? with
  | none => none
  | some (p, u) =>
    let t := u / p.plan.sp
    if p.plan.nb (u % p.plan.sp) ≤ q || p.plan.rowsOf t ≤ r then none
    else
      let b := p.plan.firstBlk (u % p.plan.sp) + q
      let blk := p.block t b
      let row := p.row t b r
      let m := p.masked (p.rowNo t r)
      let c := checkRow p.floor p.trans blk row m
      some ⟨c.1, c.2, ⟨packElems blk.flatten, (turned blk.width blk).flatMap scalesAlong, packElems row, scalesAlong row,
        (row.head?.map ArrElem.fmt).getD 0, (blk.flatten.head?.map ArrElem.fmt).getD 0, p.trans, p.floor, m⟩⟩

/-! ### What a core's array holds after an operator -/

/-- The accumulators of a part: the grid partials of its rows and columns, the marker for a non-finite one (R66, R110). -/
def ArrPhase.accs (p : ArrPhase) (u : Nat) : List (BitVec 128) :=
  let t := u / p.plan.sp
  let ks := (List.range (p.plan.nb (u % p.plan.sp))).flatMap (fun q => p.redOf (p.plan.firstBlk (u % p.plan.sp) + q))
  (List.range (p.plan.rowsOf t)).flatMap (fun r => (p.colsOf t).map (fun c =>
    BitVec.ofNat 128 (gridSum p.floor (ks.map (fun k =>
      Val.mul (p.xAt (p.rowNo t r) k).val (p.wAt (t / p.plan.outs / p.plan.groups) c k).val))).g128))

/-- The registers of a core's array that its last block left, and the accumulators of its last part. -/
def ArrPhase.regs (p : ArrPhase) (u : Nat) : ArrayRegs :=
  let b := p.block (u / p.plan.sp) (p.plan.firstBlk (u % p.plan.sp) + (p.plan.nb (u % p.plan.sp) - 1))
  { w0 := b.w0, csum := b.rowSums.map (BitVec.ofInt 64), dsum := b.colSums.map (BitVec.ofInt 64), acc := p.accs u }

/-- The array registers of every core that took part. -/
def regsOf (x : MathCtx) : List (Nat × ArrayRegs) :=
  (List.range (max x.cores 1)).filterMap (fun i => (tilesOf x i).getLast?.map (fun t => (i, t.1.regs t.2)))

end Sys2Proof.Machine
end

