-- ==== Sys2Proof/Machine/Env.lean ====
section
/-! DEFINITION. What the arithmetic of an operator sees of the state: its planes, its run's seed and step, its core count. -/

namespace Sys2Proof.Machine

/-- The run of a context. -/
def State.runOf (s : State) (c : Nat) : Run := s.run (s.ctx c).runSlot

/-- The arithmetic context of an operator. -/
def State.mathCtx (s : State) (e : OpEntry) : MathCtx :=
  let r := s.runOf e.ctx
  { d := e.d, ts := e.ts, rd := s.rdOf e.ctx e.staged, seed := r.seed, calib := r.openStep.isSome && r.calibrate, cores := e.coreCount }

end Sys2Proof.Machine
end

