-- ==== Sys2Proof/Machine/Image.lean ====
section
/-! DEFINITION. Groups and trees (R270, R271, R303), packed images (R262), bank pairs and state tensors (R316, R500), block digests (R320) and the
state sum of a checkpoint (R32). -/

namespace Sys2Proof.Machine

/-! ### Groups -/

abbrev GroupE := BitVec 128
def GroupE.valid (e : GroupE) : Bool := flag e 127
def GroupE.size (e : GroupE) : Nat := fld e 18 19 * fld e 55 19
def GroupE.calib (e : GroupE) : Bool := flag e 92
def GroupE.slot (e : GroupE) : Nat := fld e 93 16
/-- The rank of member `j` (R270). -/
def GroupE.rank (e : GroupE) (j : Nat) : Nat := (fld e 0 18 + fld e 37 18 * (j % fld e 18 19) + fld e 74 18 * (j / fld e 18 19)) % 2 ^ 18

def State.groupE (s : State) (g : Nat) : GroupE := NMap.getD s.links.groups g 0

/-- The module's member index: the j whose rank is the module's own rank (R271). -/
def State.myIdx (s : State) (g : Nat) : Option Nat :=
  let e := s.groupE g
  if e.valid then (List.range e.size).find? (fun j => s.isOwnRank (e.rank j)) else none

/-- The member index of a rank. -/
def State.idxOf (s : State) (g r : Nat) : Option Nat :=
  let e := s.groupE g
  if e.valid then (List.range e.size).find? (fun j => e.rank j == r) else none

/-- The parent of member `j ≥ 1` (R303). -/
def treeParent (j : Nat) : Nat := (j - 1) / 8
/-- The children of member `j` in a tree of `g` members. -/
def treeChildren (g j : Nat) : List Nat := ((List.range 8).map (fun i => 8 * j + 1 + i)).filter (fun c => decide (c < g))
/-- The level of member `j` below the root. -/
def treeLevel : Nat → Nat → Nat
  | 0, _ => 0
  | f + 1, j => if j = 0 then 0 else 1 + treeLevel f (treeParent j)
/-- The depth of a tree: the least d with (8^(d+1) − 1) / 7 ≥ g (R303). -/
def treeDepth (g : Nat) : Nat := ((List.range 7).find? (fun d => decide (g ≤ (8 ^ (d + 1) - 1) / 7))).getD 7

/-- The run's group on this module: its entry, size and own member index. -/
def State.runMe (s : State) (slot : Nat) : Option Nat := s.myIdx (s.run slot).group
/-- The module's rank in a run; 0 where it has none. -/
def State.runRank (s : State) (slot : Nat) : Nat := match s.runMe slot with
  | some j => (s.groupE (s.run slot).group).rank j
  | none => 0

/-- The open run whose run group is `g`. -/
def State.runByGroup (s : State) (g : Nat) : Option Nat := s.openRuns.find? (fun k => (s.run k).group == g)

/-- The generation tag of cells that a run's step context sends. -/
def State.runGen (s : State) (slot : Nat) : Nat := (s.ctx (s.run slot).stepContext).gen.toNat

/-- The `step` and `attempt` of a run's cells (R280). -/
def Run.tagStep (r : Run) : Nat := r.openStep.getD noStep
def Run.tagAttempt (r : Run) : Nat := if r.openStep.isSome then r.attempt else 0

/-! ### Packed images (R262) -/

/-- The length of the dense element plane. -/
def TDesc.denseLen (t : TDesc) : Nat := if isXB t.fmt then cdiv t.count 256 * 256 * (elemBits t.fmt / 8) else t.rows * t.rowBytes

/-- Bytes of a region from an offset. -/
def rdBytes (rd : Rd) (reg off n : Nat) : List Byte := (List.range n).map (fun i => rd reg (off + i))

/-- The element plane, dense. -/
def TDesc.elemDense (t : TDesc) (rd : Rd) : List Byte :=
  if t.dense then rdBytes rd t.eReg t.eOff t.denseLen
  else fitBytes t.denseLen ((List.range t.rows).flatMap (fun r => rdBytes rd t.eReg (t.eOff + t.rowOff r) t.rowBytes))

/-- The packed image: element, block and auxiliary plane, each padded to 32 bytes. -/
def TDesc.image (t : TDesc) (rd : Rd) (scale : Bool) : List Byte :=
  padTo 32 (t.elemDense rd) ++ padTo 32 (rdBytes rd t.bReg t.bOff (t.blockBytes scale)) ++ padTo 32 (rdBytes rd t.xReg t.xOff t.auxBytes)

/-- Round a length up to 32 bytes. -/
def up32 (n : Nat) : Nat := cdiv n 32 * 32

/-- The length of the packed image. -/
def TDesc.imageLen (t : TDesc) (scale : Bool) : Nat := up32 t.denseLen + up32 (t.blockBytes scale) + up32 t.auxBytes

/-- The writes that place a packed image. -/
def TDesc.imageWrites (t : TDesc) (scale : Bool) (bs : List Byte) : List PlaneW :=
  let e := bs.take t.denseLen
  let b := (bs.drop (up32 t.denseLen)).take (t.blockBytes scale)
  let x := (bs.drop (up32 t.denseLen + up32 (t.blockBytes scale))).take t.auxBytes
  (if t.dense then [⟨t.eReg, t.eOff, e⟩]
   else (List.range t.rows).map (fun r => ⟨t.eReg, t.eOff + t.rowOff r, (e.drop (r * t.rowBytes)).take t.rowBytes⟩)) ++
  [⟨t.bReg, t.bOff, b⟩, ⟨t.xReg, t.xOff, x⟩]

/-- The segments of an image: number and bytes. -/
def segmentsOf (bs : List Byte) : List (Nat × List Byte) :=
  let l := chunks 512 (bs.length / 512 + 1) bs
  (List.range l.length).zip l

/-- A reader over an image instead of memory: the tensor's planes in regions 0, 1 and 2 at offset 0, dense. -/
def TDesc.overImage (t : TDesc) (base : Nat) : TDesc :=
  let t := setFld (setFld t 448 32 0) 480 32 0
  setFld (setFld (setFld (setFld (setFld (setFld t 256 6 base) 272 48 0) 320 6 (base + 1)) 336 48 0) 384 6 (base + 2)) 400 48 0

/-- The three planes of an image. -/
def TDesc.planesOf (t : TDesc) (scale : Bool) (bs : List Byte) : List (List Byte) :=
  [bs.take t.denseLen, (bs.drop (up32 t.denseLen)).take (t.blockBytes scale),
    (bs.drop (up32 t.denseLen + up32 (t.blockBytes scale))).take t.auxBytes]

/-- A plane reader over lists of bytes by region number. -/
def rdLists (l : List (List Byte)) : Rd := fun reg off => nth (nth l reg []) off 0

/-! ### Bank pairs (R316) and state tensors (R500) -/

abbrev BankPair := BitVec 64
def BankPair.ctx (p : BankPair) : Nat := fld p 0 20
def BankPair.set0 (p : BankPair) : Nat := fld p 20 6
def BankPair.set1 (p : BankPair) : Nat := fld p 26 6
def BankPair.valid (p : BankPair) : Bool := flag p 63
/-- The region of the set with number `b`. -/
def BankPair.side (p : BankPair) (b : Bool) : Nat := if b then p.set1 else p.set0

/-- The bank pairs of a context. -/
def Run.pairsOf (r : Run) (c : Nat) : List BankPair := (NMap.vals r.bankPairs).filter (fun (p : BankPair) => p.valid && p.ctx == c)

/-- Is the region one of the A set while a step is open (R316)? -/
def Run.lockedA (r : Run) (c reg : Nat) : Bool := r.openStep.isSome && (r.pairsOf c).any (fun p => p.side r.bank == reg)
/-- Is the region one of a bank pair? -/
def Run.inPair (r : Run) (c reg : Nat) : Bool := (r.pairsOf c).any (fun p => p.set0 == reg || p.set1 == reg)

/-- A region of set 0 as the region of set `b`. -/
def Run.sideReg (r : Run) (c : Nat) (b : Bool) (reg : Nat) : Nat := match (r.pairsOf c).find? (fun p => p.set0 == reg) with
  | some p => p.side b
  | none => reg

/-- A tensor whose planes are given in set-0 regions, in set `b`. -/
def Run.sideTensor (r : Run) (c : Nat) (b : Bool) (t : TDesc) : TDesc :=
  setFld (setFld (setFld t 256 6 (r.sideReg c b t.eReg)) 320 6 (r.sideReg c b t.bReg)) 384 6 (r.sideReg c b t.xReg)

abbrev StateT := BitVec 1024
def StateT.ctx (e : StateT) : Nat := fld e 0 20
def StateT.scale (e : StateT) : Bool := flag e 20
def StateT.valid (e : StateT) : Bool := flag e 63
def StateT.desc (e : StateT) : TDesc := BitVec.ofNat 512 (fld e 512 512)

/-- The run's listed state tensors. -/
def Run.stateTs (r : Run) : List StateT := (NMap.vals r.stateTensors).filter (fun (e : StateT) => e.valid)

/-- The replica group of a tensor: a group of two or more members (R336). -/
def State.replicaOf (s : State) (r : Run) (tid : Nat) : Option Nat :=
  match (NMap.vals r.replicaTable).find? (fun (e : BitVec 64) => flag e 63 && fld e 0 32 == tid) with
  | some e => let g := fld e 32 16; if 2 ≤ (s.groupE g).size && (s.groupE g).valid then some g else none
  | none => none

/-! ### Digests (R320) -/

/-- The block digest of R320. -/
def blockDigest (t b s fl : Nat) (bytes : List Byte) : Nat :=
  leNat ((digestBytes (sha512 (leBytes 4 t ++ leBytes 4 b ++ leBytes 5 s ++ leBytes 1 fl ++ [0, 0] ++ bytes))).take 16)

/-- Sum of numbers modulo 2^128. -/
def sum128 (l : List Nat) : Nat := sumOf l % 2 ^ 128

/-- The digest sum of blocks written in step `s`. -/
def digSum (s : Nat) (l : List DigBlock) : Nat := sum128 (l.map (fun k => blockDigest k.tid k.blk s k.flags k.bytes))

/-- The blocks of a state tensor as R320 takes their bytes; a scale-state tensor's header is block 0xFFFF_FFFF. -/
def TDesc.digBlocks (t : TDesc) (rd : Rd) (scale : Bool) (fl : Nat) : List DigBlock :=
  let n := cdiv t.count 256
  let el (b : Nat) : List Byte := (((List.range (min 256 (t.count - 256 * b))).map (fun i => leBytes (elemBits t.fmt / 8) (t.code rd (i + 256 * b))))).flatten
  (List.range n).map (fun b =>
    let k := 256 * (elemBits t.fmt / 8)
    let tail := if t.fmt = fmtPair then fitBytes 256 ((List.range (min 256 (t.count - 256 * b))).map (fun i => BitVec.ofNat 8 (t.entry rd (i + 256 * b)))) else []
    ⟨t.tid, b, fl, fitBytes k (el b) ++ tail⟩) ++
  (if scale then [⟨t.tid, 0xFFFFFFFF, fl, rdBytes rd t.bReg t.bOff 16⟩] else [])

/-- The lowest member of a replica group counts its tensors (R32). -/
def State.countsState (s : State) (r : Run) (tid : Nat) : Bool := match s.replicaOf r tid with
  | none => true
  | some g => let e := s.groupE g
    match s.myIdx g with
    | none => true
    | some j => (List.range e.size).all (fun i => decide (e.rank j ≤ e.rank i))

/-- The first key slot, uncorrectable line or host failure that keeps a plane from being read (R157, R499). -/
def State.planeFault (s : State) (c : Nat) (p : Nat × Nat × Nat) : Option Code :=
  let e := (s.ctx c).region p.1
  let a := e.base + p.2.1
  if p.2.2 = 0 || isHost a then none
  else if (s.keyFor (s.ctx c) e).isNone then some cKeySlotEmpty
  else if (s.memsys.mem.badIn a p.2.2).isEmpty then none
  else some cMemoryUncorrectable

/-- The plane ranges of block `b` of a state tensor: region, offset, length (R320). -/
def TDesc.digRanges (t : TDesc) (b : Nat) : List (Nat × Nat × Nat) :=
  let n := min 256 (t.count - 256 * b)
  let w := elemBits t.fmt / 8
  if b = 0xFFFFFFFF then [(t.bReg, t.bOff, 16)]
  else (List.range n).map (fun i => (t.eReg, t.eOff + t.elemBit (i + 256 * b) / 8, w)) ++
    (if t.fmt = fmtPair then [(t.bReg, t.bOff + 256 * b, n)] else [])

/-- The state tensors that this module counts, in the set `bank` (R32). -/
def State.countedTs (s : State) (slot : Nat) : List (StateT × TDesc) :=
  let r := s.run slot
  (r.stateTs.map (fun e => (e, r.sideTensor e.ctx r.bank e.desc))).filter (fun p => s.countsState r p.2.tid)

/-- The module's part of `state_sum`, and the failure of the first counted block that cannot be read: such a block is left out (R32, R499). -/
def State.stateSum (s : State) (slot step : Nat) : Nat × Option Code :=
  (s.countedTs slot).foldl (fun a p =>
    let fault := fun (k : DigBlock) => (p.2.digRanges k.blk).findSome? (s.planeFault p.1.ctx)
    let ks := p.2.digBlocks (s.rdOf p.1.ctx []) p.1.scale 0x10
    ((a.1 + digSum step (ks.filter (fun k => (fault k).isNone))) % 2 ^ 128, a.2 <|> ks.findSome? fault)) (0, none)

/-- ckpt_digest (R32). -/
def ckptDigest (c sum : Nat) : Digest := sha512 (leBytes 8 c ++ leBytes 16 sum)

/-- Does a record hold all the codes its header counts? -/
def ScaleRec.whole (r : ScaleRec) : Bool := fld r.header 96 32 == r.codes.length

/-- The run's records from this module's own: a run of several modules has others too, which no rule brings here (free values, log entry 19). -/
def State.allRecords (s : State) (slot : Nat) (own : List ScaleRec) : List ScaleRec :=
  if (s.groupE (s.run slot).group).size ≤ 1 then own
  else (own.filter ScaleRec.whole).foldl putRec (((Config.othersRecords s.free).map (fun q => (⟨q.1, q.2⟩ : ScaleRec))).foldl putRec [])

/-- Every scale-state record of the run that the module lists, from its committed set, by rising tensor ID. -/
def State.scaleRecs (s : State) (slot : Nat) : List ScaleRec :=
  let r := s.run slot
  (r.stateTs.filter StateT.scale).foldl (fun l e =>
    let t := r.sideTensor e.ctx r.bank e.desc
    let rd := s.rdOf e.ctx []
    putRec l ⟨BitVec.ofNat 128 (rdLe rd t.bReg t.bOff 16), rdBytes rd t.eReg t.eOff t.denseLen⟩) []

/-- Is the record that the module lists for a tensor in force in step `n` (R82)? A tensor without a listed record is not judged: its record is held by
another module (R500). -/
def State.listedFits (s : State) (slot n tid : Nat) : Bool :=
  let r := s.run slot
  (r.stateTs.filter (fun e => e.scale && e.desc.tid == tid)).all (fun e =>
    let q := scaleOf (r.sideTensor e.ctx r.bank e.desc) (s.rdOf e.ctx [])
    q.usable r.calibSteps n)

/-- Is every listed record in force in step `n` (R22, R82)? -/
def State.scalesFit (s : State) (slot n : Nat) : Bool :=
  ((s.run slot).stateTs.filter StateT.scale).all (fun e => s.listedFits slot n e.desc.tid)

end Sys2Proof.Machine
end

