-- ==== Sys2Proof/Machine/Mirror.lean ====
section
/-! DEFINITION. The sender's side of twin mirroring (R456 to R461): whom a run mirrors to, the cells of its items, seeding, the readiness for STEP_CHECK.
Item 3 is a sequence of entries, each from a segment of its own: a descriptor (128 bytes) with its tensor list and its frozen mask, or a cross-shard maximum
(bytes 0 to 3 zero, [63:32] tensor ID, [95:64] the maximum as I32). Item 0 is 32 bytes: the update digest, a byte of 1 when no update is to be replayed, zeros, and
from byte 24 the step (DESIGN CHOICE, log entry 24: the spec gives the items no layout). -/

namespace Sys2Proof.Machine

/-- The twin rank of the module's own rank in a run (R369). -/
def State.twinRank (s : State) (slot : Nat) : Option Nat :=
  let e := NMap.getD (s.run slot).twinMap (s.runRank slot) 0
  if (s.runMe slot).isSome && flag e 31 then some (fld e 0 18) else none

/-- Does the twin rank's site agree with the partner's (R456)? Under degraded mirroring the partner is wherever the rank is (R374, R462). -/
def State.twinPaired (s : State) (slot : Nat) : Bool := match s.twinRank slot with
  | none => false
  | some r => s.twin.degraded || (s.twin.accepted && s.rankSite r == some (fld s.twin.site 0 20))

/-- Is the mirroring of the run RUNNING? -/
def State.mirrors (s : State) (slot : Nat) : Bool :=
  let r := s.run slot
  r.compatInterval == 0 && s.twin.state == .running && r.mirror.paired && (s.twinRank slot).isSome

def State.updMirror (s : State) (slot : Nat) (f : MirrorTx → MirrorTx) : State := s.updRun slot (fun r => { r with mirror := f r.mirror })

/-- Put a mirror cell on its way: over the bridge, or over the fabric toward the twin rank (R458, R462). -/
def State.mirrorCell (s : State) (slot : Nat) (kind high : Nat) (bs : List Byte) : State :=
  let r := s.run slot
  let c := cellOf 3 kind ((s.twinRank slot).getD 0) (s.runRank slot) r.tagAttempt r.tagStep (s.runGen slot) r.group high bs
  let s := if s.twin.degraded then s.sendCell c else s.cellOut .bridge c
  if kind = 0x39 then
    { s with twin := { s.twin with bytesSent := sat64 (s.twin.bytesSent + c.payload.length) } }.updMirror slot
      (fun m => { m with count := m.count + 1, sum := (m.sum + c.check) % 2 ^ 64 })
  else s

/-- The kind-specific fields of Table 13.6. -/
def itemHigh (item : Nat) (last : Bool) (tid seg count : Nat) : Nat :=
  item % 256 + bit last * 2 ^ 8 + tid % 2 ^ 32 * 2 ^ 16 + seg % 2 ^ 40 * 2 ^ 48 + count % 2 ^ 24 * 2 ^ 88

/-- Send bytes as segments of an item from segment `base`; `last` stands on the final one. -/
def State.mirrorItem (s : State) (slot item tid base : Nat) (bs : List Byte) : State :=
  let l := segmentsOf bs
  l.foldl (fun s p => s.mirrorCell slot 0x39 (itemHigh item (p.1 + 1 == l.length) tid (base + p.1) 0) p.2) s

/-- An entry of item 3. -/
def State.mirrorEntry (s : State) (slot : Nat) (bs : List Byte) : State :=
  let base := (s.run slot).mirror.segs
  (s.mirrorItem slot 3 0 base bs).updMirror slot (fun m => { m with segs := m.segs + (segmentsOf bs).length })

/-- The entry of a cross-shard maximum. -/
def maxEntry (tid : Nat) (lmax : Int) : List Byte := leBytes 4 0 ++ leBytes 4 tid ++ leBytes 4 (intBits 32 lmax) ++ leBytes 20 0

/-- Does the operator write a unique tensor (R336)? -/
def State.writesUnique (s : State) (e : OpEntry) : Bool :=
  (e.ts.drop e.d.nIn).any (fun t => (s.replicaOf (s.runOf e.ctx) t.tid).isNone)

/-- The reduced-gradient input of a class 0x05xx operator. -/
def OpEntry.grad (e : OpEntry) : TDesc := nth e.ts (if e.d.opcode = 0x0500 then 0 else 1) 0

/-- The bytes of ADAMW's frozen mask (R216), where it has one. -/
def OpEntry.maskBytes (e : OpEntry) (rd : Rd) : List Byte :=
  if e.d.opcode = 0x0500 && e.d.nIn = 5 then (nth e.ts 4 0 : TDesc).elemDense rd else []

/-- A class 0x05xx operator that writes a unique tensor starts: its descriptor, then its gradient (R458). -/
def State.mirrorOp (s : State) (e : OpEntry) : State :=
  let slot := (s.ctx e.ctx).runSlot
  if (s.run slot).openStep.isSome && s.mirrors slot && s.writesUnique e then
    let g := e.grad
    let rd := s.rdOf e.ctx e.staged
    let s' := s.mirrorEntry slot (leBytes 128 e.desc.toNat ++ (e.tensors.map (fun t => leBytes 64 t.toNat)).flatten ++ e.maskBytes rd)
    s'.mirrorItem slot 2 g.tid 0 (g.image rd false)
  else s

/-- The maximum that SCALE_UPDATE received (R310, R457). -/
def State.mirrorMax (s : State) (e : OpEntry) (lmax : Int) : State :=
  let slot := (s.ctx e.ctx).runSlot
  if (s.run slot).openStep.isSome && s.mirrors slot && s.writesUnique e then s.mirrorEntry slot (maxEntry (nth e.ts 0 0 : TDesc).tid lmax) else s

/-- Item 0. -/
def manifestItem (digest : Nat) (noUpdate : Bool) (step : Nat) : List Byte := leBytes 16 digest ++ leBytes 8 (bit noUpdate) ++ leBytes 8 step

/-- The CLOSE of the attempt's mirror cells (R458). -/
def State.mirrorEnd (s : State) (slot : Nat) : State :=
  let m := (s.run slot).mirror
  (s.mirrorCell slot 0x18 (m.count % 2 ^ 32 * 2 ^ 32 + m.sum * 2 ^ 64) []).updMirror slot (fun m => { m with closed := true })

/-- STEP_CHECK starts: the update digest, then the CLOSE (R458). -/
def State.mirrorClose (s : State) (slot : Nat) : State :=
  let r := s.run slot
  if s.mirrors slot && !r.mirror.closed then
    (s.mirrorItem slot 0 0 0 (manifestItem r.updateDigest.toNat false r.tagStep)).mirrorEnd slot
  else s

/-- Seed the mirror: the committed unique state as item 1, item 0 without an update, the CLOSE (R460). -/
def State.seedMirror (s : State) (slot : Nat) : State :=
  let r := s.run slot
  let s := s.updMirror slot (fun m => { m with seeding := true, count := 0, sum := 0, acked := none, closed := false })
  let s := (r.stateTs.filter (fun e => (s.replicaOf r e.desc.tid).isNone)).foldl (fun s e =>
    let t := r.sideTensor e.ctx r.bank e.desc
    s.mirrorItem slot 1 t.tid 0 (t.image (s.rdOf e.ctx []) e.scale)) s
  (s.mirrorItem slot 0 0 0 (manifestItem 0 true r.lastCommitted)).mirrorEnd slot

/-- Must the mirror be seeded before the run's next STEP_BEGIN (R460)? -/
def State.needsSeed (s : State) (slot : Nat) : Bool :=
  let m := (s.run slot).mirror
  s.mirrors slot && (!m.seeded || m.stale)

/-- Does STEP_BEGIN wait for the twin's acknowledgement of a seed (R460)? A refusal ends the wait: the step then voids (R461). The copy of R374 is made in the background. -/
def State.seedHolds (s : State) (slot : Nat) : Bool := s.needsSeed slot && !s.twin.degraded && (s.run slot).mirror.acked != some false

/-- The `twin_missing` bit a module can enter at STEP_CHECK; none while it waits for the acknowledgement (R318, R461). -/
def State.twinMissing (s : State) (slot : Nat) : Option Bool :=
  let r := s.run slot
  if r.noTwin then some false
  else if !s.mirrors slot || r.mirror.lost || r.mirror.acked == some false then some true
  else if r.mirror.acked == some true then some false else none

/-- The cause of a missing acknowledgement, written at most once per second (R461): the code the twin gave, else what keeps the mirroring from running
(DEDUCED, log entry 24). -/
def State.twinCause (s : State) (slot : Nat) : State :=
  let r := s.run slot
  if r.mirror.causeAt.any (fun t => decide (s.now < t + Config.sCycles)) then s
  else
    let s := s.updMirror slot (fun m => { m with causeAt := some s.now })
    let k := if r.mirror.acked == some false then (r.mirror.ackReason, 2)
      else if r.mirror.lost then (cTwinBridgeLost, 3)
      else if s.links.bridge.state != .up && !s.twin.degraded then (cTwinAbsent, 0) else (cTwinMismatch, 2)
    s.record (uidLink .bridge 0xFF) k.1 k.2 0 (s.whoRun slot)

end Sys2Proof.Machine
end

