-- ==== Sys2Proof/Machine/Peers.lean ====
section
/-! DEFINITION. Instances of exchange operators: their accounts with each peer, the cells they send and accept, CLOSE and the digests (R274, R278 to R281). -/

namespace Sys2Proof.Machine

/-! ### Accounts -/

/-- The account of an instance with a peer in a phase. -/
def ExInst.peer (x : ExInst) (rank phase : Nat) : Peer := (x.peers.find? (fun p => p.rank == rank && p.phase == phase)).getD { rank := rank, phase := phase }

def ExInst.setPeer (x : ExInst) (p : Peer) : ExInst :=
  if x.peers.any (fun q => q.rank == p.rank && q.phase == p.phase) then
    { x with peers := x.peers.map (fun q => if q.rank == p.rank && q.phase == p.phase then p else q) }
  else { x with peers := x.peers ++ [p] }

/-- Do two entries stand for one instance? A group instance is named by group and `xseq`, a SEND or RECV by run slot, opcode, peer and `xseq`. -/
def ExInst.same (x y : ExInst) : Bool :=
  x.slot == y.slot && x.group == y.group && x.xseq == y.xseq && x.opcode == y.opcode && (x.group != noGroup || x.me == y.me)

/-- Put an instance back in its place. -/
def State.setInst (s : State) (x : ExInst) : State :=
  if s.exch.any x.same then { s with exch := s.exch.map (fun y => if x.same y then x else y) } else { s with exch := s.exch ++ [x] }

/-- The instance of a group and `xseq`. -/
def State.inst (s : State) (g xseq : Nat) : Option ExInst := if g = noGroup then none else s.exch.find? (fun x => x.group == g && x.xseq == xseq)

/-- The instance of an operator. -/
def State.instOf (s : State) (op : Nat) : Option ExInst := s.exch.find? (fun x => x.op == some op)

/-- The rank of member `j` of an instance's group. -/
def State.memberRank (s : State) (x : ExInst) (j : Nat) : Nat := (s.groupE x.group).rank j

/-! ### Digests of a run (R279) -/

/-- Add a check value and a count to a digest. -/
def digAdd (d : BitVec 128) (check : Nat) : BitVec 128 :=
  BitVec.ofNat 128 ((fld d 0 64 + check) % 2 ^ 64 + (fld d 64 64 + 1) % 2 ^ 64 * 2 ^ 64)

def State.countSent (s : State) (slot check : Nat) : State := s.updRun slot (fun r => { r with sendDigest := digAdd r.sendDigest check })
def State.countRecv (s : State) (slot check : Nat) : State := s.updRun slot (fun r => { r with recvDigest := digAdd r.recvDigest check })

/-! ### Sending -/

/-- The generation tag of an instance's cells. -/
def State.instGen (s : State) (x : ExInst) : Nat := match x.op.bind (NMap.get? s.sched.ops) with
  | some e => e.gen.toNat
  | none => s.runGen x.slot

/-- The module's rank in an instance. -/
def State.instRank (s : State) (x : ExInst) : Nat := if x.group = noGroup then s.runRank x.slot else s.memberRank x x.me

/-- The header fields of Table 10.4. -/
def exHigh (xseq seg obs unit bhdr : Nat) : Nat :=
  xseq % 2 ^ 14 + seg % 4 * 2 ^ 14 + obs % 2 ^ 16 * 2 ^ 16 + unit % 2 ^ 32 * 2 ^ 32 + bhdr % 2 ^ 64 * 2 ^ 64

/-- Send a data cell of an instance to a rank, and count it (R278, R279). -/
def State.sendData (s : State) (x : ExInst) (lane kind dst high : Nat) (bs : List Byte) : State × ExInst :=
  let c := cellOf lane kind dst (s.instRank x) x.attempt x.step (s.instGen x) x.group high bs
  let p := x.peer dst x.phase
  ((s.sendCell c).countSent x.slot c.check, x.setPeer { p with sentCount := p.sentCount + 1, sentSum := (p.sentSum + c.check) % 2 ^ 64 })

/-- Send the CLOSE of the present phase to a rank, if it has not been sent (R278). -/
def State.sendClose (s : State) (x : ExInst) (lane dst : Nat) : State × ExInst :=
  let p := x.peer dst x.phase
  if p.closeSent then (s, x)
  else
    let c := cellOf lane 0x18 dst (s.instRank x) x.attempt x.step (s.instGen x) x.group (exHigh x.xseq 0 0 p.sentCount p.sentSum) []
    ((s.sendCell c).countSent x.slot c.check, x.setPeer { p with closeSent := true })

/-- The other members of an instance's group. -/
def State.others (s : State) (x : ExInst) : List Nat := ((List.range x.g).filter (· != x.me)).map (s.memberRank x)

/-- Send CLOSE to every other member. -/
def State.closeAll (s : State) (x : ExInst) (lane : Nat) : State × ExInst :=
  (s.others x).foldl (fun (p : State × ExInst) r => p.1.sendClose p.2 lane r) (s, x)

/-- An image as RAW_SEG cells to a rank (R286). -/
def State.sendRaw (s : State) (x : ExInst) (dst : Nat) (bs : List Byte) : State × ExInst :=
  (segmentsOf bs).foldl (fun (p : State × ExInst) u =>
    p.1.sendData p.2 1 0x13 dst (exHigh x.xseq 0 0 u.1 (u.1 / 2 ^ 32)) u.2) (s, x)

/-! ### Receiving -/

/-- What an arriving cell with a step tag meets (R280): the run's present step and attempt; a step that this module's own STEP_BEGIN is about to
open, for which the cell waits; otherwise it is stale. -/
inductive TagFit where
  | present | waiting | stale
deriving DecidableEq, Repr

def State.tagFit (s : State) (slot step attempt : Nat) : TagFit :=
  let r := s.run slot
  if r.tagStep = step && r.tagAttempt = attempt then .present
  else if r.openStep.isNone && step = r.lastCommitted + 1 && attempt = r.attempt then .waiting
  else .stale

/-- A stale cell is dropped and counted on the port it came by (R280). -/
def State.staleOn (s : State) (l : LinkRef) : State :=
  s.updLink l (fun k => k.count (fun t => { t with staleCells := sat64 (t.staleCells + 1) }))

/-- A data cell from a rank is accepted and counted. -/
def State.acceptData (s : State) (x : ExInst) (phase : Nat) (c : Cell) : State × ExInst :=
  let p := x.peer c.src phase
  (s.countRecv x.slot c.check, x.setPeer { p with recvCount := p.recvCount + 1, recvSum := (p.recvSum + c.check) % 2 ^ 64 })

/-- Is the account of a sender in a phase matched by one of its CLOSEs? -/
def ExInst.matchedBy (x : ExInst) (rank phase : Nat) : Bool :=
  let p := x.peer rank phase
  p.close.isSome

/-- Match the CLOSEs a sender has sent against its accounts: a CLOSE belongs to a phase not matched yet whose count and sum agree (R278). Where an
operator has two phases, `want` names the cells a sender has for each, so that no account is matched before it is full. -/
def ExInst.matchCloses (x : ExInst) (phases : Nat) (want : Nat → Nat → Option Nat) : ExInst :=
  x.closes.foldl (fun x k =>
    match (List.range phases).find? (fun ph => let p := x.peer k.src ph
        p.close.isNone && p.recvCount == k.count && p.recvSum == k.sum && (want k.src ph).all (· == k.count)) with
    | some ph => let p := x.peer k.src ph
      { x.setPeer { p with close := some (k.count, k.sum) } with closes := x.closes.erase k }
    | none => x) x

/-- A sender's CLOSE disagrees: every CLOSE it owes has come, as many cells as they name have come, and they do not match (R278). Cells of a pair may travel
by several routes, so one that names more waits for them, no longer than any cell may wait (R281; DEDUCED, log entry 57). -/
def ExInst.disagrees (x : ExInst) (phases rank : Nat) : Bool :=
  let left := x.closes.filter (fun k => k.src == rank)
  let ps := (List.range phases).map (x.peer rank)
  let done := (ps.filter (fun p => p.close.isSome)).length
  let got := sumOf ((ps.filter (fun p => p.close.isNone)).map (·.recvCount))
  !left.isEmpty && done + left.length == phases && decide (sumOf (left.map (·.count)) ≤ got)

/-! ### The replica comparison (R336 to R338) -/

/-- The entry of Table 12.7. -/
def replicaEntry (d : ReplicaDigest) (step attempt group rank : Nat) : List Byte :=
  leBytes 16 d.digest.toNat ++ leBytes 8 (step % 2 ^ 40 + attempt % 16 * 2 ^ 40 + group % 2 ^ 16 * 2 ^ 48) ++
  leBytes 8 (d.blocks % 2 ^ 32 + rank % 2 ^ 18 * 2 ^ 32) ++ leBytes 224 0

/-- The replica groups of a run of which the module is a member, rising (R337). -/
def State.replicaGroups (s : State) (slot : Nat) : List Nat :=
  let r := s.run slot
  let gs := ((NMap.vals r.replicaTable).filter (fun (e : BitVec 64) => flag e 63)).map (fun (e : BitVec 64) => fld e 32 16)
  (gs.foldl insertRising []).filter (fun g => decide (2 ≤ (s.groupE g).size) && (s.myIdx g).isSome)

/-- Issue the ALLGATHER of a replica group: it counts in `xseq` (R337). -/
def State.startReplica (s : State) (slot g : Nat) : State :=
  let r := s.run slot
  let k := NMap.getD r.xseqs g 0 + 1
  let x : ExInst :=
    { op := none, slot := slot, group := g, xseq := k, opcode := 0x0902, g := (s.groupE g).size, me := (s.myIdx g).getD 0, step := r.tagStep
      attempt := r.tagAttempt }
  (s.updRun slot (fun r => { r with xseqs := NMap.set r.xseqs g k })).setInst x

/-- The signature of that ALLGATHER: input 0 is the U8 entry of 256 elements (R274, R337). -/
def replicaSig : DWord :=
  crc64 (leBytes 2 0x0902 ++ leBytes 5 0 ++ leBytes 1 fmtU8 ++ leBytes 2 0 ++ leBytes 4 0 ++ leBytes 4 0 ++ leBytes 2 256)

/-- Every member has issued it: the entry goes to every other member. -/
def State.sendReplica (s : State) (x : ExInst) : State :=
  let r := s.run x.slot
  let rank := s.memberRank x x.me
  let own := replicaEntry (NMap.getD r.replica x.group {}) x.step x.attempt x.group rank
  let x := { x with segs := [⟨rank, 0, 0, 0, 0, 0, own⟩], begun := true }
  let p := (s.others x).foldl (fun (p : State × ExInst) d => p.1.sendRaw p.2 d own) (s, x)
  let p := p.1.closeAll p.2 1
  p.1.setInst p.2

/-- Has every entry of a replica comparison arrived? -/
def State.replicaReady (s : State) (x : ExInst) : Bool :=
  x.segs.length == x.g && (s.others x).all (fun r => x.matchedBy r 0)

/-- Compare the entries (R337, R338): on a difference every member records it (Table 12.6) and enters `replica_mismatch`; one outside the majority
marks the group. -/
def State.compareReplica (s : State) (x : ExInst) : State :=
  let key := fun (e : Seg) => e.bytes.take 16 ++ (e.bytes.drop 24).take 4
  let own := ((x.segs.find? (fun e => e.src == s.memberRank x x.me)).map key).getD []
  let s := s.setInst { x with complete := true }
  if x.segs.all (fun e => key e == own) then s
  else
    let held := fun k => (x.segs.filter (fun e => key e == k)).length
    let major := (x.segs.map key).find? (fun k => decide (x.g < 2 * held k))
    let outside := match major with
      | some k => x.g - held k
      | none => x.g
    let out := major != some own
    let diff := match major with
      | some k => leNat (own.take 8) ^^^ leNat (k.take 8)
      | none => 0
    let s := s.record uidHub cReplicaMismatch 2 (x.group + outside % 2 ^ 18 * 2 ^ 16 + bit out * 2 ^ 34 + bit major.isNone * 2 ^ 35 + diff * 2 ^ 64)
      (s.whoRun x.slot)
    s.updRun x.slot (fun r => { r with replicaMismatch := true, marked := if out then insertRising r.marked x.group else r.marked })

/-- Are all replica comparisons of a run's attempt complete? -/
def State.replicasDone (s : State) (slot : Nat) : Bool := s.exch.all (fun x => x.slot != slot || x.op.isSome || x.complete)

end Sys2Proof.Machine
end

