-- ==== Sys2Proof/Machine/Control.lean ====
section
/-! DEFINITION. The control network between modules and the step (file 11, R361 to R368): reductions over control trees, the opening, commit and void of a
step, failure declarations, rank moves, the stop at a step boundary. -/

namespace Sys2Proof.Machine

/-! ### Reduction lanes (R304, Tables 11.2, 11.4) -/

def laneOr (a b : List DWord) : List DWord := List.zipWith (· ||| ·) a b
def laneMax (a b : List DWord) : List DWord := List.zipWith (fun x y => if x < y then y else x) a b
def laneAdd (a b : List DWord) : List DWord := List.zipWith (· + ·) a b
/-- A pair of lanes as one number. -/
def pairNat (l : List DWord) : Nat := (nth l 0 0).toNat + (nth l 1 0).toNat * 2 ^ 64
def pairOf (n : Nat) : List DWord := [BitVec.ofNat 64 n, BitVec.ofNat 64 (n / 2 ^ 64)]
def laneAdd128 (a b : List DWord) : List DWord := pairOf (pairNat a + pairNat b)

/-- Combine two contributions lane by lane. -/
def combineLanes (cmsg : Nat) (a b : List DWord) : List DWord := match cmsg with
  | 0x01 | 0x03 => laneMax a b
  | 0x02 => laneOr (a.take 1) (b.take 1) ++ laneMax (a.drop 1) (b.drop 1)
  | 0x04 => laneOr (a.take 1) (b.take 1) ++ laneAdd128 ((a.drop 1).take 2) ((b.drop 1).take 2) ++
      laneAdd128 ((a.drop 3).take 2) ((b.drop 3).take 2) ++ laneAdd (a.drop 5) (b.drop 5)
  | 0x05 => laneOr a b
  | 0x0B => laneAdd128 (a.take 2) (b.take 2) ++ laneOr (a.drop 2) (b.drop 2)
  | _ => a

/-- Bytes of a list of lanes, and back. -/
def laneBytes (l : List DWord) : List Byte := (l.map (fun d => leBytes 8 d.toNat)).flatten
def lanesOf (n : Nat) (bs : List Byte) : List DWord := (List.range n).map (fun i => BitVec.ofNat 64 (leAt bs (8 * i) 8))

/-- Are all contributions equal, by a lane and its complement (R304)? -/
def lanesEqual (a b : DWord) : Bool := a == ~~~b

/-! ### Cells and tables -/

/-- A CTRL cell (Table 11.1). -/
def State.ctrlCell (s : State) (k : RedKey) (down : Bool) (dst arg : Nat) (lanes : List DWord) : Cell :=
  let e := s.groupE k.group
  let src := match s.myIdx k.group with
    | some j => e.rank j
    | none => s.myRank
  cellOf 0 2 dst src k.attempt k.step (s.runGen e.slot) k.group
    (k.cmsg + bit down * 2 ^ 8 + k.xseq % 2 ^ 14 * 2 ^ 16 + k.tag.toNat * 2 ^ 32 + arg % 2 ^ 64 * 2 ^ 64) (laneBytes lanes)

def State.redOf (s : State) (k : RedKey) : Reduction := (s.ctrl.reds.find? (fun r => r.key == k)).getD { key := k }
def State.setRed (s : State) (r : Reduction) : State :=
  let l := if s.ctrl.reds.any (fun q => q.key == r.key) then s.ctrl.reds.map (fun q => if q.key == r.key then r else q) else s.ctrl.reds ++ [r]
  { s with ctrl := { s.ctrl with reds := l } }
def State.dropRed (s : State) (k : RedKey) : State := { s with ctrl := { s.ctrl with reds := s.ctrl.reds.filter (fun q => q.key != k) } }

/-- The contexts of a run. -/
def State.runCtxs (s : State) (slot : Nat) : List Nat := (s.ctxs.tab.filter (fun e => e.2.runSlot == slot && e.2.state != .free)).map Prod.fst

/-- The ids of a run's operators. -/
def State.runOps (s : State) (slot : Nat) : List Nat := (s.sched.ops.filter (fun e => (s.ctx e.2.ctx).runSlot == slot)).map Prod.fst

/-- A run's started operator with an opcode. -/
def State.opBy (s : State) (slot opcode : Nat) : Option Nat :=
  (s.sched.ops.find? (fun e => (s.ctx e.2.ctx).runSlot == slot && e.2.d.opcode == opcode && e.2.phase == .started)).map Prod.fst

def State.updOp (s : State) (id : Nat) (f : OpEntry → OpEntry) : State := match NMap.get? s.sched.ops id with
  | none => s
  | some e => { s with sched := { s.sched with ops := NMap.set s.sched.ops id (f e) } }

/-- End a run's started operator with an opcode, if there is one. -/
def State.endBy (s : State) (slot opcode : Nat) (code : Code) : State := match s.opBy slot opcode with
  | some id => s.endOp id code
  | none => s

/-- The reduction key of a run's tree. -/
def State.runKey (s : State) (slot cmsg : Nat) (tag : BitVec 32) : RedKey :=
  let r := s.run slot
  { group := r.group, cmsg := cmsg, step := r.tagStep, attempt := r.tagAttempt, xseq := 0, tag := tag }

/-- The `arg` of a CHECKPOINT message: step C (Table 11.2). -/
def State.upArg (s : State) (k : RedKey) : Nat :=
  if k.cmsg != 0x0B then 0
  else
    let slot := (s.groupE k.group).slot
    if k.tag = 0 then (s.run slot).lastCommitted
    else match (s.opBy slot 0x0A06).bind (NMap.get? s.sched.ops) with
      | some e => e.d.arg 0 + e.d.arg 1 % 256 * 2 ^ 32
      | none => (s.run slot).lastCommitted

/-! ### Spares and rank moves (R307, R366 to R368) -/

/-- Is move sequence `q` newer than the last applied, modulo 2^16 (R307)? -/
def newerSeq (last q : Nat) : Bool := let d := (q + 2 ^ 16 - last % 2 ^ 16) % 2 ^ 16; 0 < d && d < 2 ^ 15

/-- Flood a move to the partner of each UP port (R307). -/
def State.floodMove (s : State) (rank site q : Nat) : State :=
  let c := cellOf 0 2 floodDst s.myRank 0 noStep 0 noGroup (9 + q % 2 ^ 16 * 2 ^ 32 + (rank % 2 ^ 18 + site % 2 ^ 20 * 2 ^ 18) * 2 ^ 64) []
  ((List.range 32).filter s.fabricUp).foldl (fun s p => s.cellOut (.fabric p) c) s

/-- For how long after a move a message that it repeats may still come: the bound of Table 11.3 for a move to reach every module, and one tree edge
(DESIGN CHOICE, log entry 52). -/
def resentWindow : Nat := 27 * Config.usCycles

/-- Send the last up-sweep of the unfinished reductions again whose parent or child is the moved rank (R305). -/
def State.resendUp (s : State) (rank : Nat) : State :=
  s.ctrl.reds.foldl (fun s r => match r.sentUp, s.myIdx r.key.group with
    | some lanes, some me =>
      let e := s.groupE r.key.group
      if me != 0 && (treeParent me :: treeChildren e.size me).any (fun j => e.rank j == rank) then
        s.sendCell (s.ctrlCell r.key false (e.rank (treeParent me)) (s.upArg r.key) lanes)
      else s
    | _, _ => s) s

/-- The children whose up-sweep message this node holds and whose own parent or child is the moved rank send that message again (R305). -/
def State.markResent (s : State) (rank : Nat) : State :=
  let marks := s.ctrl.reds.flatMap (fun r =>
    let e := s.groupE r.key.group
    let near := fun (j : Nat) => (treeParent j :: treeChildren e.size j).any (fun i => e.rank i == rank)
    (r.children.filter (fun c => near c.1)).map (fun c => Resent.mk r.key c.1 c.2 s.now))
  { s with ctrl := { s.ctrl with resent := s.ctrl.resent.filter (fun m => decide (s.now < m.at_ + resentWindow)) ++ marks } }

/-- The module's rank in a run has moved elsewhere (R367): its operators end, its contexts are reset. -/
def State.evict (s : State) (slot : Nat) : State :=
  let s := (s.runOps slot).foldl (fun s id => s.endOp id cRankEvicted) s
  s.resetCtxs (s.runCtxs slot)

/-- A VOID_REQUEST cell of a run toward a rank (Table 13.5). -/
def State.voidCell (s : State) (slot dst reason failed : Nat) : State :=
  let k := { s.runKey slot 6 (BitVec.ofNat 32 (s.runRank slot)) with xseq := 0 }
  s.sendCell (s.ctrlCell k false dst (reason % 256 + failed % 2 ^ 18 * 2 ^ 8) [])

/-- The rank of a run's root, and of member 1. -/
def State.rootRank (s : State) (slot : Nat) : Nat := (s.groupE (s.run slot).group).rank 0
def State.rank1 (s : State) (slot : Nat) : Nat := (s.groupE (s.run slot).group).rank 1

/-- A VOID_REQUEST; one to the root of an open step is kept until the step closes, for a move of the root's rank (R323). -/
def State.sendVoid (s : State) (slot dst reason failed : Nat) : State :=
  let s := s.voidCell slot dst reason failed
  if dst = s.rootRank slot && (s.run slot).openStep.isSome then
    s.updRun slot (fun r => { r with voidAsked := if r.voidAsked.contains (reason, failed) then r.voidAsked else r.voidAsked ++ [(reason, failed)] })
  else s

/-- The VOID_REQUESTs of the open steps whose root's rank has moved go out again, toward its new holder (R305, R323). -/
def State.resendVoids (s : State) (rank : Nat) : State :=
  s.openSteps.foldl (fun s k =>
    if s.rootRank k != rank || s.runMe k == some 0 then s
    else (s.run k).voidAsked.foldl (fun s v => s.voidCell k rank v.1 v.2) s) s

/-- The module declares itself (R364, R365): to the root, or to member 1 when it is the root itself. -/
def State.declareSelf (s : State) (slot reason : Nat) : State :=
  match s.runMe slot with
  | none => s
  | some me => if me = 0 then (if 1 < (s.groupE (s.run slot).group).size then s.sendVoid slot (s.rank1 slot) reason (s.runRank slot) else s)
    else s.sendVoid slot (s.rootRank slot) reason (s.runRank slot)

/-- The spare applies the move that names its own site (R370 step 1, R372). A module that had stopped or was evicted and has been armed since serves
again (R367). -/
def State.adopt (s : State) (rank : Nat) : State :=
  let g := s.recov.spareRole.toNat
  let slot := (s.groupE g).slot
  if s.armedSpare && (s.idxOf g rank).isSome then
    let twin := fld (NMap.getD (s.run slot).twinMap rank 0) 0 18
    let s := { s with
      recov := { s.recov with armed := false, stopped := false, evicted := false, adoption := some { group := g, rank := rank, twinRank := twin } }
      vigil := { s.vigil with stopPending := false } }
    let s := s.record uidHub cRankAdopted 0 0
    let s := s.noticeAll 5 (packetHdr 5 0 0 0 0 moduleCtx 0 cRankAdopted.toNat) []
    s.sendCell (cellOf 3 0x31 twin rank 0 (s.run slot).lastCommitted (s.runGen slot) g ((2 ^ 24 - 1) * 2 ^ 88) [])
  else (s.record uidHub cSpareNotArmed 4 0).declareSelf slot 4

/-- Apply a move (R269, R305, R307, R367, R370, R374). -/
def State.applyMove (s : State) (rank site q : Nat) : State :=
  let mine := s.isOwnRank rank
  let runs := s.openRuns.filter (fun k => (s.runMe k).isSome && s.runRank k == rank)
  let twins := s.openRuns.filter (fun k => s.twinRank k == some rank && s.twin.state == .running)
  let s := if mine && site != s.site then runs.foldl (fun s k => s.evict k) s else s
  let s := { s with links := { s.links with
    rankTable := NMap.set s.links.rankTable rank (setFld (NMap.getD s.links.rankTable rank 0) 0 20 site)
    moveSeq := NMap.set s.links.moveSeq rank q } }
  let f : Nat × Run → Nat × Run := fun p =>
    (p.1, { p.2 with usedSites := insertRising p.2.usedSites site, failedRanks := p.2.failedRanks.filter (· != rank) })
  let s := { s with runs := s.runs.map f }
  let s := (((s.floodMove rank site q).resendUp rank).resendVoids rank).markResent rank
  -- the new holder of the twin rank has no copy yet; mirroring goes to it over the fabric (R374)
  let s := if twins.isEmpty then s
    else twins.foldl (fun s k => s.updMirror k (fun m => { m with stale := true })) { s with twin := { s.twin with degraded := true } }
  if mine && site != s.site then
    let s := { s with recov := { s.recov with evicted := true } }
    s.record uidHub cRankEvicted 4 0
  else if !mine && site == s.site then s.adopt rank else s

/-- Declare a rank of a run failed (R366, R368): the next unused spare takes it. -/
def State.declareFailed (s : State) (slot rank : Nat) : State :=
  let r := s.run slot
  let sites := ((NMap.vals r.spareList).filter (fun (e : BitVec 32) => flag e 31)).map (fun (e : BitVec 32) => fld e 0 20)
  match sites.find? (fun t => !r.usedSites.contains t) with
  | some site => s.applyMove rank site ((NMap.getD s.links.moveSeq rank 0 + 1) % 2 ^ 16)
  | none => (s.updRun slot (fun r => { r with failedRanks := insertRising r.failedRanks rank })).record uidHub cSparePoolEmpty 2 rank (s.whoRun slot)

/-! ### The boundary of a step -/

/-- A stop asked for by a severity-4 record happens once no step is open (Table 12.5, R364): the module declares itself in every run. -/
def State.boundaryStop (s : State) : State :=
  if s.vigil.stopPending && s.openSteps.isEmpty && !s.recov.stopped then
    s.openRuns.foldl (fun s k => s.declareSelf k 3) { s with recov := { s.recov with stopped := true } }
  else s

/-- Pending snapshots keyed to the boundary latch with the decision; their operators complete (R312). -/
def State.boundarySnaps (s : State) (slot step attempt : Nat) : State :=
  let ids := (s.runOps slot).filter (fun id => (NMap.get? s.sched.ops id).any (fun e => e.d.opcode == 0x0A04 && e.phase == .started && flag e.d 24))
  ids.foldl (fun s id =>
    (s.latch (some (step, attempt))).endOp id cOk) s

/-- What both decisions do when they close the step (R322, R324): the step floor, the streams' halts, the instance counts. -/
def State.closeStep (s : State) (slot : Nat) : State :=
  let cs := s.runCtxs slot
  let s := cs.foldl (fun s c => (s.setStack c { s.stackOf c with floor := 0 }).haltStreams c false) s
  s.updRun slot (fun r => { r with
    openStep := none, passed := false, checkSent := false, vetoSent := false, replicaStarted := false, voidAsked := []
    xseqs := [], sends := [], recvs := []
    mirror := { r.mirror with acked := none, lost := false, closed := false } })

/-- The work that waits for a step boundary. -/
def State.atBoundary (s : State) (slot : Nat) : State :=
  let s := if (s.run slot).lineageHeld then s.issueCert slot false else s
  s.boundaryStop.boundaryRetrain

/-! ### Void (R276, R324) -/

/-- A group operator, or a SCALE_UPDATE or SCALE_CALIBRATE that waits for its cross-shard maximum (DEDUCED, log entry 25). -/
def OpEntry.ofGroup (e : OpEntry) : Bool :=
  e.d.cls == 9 || ((e.d.opcode == 0x0501 || e.d.opcode == 0x040B) && e.phase == .started && !e.lnew.isEmpty && e.scaleMax.isNone)

/-- End an operator by a void: its outputs are undefined however far it has come (R276). -/
def State.voidOp (s : State) (id : Nat) (code : Code) : State := match NMap.get? s.sched.ops id with
  | some e => (if e.phase == .checked || e.phase == .issued then s.forgetOutputs e else s).endOp id code
  | none => s

/-- Apply a void decision; a running STEP_CHECK ends with `checkCode`. -/
def State.applyVoid (s : State) (slot : Nat) (checkCode : Code) : State :=
  match (s.run slot).openStep with
  | none => s
  | some n =>
    let att := (s.run slot).attempt
    let s := s.updRun slot (fun r => { r with checkFailure := true })
    let s := ((s.runOps slot).filter (fun id => (NMap.get? s.sched.ops id).any (fun e => e.ofGroup && e.d.step == n))).foldl
      (fun s id => s.voidOp id cStepVoided) s
    let s := (s.endBy slot 0x0A01 checkCode).endBy slot 0x0A02 cStepVoided
    let s := ((s.runOps slot).filter (fun id => (NMap.get? s.sched.ops id).any (fun e => e.d.opcode == 0x0A03 && e.phase == .started))).foldl
      (fun s id => s.endOp id cOk) s
    let s := { s with
      exch := s.exch.filter (fun x => x.slot != slot)
      ctrl := { s.ctrl with reds := s.ctrl.reds.filter (fun r => !(r.key.step == n && (s.groupE r.key.group).slot == slot)) }
      sched := { s.sched with checks := s.sched.checks.filter (fun e => e.2.slot != slot || e.2.step != n) } }
    let s := s.updRun slot (fun r => { r with
      attempt := (r.attempt + 1) % 16, voidAt := NMap.set r.voidAt att s.now, carried := false, checkFailure := true })
    let s := (s.runCtxs slot).foldl (fun s c => s.setStack c ((s.stackOf c).cut (s.stackOf c).floor)) s
    let s := s.boundarySnaps slot n att
    (s.closeStep slot).atBoundary slot

/-! ### Commit (R322) -/

/-- Compare a committed step with what was recorded for it (R18, R19, R376). -/
def State.replayCompare (s : State) (slot n : Nat) (sr old : BitVec 1024) : State :=
  let r := s.run slot
  let w : Who := { slot := slot, inStep := true, step := n, attempt := fld sr 40 4 }
  let code := if fld sr 256 128 != fld old 256 128 then some cReplayInputMismatch
    else if fld sr 128 128 != fld old 128 128 then some cReplayDiverged else none
  match code with
  | none => s
  | some c =>
    let s := s.record uidHub c 0 0 w
    if flag r.rec_ 229 then s else s.updRun slot (fun r => { r with runHalted := true, state := .halted })

/-- Place the step record in the run's record ring (R452). -/
def State.ringRecord (s : State) (slot n : Nat) (sr : BitVec 1024) : State :=
  let e := NMap.getD s.links.rings slot 0
  if !flag e 63 then s
  else
    let k := fld e 64 64
    let a := fld e 0 48 + 128 * (k % 2 ^ fld e 48 5)
    match s.hostRoute a, s.hostWrite moduleCtx 0 a (leBytes 128 sr.toNat) with
    | .ok (p, _), .ok s' =>
      let s' := { s' with links := { s'.links with rings := NMap.set s'.links.rings slot (setFld e 64 64 (k + 1)) } }
      s'.notice p cStepRecordWritten (s.run slot).stepContext
    | .error c, _ => s.record uidHub c 0 0 { slot := slot, inStep := true, step := n, attempt := fld sr 40 4 }
    | _, .error c => s.record uidHub c 0 0 { slot := slot, inStep := true, step := n, attempt := fld sr 40 4 }

/-- The checkpoint copy of compatibility mode (R375): the committed sets as item 1, the Almanac position as item 4, a manifest of step C, the CLOSE. -/
def State.compatCopy (s : State) (slot c : Nat) : State :=
  let r := s.run slot
  let s := s.updRun slot (fun r => { r with compatAt := some c, compatAcked := false, mirror := { r.mirror with count := 0, sum := 0, closed := false } })
  let s := (r.stateTs.filter (fun e => !e.scale || r.compatScale)).foldl (fun s e =>
    let t := r.sideTensor e.ctx r.bank e.desc
    s.mirrorItem slot 1 t.tid 0 (t.image (s.rdOf e.ctx []) e.scale)) s
  let s := s.mirrorItem slot 4 0 0 (leBytes 8 r.sha.len)
  (s.mirrorItem slot 0 0 0 (manifestItem 0 true c)).mirrorEnd slot

/-- A calibration step commits the scale records it wrote and nothing else (R97, R100): what the committed set holds of every other listed tensor stands in
the other set too before the flip (DEDUCED, log entry 48). -/
def State.carryOver (s : State) (slot : Nat) : State :=
  let r := s.run slot
  (r.stateTs.filter (fun e => !(e.scale && r.scaleWritten.contains e.desc.tid))).foldl (fun s e =>
    s.runWrites slot e.ctx ((r.sideTensor e.ctx (!r.bank) e.desc).imageWrites e.scale
      ((r.sideTensor e.ctx r.bank e.desc).image (s.rdOf e.ctx []) e.scale))) s

/-- Apply a commit decision. -/
def State.applyCommit (s : State) (slot : Nat) : State :=
  match (s.run slot).openStep with
  | none => s
  | some n =>
    let s := if (s.run slot).calibrate then s.carryOver slot else s
    let r := s.run slot
    let sr := r.readyRec
    let recalib := flag sr 45
    let old := if r.replay then refStep r.refEntries n else NMap.get? r.recs n
    let keep := 2 * r.compatInterval
    let s := s.updRun slot (fun r => { r with
      bank := !r.bank, stepRecord := sr, lastCommitted := n, committedAny := true, attempt := 0, voidAt := [], marked := []
      scaleLost := r.scaleLost && !r.calibrate, calibSteps := if r.calibrate then r.calibSteps ++ [n] else r.calibSteps
      chain := sha512 (digestBytes r.chain ++ leBytes 8 n ++ leBytes 16 (fld sr 128 128))
      breaks := if flag sr 46 then r.breaks ++ [n] else r.breaks
      recs := if r.compatInterval = 0 then [] else NMap.set (r.recs.filter (fun e => decide (n < e.1 + keep))) n sr
      mirror := { r.mirror with stale := r.mirror.stale || !r.calibRecords.isEmpty } })
    let s := s.almEntry slot ⟨4, n, leBytes 128 sr.toNat⟩
    let s := if r.calibrate then
        let l := (r.recorded n).getD (s.allRecords slot r.calibRecords)
        { s.almEntry slot (calibEntry n recalib l) with free := s.free + 1 } else s
    let s := s.ringRecord slot n sr
    let s := match old with
      | some o => s.replayCompare slot n sr o
      | none => s
    let s := s.endBy slot 0x0A02 cOk
    let s := ((s.runOps slot).filter (fun id => (NMap.get? s.sched.ops id).any (fun e => e.d.opcode == 0x0A03 && e.phase == .started))).foldl
      (fun s id => s.endOp id cStepAlreadyCommitted) s
    let s := { s with
      exch := s.exch.filter (fun x => x.slot != slot)
      ctrl := { s.ctrl with reds := s.ctrl.reds.filter (fun k => !(k.key.step == n && (s.groupE k.key.group).slot == slot)) } }
    let s := s.boundarySnaps slot n r.attempt
    let s := s.closeStep slot
    let s := if r.compatInterval != 0 && n % r.compatInterval = 0 then s.compatCopy slot n else s
    s.atBoundary slot

/-! ### Opening a step (R315) -/

/-- The step opens on this module. -/
def State.openNow (s : State) (slot n : Nat) : State :=
  let s := (s.runCtxs slot).foldl (fun s c => s.setStack c { s.stackOf c with floor := (s.stackOf c).frames.length }) s
  s.updRun slot (fun r => { r with
    openStep := some n, openAt := s.now, checkFailure := r.carried, carried := false, checkSent := false, vetoSent := false, passed := false
    replicaStarted := false, replicaMismatch := false, sendDigest := 0, recvDigest := 0, stepDigest := 0, skipOvf := 0, skipNf := 0, skipUpdate := 0
    scaleFloorBlocks := 0, scaleAtLimit := 0, limitRaised := [], calibRecords := [], scaleWritten := [], replica := [], strikes := [], updateDigest := 0
    xseqs := [], sends := [], recvs := [], startWait := false, voidAsked := []
    mirror := { r.mirror with count := 0, sum := 0, acked := none, lost := false, segs := 0, closed := false } })

/-- The result of the STEP_BEGIN reduction. -/
def State.applyBegin (s : State) (slot : Nat) (lanes : List DWord) : State :=
  let l := fun i => nth lanes i 0
  if lanesEqual (l 0) (l 1) && lanesEqual (l 2) (l 3) then
    (s.openNow slot (fld (l 0) 0 40)).endBy slot 0x0A00 cOk
  else s.endBy slot 0x0A00 cStepDisagree

/-! ### Results of the other reductions -/

/-- The outcome of Table 10.9 from the reduced lanes (R309). -/
def groupOutcome (lanes : List DWord) : GroupOutcome :=
  let f := nth lanes 0 0
  if flag f 2 || (flag f 0 && flag f 1) then .aborted
  else if flag f 1 then .noop
  else if lanesEqual (nth lanes 1 0) (nth lanes 2 0) then .run else .mismatch

/-- A group instance has its outcome (R275, R309). -/
def State.applyGroupStart (s : State) (g xseq : Nat) (lanes : List DWord) : State :=
  let o := groupOutcome lanes
  match s.inst g xseq with
  | none => s
  | some x =>
    let gone := { s with exch := s.exch.filter (fun y => !(x.same y)) }
    match x.op with
    -- a replica comparison (R337); without its run outcome it counts as failed (DEDUCED, log entry 35)
    | none => if o == .run then (let t := s.sendReplica x; match t.inst g xseq with
        | some y => if t.replicaReady y then t.compareReplica y else t
        | none => t) else gone.fault x.slot
    | some id => match o with
      | .run => s.updOp id (fun e => { e with outcome := some .run })
      | .noop => gone.endOp id cOk
      | .mismatch => gone.endOp id cGroupMismatch
      | .aborted => gone.endOp id cGroupAborted

/-- The group of the cross-shard maximum: `arg0` of SCALE_UPDATE, `arg1` of SCALE_CALIBRATE (R210, R215; R310 names `arg0` for both, log entry 50). -/
def OpEntry.scaleGroup (e : OpEntry) : Nat := if e.d.opcode = 0x0501 then e.d.arg 0 else e.d.arg 1

/-- A cross-shard maximum has come back (R310). -/
def State.applyScaleMax (s : State) (g : Nat) (tag : BitVec 32) (lanes : List DWord) : State :=
  match s.sched.ops.find? (fun e => e.2.phase == .started && (e.2.d.opcode == 0x0501 || e.2.d.opcode == 0x040B) && e.2.scaleGroup == g &&
      e.2.scaleMax.isNone && (nth e.2.ts e.2.d.nIn 0 : TDesc).tid == tag.toNat && !e.2.lnew.isEmpty) with
  | some e => s.updOp e.1 (fun o => { o with scaleMax := some ((nth lanes 0 0).toNat - 2 ^ 15) })
  | none => s

/-- The step record of R326 from the reduced lanes. -/
def State.recordOf (s : State) (slot n : Nat) (lanes : List DWord) : BitVec 1024 :=
  let r := s.run slot
  let eqx := r.calibrate && !r.committedAny && !r.restored
  let rcl := r.calibrate && !eqx
  let bits := match (if r.replay then refStep r.refEntries n else none) with
    | some o => fld o 44 3
    | none => bit eqx + 2 * bit rcl + 4 * bit rcl
  let l := fun i => (nth lanes i 0).toNat
  BitVec.ofNat 1024 (n % 2 ^ 40 + r.attempt * 2 ^ 40 + bits * 2 ^ 44 + bit r.noTwin * 2 ^ 47 + r.quanta % 2 ^ 24 * 2 ^ 64 +
    leNat (laneBytes ((lanes.drop 1).take 8)) * 2 ^ 128 + l 9 * 2 ^ 640 + l 10 * 2 ^ 704 + l 11 * 2 ^ 768 + l 12 * 2 ^ 832 + l 13 * 2 ^ 896)

/-- The decision of STEP_CHECK (R319): `arg` 0 pass, 1 void. -/
def State.applyCheck (s : State) (slot arg : Nat) (lanes : List DWord) : State :=
  match (s.run slot).openStep with
  | none => s
  | some n =>
    if arg = 0 then (s.updRun slot (fun r => { r with passed := true, readyRec := s.recordOf slot n lanes })).endBy slot 0x0A01 cOk
    else s.applyVoid slot cStepCheckFailed

/-- The calibration steps that the Almanac behind a checkpoint tells of (R31, R33). -/
def Run.calibsAt (r : Run) : List Nat := if r.refAlmanac.isSome then calibStepsOf r.refEntries else r.calibSteps

/-- The records of a CHECKPOINT entry that the module lists are written to the committed set (R33). -/
def State.loadScales (s : State) (slot : Nat) (k : Ckpt) : State :=
  let r := s.run slot
  k.records.foldl (fun s q => match r.stateTs.find? (fun e => e.scale && e.desc.tid == q.tid) with
    | none => s
    | some e =>
      let t := r.sideTensor e.ctx r.bank e.desc
      s.runWrites slot e.ctx [⟨t.bReg, t.bOff, leBytes 16 q.header.toNat⟩, ⟨t.eReg, t.eOff, q.codes⟩]) s

/-- The result of a CHECKPOINT reduction (R32, R33). The operator's own read failure stands in its entry's code. -/
def State.applyCheckpoint (s : State) (slot kind : Nat) (lanes : List DWord) : State :=
  match s.opBy slot (if kind = 0 then 0x0A05 else 0x0A06) with
  | none => s
  | some id => match NMap.get? s.sched.ops id with
    | none => s
    | some e =>
      let r := s.run slot
      let bad := nth lanes 2 0 != 0
      let sum := pairNat lanes
      if kind = 0 then
        if bad then s.endOp id (if e.code = cOk then cRunCheckpointDigest else e.code)
        else
          let k : Ckpt := ⟨r.lastCommitted, ckptDigest r.lastCommitted sum, s.allRecords slot (s.scaleRecs slot)⟩
          let s := { s with free := s.free + 1 }.updRun slot (fun r => { r with ckpts := r.ckpts ++ [k], verified := r.verified || !r.replay })
          (s.almEntry slot (ckptEntry k)).endOp id cOk
      else
        let c := e.d.arg 0 + e.d.arg 1 % 256 * 2 ^ 32
        let good := match r.ckptOf c with
          | some k => !bad && k.digest == ckptDigest c sum
          | none => false
        if good then
          let s := s.updRun slot (fun r => { r with
            verified := true, restored := true, lastCommitted := c, attempt := if c = r.lastCommitted then r.attempt else 0
            voidAt := if c = r.lastCommitted then r.voidAt else [], calibSteps := r.calibsAt })
          -- a restart that finds its scale state missing refuses XB16 until an Equinox step commits (R22, R99)
          let s := s.updRun slot (fun r => { r with scaleLost := !r.replay && (r.scaleLost || !s.scalesFit slot (c + 1)) })
          (s.almEntry slot (restoreEntry c (flag e.d 24))).endOp id cOk
        else s.endOp id (if e.code = cOk then cRunCheckpointDigest else e.code)

/-! ### The sweeps (R304) -/

/-- The decision the root sends down with the lanes: STEP_CHECK and STEP_COMMIT (R319, R321). -/
def rootArg (cmsg : Nat) (lanes : List DWord) : Nat := match cmsg with
  | 0x04 => bit (nth lanes 0 0 != 0 || nth lanes 5 0 != nth lanes 7 0 || nth lanes 6 0 != nth lanes 8 0)
  | 0x05 => bit (nth lanes 0 0 != 0)
  | _ => 0

/-- A result reaches this module: it goes on down the tree and is applied. -/
def State.deliver (s : State) (k : RedKey) (arg : Nat) (lanes : List DWord) : State :=
  match s.myIdx k.group with
  | none => s
  | some me =>
    let e := s.groupE k.group
    let s := (treeChildren e.size me).foldl (fun s j => s.sendCell (s.ctrlCell k true (e.rank j) arg lanes)) s
    let s := s.dropRed k
    match k.cmsg with
    | 0x01 => s.applyBegin e.slot lanes
    | 0x02 => s.applyGroupStart k.group k.xseq lanes
    | 0x03 => s.applyScaleMax k.group k.tag lanes
    | 0x04 => s.applyCheck e.slot arg lanes
    | 0x05 => if arg = 0 then s.applyCommit e.slot else s.applyVoid e.slot cStepVoided
    | 0x0B => s.applyCheckpoint e.slot k.tag.toNat lanes
    | _ => s

/-- What a node has so far, combined; a child excused as failed sets bit 0 of lane 0 (R363). -/
def Reduction.total (r : Reduction) : List DWord :=
  let l := r.own.toList ++ NMap.vals r.children
  let t := match l with
    | [] => List.replicate ((ctrlLanes r.key.cmsg).getD 0) 0
    | a :: as => as.foldl (combineLanes r.key.cmsg) a
  if r.excused.isEmpty then t else updAt t 0 (fun w => w ||| 1)

/-- Send the combined contributions up, or decide at the root. -/
def State.sweepUp (s : State) (r : Reduction) (me : Nat) : State :=
  let e := s.groupE r.key.group
  let t := r.total
  if me = 0 then s.deliver r.key (if r.key.cmsg = 0x0B then s.upArg r.key else rootArg r.key.cmsg t) t
  else (s.setRed { r with sentUp := some t }).sendCell (s.ctrlCell r.key false (e.rank (treeParent me)) (s.upArg r.key) t)

/-- A node sends once it has its own contribution and one of each child. -/
def State.redStep (s : State) (k : RedKey) : State :=
  match s.myIdx k.group with
  | none => s
  | some me =>
    let r := s.redOf k
    let cs := treeChildren (s.groupE k.group).size me
    if r.own.isSome && r.sentUp.isNone && cs.all (fun j => (NMap.get? r.children j).isSome || r.excused.contains j) then s.sweepUp r me else s

/-- The module's own contribution. -/
def State.contribute (s : State) (k : RedKey) (lanes : List DWord) : State :=
  let me := (s.myIdx k.group).getD 0
  let r := s.redOf k
  (s.setRed { r with own := some lanes, arrivals := NMap.set r.arrivals me s.now }).redStep k

/-! ### STEP_CHECK's contribution (R318, R319) -/

/-- The lanes of Table 11.4. -/
def State.checkLanes (s : State) (slot : Nat) (missing : Bool) : List DWord :=
  let r := s.run slot
  let w := fun (n : Nat) => BitVec.ofNat 64 n
  [w (bit r.checkFailure + 2 * bit r.replicaMismatch + 4 * bit missing)] ++ pairOf ((r.stepDigest.toNat + r.qinput.toNat) % 2 ^ 128) ++
    pairOf r.qinput.toNat ++ pairOf r.sendDigest.toNat ++ pairOf r.recvDigest.toNat ++
    [w r.skipOvf, w r.skipNf, w r.skipUpdate, w r.scaleFloorBlocks, w r.scaleAtLimit]

/-- A started STEP_CHECK contributes once the replica comparisons are complete and the twin's answer is known. -/
def State.tryCheck (s : State) (slot : Nat) : State :=
  let r := s.run slot
  if (s.opBy slot 0x0A01).isSome && r.openStep.isSome && r.replicaStarted && !r.checkSent && s.replicasDone slot then
    match s.twinMissing slot with
    | none => s
    | some missing =>
      let s := if missing then s.twinCause slot else s
      let lanes := s.checkLanes slot missing
      let s := s.updRun slot (fun r => { r with checkSent := true })
      s.contribute (s.runKey slot 4 0) lanes
  else s

/-! ### VOID_REQUEST (R323, R363 to R365) -/

/-- Void at the root: applied, and broadcast as DECISION. -/
def State.rootVoid (s : State) (slot : Nat) : State :=
  let k := { s.runKey slot 7 0 with xseq := 0 }
  let e := s.groupE k.group
  let s := s.applyVoid slot cStepVoided
  (treeChildren e.size 0).foldl (fun s j => s.sendCell (s.ctrlCell k true (e.rank j) 1 [])) s

/-- A VOID_REQUEST of an attempt, from a rank, at the module that acts as root. -/
def State.handleVoid (s : State) (slot step attempt src reason failed : Nat) : State :=
  let s := if reason = 0 then s else s.declareFailed slot failed
  let r := s.run slot
  if r.openStep = some step && r.attempt = attempt then s.rootVoid slot
  else if r.openStep.isNone && step = r.lastCommitted && r.committedAny && attempt = fld r.stepRecord 40 4 then
    -- the commit decision stands: the requesting module gets it (R323)
    s.sendCell (s.ctrlCell { s.runKey slot 5 0 with step := step, attempt := attempt } true src 0 [0])
  else if r.openStep.isNone && step != noStep && (s.recov.adoption.any (fun a => a.group == r.group)) then
    let k : RedKey := { s.runKey slot 7 0 with step := step, attempt := attempt }
    let e := s.groupE k.group
    (treeChildren e.size 0).foldl (fun s j => s.sendCell (s.ctrlCell k true (e.rank j) 1 [])) s
  else s

/-- Ask for a void with a reason: at the root itself it is handled at once. -/
def State.askVoid (s : State) (slot reason failed : Nat) : State :=
  match s.runMe slot with
  | none => s
  | some 0 => let r := s.run slot
    s.handleVoid slot r.tagStep r.tagAttempt (s.runRank slot) reason failed
  | some _ => s.sendVoid slot (s.rootRank slot) reason failed

/-- Member 1 acts for a failed root (R363, R366): it moves the root's rank; inside a step it asks the rank's new holder for the void, as the request that
declared the failure would (R323). -/
def State.failRoot (s : State) (slot : Nat) : State :=
  let s := s.declareFailed slot (s.rootRank slot)
  if (s.run slot).openStep.isSome then s.sendVoid slot (s.rootRank slot) 0 0 else s

end Sys2Proof.Machine
end

