-- ==== Sys2Proof/Machine/Contexts.lean ====
section
/-! DEFINITION. Contexts (R165, R166, R230 to R237, R250 to R253): doorbells, loads and grants, the requests of `ctx_command`, the context table. -/

namespace Sys2Proof.Machine

/-! ### Grants (R165) -/

/-- The granules of a region in LPDDR5X. -/
def RegionE.granules (e : RegionE) : List Nat :=
  if e.valid && !isHost e.base then (List.range (cdiv e.size granule)).map (· + e.base / granule) else []

/-- Take the grants of a loaded context. -/
def State.takeGrants (s : State) (c : Nat) (rs : List RegionE) : State :=
  let put := fun (g : NMap Grant) (e : RegionE) => e.granules.foldl (fun (g : NMap Grant) n =>
    NMap.set g n (if e.w then .exclusive c else match NMap.get? g n with
      | some (.shared k) => .shared (k + 1)
      | _ => .shared 1)) g
  { s with memsys := { s.memsys with grants := rs.foldl put s.memsys.grants } }

/-- Give them back: exclusive granules enter zeroing, shared ones lose a mapping and enter zeroing with the last. -/
def State.dropGrants (s : State) (c : Nat) (rs : List RegionE) : State :=
  let drop := fun (g : NMap Grant) (e : RegionE) => e.granules.foldl (fun (g : NMap Grant) n => match NMap.get? g n with
    | some (.exclusive d) => if d = c then NMap.set g n .zeroing else g
    | some (.shared k) => NMap.set g n (if k ≤ 1 then .zeroing else .shared (k - 1))
    | _ => g) g
  { s with memsys := { s.memsys with grants := rs.foldl drop s.memsys.grants } }

/-! ### Doorbells (R236, R237) -/

/-- Distance from `a` to `b`, modulo 2^32, and whether `b` lies behind `a`. -/
def idxAhead (a b : Nat) : Nat := (b + 2 ^ 32 - a % 2 ^ 32) % 2 ^ 32
def idxBehind (a b : Nat) : Bool := let d := idxAhead a b; decide (2 ^ 31 ≤ d)

/-- A doorbell of an OPEN context (Table 9.4). One that is not dropped has the context loaded (R234). -/
def State.applyDoorbell (s : State) (port : Nat) (p : BitVec 128) : State :=
  let c := fld p 0 20
  let x := s.ctx c
  let k := fld p 32 3
  let v := fld p 64 32
  let s := if decide (k < 4) && !x.qen k then s else s.wantLoad c
  if k < 4 then
    let tail := nth x.qtail k 0
    if !x.qen k then s.notice port cDoorbellQueue c
    else if v != tail && idxBehind tail v then s
    else if 2 ^ x.qlog2 k < idxAhead (nth x.qhead k 0) v then s.notice port cQueueOverrun c
    else (s.updCtx c (fun x => { x with
      notifyPort := port, qtail := updAt x.qtail k (fun _ => v), queueHeld := updAt x.queueHeld k (fun _ => false) }))
  else if k = 4 then
    if (v != x.crTail && idxBehind x.crTail v) || x.ringUsed < idxAhead x.crTail v then s.notice port cRingOverrun c
    else (s.updCtx c (fun x => { x with notifyPort := port, crTail := v })).ringDrain c ((s.ctx c).crBuffer.length + 1)
  else
    let st := fld p 96 18
    match NMap.get? s.ctxs.streams st with
    | none => s
    | some b => if b.halted && b.ctx == c && (s.runOf c).openStep.isNone then
        ({ s with ctxs := { s.ctxs with streams := NMap.set s.ctxs.streams st { b with halted := false } } }.updCtx c
          (fun x => { x with notifyPort := port }))
      else s

/-- The rows of Table 9.4 before the kind. -/
def State.doorbell (s : State) (port : Nat) (gen : Byte) (p : BitVec 128) : State :=
  let c := fld p 0 20
  let x := s.ctx c
  if x.state == .free || x.state == .halted || x.state == .releasing then
    (s.countHost port (fun t => { t with doorbellDropped := sat32 (t.doorbellDropped + 1) })).notice port cDoorbellContext c
  else if gen != x.gen then s.lateDrop c
  else if x.state == .resetting then s.updCtx c (fun x => { x with heldDoorbells := x.heldDoorbells ++ [⟨port, p⟩] })
  else s.applyDoorbell port p

/-- A doorbell waits in the port's receive buffer; it leaves it here. -/
def State.takeDoorbell (s : State) (port : Nat) (p : BitVec 128) : State :=
  s.updLink (.host port) (fun k => match k.rx.find? (fun i => i.lane == 4 && i.data == leBytes 16 p.toNat) with
    | none => k
    | some i => ({ k with rx := k.rx.erase i }).free 4 (1 + cdiv i.data.length 32))

/-- Is the payload well formed and of a kind of this row, on a port that is UP? The tag is the payload's bits [31:24] (Table 9.3). -/
def State.doorbellOk (s : State) (port : Nat) (gen : Byte) (p : BitVec 128) (kinds : List Nat) : Bool :=
  s.hostUp port && kinds.contains (fld p 32 3) && fld p 24 8 == gen.toNat && fld p 20 4 == 0 && fld p 35 29 == 0 && fld p 114 14 == 0

/-- DOORBELL_QUEUE_TAIL (R235, R237). -/
def execDoorbellQueueTail (port : Nat) (gen : Byte) (payload : BitVec 128) (s : State) : Out :=
  if s.doorbellOk port gen payload [0, 1, 2, 3] then .next ((s.takeDoorbell port payload).doorbell port gen payload) else .next s

/-- DOORBELL_RING_TAIL (R237, R242). -/
def execDoorbellRingTail (port : Nat) (gen : Byte) (payload : BitVec 128) (s : State) : Out :=
  if s.doorbellOk port gen payload [4] then .next ((s.takeDoorbell port payload).doorbell port gen payload) else .next s

/-- DOORBELL_RESUME_STREAM (R237, R240). -/
def execDoorbellResumeStream (port : Nat) (gen : Byte) (payload : BitVec 128) (s : State) : Out :=
  if s.doorbellOk port gen payload [5] then .next ((s.takeDoorbell port payload).doorbell port gen payload) else .next s

/-! ### The load of a context (R163, R233, R234) -/

/-- The reserved fields of a descriptor that software writes (Table 9.1). -/
def Ctx.reservedZero (x : Ctx) : Bool :=
  fld x.desc 20 4 == 0 && fld x.desc 52 12 == 0 && fld x.desc 112 16 == 0 && fld x.desc 146 14 == 0 && fld x.desc 176 16 == 0 &&
  fld x.desc 246 10 == 0 && fld x.desc 960 64 == 0 && (List.range 4).all (fun q => fld x.desc (438 + 128 * q) 10 == 0)

/-- First address past the context-allocatable LPDDR5X (R152). -/
def State.allocEnd (s : State) : Nat := sysBase - s.memsys.twinReserveActive * 2 ^ 30

/-- Row 1 of Table 7.6: is an entry well formed, within one mappable row of Table 7.1? -/
def State.regionOk (s : State) (e : RegionE) : Bool :=
  let g := if isHost e.base then 4096 else granule
  fld e 61 3 == 0 && fld e 117 11 == 0 && e.size != 0 && e.base % g == 0 && e.size % g == 0 &&
  (if isHost e.base then decide (e.base + e.size ≤ 2 ^ 48) else decide (e.base + e.size ≤ s.allocEnd))

/-- Do two ranges overlap? -/
def rangesMeet (a n b m : Nat) : Bool := decide (a < b + m) && decide (b < a + n)
def RegionE.meets (a b : RegionE) : Bool := rangesMeet a.base a.size b.base b.size

/-- The valid regions of every loaded context. -/
def State.allRegions (s : State) (c : Nat) : List RegionE :=
  (s.ctxs.tab.filter (fun e => e.1 != c && e.2.loaded)).flatMap (fun e => (e.2.regions.map (fun (r : RegionE) => r)).filter RegionE.valid)

/-- The checks of Table 7.6, row by row. -/
def State.regionCode (s : State) (c : Nat) (rs : List RegionE) : Code :=
  let v := rs.filter RegionE.valid
  let others := s.allRegions c
  let inner := (List.range v.length).any (fun i => (List.range i).any (fun j =>
    let a := nth v i 0; let b := nth v j 0
    RegionE.meets a b && (RegionE.w a || RegionE.w b)))
  if v.any (fun e => !s.regionOk e) then cRegionInvalid
  else if v.any (fun e => e.stk && !(e.r && e.w)) then cRegionInvalid
  else if v.any (fun e => e.ownKey && (e.kslot == 0 || (NMap.get? s.memsys.keys e.kslot).isNone)) then cKeySlotEmpty
  else if v.any (fun e => e.granules.any (fun g => NMap.get? s.memsys.grants g == some .zeroing)) then cRegionZeroing
  else if inner || v.any (fun e => others.any (fun o => RegionE.meets e o && (RegionE.w e || RegionE.w o))) then cRegionOverlap
  else cOk

/-- Does a range lie in a region with a right? -/
def inRegions (rs : List RegionE) (a n : Nat) (right : RegionE → Bool) : Bool :=
  rs.any (fun e => e.valid && right e && decide (e.base ≤ a) && decide (a + n ≤ e.base + e.size))

/-- The checks of a load in the order of R233. -/
def State.loadCode (s : State) (c : Nat) (rs : List RegionE) : Code :=
  let x := s.ctx c
  let rc := s.regionCode c rs
  let reserved := sumOf ((s.ctxs.tab.filter (fun e => e.1 != c && e.2.loaded)).map (fun e => e.2.stackReserve))
  let badQ := (List.range 4).any (fun q => x.qen q &&
    (x.qlog2 q < 4 || 16 < x.qlog2 q || x.qbase q % 4096 != 0 || !inRegions rs (x.qbase q) (128 * 2 ^ x.qlog2 q) RegionE.r))
  let badR := x.crLog2 < 4 || 20 < x.crLog2 || x.crBase % 4096 != 0 || !inRegions rs x.crBase (64 * 2 ^ x.crLog2) RegionE.w
  if rc != cOk then rc
  else if x.keySlot = 0 || (NMap.get? s.memsys.keys x.keySlot).isNone then cKeySlotEmpty
  else if 196608 < reserved + x.stackReserve then cStackReserve
  else if badQ || badR then cQueueInvalid
  else if x.runSlot != noRun && !(s.run x.runSlot).isOpen then cRunNone
  else cOk

/-- The cached contexts that may be evicted: no operator fetched and unfinished, no stack page in transit (R234). -/
def State.evictable (s : State) : List Nat :=
  (s.ctxs.tab.filter (fun e => e.2.cached && (s.opsOf e.1).isEmpty &&
    (s.stackOf e.1).pages.all (fun p => p.2.state != .spilling && p.2.state != .fetching))).map Prod.fst

/-- Is the context cache full? -/
def State.cacheFull (s : State) : Bool := decide (16384 ≤ (s.ctxs.tab.filter (fun e => e.2.cached)).length)

/-- Make room in the context cache: the context issued to least recently leaves. None where every entry is pinned. -/
def State.cacheRoom (s : State) : Option State :=
  if !s.cacheFull then some s
  else (s.evictable.foldl (fun (b : Option Nat) c => match b with
    | none => some c
    | some d => if (s.ctx c).lastIssued < (s.ctx d).lastIssued then some c else some d) none).map
      (fun c => s.updCtx c (fun x => { x with cached := false }))

/-- A load fails: HALTED, with a record (R232, R331). -/
def State.haltLoad (s : State) (c : Nat) (code : Code) : State :=
  (s.updCtx c (fun x => { x with state := .halted, loading := false })).record uidHub code 0 (c + (s.ctx c).owner * 2 ^ 64)

/-- The region table of a context that is loaded again: a region sealed since stays sealed (R166). -/
def Ctx.sealed (x : Ctx) (rs : List RegionE) : List RegionE :=
  ((List.range rs.length).zip rs).map (fun q =>
    let old : RegionE := x.region q.1
    if old.valid && !old.w && (setFld q.2 113 1 0 : BitVec 128) == old then old else q.2)

/-- The grants of a context that is loaded again: those of regions it still has are kept (R234). -/
def State.keepGrants (s : State) (c : Nat) (old rs : List RegionE) : State :=
  (s.dropGrants c (old.filter (fun e => !rs.contains e))).takeGrants c (rs.filter (fun e => !old.contains e))

/-! ### The device system area (Table 7.3) -/

/-- Where the context table, the grant map, the Almanac staging and the gatherer overflow begin (R159). -/
def ctxTableAt : Nat := sysBase
def grantMapAt : Nat := sysBase + 0x08000000
def almanacAt : Nat := sysBase + 0x08200000
def overflowAt : Nat := sysBase + 0x18200000

/-- The uncorrectable lines that a context load meets in the context's entry of the context table (R157, R159), and in the grant map. -/
def State.entryBad (s : State) (c : Nat) : List Nat := s.memsys.mem.badIn (ctxTableAt + 128 * c) 128
def State.grantsBad (s : State) (rs : List RegionE) : List Nat := dedup ((rs.filter (fun e => e.valid && !isHost e.base)).flatMap (fun e =>
  s.memsys.mem.badIn (grantMapAt + e.base / granule * 4) (cdiv e.size granule * 4)))

/-- A load that meets such lines ends with MEMORY_UNCORRECTABLE; no step is open in a context that loads. -/
def State.haltBad (s : State) (c : Nat) (l : List Nat) : State := (l.foldl (fun s l => s.lineBad l {}) s).haltLoad c cMemoryUncorrectable

/-- CONTEXT_LOAD (R163, R165, R232 to R234): `reply` is the answer to the read of the region table. A context that was evicted is read and checked again
and keeps its grants. -/
def execContextLoad (ctx : Nat) (reply : HostReply) (s : State) : Out :=
  let x := s.ctx ctx
  if !(x.state == .open_ && x.loading) then .next s
  else match s.cacheRoom with
    | none => .next s
    | some s =>
      if !(s.entryBad ctx).isEmpty then .next (s.haltBad ctx (s.entryBad ctx))
      else if !x.reservedZero || fld x.desc 0 20 != ctx || !isHost x.rtAddr || x.rtAddr % 1024 != 0 then .next (s.haltLoad ctx cContextInvalid)
      else match s.hostRoute x.rtAddr, reply with
        | .error c, _ => .next (s.haltLoad ctx c)
        | _, .error _ => .next (s.haltLoad ctx cHostCompletionError)
        | _, .timeout => .next (s.haltLoad ctx cHostReadTimeout)
        | _, .data bs =>
          let read : List RegionE := (List.range 64).map (fun i => BitVec.ofNat 128 (leAt bs (16 * i) 16))
          let rs := if x.loaded then x.sealed read else read
          let code := s.loadCode ctx rs
          if !(s.grantsBad rs).isEmpty then .next (s.haltBad ctx (s.grantsBad rs))
          else if code != cOk then .next (s.haltLoad ctx code)
          else .next ((if x.loaded then s.keepGrants ctx x.regions rs else s.takeGrants ctx rs).updCtx ctx (fun x => { x with regions := rs, loaded := true, cached := true, loading := false }))

/-! ### Requests (R232, R251 to R253) -/

/-- The context and the request of a `ctx_command` value (Table 16.12). -/
def cmdCtx (v : BitVec 32) : Nat := fld v 0 20
def cmdKind (v : BitVec 32) : Nat := fld v 20 4

/-- The release of a context: steps 1 to 5 of R252. -/
def State.releaseCtx (s : State) (c : Nat) : State :=
  let x := s.ctx c
  let s := s.updCtx c (fun x => { x with state := .releasing, resetAt := s.now })
  let s := { s with memsys := { s.memsys with keys := NMap.erase s.memsys.keys x.keySlot } }
  let s := (s.opsOf c).foldl (fun s id => s.endOp id cContextReset) s
  let s := s.updCtx c (fun x => { x.advanceTag s.now with cached := false, loading := false, heldDoorbells := [], crBuffer := [] })
  let s := { s with ctxs := { s.ctxs with
    streams := s.ctxs.streams.filter (fun e => e.2.ctx != c), stackTab := NMap.erase s.ctxs.stackTab c } }
  let s := if x.loaded then s.dropGrants c (x.regions.map (fun (e : RegionE) => e)) else s
  let s := if s.sched.quarantine.suspects.contains c then s.dropSuspect c false else s
  s.fault x.runSlot

/-- May the module serve contexts (R402, R414)? -/
def State.serves (s : State) : Code := if !s.released then cNotReleased else if lcState s.fuses.shadow != 2 then cLcState else cOk

/-- CONTEXT_OPEN (R232, R253). -/
def execContextOpen (q : Req) (v : BitVec 32) (s : State) : Out :=
  if cmdKind v != 1 then .next s
  else .next (s.dictWrite q 0x7100 2 (leBytes 4 v.toNat) (fun s =>
    let c := cmdCtx v
    if s.serves != cOk then (s, s.serves)
    else if fld v 24 8 != 0 then (s, cObjValueRange)
    else match (s.ctx c).state, (s.ctx c).pend with
      | .free, _ => (s.updCtx c (fun x => { x with state := .open_ }), cOk)
      | .releasing, none => (s.updCtx c (fun x => { x with pend := some .open_ }), cOk)
      | .resetting, some .release => (s.updCtx c (fun x => { x with pend := none }), cOk)
      | _, _ => (s, cContextState))).1

/-- CONTEXT_RESET (R251, R253): by request, or by a rule of the device. -/
def execContextReset (src : CtxResetSrc) (s : State) : Out := match src with
  | .device c => if (s.ctx c).state == .open_ then .next (s.resetCtx c) else .next s
  | .request q v =>
    if cmdKind v != 2 then .next s
    else .next (s.dictWrite q 0x7100 2 (leBytes 4 v.toNat) (fun s =>
      if !s.released then (s, cNotReleased)
      else if fld v 24 8 != 0 then (s, cObjValueRange)
      else if (s.ctx (cmdCtx v)).state == .open_ then (s.resetCtx (cmdCtx v), cOk) else (s, cContextState))).1

/-- CONTEXT_RELEASE (R252, R253). -/
def execContextRelease (q : Req) (v : BitVec 32) (s : State) : Out :=
  if cmdKind v != 3 then .next s
  else .next (s.dictWrite q 0x7100 2 (leBytes 4 v.toNat) (fun s =>
    let c := cmdCtx v
    if !s.released then (s, cNotReleased)
    else if fld v 24 8 != 0 then (s, cObjValueRange)
    else match (s.ctx c).state, (s.ctx c).pend with
      | .open_, _ | .halted, _ => (s.releaseCtx c, cOk)
      | .resetting, none => (s.updCtx c (fun x => { x with pend := some .release }), cOk)
      | .releasing, some .open_ => (s.updCtx c (fun x => { x with pend := none }), cOk)
      | _, _ => (s, cContextState))).1

/-- CONTEXT_RESET_DONE (R251 step 7, R253): OPEN again, the held doorbells are applied, a held release runs. -/
def execContextResetDone (ctx : Nat) (s : State) : Out :=
  let x := s.ctx ctx
  if x.state != .resetting then .next s
  else
    let s := s.tagCatchUp ctx
    let s := s.updCtx ctx (fun x => { x with state := .open_, heldDoorbells := [], pend := none, resetAt := s.now })
    let s := x.heldDoorbells.foldl (fun s d => s.applyDoorbell d.port d.payload) s
    .next (if x.pend == some .release then s.releaseCtx ctx else s)

/-- CONTEXT_RELEASE_DONE (R252 step 6, R253). -/
def execContextReleaseDone (ctx : Nat) (s : State) : Out :=
  let x := s.ctx ctx
  if x.state != .releasing then .next s
  else
    let s := s.tagCatchUp ctx
    .next (s.setCtx ctx { desc := x.desc, gen := (s.ctx ctx).gen, tagAt := (s.ctx ctx).tagAt, state := if x.pend == some .open_ then .open_ else .free })

/-! ### The context table (R231, Table 16.12) -/

/-- The fields maintained by the device. -/
def roFields : List (Nat × Nat) := [(24, 16), (256, 128)] ++ (List.range 4).map (fun q => (448 + 128 * q, 64))

/-- CONTEXT_TABLE_WRITE: whole descriptors of FREE contexts whose RO fields equal their current values. -/
def execContextTableWrite (q : Req) (sha : BitVec 512) (s : State) : Out :=
  .next (s.dictEnd q 0x7100 1 sha (fun s t =>
    let es := entriesOf 128 t
    let bad := es.any (fun e =>
      let w := BitVec.ofNat 1024 e.2
      (s.ctx e.1).state != .free || roFields.any (fun f => fld w f.1 f.2 != fld (s.ctxWord e.1) f.1 f.2))
    if !s.released then (s, cNotReleased)
    else if bad then (s, cContextState)
    else (es.foldl (fun s e => s.updCtx e.1 (fun x => { x with
      desc := roFields.foldl (fun w f => setFld w f.1 f.2 0) (BitVec.ofNat 1024 e.2) })) s, cOk))).1

/-- REGION_SEAL (R166). -/
def execRegionSeal (q : Req) (v : BitVec 32) (s : State) : Out :=
  .next (s.dictWrite q 0x7100 5 (leBytes 4 v.toNat) (fun s =>
    let c := fld v 0 20
    let r := fld v 20 6
    let x := s.ctx c
    let e := x.region r
    if !s.released then (s, cNotReleased)
    else if !(x.state == .open_ && x.loaded) then (s, cContextState)
    else if !e.valid || e.stk then (s, cObjValueRange)
    else if !e.w then (s, cOk)
    else
      let s := s.updCtx c (fun x => { x with regions := updAt x.regions r (fun e => setFld e 113 1 0) })
      ({ s with memsys := { s.memsys with grants := e.granules.foldl (fun g n => NMap.set g n (.shared 1)) s.memsys.grants } }, cOk))).1

end Sys2Proof.Machine
end

