-- ==== Sys2Proof/Machine/Checks.lean ====
section
/-! DEFINITION. The checks of an operator: Table 8.3 in its order, with the fields, tensor counts, shapes and formats of each opcode (Tables 8.4 to 8.13),
and the core count of Table 9.6. -/

namespace Sys2Proof.Machine

/-- The first code other than success. -/
def firstCode : List (Unit → Code) → Code
  | [] => cOk
  | f :: r => let c := f (); if c = cOk then firstCode r else c

/-- A code where a condition fails. -/
def need (b : Bool) (c : Code) : Unit → Code := fun _ => if b then cOk else c

/-! ### What each opcode uses (R186, R190, R195) -/

/-- The fields an opcode uses: input tensors without mask and scale inputs, output tensors, `grid_floor`, `purpose`, `quantum`, `n_elem`, the kernel image,
the `cflags` bits, the arguments with their used bits, the count arguments. -/
structure OpSpec where
  nIn : List Nat
  nOut : List Nat
  floor : Bool := false
  purpose : Bool := false
  quantum : Bool := false
  nElem : Bool := false
  kimg : Bool := false
  cflags : Nat := 0
  args : List (Nat × Nat) := []
  counts : List Nat := []
deriving DecidableEq, Repr

/-- All bits of arguments `0` to `n` − 1. -/
def argsTo (n : Nat) : List (Nat × Nat) := (List.range n).map (fun j => (j, 0xFFFFFFFF))

/-- A class 0x01xx opcode, and one that takes convolution arguments (R199). -/
def specArr (cf : Nat) : OpSpec := { nIn := [2], nOut := [1], floor := true, purpose := true, quantum := true, cflags := cf }
def specConv (cf : Nat) : OpSpec := { specArr cf with args := [(0, 0xFFFFFFFF), (1, 0xFFFF)] }
/-- A library opcode of class 0x03xx. -/
def specLib (i a : Nat) : OpSpec := { nIn := [i], nOut := [1], purpose := true, quantum := true, nElem := true, args := argsTo a }
/-- A class 0x04xx opcode with sums. -/
def specRow (i : Nat) (o : List Nat) (a : Nat) : OpSpec := { nIn := [i], nOut := o, floor := true, purpose := true, quantum := true, args := argsTo a }
/-- An opcode with tensors only. -/
def specPlain (i o : Nat) : OpSpec := { nIn := [i], nOut := [o] }

/-- What an opcode uses; none where it is not defined (Tables 8.4 to 8.13, R229). -/
def opSpec (op : Nat) : Option OpSpec := match op with
  | 0x0100 => some (specArr 0)
  | 0x0101 => some (specArr 0)
  | 0x0102 => some (specArr 2)
  | 0x0103 => some (specArr 0)
  | 0x0108 => some (specConv 1)
  | 0x0109 => some (specConv 0)
  | 0x010A => some (specConv 2)
  | 0x0200 => some { specArr 1 with nIn := [3], args := [(0, 0xFFFFFFFF), (1, 0xFFFFFFFF), (2, 0xFFFFFFFF), (3, 0xFFFFFF)] }
  | 0x0201 => some { specArr 1 with nIn := [5], nOut := [3], args := [(0, 0xFFFFFFFF), (1, 0xFFFFFFFF), (2, 0xFFFFFFFF), (3, 0xFFFFFF)] }
  | 0x0300 => some { nIn := List.range 9, nOut := List.range 5, floor := true, quantum := true, nElem := true, kimg := true, args := argsTo 8 }
  | 0x0301 => some (specLib 2 0)
  | 0x0302 => some (specLib 2 0)
  | 0x0303 => some (specLib 2 2)
  | 0x0304 => some (specLib 1 1)
  | 0x0305 => some (specLib 2 1)
  | 0x0400 => some (specRow 2 [1] 1)
  | 0x0401 => some (specRow 3 [1, 2] 1)
  | 0x0402 => some (specRow 3 [1] 1)
  | 0x0403 => some (specRow 3 [1, 2, 3] 1)
  | 0x0404 => some (specRow 1 [1] 0)
  | 0x0405 => some (specRow 2 [1] 0)
  | 0x0406 => some (specRow 1 [1] 0)
  | 0x0407 => some { specRow 1 [1] 0 with floor := false }
  | 0x0408 => some (specPlain 1 1)
  | 0x0409 => some { specRow 1 [2] 1 with floor := false, counts := [0] }
  | 0x040B => some { specPlain 1 1 with cflags := 1, args := argsTo 2, counts := [0] }
  | 0x0500 => some { nIn := [4, 5], nOut := [3], cflags := 1, args := argsTo 10 }
  | 0x0501 => some { specPlain 2 1 with cflags := 1, args := argsTo 1 }
  | 0x0600 => some { specLib 1 0 with floor := true }
  | 0x0601 => some { specLib 2 0 with floor := true }
  | 0x0602 => some { specPlain 1 1 with nElem := true }
  | 0x0603 => some { specLib 1 0 with floor := true }
  | 0x0700 => some (specPlain 1 1)
  | 0x0701 => some (specPlain 2 1)
  | 0x0702 => some (specPlain 2 1)
  | 0x0703 => some { specPlain 3 1 with floor := true, purpose := true, quantum := true }
  | 0x0704 => some { specPlain 1 1 with args := argsTo 1 }
  | 0x0705 => some (specPlain 1 1)
  | 0x0800 => some (specPlain 1 0)
  | 0x0801 => some { nIn := [0], nOut := [0, 1], cflags := 3 }
  | 0x0802 => some { specPlain 0 1 with cflags := 1, args := argsTo 1 }
  | 0x0803 => some (specPlain 0 0)
  | 0x0900 => some { specPlain 1 1 with args := argsTo 2, counts := [1] }
  | 0x0901 => some { specPlain 1 1 with args := argsTo 2, counts := [1] }
  | 0x0902 => some { specPlain 1 1 with args := argsTo 1 }
  | 0x0903 => some { specPlain 2 4 with args := argsTo 3, counts := [1] }
  | 0x0904 => some { specPlain 5 1 with floor := true, purpose := true, quantum := true, args := argsTo 2, counts := [1] }
  | 0x0905 => some { specPlain 1 1 with args := argsTo 1 }
  | 0x0906 => some { specPlain 1 0 with args := [(0, 0x3FFFF)] }
  | 0x0907 => some { specPlain 0 1 with args := [(0, 0x3FFFF)] }
  | 0x0908 => some { specPlain 1 1 with floor := true, args := argsTo 2 }
  | 0x0A00 => some { specPlain 0 0 with cflags := 1, args := argsTo 5, counts := [0] }
  | 0x0A01 => some (specPlain 0 0)
  | 0x0A02 => some (specPlain 0 0)
  | 0x0A03 => some (specPlain 0 0)
  | 0x0A04 => some { specPlain 0 0 with cflags := 1 }
  | 0x0A05 => some (specPlain 0 0)
  | 0x0A06 => some { specPlain 0 0 with cflags := 1, args := [(0, 0xFFFFFFFF), (1, 0xFF)] }
  | 0x0B00 => some { specPlain 0 0 with args := argsTo 2 }
  | _ => none

/-! ### Checks 1 to 7 -/

/-- Is the open step of an operator's run an Equinox or recalibration step? -/
def State.inCalib (s : State) (c : Nat) : Bool := let r := s.runOf c; r.openStep.isSome && r.calibrate

/-- Check 3: reserved fields, misaligned offsets (R186), fields the opcode does not use, the row mask (R195), `accumulate` in a calibration step
(R200), the rounding of ADAMW (R215). -/
def OpDesc.reservedOk (d : OpDesc) (p : OpSpec) (calib : Bool) : Bool :=
  [(18, 6), (52, 12), (82, 14), (164, 4), (175, 17), (262, 10), (272, 6), (326, 10), (336, 4), (424, 24), (960, 64)].all (fun f => fld d f.1 f.2 == 0) &&
  (!d.rowMask || d.cls == 1 || d.cls == 2 || d.cls == 4) &&
  (p.floor || d.floorRaw == 0) && (p.purpose || d.purpose == 0) && (p.quantum || d.quantum == 0) && (p.nElem || d.nElem == 0) &&
  (p.kimg || (d.kimgRegion == 0 && d.kimgOffset == 0)) && d.cflags &&& p.cflags == d.cflags &&
  (List.range 14).all (fun j => let m := NMap.getD p.args j 0; d.arg j &&& m == d.arg j) &&
  !(isDw d.opcode && bitsOf d.cflags 1 1 == 1 && calib) && (d.opcode != 0x0500 || d.rounding == 0)

/-- Check 4 (R191). -/
def OpDesc.allOnes (d : OpDesc) (p : OpSpec) : Bool :=
  d.nIn == 15 || d.nOut == 7 || d.nElem == 2 ^ 40 - 1 || p.counts.any (fun j => d.arg j == 2 ^ 32 - 1)

/-- How many scale inputs an operator may have (R187, R200, R211): one for a dW, one for each XB16 sum across rows; none in a calibration step. -/
def OpDesc.scaleIns (d : OpDesc) (calib : Bool) : List Nat :=
  if calib then [0]
  else if isDw d.opcode then [1]
  else if d.opcode = 0x0401 || d.opcode = 0x0403 then [d.nOut - 1]
  else if d.opcode = 0x0406 then [0, 1]
  else [0]

/-- Check 5. POP has a tensor unless `to_mark` (R223). -/
def OpDesc.countsOk (d : OpDesc) (p : OpSpec) (calib : Bool) : Bool :=
  p.nOut.contains d.nOut && (p.nIn.any (fun n => (d.scaleIns calib).any (fun k => n + k + bit d.rowMask == d.nIn))) &&
  (d.opcode != 0x0801 || d.nOut == 1 - bitsOf d.cflags 1 1)

/-- May an exchange operator run outside a step (R193, R226)? -/
def State.outsideOk (s : State) (d : OpDesc) : Bool := match d.opcode with
  | 0x0902 => true
  | 0x0906 => true
  | 0x0907 => true
  | 0x0905 => let e := s.groupE (d.arg 0); e.valid && e.calib
  | _ => false

/-- The refusals of the step-control operators (R228, R313, R315, R321, R17, R19, R33, R77). -/
def State.stepControlCode (s : State) (c : Nat) (d : OpDesc) : Code :=
  let r := s.runOf c
  let opened := r.openStep.isSome
  let here := d.step == r.openStep.getD noStep
  if d.opcode = 0x0A04 then (if r.isOpen then (if here then cOk else cStepMismatch) else if d.step = noStep then cOk else cStepMismatch)
  else if !r.isOpen || (d.opcode != 0x0A03 && r.stepContext != c) then cStepNotOwner
  else if (s.runMe (s.ctx c).runSlot).isNone then cGroupNotMember
  else match d.opcode with
    | 0x0A00 =>
      if opened then cStepAlreadyOpen
      else if r.runHalted then cRunHalted
      else if !r.verified then cRunCheckpointDigest
      else if d.step != r.lastCommitted + 1 then cStepNumber
      else if 2 ^ 24 < d.arg 0 then cQuantumCountLimit else cOk
    | 0x0A03 => if opened && !here then cStepMismatch else cOk
    | 0x0A05 => if opened then cStepAlreadyOpen else if d.step != noStep then cStepMismatch else cOk
    | 0x0A06 => if opened then cStepAlreadyOpen else if d.step != noStep then cStepMismatch else cOk
    | _ => if !opened then cStepNotOpen else if here then cOk else cStepMismatch

/-- Check 6 (R193, R213, R215, R226, R229). -/
def State.stepCode (s : State) (c : Nat) (d : OpDesc) : Code :=
  let r := s.runOf c
  if d.cls = 0x0A then s.stepControlCode c d
  else match r.openStep with
    | some n =>
      if d.opcode = 0x0B00 || d.step != n then cStepMismatch
      else if (d.opcode == 0x040B || d.opcode == 0x0905) && !r.calibrate then cStepNotOpen else cOk
    | none =>
      if (1 ≤ d.cls && d.cls ≤ 5) || (d.cls == 9 && !s.outsideOk d) then cStepNotOpen
      else if d.step = noStep then cOk else cStepMismatch

/-- Is a purpose code reserved (Table 3.6)? -/
def purposeReserved (p : Nat) : Bool := p == 0 || (decide (0x0A ≤ p) && decide (p ≤ 0x3F)) || decide (0x80 ≤ p)

/-- Is a grid floor valid (R60)? -/
def floorOk (raw : Nat) (derived : Bool) : Bool :=
  if raw = derivedCode then derived else let g := signedOf 16 raw; decide (-448 ≤ g) && decide (g ≤ 256)

/-- Does an opcode accept a derived floor (R60)? -/
def takesDerived (op : Nat) : Bool := op / 256 == 3 || op / 256 == 4 || op == 0x0904

/-- Check 7. -/
def OpDesc.modeCode (d : OpDesc) (p : OpSpec) : Code :=
  firstCode [need (d.rounding ≤ 1) cRoundingReserved,
    need (!(p.purpose && d.rounding == 1 && purposeReserved d.purpose)) cPurposeReserved,
    need (!p.floor || floorOk d.floorRaw (takesDerived d.opcode)) cGridFloorRange,
    need (d.cls != 2 || [bitsOf (d.arg 2) 0 16, bitsOf (d.arg 2) 16 16, bitsOf (d.arg 3) 0 16].all (fun f => floorOk f false)) cGridFloorRange]

/-! ### Checks 8 to 10: the tensor list -/

/-- Is a region writable to an operator: `w`, unless it is the locked A set of an open step (R316)? -/
def State.regionWritable (s : State) (c r : Nat) : Bool := ((s.ctx c).region r).w && !((s.runOf c).lockedA c r)

/-- The codes of R164 for a range of a region. -/
def State.rangeCode (s : State) (c reg off len : Nat) (rd wr ex : Bool) : Code :=
  let e := (s.ctx c).region reg
  if !e.valid then cRegionInvalid
  else if e.size < off + len then cRegionBounds
  else if (rd && !e.r) || (wr && !s.regionWritable c reg) || (ex && !e.x) then cRegionRights
  else cOk

/-- The tensor list (R185). -/
def State.listOf (s : State) (e : OpEntry) : List TDesc :=
  let rd := s.rdOf e.ctx e.staged
  (List.range (e.d.nIn + e.d.nOut)).map (fun j => BitVec.ofNat 512 (rdLe rd e.d.tlRegion (e.d.tlOffset + 64 * j) 64))

/-- Check 8. -/
def State.listCode (s : State) (e : OpEntry) : Code :=
  let n := e.d.nIn + e.d.nOut
  if n = 0 then cOk else s.rangeCode e.ctx e.d.tlRegion e.d.tlOffset (64 * n) true false false

/-- Check 9 for one descriptor (R34, R188, R191). -/
def TDesc.fieldCode (t : TDesc) : Code :=
  firstCode [need ([(40, 24), (262, 10), (326, 10), (390, 10)].all (fun f => fld t f.1 f.2 == 0)) cDescReserved,
    need (!(t.dims ++ [t.pitch1, t.pitch2]).contains (2 ^ 32 - 1)) cFieldAllOnes,
    need (fmtKnown t.fmt) cFormatReserved,
    need (t.dims.all (fun n => decide (n < 2 ^ 31)) && decide (t.count ≤ 2 ^ 40)) cTensorShape]

/-- Check 10: is the operator a no-op (R190)? -/
def isNoop (d : OpDesc) (p : OpSpec) (ts : List TDesc) : Bool :=
  ts.any (fun t => t.dims.contains 0) || (p.nElem && d.nElem == 0) || p.counts.any (fun j => d.arg j == 0)

/-! ### Check 11: shapes -/

/-- R188 apart from the ranges of check 9: pitches, rows on 16-byte boundaries where they are pitched, the plane fields of planes that a tensor does not have. -/
def TDesc.layoutOk (t : TDesc) (scale : Bool) : Bool :=
  (t.pitch1 == 0 || decide (t.rowBytes ≤ 16 * t.pitch1)) && (t.pitch2 == 0 || decide (t.dim 1 * t.stride1 ≤ 16 * t.pitch2)) &&
  (t.dense || t.eOff % 16 == 0) &&
  (hasPlane2 t.fmt || (scale && t.fmt == fmtU8) || (t.bReg == 0 && t.bOff == 0)) && (isXB t.fmt || (t.xReg == 0 && t.xOff == 0))

/-- Dimensions from `k` on are unused. -/
def TDesc.upTo (t : TDesc) (k : Nat) : Bool := (t.dims.drop k).all (· == 1)

/-- The first block of member `j`'s share of `n` blocks among `g` (R282). -/
def shareLo (n g j : Nat) : Nat := j * n / g

/-- The element count of member `j`'s shard of `n` elements in blocks of `u` (R282). -/
def shardCount (n u g j : Nat) : Nat := let nb := cdiv n u; min n (u * shareLo nb g (j + 1)) - min n (u * shareLo nb g j)

/-- The most data cells one peer gets from this module in an instance (R278), both phases of a two-phase operator together: its own share of blocks, and this
module's. -/
def cellsToPeer (d : OpDesc) (ts : List TDesc) (g j : Nat) : Nat :=
  let a : TDesc := nth ts 0 0
  let seg := fun (t : TDesc) => cdiv (t.imageLen false) 512
  match d.opcode with
  | 0x0900 => ((if a.fmt = fmtXP40 then 3 else 1) + 3) * cdiv (cdiv a.count 256) g
  | 0x0901 => (if a.fmt = fmtXP40 then 3 else 1) * cdiv (cdiv a.count 256) g
  | 0x0902 => seg a
  | 0x0903 => a.rows * d.arg 1 * cdiv (spanBytes a 0 (a.dim 0)) 512
  | 0x0904 => (a.rows + (nth ts 1 0 : TDesc).rows) * cdiv (spanBytes a 0 (a.dim 0)) 512
  | 0x0905 => cdiv (shardCount a.count 256 g j * elemBits a.fmt / 8) 512 + 1
  | 0x0906 => seg a
  | 0x0908 => 2 * cdiv (cdiv a.count 32) g
  | _ => 0

/-- The slots of a run that are homed here in a context, in rising slot ID (R290). -/
def State.homeSlots (s : State) (c : Nat) : List Nat :=
  ((s.runOf c).expertSlots.filter (fun e => flag e.2 63 && s.isOwnRank (fld e.2 0 18) && fld e.2 32 20 == c)).map Prod.fst

/-- A permutation of 0 to 5 in an argument (R221). -/
def permOk (a : Nat) : Bool := decide (a < 2 ^ 18) && (List.range 6).all (fun d => (List.range 6).any (fun e => bitsOf a (3 * e) 3 == d))

/-- Do the shapes agree with the opcode? `x.ts` holds the tensors, `c` is the context. -/
def State.shapesOk (s : State) (c : Nat) (x : MathCtx) : Bool :=
  let d := x.d
  let a := x.inp 0
  let w := x.inp 1
  let o := x.out 0
  let r := s.runOf c
  let same := fun (p q : TDesc) => p.dims == q.dims
  let mask := fun (n : Nat) => !d.rowMask || (x.inp (d.nIn - 1)).count == n
  let cv := convArgs d
  let geo := fun (i k y : TDesc) => i.upTo 4 && k.upTo 4 && y.upTo 4 && i.dim 0 == k.dim 0 && y.dim 0 == k.dim 3 && y.dim 3 == i.dim 3 &&
    y.dim 2 == convLen (i.dim 2) (k.dim 2) cv.sh cv.ph cv.dh && y.dim 1 == convLen (i.dim 1) (k.dim 1) cv.sw cv.pw cv.dw
  let dw := fun (rows : Nat) (n : Nat) => (x.calib || (x.inp 2).count == cdiv n 256) && decide (rows ≤ fld r.rec_ 192 21)
  let vec := fun (t : TDesc) (k : Nat) => t.count == k && t.dim 0 == k
  let g := (s.groupE (d.arg 0)).size
  let me := (s.myIdx (d.arg 0)).getD 0
  let k := d.arg 1
  let route := fun (t y : TDesc) => t.upTo 2 && t.dim 0 == k + 2 && t.dim 1 == y.rows && decide (y.rows ≤ 2 ^ 24) && decide (k ≤ 64)
  match d.opcode with
  | 0x0100 => a.upTo 2 && w.upTo 2 && o.upTo 2 && w.dim 0 == a.dim 0 && o.dim 0 == w.dim 1 && o.dim 1 == a.dim 1 && mask (a.dim 1)
  | 0x0101 => a.upTo 2 && w.upTo 2 && o.upTo 2 && w.dim 1 == a.dim 0 && o.dim 0 == w.dim 0 && o.dim 1 == a.dim 1 && mask (a.dim 1)
  | 0x0102 => a.upTo 2 && w.upTo 2 && o.upTo 2 && w.dim 1 == a.dim 0 && o.dim 0 == a.dim 1 && o.dim 1 == w.dim 0 && mask (a.dim 1) &&
      dw (a.dim 0) o.count
  | 0x0103 => a.upTo 3 && w.upTo 3 && o.upTo 3 && w.dim 0 == a.dim 0 && w.dim 2 == a.dim 2 && o.dim 0 == w.dim 1 && o.dim 1 == a.dim 1 &&
      o.dim 2 == a.dim 2 && mask (a.dim 1 * a.dim 2)
  | 0x0108 => cv.ok && geo a w o && mask (o.dim 3 * o.dim 2 * o.dim 1)
  | 0x0109 => cv.ok && geo o w a && mask (o.dim 3 * o.dim 2 * o.dim 1)
  | 0x010A => cv.ok && geo a o w && mask (o.dim 2 * o.dim 1 * o.dim 0) && dw (a.dim 3) o.count
  | 0x0200 => a.upTo 3 && w.upTo 3 && same (x.inp 2) w && w.dim 0 == a.dim 0 && w.dim 2 == a.dim 2 && same o a && mask (a.dim 1 * a.dim 2)
  | 0x0201 => a.upTo 3 && w.upTo 3 && same (x.inp 2) w && w.dim 0 == a.dim 0 && w.dim 2 == a.dim 2 && same (x.inp 3) a && same (x.inp 4) a &&
      same o a && same (x.out 1) w && same (x.out 2) w && mask (a.dim 1 * a.dim 2)
  | 0x0301 => x.ts.all (fun t => t.count == d.nElem)
  | 0x0302 => x.ts.all (fun t => t.count == d.nElem)
  | 0x0303 => x.ts.all (fun t => t.count == d.nElem)
  | 0x0304 => x.ts.all (fun t => t.count == d.nElem) && decide (d.arg 0 ≤ 3)
  | 0x0305 => x.ts.all (fun t => t.count == d.nElem) && decide (d.arg 0 ≤ 3)
  | 0x0400 => vec w (a.dim 0) && same o a && mask a.rows
  | 0x0401 => vec w (a.dim 0) && same (x.inp 2) a && same o a && mask a.rows && (d.nOut < 2 || (vec (x.out 1) (a.dim 0) &&
      (x.calib || (x.inp 3).count == cdiv (a.dim 0) 256)))
  | 0x0402 => vec w (a.dim 0) && vec (x.inp 2) (a.dim 0) && same o a && mask a.rows
  | 0x0403 => vec w (a.dim 0) && same (x.inp 2) a && same o a && mask a.rows && (List.range (d.nOut - 1)).all (fun j =>
      vec (x.out (1 + j)) (a.dim 0) && (x.calib || (x.inp (3 + j)).count == cdiv (a.dim 0) 256))
  | 0x0404 => same o a && mask a.rows
  | 0x0405 => same w a && same o a && mask a.rows
  | 0x0406 => o.count == a.rows && mask a.rows && (x.nData < 2 || w.count == cdiv a.rows 256)
  | 0x0407 => o.count == a.rows && mask a.rows
  | 0x0408 => o.count == a.rows && mask a.rows
  | 0x0409 => let n := d.arg 0; decide (n ≤ 64) && decide (n ≤ a.dim 0) && mask a.rows && [o, x.out 1].all (fun t => t.dim 0 == n && t.rows == a.rows)
  | 0x040B => o.count == cdiv a.count 256 && mask a.rows
  | 0x0500 => let wt := x.inp 3; [w, x.inp 2, o, x.out 1, x.out 2].all (same wt) && a.count == wt.count &&
      (d.nIn < 5 || (x.inp 4).count == cdiv wt.count 256)
  | 0x0501 => a.count == o.count && o.count == cdiv w.count 256
  | 0x0600 => a.count == d.nElem && o.count == d.nElem
  | 0x0601 => a.count == d.nElem && o.count == d.nElem && w.count == cdiv d.nElem 256
  | 0x0602 => a.count == d.nElem && o.count == d.nElem
  | 0x0603 => a.count == d.nElem && o.count == d.nElem
  | 0x0700 => same o a
  | 0x0701 => o.dim 0 == a.dim 0 && w.count == o.rows
  | 0x0702 => o.dim 0 == a.dim 0 && w.count == a.rows
  | 0x0703 => let t := x.inp 2; t.dim 0 == a.dim 0 && w.count == a.rows && same o t &&
      (o.eReg, o.eOff, o.bReg, o.bOff, o.xReg, o.xOff, o.pitch1, o.pitch2) == (t.eReg, t.eOff, t.bReg, t.bOff, t.xReg, t.xOff, t.pitch1, t.pitch2)
  | 0x0704 => permOk (d.arg 0) && (List.range 6).all (fun e => o.dim e == a.dim (bitsOf (d.arg 0) (3 * e) 3))
  | 0x0705 => o.dim 0 == a.dim 1 && o.dim 1 == a.dim 0 && (o.dims.drop 2) == (a.dims.drop 2)
  | 0x0900 => same o a
  | 0x0901 => o.count == shardCount a.count 256 g me
  | 0x0902 => a.count == shardCount o.count 256 g me
  | 0x0903 => let h := (s.homeSlots c).length
      route w a && decide (spanBytes a 0 (a.dim 0) ≤ 2 ^ 17) && o.dim 0 == a.dim 0 && o.rows == h * d.arg 2 && (x.out 1).dim 0 == a.dim 0 && (x.out 2).count == h &&
      (x.out 3).dim 0 == 5 && (x.out 3).rows == o.rows + (x.out 1).rows
  | 0x0904 => let t := x.inp 4
      route t o && w.dim 0 == a.dim 0 && o.dim 0 == a.dim 0 && (x.inp 2).dim 0 == 5 && (x.inp 2).rows == a.rows + w.rows &&
      (x.inp 3).dim 0 == k && (x.inp 3).rows == o.rows && decide (spanBytes a 0 (a.dim 0) ≤ 2 ^ 17)
  | 0x0905 => o.count == shardCount a.count 256 g me
  | 0x0908 => same o a
  | 0x0B00 => decide (d.arg 0 ≤ 63) && decide (d.arg 1 ≤ 799)
  | _ => true

/-- The group checks of an exchange operator (R271, R274). -/
def State.groupCode (s : State) (c : Nat) (e : OpEntry) : Code :=
  let d := e.d
  let g := s.groupE (d.arg 0)
  if isGroupOp d.opcode || d.opcode = 0x0501 || d.opcode = 0x040B then
    let id := if d.opcode = 0x040B then d.arg 1 else d.arg 0
    let g := if d.opcode = 0x040B then s.groupE (d.arg 1) else g
    if (s.myIdx id).isNone || g.slot != (s.ctx c).runSlot then cGroupNotMember
    else if isGroupOp d.opcode && 16383 < e.xseq then cGroupSeqLimit else cOk
  else if d.opcode = 0x0906 || d.opcode = 0x0907 then (if 16383 < e.xseq then cGroupSeqLimit else cOk)
  else cOk

/-! ### Check 12: formats -/

/-- A conversion target of Table 2.6 other than XB16: CONVERT has no scale input that would give its exponents, so XB16 is not allowed there though Table 8.9
names every target (DESIGN CHOICE, log entry 56). -/
def isTarget (f : Nat) : Bool := fmtKnown f && !isXB f && f != fmtG128

/-- The formats of kernel ports (R144). -/
def isPort (f : Nat) : Bool := fmtKnown f && !isXB f && f != fmtG128 && f != fmtPair

/-- Values that a row operator may read: any format but G128, which only its own operators read (R52). -/
def isReadable (f : Nat) : Bool := fmtKnown f && f != fmtG128

/-- What may enter a grid sum: a readable format other than the integer ones (R34). -/
def isSummed (f : Nat) : Bool := isReadable f && !isIntFmt f

/-- Is input `i` of a class 0x04xx operator a term or a factor of a term of its grid sums (R211)? -/
def rowSums (op i : Nat) : Bool := match op with
  | 0x0400 => i == 0
  | 0x0401 => true
  | 0x0402 => i == 0
  | 0x0403 => true
  | 0x0405 => true
  | 0x0406 => true
  | _ => false

/-- A floating-point gate or moment format. -/
def isFloat16or32 (f : Nat) : Bool := f == fmtB32 || f == fmtBf || f == fmtB16f

/-- The turner's formats (R179). -/
def isTurner (f : Nat) : Bool := f == fmtB16f || f == fmtBf || f == fmtE4M3 || f == fmtE5M2

/-- Elements of a slice per cell (Table 5.2). -/
def perCell (f : Nat) : Nat := kBlock f / 32

/-- A class 0x01xx input: an array format, of the class of input 0, with its blocks along the reduction axis (R106, R107, R199). -/
def arrayInCode (x : MathCtx) (i : Nat) : Code :=
  let t := x.inp i
  let blockBad := isBlock32 t.fmt && (match x.d.opcode with
    | 0x0102 => i == 1
    | 0x0109 => i == 1
    | 0x010A => true
    | _ => false)
  if !isArrayIn t.fmt || (i == 1 && kBlock t.fmt != kBlock (x.inp 0).fmt) then cArrayFormatPair
  else if blockBad then cArrayBlockAxis
  else if x.d.opcode = 0x0108 && i == 0 && bitsOf x.d.cflags 0 1 == 1 && t.dim 0 * (convArgs x.d).sw % perCell t.fmt != 0 then cWindowShape
  else cOk

/-- May the tensor at list position `i` have its format? -/
def formatOk (x : MathCtx) (i : Nat) : Bool :=
  let d := x.d
  let t : TDesc := nth x.ts i 0
  let f := t.fmt
  let out := decide (d.nIn ≤ i)
  let j := i - d.nIn
  let a := (x.inp 0).fmt
  if d.rowMask && i + 1 == d.nIn then f == fmtU8
  else match d.opcode / 256 with
  | 1 => if isDw d.opcode then (if !out then i < 2 || f == fmtU8
        else if x.calib then f == fmtBf else f == (if bitsOf d.cflags 1 1 == 1 then fmtXP40 else fmtXB16))
      else !out || f == fmtG128 || isTarget f
  | 2 => [fmtB16f, fmtE4M3, fmtE5M2].contains f && elemBits f == elemBits a && [fmtB16f, fmtE4M3, fmtE5M2].contains (bitsOf (d.arg 3) 16 8) &&
      elemBits (bitsOf (d.arg 3) 16 8) == elemBits a
  | 3 => isPort f
  | 4 => match d.opcode with
    | 0x0408 => if out then f == fmtU32 else isReadable f
    | 0x0409 => if out then (if j = 0 then isTarget f else f == fmtU32) else isReadable f
    | 0x040B => if out then f == fmtU8 else f == fmtB32 || f == fmtBf
    | 0x0406 => if out then (if x.nData = 2 then f == fmtXB16 else f == fmtG128 || isTarget f) else if i = 1 then f == fmtU8 else isSummed f
    | o => if out then (if j = 0 then isTarget f else if x.calib then f == fmtBf else f == fmtXB16)
        else if rowIns o ≤ i then f == fmtU8 else if rowSums o i then isSummed f else isReadable f
  | 5 => if d.opcode = 0x0500 then (if out then (if j = 2 then f == fmtPair else f == fmtBf)
        else match i with
          | 0 => isXB f
          | 3 => f == fmtPair
          | 4 => f == fmtU8
          | _ => f == fmtBf)
      else if out then f == fmtU8 else if i = 0 then f == fmtU8 else isXB f
  | 6 => match d.opcode with
    | 0x0600 => if out then isTarget f else true
    | 0x0601 => if out then f == fmtXB16 else if i = 1 then f == fmtU8 else true
    | 0x0602 => if out then isArrayIn f else f == fmtPair
    | _ => if out then f == fmtPair else true
  | 7 => match d.opcode with
    | 0x0701 => if i = 1 then f == fmtU32 || f == fmtI32 else f == a
    | 0x0702 => if i = 1 then f == fmtU32 || f == fmtI32 else f == a
    | 0x0703 => if i = 1 then f == fmtU32 || f == fmtI32 else if i = 0 then isSummed f else isTarget f && !isIntFmt f && f == (x.inp 2).fmt
    | 0x0705 => true
    | _ => f == a
  | 9 => match d.opcode with
    | 0x0900 => if out then f == fmtXP40 else isXB f
    | 0x0901 => if out then f == fmtXP40 else isXB f
    | 0x0902 => f == a
    | 0x0903 => if !out then (if i = 0 then !isXB f else f == fmtU32) else if j < 2 then f == a else f == fmtU32
    | 0x0904 => if out then isTarget f || f == fmtG128 else match i with
      | 0 => isSummed f && !isXB f
      | 1 => f == a
      | 3 => isFloat16or32 f
      | _ => f == fmtU32
    | 0x0905 => if out then f == fmtB32 else f == fmtB32 || f == fmtBf
    | 0x0908 => f == fmtG128
    | _ => true
  | _ => true

/-- The turner's formats of TRANSPOSE, and of the destination of a transposed POP or PEEK (R179). -/
def turnerOk (x : MathCtx) (i : Nat) : Bool :=
  let f := (nth x.ts i 0 : TDesc).fmt
  match x.d.opcode with
  | 0x0705 => if i = 0 then isTurner f else f == (x.inp 0).fmt || f == fmtB16
  | 0x0801 => bitsOf x.d.cflags 0 1 == 0 || isTurner f || f == fmtB16
  | 0x0802 => bitsOf x.d.cflags 0 1 == 0 || isTurner f || f == fmtB16
  | _ => true

/-- Check 12 for one descriptor. -/
def formatCode (x : MathCtx) (p : OpSpec) (i : Nat) : Code :=
  firstCode [need (formatOk x i) cFormatNotAllowed,
    fun _ => if x.d.cls = 1 && i < 2 && decide (i < x.d.nIn) then arrayInCode x i else cOk,
    need (turnerOk x i) cTurnerFormat,
    need (!(p.floor && x.d.floorRaw == derivedCode && decide (x.d.nIn ≤ i) && (nth x.ts i 0 : TDesc).fmt == fmtG128)) cGridFloorRange]

/-! ### Check 13: limits -/

/-- The terms of the longest grid sum of an operator (R61). That of SCATTER_ADD_ROWS depends on its indices: counted as all source rows and the old value
(DESIGN CHOICE, log entry 56). -/
def longestSum (x : MathCtx) : Nat :=
  let a := x.inp 0
  match x.d.opcode / 256 with
  | 1 => arrK x
  | 2 => max (a.dim 0) (max ((x.inp 1).dim 1) (if x.d.opcode = 0x0201 then a.dim 1 else 0))
  | 4 => if [0x0407, 0x0408, 0x0409, 0x040B].contains x.d.opcode then 0 else max (a.dim 0) (if 1 < x.d.nOut then a.rows else 0)
  | 7 => if x.d.opcode = 0x0703 then a.rows + 1 else 0
  | 9 => if [0x0900, 0x0901, 0x0908].contains x.d.opcode then x.d.arg 1 else 0
  | _ => 0

/-- Must the operator carry a quantum (R194)? QUANT_XB16 serves the update path too, which carries none. -/
def needsQuantum (x : MathCtx) : Bool := x.d.opcode != 0x0601 &&
  (x.ts.drop x.d.nIn).any (fun t => t.fmt == fmtXB16 || (t.fmt == fmtXP40 && isDw x.d.opcode))

/-- R194. The run keeps the quantum count less 1, as its step record does (Table 11.6). -/
def State.quantumOk (s : State) (c : Nat) (x : MathCtx) : Bool :=
  let r := s.runOf c
  if x.d.quantum = noQuantum then !needsQuantum x else r.openStep.isSome && decide (x.d.quantum ≤ r.quanta)

/-- The port rules of R148 for one instruction: the port exists and is of the instruction's kind (R144); no masked store to a block format; an argmax index
goes to a U32 or I32 port (R139); an RSTORE stays within its tensor. -/
def portOk (x : MathCtx) (k : KImage) (v : VI) : Bool :=
  let n := x.d.nElem
  match v.op with
  | 0x10 => decide (v.port < x.d.nIn) && (x.inp v.port).count == n
  | 0x11 => decide (v.port < x.d.nIn) && (x.inp v.port).count != n
  | 0x12 => decide (v.port < x.d.nOut) && (x.out v.port).count == n && !(isBlock32 (x.out v.port).fmt && v.msk != 0)
  | 0x88 =>
    let q := bitsOf v.imm 4 3
    let o := x.out q
    decide (q < x.d.nOut) && o.count != n && decide (bitsOf v.imm 16 16 < o.count) &&
      !(k.kindOf v.accIx == .argmax && bitsOf v.imm 3 1 == 1 && o.fmt != fmtU32 && o.fmt != fmtI32)
  | _ => true

/-- The checks of R148 on a kernel image, in the order of Table 6.8. -/
def State.kernelCode (s : State) (e : OpEntry) (x : MathCtx) : Code :=
  let d := x.d
  let k := kimageOf x.rd d.kimgRegion d.kimgOffset
  let all := k.pro ++ k.body ++ k.epi
  let terms := fun (a : Nat) => ((k.body.filter (fun v => (v.op == 0x80 || v.op == 0x81) && v.accIx == a)).length) * d.nElem
  firstCode [fun _ => s.rangeCode e.ctx d.kimgRegion d.kimgOffset 16 false false true,
    need (k.magic == 0x564B && k.resOk) cKernelEncoding,
    need (k.level == Config.numericsLevel) cKernelLevel,
    need k.sizeOk cKernelSize,
    fun _ => s.rangeCode e.ctx d.kimgRegion d.kimgOffset k.bytes false false true,
    need (all.all VI.encOk && k.sectionsOk && k.accOk) cKernelEncoding,
    need (k.nIn == d.nIn && k.nOut == d.nOut && all.all (portOk x k)) cKernelPort,
    need (!(k.body.any (fun v => v.op == 0x84) && decide (2 ^ 32 - 1 < d.nElem))) cKernelIndexWidth,
    need ((List.range 4).all (fun a => decide (terms a ≤ 2 ^ 24))) cGridTermLimit,
    need (k.hasAcc || d.floorRaw != derivedCode) cGridFloorRange]

/-! ### Checks 14 and 15: planes -/

/-- The planes of a tensor of an operator. -/
def OpEntry.planesAt (e : OpEntry) (i : Nat) : List (Nat × Nat × Nat) := (nth e.ts i 0 : TDesc).planes (e.scaleAt i)

/-- Check 14 for one tensor: an `accumulate` output is read too (R200). -/
def State.planesCode (s : State) (e : OpEntry) (i : Nat) : Code :=
  let out := decide (e.d.nIn ≤ i)
  let rd := !out || decide (i < e.readTensors.length)
  firstCode ((e.planesAt i).map (fun p => fun _ => s.rangeCode e.ctx p.1 p.2.1 p.2.2 rd out false))

/-- The byte ranges of a tensor in device addresses: its rows where they do not touch. -/
def State.segsOf (s : State) (c : Nat) (t : TDesc) (scale : Bool) : List (Nat × Nat) :=
  let x := s.ctx c
  (t.planes scale).flatMap (fun p =>
    let a := (x.region p.1).base + p.2.1
    if p.1 == t.eReg && p.2.1 == t.eOff && p.2.2 == t.planeBytes && !t.dense then (List.range t.rows).map (fun r => (a + t.rowOff r, t.rowBytes))
    else [(a, p.2.2)])

/-- Do two lists of ranges share a byte? -/
def segsMeet (a b : List (Nat × Nat)) : Bool := a.any (fun p => b.any (fun q => rangesMeet p.1 p.2 q.1 q.2))

/-- The device ranges of the tensor at list position `i`. -/
def State.segsAt (s : State) (e : OpEntry) (i : Nat) : List (Nat × Nat) := s.segsOf e.ctx (nth e.ts i 0) (e.scaleAt i)

/-- Is an output identical to input `j` so far as R192 and R221 allow? -/
def samePlanes (d : OpDesc) (j : Nat) (o t : TDesc) : Bool :=
  let eq := fld o 64 448 == fld t 64 448
  match d.opcode with
  | 0x0600 => eq && elemBits o.fmt == elemBits t.fmt && !hasPlane2 o.fmt && !hasPlane2 t.fmt
  | 0x0703 => j == 2 && eq && o.fmt == t.fmt
  | _ => d.cls == 3 && eq && o.fmt == t.fmt && t.count == d.nElem

/-- Check 15: output planes against one another and against input planes. -/
def State.overlaps (s : State) (e : OpEntry) : Bool :=
  let outs := (List.range e.d.nOut).map (· + e.d.nIn)
  let own := outs.any (fun i => let l := e.planesAt i; let x := s.ctx e.ctx
    (List.range l.length).any (fun j => (List.range j).any (fun k =>
      let p := nth l j (0, 0, 0); let q := nth l k (0, 0, 0)
      rangesMeet ((x.region p.1).base + p.2.1) p.2.2 ((x.region q.1).base + q.2.1) q.2.2)))
  own || outs.any (fun i => outs.any (fun j => decide (j < i) && segsMeet (s.segsAt e i) (s.segsAt e j)) ||
    (List.range e.d.nIn).any (fun j => !samePlanes e.d j (nth e.ts i 0) (nth e.ts j 0) && segsMeet (s.segsAt e i) (s.segsAt e j)))

/-! ### The order of Table 8.3 -/

/-- What checks 1 to 15 say. -/
inductive Verdict where
  | pass | noop
  | reject (code : Code)
deriving DecidableEq, Repr

/-- Checks 1 to 8. -/
def State.earlyCode (s : State) (e : OpEntry) (p : OpSpec) : Code :=
  let d := e.d
  let calib := s.inCalib e.ctx
  firstCode [need (d.context == e.ctx) cContextMismatch,
    need (d.reservedOk p calib) cDescReserved,
    need (!d.allOnes p) cFieldAllOnes,
    need (d.countsOk p calib) cTensorCount,
    fun _ => s.stepCode e.ctx d,
    fun _ => d.modeCode p,
    fun _ => s.listCode e]

/-- Checks 11 to 15 on an entry that holds its tensor list. -/
def State.lateCode (s : State) (e : OpEntry) (p : OpSpec) : Code :=
  let x := s.mathCtx e
  let n := e.ts.length
  let each := fun (f : Nat → Code) => fun (_ : Unit) => firstCode ((List.range n).map (fun i => fun _ => f i))
  firstCode [fun _ => s.groupCode e.ctx e,
    need ((List.range n).all (fun i => (nth e.ts i 0 : TDesc).layoutOk (e.scaleAt i)) && s.shapesOk e.ctx x &&
      decide (cellsToPeer e.d e.ts (s.groupE (e.d.arg 0)).size ((s.myIdx (e.d.arg 0)).getD 0) < 2 ^ 32)) cTensorShape,
    each (formatCode x p),
    need (longestSum x ≤ 2 ^ 24) cGridTermLimit,
    need (!p.quantum || s.quantumOk e.ctx x) cQuantumRange,
    fun _ => if e.d.opcode = 0x0300 then s.kernelCode e x else cOk,
    each (s.planesCode e),
    need (!s.overlaps e) cTensorOverlap]

/-- Checks 1 to 15 (R189): the entry with its tensor list, and the verdict. -/
def State.check (s : State) (e : OpEntry) : OpEntry × Verdict := match opSpec e.d.opcode with
  | none => (e, .reject cOpcodeUndefined)
  | some p =>
    let c := s.earlyCode e p
    if c != cOk then (e, .reject c)
    else
      let e := { e with tensors := s.listOf e }
      let c := firstCode (e.ts.map (fun t => fun _ => t.fieldCode))
      if c != cOk then (e, .reject c)
      else if isNoop e.d p e.ts then (e, .noop)
      else
        let c := s.lateCode e p
        (e, if c = cOk then .pass else .reject c)

/-! ### Check 16 -/

/-- The length of a stack's backing store (R171). -/
def Ctx.stackSize (x : Ctx) : Nat := sumOf ((x.regions.filter (fun (e : RegionE) => e.valid && e.stk)).map RegionE.size)

/-- The length of the frame of a tensor: header and payload, to the next multiple of 4 KiB (R172). -/
def frameLen (payload : Nat) : Nat := cdiv (64 + payload) 4096 * 4096

/-- The payload of a tensor's frame: its planes in order, the element plane dense (log entry 27). -/
def TDesc.payload (t : TDesc) : Nat := t.denseLen + t.blockBytes false + t.auxBytes

/-- The shape a POP or PEEK destination must have: the frame's, with dimensions 0 and 1 exchanged under `transpose` (R173, R179). -/
def destShape (f : Frame) (turn : Bool) : List Nat :=
  if turn then [nth f.shape 1 1, nth f.shape 0 1] ++ f.shape.drop 2 else f.shape

/-- The depth of the frame a POP or PEEK reads; for POP `to_mark` the depth of the newest mark. -/
def stackDepth (d : OpDesc) (k : Stack) : Option Nat :=
  if d.opcode = 0x0802 then (if d.arg 0 < k.frames.length then some (d.arg 0) else none)
  else if bitsOf d.cflags 1 1 == 1 then k.frames.findIdx? (·.mark)
  else if k.frames.isEmpty then none else some 0

/-- The checks of the stack operators (R171 to R174, R179). -/
def State.stackCode (s : State) (e : OpEntry) : Code :=
  let d := e.d
  let k := s.stackOf e.ctx
  let room := fun (len : Nat) => decide (k.top + len ≤ (s.ctx e.ctx).stackSize) && decide (k.frames.length < 2 ^ 20) && decide (0 < (s.ctx e.ctx).stackSize)
  match d.opcode with
  | 0x0800 => if room (frameLen (nth e.ts 0 0 : TDesc).payload) then cOk else cStackCapacity
  | 0x0803 => if room 4096 then cOk else cStackCapacity
  | _ => match stackDepth d k with
    | none => cStackEmpty
    | some n =>
      if k.frames.length - n ≤ k.floor then cStackStepFloor
      else if d.nOut = 0 then cOk
      else match k.frames[n]? with
        | none => cStackEmpty
        | some f =>
          let t : TDesc := nth e.ts 0 0
          let turn := bitsOf d.cflags 0 1 == 1
          if turn && !(isTurner f.fmt.toNat && (t.fmt == f.fmt.toNat || t.fmt == fmtB16)) then cTurnerFormat
          else if f.mark || f.tensorId.toNat != t.tid || t.dims != destShape f turn || !(t.fmt == f.fmt.toNat || (turn && t.fmt == fmtB16)) then
            cStackFrameMismatch
          else cOk

/-- The pages a frame of `len` bytes at a stack offset lies on. -/
def pagesOf (off len : Nat) : List Nat := if len = 0 then [] else (List.range ((off + len - 1) / 65536 - off / 65536 + 1)).map (· + off / 65536)

/-- The frame an operator of class 0x08xx makes, copies or marks: offset and length. -/
def State.stackSpan (s : State) (e : OpEntry) : Nat × Nat :=
  let k := s.stackOf e.ctx
  match e.d.opcode with
  | 0x0800 => (k.top, frameLen (nth e.ts 0 0 : TDesc).payload)
  | 0x0803 => (k.top, 4096)
  | _ => match (stackDepth e.d k).bind (fun n => k.frames[n]?) with
    | some f => (f.off, f.len)
    | none => (0, 0)

/-- Does a scale input serve (R82)? `tid` names the output it scales. -/
def scaleFits (x : MathCtx) (calibs : List Nat) (i : Nat) (tid : Option Nat) : Bool :=
  let r := scaleOf (x.inp i) x.rd
  r.usable calibs x.d.step && (match tid with
    | some t => r.tid == t
    | none => true)

/-- The scale inputs of an operator with the outputs they scale; in a calibration step the gradient outputs are bfloat16 and take none (R200). -/
def scaleUses (x : MathCtx) : List (Nat × Option Nat) :=
  let d := x.d
  match d.opcode with
  | 0x0601 => [(1, some (x.out 0).tid)]
  | 0x0501 => [(0, none)]
  | o => if x.calib then [] else match o with
    | 0x0102 => [(2, some (x.out 0).tid)]
    | 0x010A => [(2, some (x.out 0).tid)]
    | 0x0406 => if (x.out 0).fmt = fmtXB16 then [(1, some (x.out 0).tid)] else []
    | 0x0401 => if d.nOut = 2 then [(3, some (x.out 1).tid)] else []
    | 0x0403 => (List.range (d.nOut - 1)).map (fun j => (3 + j, some (x.out (1 + j)).tid))
    | _ => []

/-- Does an operator read or write XB16: in a tensor of its list, or as the contributions it forms (R22, R82, R200)? -/
def usesXB16 (x : MathCtx) : Bool := x.ts.any (fun t => t.fmt == fmtXB16) || !(scaleUses x).isEmpty

/-- The records that an operator's XB16 tensors need in an open step (R82). -/
def State.scaleCode (s : State) (e : OpEntry) (x : MathCtx) : Code :=
  let slot := (s.ctx e.ctx).runSlot
  let r := s.run slot
  firstCode [need (!(r.scaleLost && usesXB16 x)) cScaleStateAbsent,
    need ((scaleUses x).all (fun u => scaleFits x r.calibSteps u.1 u.2)) cScaleStateAbsent,
    need (match r.openStep with
      | some n => (x.ts.filter (fun t => t.fmt == fmtXB16)).all (fun t => s.listedFits slot n t.tid)
      | none => true) cScaleStateAbsent]

/-- Are the headers of an XB16 or XP40 tensor in the range of R47? -/
def headersOk (rd : Rd) (t : TDesc) : Bool :=
  (List.range t.blocks).all (fun b => let z := signedOf 16 (bitsOf (t.header rd b) 0 16); decide (-149 ≤ z) && decide (z ≤ 88))

/-- The slots a DISPATCH names: valid, and of its own run where they are homed here (R249). -/
def State.slotsCode (s : State) (e : OpEntry) (x : MathCtx) : Code :=
  let t := x.inp 1
  let k := e.d.arg 1
  let r := s.runOf e.ctx
  let ids := (List.range t.rows).flatMap (fun i => (List.range k).map (fun j => t.code x.rd (j + t.dim 0 * i)))
  let ent := fun (i : Nat) => NMap.getD r.expertSlots i 0
  firstCode [need (ids.all (fun i => flag (ent i) 63)) cSlotInvalid,
    need (ids.all (fun i => !s.isOwnRank (fld (ent i) 0 18) || (s.ctx (fld (ent i) 32 20)).runSlot == (s.ctx e.ctx).runSlot)) cSlotForeign]

/-- Check 16 (R189), in the order of its row. -/
def State.startCode (s : State) (e : OpEntry) : Code :=
  let x := s.mathCtx e
  let d := e.d
  let r := s.runOf e.ctx
  let acc := isDw d.opcode && bitsOf d.cflags 1 1 == 1
  let o := x.out 0
  let sc := scaleOf (x.inp 2) x.rd
  firstCode [fun _ => s.scaleCode e x,
    fun _ => if d.cls = 8 then s.stackCode e else cOk,
    need (e.readTensors.all (fun t => !isXB t.fmt || headersOk x.rd t)) cXbExponentRange,
    need (!acc || (List.range o.blocks).all (fun b => signedOf 16 (bitsOf (o.header x.rd b) 0 16) == sc.exponent b)) cXbExponentMismatch,
    need (!(d.opcode == 0x0300 && r.replay) ||
      refKernel r.refEntries (sha512 (rdBytes x.rd d.kimgRegion d.kimgOffset (kimageOf x.rd d.kimgRegion d.kimgOffset).bytes))) cKernelNotInLineage,
    need (!d.gather || ([0x0100, 0x0101, 0x0108].contains d.opcode && ((x.inp 1).planes false).all (fun p => !s.regionWritable e.ctx p.1))) cGatherNotShared,
    fun _ => if d.opcode = 0x0903 then s.slotsCode e x else cOk]

/-! ### Core counts (Table 9.6) -/

/-- The strips of `n` elements (R197). -/
def strips (n : Nat) : Nat := cdiv n 2048

/-- The core count c of an operator, at least 1 where its class has cores. -/
def State.coreNeed (s : State) (e : OpEntry) : Nat :=
  let x := s.mathCtx { e with coreCount := 1 }
  let d := e.d
  let cap := fun (n : Nat) => max 1 (min 800 n)
  match d.cls with
  | 1 => let p := arrPlan x; cap ((if d.gather then p.outs else p.tiles) * max 1 (p.nblk / 8))
  | 2 => let p := mmPlan ((x.inp 0).dim 2) ((x.inp 0).dim 1) ((x.inp 1).dim 1) ((x.inp 0).dim 0) false (kBlock (x.inp 0).fmt) 1; cap (p.tiles * max 1 (p.nblk / 8))
  | 3 => cap (strips d.nElem)
  | 4 => cap (x.inp 0).rows
  | 5 => cap (strips (if d.opcode = 0x0501 then (x.out 0).count else (x.inp 3).count))
  | 6 => cap (strips d.nElem)
  | 7 => match d.opcode with
    | 0x0701 => cap (x.out 0).rows
    | 0x0702 => cap (x.inp 0).rows
    | 0x0703 => cap (x.inp 0).rows
    | _ => cap (strips (x.out 0).count)
  | 8 => let q := s.stackSpan e; cap (pagesOf q.1 q.2).length
  | 9 => 800
  | 0x0B => 1
  | _ => 0

end Sys2Proof.Machine
end

