-- ==== Sys2Proof/Machine/Timing.lean ====
section
/-! DEFINITION. What an operator computes and how long it takes: the body of each opcode with arithmetic of its own, T_body (R196, R202, R206, R209, R214,
R218, R219, R222, R224, R227, R229), the watchdog's bound (R248, R351). -/

namespace Sys2Proof.Machine

/-- The body of an operator whose results depend on its tensors alone (classes 0x01xx to 0x07xx); SCALE_UPDATE and SCALE_CALIBRATE take the maximum across
shards. -/
def bodyOf (x : MathCtx) (lnew : List Int) (lmax : Int) : Body := match x.d.opcode with
  | 0x0200 => attnFwdBody x
  | 0x0201 => attnBwdBody x
  | 0x0300 => customBody x
  | 0x0406 => reduceSumBody x
  | 0x040B => scaleFinish x lnew lmax
  | 0x0500 => adamBody x
  | 0x0501 => scaleFinish x lnew lmax
  | 0x0700 => copyBody x
  | 0x0701 => gatherBody x
  | 0x0702 => scatterBody x
  | 0x0703 => scatterAddBody x
  | 0x0704 => permuteBody x
  | 0x0705 => transposeBody x
  | _ => match x.d.cls with
    | 1 => arrBody x
    | 3 => libBody x
    | 4 => rowBody x
    | 6 => cvtBody x
    | _ => {}

/-! ### Exchange operators (R227, R272, R285) -/

/-- The cell bytes of `n` payload bytes cut into segments of 512 bytes. -/
def cellBytes (n : Nat) : Nat := 544 * (n / 512) + (if n % 512 = 0 then 0 else 32 + up32 (n % 512))

/-- The bytes of a row as DISPATCH and COMBINE carry it: its element bytes and its block entries (R290). -/
def TDesc.wireRow (t : TDesc) : Nat := spanBytes t 0 (t.dim 0)

/-- V × σ of an exchange operator, times the group size (Tables 8.12, 10.10). -/
def State.sentBytes (s : State) (e : OpEntry) : Nat × Nat :=
  let x := s.mathCtx e
  let d := e.d
  let a := x.inp 0
  let o := x.out 0
  let g := (s.groupE (d.arg 0)).size
  let nb := cdiv a.count 256
  let bIn := if a.fmt = fmtXB16 then 544 else 1376
  match d.opcode with
  | 0x0900 => (2 * (g - 1) * (nb * (bIn + 1376) / 2 + 32 * g), g)
  | 0x0901 => ((g - 1) * (nb * bIn + 32 * g), g)
  | 0x0902 => ((g - 1) * (544 * cdiv (o.imageLen false) 512 + 32 * g), g)
  | 0x0903 =>
    let t := x.inp 1
    let k := d.arg 1
    let far := (List.range t.rows).flatMap (fun i => (List.range k).filter (fun j =>
      !s.isOwnRank (fld (NMap.getD (s.runOf e.ctx).expertSlots (t.code x.rd (j + t.dim 0 * i)) 0) 0 18)))
    (far.length * cellBytes a.wireRow + 32 * (g - 1), 1)
  | 0x0904 =>
    let m := x.inp 2
    let far := (List.range m.rows).filter (fun i => let r := m.code x.rd (5 * i)
      (s.idxOf (d.arg 0) r).isSome && !s.isOwnRank r)
    (far.length * cellBytes a.wireRow + 32 * (g - 1), 1)
  | 0x0905 => ((g - 1) * (544 * cdiv (a.imageLen false) 512 + 64 * g), g)
  | 0x0906 => (cellBytes (a.imageLen false) + 32, 1)
  | 0x0908 => (2 * (g - 1) * (cdiv a.count 32 * 544 + 32 * g), g)
  | _ => (0, 1)

/-- The value p of R227: the UP ports of the group's plan mask, or of the route to the peer's site (R272). -/
def State.planPorts (s : State) (e : OpEntry) : Nat :=
  let mask : Nat := if isGroupOp e.d.opcode then (NMap.getD s.links.planMasks (e.d.arg 0) 0).toNat
    else match s.rankSite (e.d.arg 0 % 2 ^ 18) with
      | some t => fld (s.routeTo t) 0 32
      | none => 0
  ((List.range 32).filter (fun p => s.fabricUp p && ((mask == 0 && isGroupOp e.d.opcode) || bitsOf mask p 1 == 1))).length

/-- T_body of R227; with no usable port p counts as 1 (DESIGN CHOICE, log entry 28). -/
def State.exchangeT (s : State) (e : OpEntry) : Nat := let q := s.sentBytes e; 256 + cdiv (q.1 * 17) (1000 * max 1 e.ports * max 1 q.2)

/-- T_body of a stack operator (R224). -/
def State.stackT (s : State) (e : OpEntry) : Nat :=
  let q := s.stackSpan e
  let f := (pagesOf q.1 q.2).length
  let t : TDesc := nth e.ts 0 0
  let bytes := match e.d.opcode with
    | 0x0800 => t.payload
    | 0x0803 => 0
    | _ => if e.d.nOut = 0 then 0 else match (stackDepth e.d (s.stackOf e.ctx)).bind (fun n => (s.stackOf e.ctx).frames[n]?) with
      | some g => g.bytes
      | none => 0
  let beta := if e.d.opcode != 0x0800 && bitsOf e.d.cflags 0 1 == 1 then 128 else 256
  48 + (if bytes = 0 then 0 else cdiv bytes (beta * max 1 (min f 800)))

/-- T_body of an operator that has its core set. -/
def State.tBody (s : State) (e : OpEntry) : Nat := match e.d.cls with
  | 8 => s.stackT e
  | 9 => s.exchangeT e
  | 0x0A => if e.d.opcode = 0x0A04 then 1024 else 0
  | 0x0B => Config.katCycles s.boot.mConfig (e.d.arg 0)
  | _ => let x := s.mathCtx e; (bodyOf x e.lnew (e.scaleMax.getD 0)).tBody

/-! ### Bounds (R246, R248, R351) -/

/-- The gatherer's deadline D in cycles (R246). -/
def State.gatherD (s : State) : Nat := s.vigil.gatherDeadline * Config.usCycles

/-- The plan of a gathered operator with another number of rows (R201, R202). -/
def rowsPlan (x : MathCtx) (m : Nat) : Plan :=
  let a := x.inp 0
  let w := x.inp 1
  let c := max x.cores 1
  match x.d.opcode with
  | 0x0101 => mmPlan 1 m (a.dim 0) (w.dim 0) true (kBlock a.fmt) c
  | 0x0108 => mmPlan 1 m (w.dim 3) (w.dim 2 * w.dim 1 * w.dim 0) false (kBlock a.fmt) c
  | _ => mmPlan 1 m (w.dim 1) (a.dim 0) false (kBlock a.fmt) c

/-- The bound of R248 from the issue of a gathered operator, without the deadline. -/
def gatherSpan (x : MathCtx) : Nat := 80 + 2 * (rowsPlan x (1024 * (cdiv (arrPlan x).m 1024 + 1))).tBody (max 1 x.cores)

/-- The bound of R248. -/
def State.gatherBound (s : State) (e : OpEntry) : Nat := s.gatherD + gatherSpan (s.mathCtx e)

/-- Does an operator run through the gatherer? -/
def OpEntry.gathers (e : OpEntry) : Bool := e.d.gather && e.d.cls == 1

/-- The count of cycles that a watchdog tolerates, in whole cycles, from the start, or from the issue of a gathered operator (R351). -/
def State.watchBound (s : State) (e : OpEntry) : Nat :=
  let t := if e.gathers then s.gatherBound e else 80 + s.tBody e
  5 * t / 4 + 85000

end Sys2Proof.Machine
end

