-- ==== Sys2Proof/Machine/StackPool.lean ====
section
/-! DEFINITION. The stack pool (R171, R175 to R178, R180): pages taken, spilled, fetched back; what a stack operator waits for. -/

namespace Sys2Proof.Machine

/-- Bytes of a stack page, and the pages of the pool and of one slice (R175, Table 7.4). -/
def pageBytes : Nat := 65536
def poolPages : Nat := 204800
def slicePages : Nat := 256

/-- Is a page in tile memory? -/
def StackPage.inTile (p : StackPage) : Bool := p.state != .spilled

/-- The pages a stack holds in tile memory, and those that are resident. -/
def Stack.used (k : Stack) : Nat := (k.pages.filter (fun p => p.2.inTile)).length
def Stack.residents (k : Stack) : List Nat := (k.pages.filter (fun p => p.2.state == .resident)).map Prod.fst

/-- The reserve a loaded context holds. -/
def State.reserveOf (s : State) (c : Nat) : Nat := if (s.ctx c).loaded then (s.ctx c).stackReserve else 0

/-- Pages of the free pool: neither in use nor held in a reserve (R175). -/
def State.freePages (s : State) : Nat :=
  let cs := dedup (NMap.keys s.ctxs.stackTab ++ (s.ctxs.tab.filter (fun e => e.2.loaded)).map Prod.fst)
  poolPages - sumOf (cs.map (fun c => max (s.reserveOf c) (s.stackOf c).used))

/-- Pages in use in the slice of a logical core. -/
def State.sliceUsed (s : State) (core : Nat) : Nat :=
  sumOf (s.ctxs.stackTab.map (fun e => (e.2.pages.filter (fun p => p.2.inTile && p.2.core == core)).length))

/-- The slice a page goes to: that of logical core (j + context) mod 800, or the next with a free page (R175). -/
def State.pageCore (s : State) (c j : Nat) : Nat :=
  (((List.range 800).map (fun i => (j + c + i) % 800)).find? (fun k => decide (s.sliceUsed k < slicePages))).getD ((j + c) % 800)

def State.setPage (s : State) (c j : Nat) (p : StackPage) : State :=
  let k := s.stackOf c
  s.setStack c { k with pages := NMap.set k.pages j p }

/-- Take a page for page `j` of a stack, from its reserve or from the free pool; none when there is none. A page of a reserve is taken even where other
contexts hold the whole pool (DESIGN CHOICE, log entry 61). -/
def State.takePage (s : State) (c j : Nat) (st : PageState) : Option State :=
  if (s.stackOf c).used < s.reserveOf c || 0 < s.freePages then
    let i := s.pageCore c j
    some (s.setPage c j ⟨st, i, NMap.getD s.cores.recs i {} |>.tag, (s.ctx c).gen⟩)
  else none

/-- The page of the top of a stack. -/
def Stack.topPage (k : Stack) : Option Nat := if k.top = 0 then none else some ((k.top - 1) / pageBytes)

/-- The victim of R176: the lowest resident page, not the top page, of the context with the most resident pages beyond its reserve; none where that context
has its top page only (DESIGN CHOICE, log entry 61). -/
def State.victim (s : State) : Option (Nat × Nat) :=
  let excess (c : Nat) : Nat := (s.stackOf c).residents.length - s.reserveOf c
  let best := (NMap.keys s.ctxs.stackTab).foldl (fun (b : Option Nat) c => if excess c = 0 then b else match b with
    | none => some c
    | some d => if excess d < excess c then some c else some d) none
  best.bind (fun c => let k := s.stackOf c; (k.residents.find? (fun j => k.topPage != some j)).map (fun j => (c, j)))

/-- Start the spill of a victim; its resident copy stays until the write is acknowledged. -/
def State.spillVictim (s : State) : State := match s.victim with
  | none => s
  | some (c, j) => match NMap.get? (s.stackOf c).pages j with
    | none => s
    | some p =>
      let s := s.setPage c j { p with state := .spilling, tag := (NMap.getD s.cores.recs p.core {}).tag, gen := (s.ctx c).gen }
      { s with ctxs := { s.ctxs with ctr := { s.ctxs.ctr with stackSpillPages := sat64 (s.ctxs.ctr.stackSpillPages + 1) } } }

/-- Pages being spilled: each frees one page soon. -/
def State.spilling (s : State) : Nat := sumOf (s.ctxs.stackTab.map (fun e => (e.2.pages.filter (fun p => p.2.state == .spilling)).length))

/-- Spill victims until `n` pages are on their way out. -/
def State.spillTo (s : State) (n : Nat) : Nat → State
  | 0 => s
  | f + 1 => if n ≤ s.spilling then s else s.spillVictim.spillTo n f

/-- Allocate or start to fetch the pages of a list; the ones that found no page. -/
def State.takePages (c : Nat) (st : PageState) : List Nat → State × List Nat → State × List Nat
  | [], r => r
  | j :: js, (s, miss) => match s.takePage c j st with
    | some s' => takePages c st js (s', miss)
    | none => takePages c st js (s, miss ++ [j])

/-! ### What a stack operator waits for (R178) -/

/-- The pages an operator touches. -/
def State.touches (s : State) (e : OpEntry) : List Nat :=
  if e.d.opcode = 0x0801 && e.d.nOut = 0 then [] else let q := s.stackSpan e; pagesOf q.1 q.2

/-- Bring the pages of a stack operator on their way: pages for a push, fetches for spilled ones, victims for those that found none (R176 to R178). -/
def State.wantPages (s : State) (e : OpEntry) : State :=
  let c := e.ctx
  let k := s.stackOf c
  let new := (s.touches e).filter (fun j => (NMap.get? k.pages j).isNone)
  let back := (s.touches e).filter (fun j => (NMap.get? k.pages j).any (fun p => p.state == .spilled))
  let r := State.takePages c .resident new (s, [])
  let r := State.takePages c .fetching back r
  r.1.spillTo r.2.length (r.2.length + 1)

/-- After a POP: the spilled pages within W pages below the new top are fetched back, in decreasing page order (R177). -/
def State.fetchBack (s : State) (c : Nat) (evict : Bool) : State :=
  let k := s.stackOf c
  match k.topPage with
  | none => s
  | some p =>
    let w := max (s.reserveOf c) 16
    let js := ((k.pages.filter (fun e => e.2.state == .spilled && decide (e.1 ≤ p) && decide (p < e.1 + w))).map Prod.fst).reverse
    let r := State.takePages c .fetching js (s, [])
    if evict then r.1.spillTo r.2.length (r.2.length + 1) else r.1

/-! ### The backing store (R171) -/

/-- Where a stack offset lies in the backing store: region index and offset within it. -/
def Ctx.backing (x : Ctx) (off : Nat) : Option (Nat × Nat) :=
  ((List.range 64).foldl (fun (p : Nat × Option (Nat × Nat)) r =>
    let e := x.region r
    if p.2.isSome || !(e.valid && e.stk) then p
    else if p.1 < e.size then (p.1, some (r, p.1)) else (p.1 - e.size, none)) (off, none)).2

/-- A byte of a stack in tile memory. Bytes that no frame's header or payload fills are free values (log entry 27). -/
def Stack.byte (k : Stack) (ep off : Nat) : Byte := (cellGet k.bytes off).getD (Config.unpredictableByte ep off none)

/-- The 4 KiB pieces of a page below the stack's top. -/
def Stack.pagePieces (k : Stack) (j : Nat) : List Nat := ((List.range 16).map (fun i => pageBytes * j + 4096 * i)).filter (fun o => decide (o < k.top))

/-- Write a page to its backing-store address; a piece whose host window fails is not written. -/
def State.writeBack (s : State) (c j : Nat) : State :=
  let k := s.stackOf c
  (k.pagePieces j).foldl (fun s o => match (s.ctx c).backing o with
    | none => s
    | some (r, f) => match s.planeWrite c ⟨r, f, (List.range 4096).map (fun i => k.byte s.free (o + i))⟩ with
      | .ok s' => { s' with free := s'.free + 1 }
      | .error _ => s) s

/-- The page has left tile memory. -/
def State.pageOut (s : State) (c j : Nat) : State :=
  let k := s.stackOf c
  s.setStack c { k with
    pages := NMap.upd k.pages j ⟨.spilled, 0, 0, 0⟩ (fun p => { p with state := .spilled })
    bytes := k.bytes.filter (fun b => b.1 / pageBytes != j) }

/-- Every context fetches what its window still lacks while pages are free. -/
def State.refetch (s : State) : State := (NMap.keys s.ctxs.stackTab).foldl (fun s c => s.fetchBack c false) s

/-- A reply to a page's transfer that bears an old tag is dropped, counted at the context or at the core whose engine asked (R250, R360; DEDUCED, log entry 58);
the page is then where it was. -/
def State.pageReplyLate (s : State) (c j : Nat) (p : StackPage) (back : PageState) : Option State :=
  let k := NMap.getD s.cores.recs p.core {}
  if p.gen != (s.ctx c).gen then some ((s.updCtx c (fun x => { x with lateDrops := sat32 (x.lateDrops + 1) })).setPage c j { p with state := back })
  else if p.tag != k.tag then
    let k := { k with ctr := { k.ctr with engineLateDrops := sat32 (k.ctr.engineLateDrops + 1) } }
    some ({ s with cores := { s.cores with recs := NMap.set s.cores.recs p.core k } }.setPage c j { p with state := back })
  else none

/-- Are the pages a stack operator touches there? -/
def State.pagesReady (s : State) (e : OpEntry) : Bool :=
  let k := s.stackOf e.ctx
  let pop := e.d.opcode == 0x0801 || e.d.opcode == 0x0802
  (s.touches e).all (fun j => match NMap.get? k.pages j with
    | some p => p.state == .resident || (pop && p.state == .spilling)
    | none => false)

/-- The cycles an operator has waited, added to a counter. -/
def OpEntry.waited (e : OpEntry) (now : Nat) : Nat := match e.waitFrom with
  | some t => now - t
  | none => 0

/-- Since when an operator is in a wait of Table 13.1: on a link's credit or contention, or for the gatherer's overflow area. -/
def OpEntry.waitStart (e : OpEntry) : Option Nat := match e.waitSince with
  | some t => some t
  | none => if e.overflowWait then e.waitFrom else none

/-- A wait of Table 13.1 ends: its cycles, 10 ms at most, are not the watchdog's (R352). -/
def OpEntry.endWait (e : OpEntry) (now : Nat) : OpEntry := match e.waitStart with
  | none => e
  | some t => { e with waitSince := none, unexcluded := false, excluded := e.excluded + min (now - t) (10 * Config.msCycles) }

/-- The page wait of a stack operator ends: it counts by kind (R178). -/
def State.endPageWait (s : State) (id : Nat) (e : OpEntry) : State :=
  let c := s.ctxs.ctr
  let w := e.waited s.now
  let c := if e.d.opcode = 0x0800 || e.d.opcode = 0x0803 then { c with stackSpillStall := sat64 (c.stackSpillStall + w) }
    else { c with stackRefillStall := sat64 (c.stackRefillStall + w) }
  { s with ctxs := { s.ctxs with ctr := c }, sched := { s.sched with ops := NMap.set s.sched.ops id { e with waitFrom := none } } }

/-- The page waits that have ended. -/
def State.countPageWaits (s : State) : State :=
  (s.sched.ops.filter (fun e => e.2.d.cls == 8 && e.2.waitFrom.isSome && s.pagesReady e.2)).foldl (fun s e => s.endPageWait e.1 e.2) s

/-- STACK_SPILL_ACK (R176). -/
def execStackSpillAck (ctx page : Nat) (s : State) : Out :=
  match NMap.get? (s.stackOf ctx).pages page with
  | some p =>
    if p.state != .spilling then .next s
    else match s.pageReplyLate ctx page p .resident with
      | some t => .next t
      | none => .next ((((s.writeBack ctx page).pageOut ctx page).refetch).countPageWaits)
  | none => .next s

/-- The bytes of a page in its backing store: memory, or the host's reply for the pieces in host windows. -/
def State.backingBytes (s : State) (c : Nat) : List Nat → List Byte → List Host.Cell
  | [], _ => []
  | o :: os, rep => match (s.ctx c).backing o with
    | none => backingBytes s c os rep
    | some (r, f) =>
      let e := (s.ctx c).region r
      if isHost (e.base + f) then ((List.range 4096).map (· + o)).zip (fitBytes 4096 rep) ++ backingBytes s c os (rep.drop 4096)
      else ((List.range 4096).map (fun i => (o + i, s.rdOf c [] r (f + i)))) ++ backingBytes s c os rep

/-- STACK_FETCH_DONE (R157, R177): the page is resident. A host window that fails leaves the page spilled (DESIGN CHOICE, log entry 27); an uncorrectable
line is delivered as zeros and flags the run's open step. -/
def execStackFetchDone (ctx page : Nat) (reply : HostReply) (s : State) : Out :=
  let k := s.stackOf ctx
  match NMap.get? k.pages page with
  | none => .next s
  | some p =>
    if p.state != .fetching then .next s
    else match s.pageReplyLate ctx page p .spilled with
    | some t => .next t
    | none =>
      let os := k.pagePieces page
      let addrs := os.filterMap (fun o => ((s.ctx ctx).backing o).map (fun q => ((s.ctx ctx).region q.1).base + q.2))
      let viaHost := addrs.any isHost
      let bs : Option (List Byte) := match reply with
        | .data bs => some bs
        | _ => none
      if viaHost && (bs.isNone || addrs.any (fun a => isHost a && !((s.hostRoute a).isOk))) then
        .next (s.setStack ctx { k with pages := NMap.set k.pages page { p with state := .spilled } })
      else
        let cells := s.backingBytes ctx os (bs.getD [])
        let bad := dedup (addrs.flatMap (fun a => if isHost a then [] else s.memsys.mem.badIn a 4096))
        let w := s.whoRun (s.ctx ctx).runSlot
        let s := bad.foldl (fun s l => (s.lineBad l w).fault (s.ctx ctx).runSlot) s
        .next ((s.setStack ctx { k with
          pages := NMap.set k.pages page { p with state := .resident }, bytes := cells.foldl (fun b q => cellPut b q.1 q.2) k.bytes }).countPageWaits)

end Sys2Proof.Machine
end

