-- ==== Sys2Proof/Machine/Sched.lean ====
section
/-! DEFINITION. The scheduler (R230, R235, R238 to R240, R244 to R248, R274, R275, R314, R339 to R341, R355): what an issued operator waits for, its checks and
its group signal, the choice of its cores, its start. -/

namespace Sys2Proof.Machine

/-! ### Order (R239, R314) -/

/-- The step-control operators that are barriers. -/
def isBarrier (o : Nat) : Bool := [0x0A00, 0x0A01, 0x0A02, 0x0A04, 0x0A05, 0x0A06].contains o

/-- A SNAPSHOT at the boundary of a run that waits for the decision holds nothing back (DEDUCED, log entry 26). One of a context with no run latches at
once, so it is held to R314 as any other. -/
def State.snapWaits (s : State) (e : OpEntry) : Bool :=
  e.d.opcode == 0x0A04 && e.phase == .started && flag e.d 24 && (s.ctx e.ctx).runSlot != noRun

/-- The unfinished operators issued before operator `id`. -/
def State.earlier (s : State) (id : Nat) : List (Nat × OpEntry) := s.sched.ops.filter (fun f => decide (f.1 < id))

/-- Do two operators lie in one barrier's reach: one context, or contexts of one run? -/
def State.sameReach (s : State) (a b : OpEntry) : Bool :=
  a.ctx == b.ctx || ((s.ctx a.ctx).runSlot != noRun && (s.ctx a.ctx).runSlot == (s.ctx b.ctx).runSlot)

/-- R314: nothing holds the operator back. STEP_VOID waits for nothing; STEP_CHECK and STEP_COMMIT also wait for the run's check tasks (R340). -/
def State.barrierClear (s : State) (id : Nat) (e : OpEntry) : Bool :=
  let o := e.d.opcode
  let fs := (s.earlier id).filter (fun f => s.sameReach e f.2 && !s.snapWaits f.2)
  o == 0x0A03 ||
  (if isBarrier o then fs.isEmpty && !((o == 0x0A01 || o == 0x0A02) && s.sched.checks.any (fun t => t.2.slot == (s.ctx e.ctx).runSlot))
   else fs.all (fun f => !isBarrier f.2.d.opcode))

/-- R239: its predecessors in the stream have completed. -/
def State.streamClear (s : State) (id : Nat) (e : OpEntry) : Bool :=
  e.d.opcode == 0x0A03 || (s.earlier id).all (fun f => f.2.ctx != e.ctx || f.2.d.stream != e.d.stream || s.snapWaits f.2)

/-- The device ranges of an operator's inputs, with an `accumulate` output, and of its outputs. -/
def State.readSegs (s : State) (e : OpEntry) : List (Nat × Nat) := (List.range e.readTensors.length).flatMap (s.segsAt e)
def State.writeSegs (s : State) (e : OpEntry) : List (Nat × Nat) := (List.range e.d.nOut).flatMap (fun j => s.segsAt e (e.d.nIn + j))

/-- R239: no earlier operator of the context has planes that overlap its own where either writes. -/
def State.planeClear (s : State) (id : Nat) (e : OpEntry) : Bool :=
  let r := s.readSegs e
  let w := s.writeSegs e
  (s.earlier id).all (fun f => f.2.ctx != e.ctx || f.2.noop || (f.2.code != cOk && (f.2.phase == .issued || f.2.phase == .checked)) ||
    !(segsMeet w (s.readSegs f.2) || segsMeet w (s.writeSegs f.2) || segsMeet r (s.writeSegs f.2)))

/-- Does no unfinished operator of the context before this one write a host window that it stages from (R239)? -/
def State.inputsClear (s : State) (id : Nat) (e : OpEntry) : Bool :=
  let r := (s.readSegs e).filter (fun p => isHost p.1)
  (s.earlier id).all (fun f => f.2.ctx != e.ctx || f.2.noop || (f.2.code != cOk && (f.2.phase == .issued || f.2.phase == .checked)) || !segsMeet r (s.writeSegs f.2))

/-- The operator of a check task, as an entry. -/
def CheckTask.entry (k : CheckTask) : OpEntry := { ctx := k.ctx, desc := k.desc, tensors := k.tensors }

/-- The check tasks that read a plane the operator writes: it waits for them before its start (R340). -/
def State.tasksBefore (s : State) (e : OpEntry) : List CheckTask :=
  let w := s.writeSegs e
  (NMap.vals s.sched.checks).filter (fun t => segsMeet w (s.readSegs t.entry))

/-! ### The group signal (R230, R274, R309) -/

/-- Is it one of the exchange operators of Table 8.12? -/
def isExchange (o : Nat) : Bool := o / 256 == 9 && decide (o ≤ 0x0908)

/-- The instance count of the operator, taken in issue order (R274, R294). -/
def State.giveSeq (s : State) (id : Nat) (e : OpEntry) : State :=
  let o := e.d.opcode
  let slot := (s.ctx e.ctx).runSlot
  let r := s.run slot
  if !isExchange o || e.xseq != 0 then s
  else if isGroupOp o then
    let g := e.d.arg 0
    if (s.myIdx g).isNone || (s.groupE g).slot != slot then s
    else
      let k := NMap.getD r.xseqs g 0 + 1
      (s.updRun slot (fun r => { r with xseqs := NMap.set r.xseqs g k })).updOp id (fun e => { e with xseq := k })
  else
    let p := e.d.arg 0 % 2 ^ 18
    let k := NMap.getD (if o = 0x0906 then r.sends else r.recvs) p 0 + 1
    (s.updRun slot (fun r => if o = 0x0906 then { r with sends := NMap.set r.sends p k } else { r with recvs := NMap.set r.recvs p k })).updOp id
      (fun e => { e with xseq := k })

/-- The signature of R274. -/
def OpEntry.signature (e : OpEntry) : DWord :=
  let a : TDesc := nth e.ts 0 0
  crc64 (leBytes 2 e.d.opcode ++ leBytes 5 e.d.nElem ++ leBytes 1 a.fmt ++ leBytes 2 e.d.floorRaw ++ leBytes 4 (e.d.arg 1) ++ leBytes 4 (e.d.arg 2) ++
    leBytes 2 (a.count % 2 ^ 16))

/-- One GROUP_START contribution: 1 run, 2 no-op, 4 rejected. An operator that is no member's, or beyond the sequence, signals nothing (R271, R274). -/
def State.signal (s : State) (e : OpEntry) (bits : Nat) : State :=
  if !(isExchange e.d.opcode && isGroupOp e.d.opcode && 1 ≤ e.xseq && e.xseq ≤ 16383) then s
  else
    let k := { s.runKey (s.ctx e.ctx).runSlot 2 0 with group := e.d.arg 0, xseq := e.xseq }
    s.contribute k [BitVec.ofNat 64 bits, e.signature, ~~~e.signature]

/-! ### Checks 1 to 15 and what follows them -/

/-- The code of a tensor list or kernel image that lies in a host window out of reach (R450, R499). -/
def State.listRoute (s : State) (e : OpEntry) : Code :=
  let x := s.ctx e.ctx
  let at_ := fun (r o : Nat) => (x.region r).base + o
  let code := fun (a : Nat) => if isHost a then (match s.hostRoute a with
    | .ok _ => cOk
    | .error c => c) else cOk
  firstCode [fun _ => if e.d.nIn + e.d.nOut = 0 then cOk else code (at_ e.d.tlRegion e.d.tlOffset),
    fun _ => if e.d.opcode = 0x0300 then code (at_ e.d.kimgRegion e.d.kimgOffset) else cOk]

/-- RANK_ORDER_REDUCE in a calibration step that a replay takes from its reference: steps 1 to 5 of R97 are not repeated (R98), so it has no effect
(DESIGN CHOICE, log entry 48). -/
def State.loadsCalibration (s : State) (e : OpEntry) : Bool :=
  let r := s.runOf e.ctx
  e.d.opcode == 0x0905 && (r.openStep.bind r.recorded).isSome

/-- The uncorrectable lines that the read of the tensor list and of the kernel image meets (R157). -/
def State.listBad (s : State) (e : OpEntry) : List Nat :=
  let x := s.ctx e.ctx
  let bad := fun (r o len : Nat) => let a := (x.region r).base + o; if isHost a then [] else s.memsys.mem.badIn a len
  dedup (bad e.d.tlRegion e.d.tlOffset (64 * (e.d.nIn + e.d.nOut)) ++
    if e.d.opcode = 0x0300 then bad e.d.kimgRegion e.d.kimgOffset (kimageOf (s.rdOf e.ctx e.staged) e.d.kimgRegion e.d.kimgOffset).bytes else [])

/-- Such lines are recorded; in an open step they are zeros and set its flag. -/
def State.meetListBad (s : State) (e : OpEntry) (l : List Nat) : State :=
  if l.isEmpty then s else (l.foldl (fun s l => s.lineBad l (s.whoOp e)) s).fault (s.ctx e.ctx).runSlot

/-- Checks 1 to 15, made once R314 lets the operator proceed (R189). An entry that already bears a code keeps STREAM_OWNER (R238); the code of a
failed read of its tensor list stands after checks 1 to 8. -/
def State.judge (s : State) (id : Nat) (e : OpEntry) : State :=
  if e.judged then s
  else if e.code = cStreamOwner then s.updOp id (fun e => { e with judged := true })
  else
    let early := match opSpec e.d.opcode with
      | none => cOpcodeUndefined
      | some p => s.earlyCode e p
    let bad := if early = cOk && e.code = cOk then s.listBad e else []
    let fetch := if e.code != cOk then e.code else if !bad.isEmpty && (s.runOf e.ctx).openStep.isNone then cMemoryUncorrectable else s.listRoute e
    let v := if early = cOk && fetch != cOk then (e, Verdict.reject fetch) else s.check { e with code := cOk }
    let v := if v.2 = .pass && s.loadsCalibration e then (v.1, Verdict.noop) else v
    (s.meetListBad e bad).updOp id (fun _ => match v.2 with
      | .pass => { v.1 with judged := true, code := cOk }
      | .noop => { v.1 with judged := true, code := cOk, noop := true }
      | .reject c => { v.1 with judged := true, code := c })

/-- Is the stream of an operator halted (R240)? -/
def State.streamHalted (s : State) (e : OpEntry) : Bool :=
  e.d.cls != 0x0A && e.code != cStreamOwner && (NMap.get? s.ctxs.streams e.d.stream).any (fun b => b.ctx == e.ctx && b.halted)

/-! ### The gatherer's room (R180, R245, R246) -/

/-- The bytes a row of the operator takes in a gatherer queue (DESIGN CHOICE, log entry 29: the row's packed bytes, once per queue). -/
def OpEntry.rowSize (e : OpEntry) : Nat := max 1 (nth e.ts 0 0 : TDesc).wireRow

/-- The rows an operator streams (R201). -/
def State.streamRows (s : State) (e : OpEntry) : Nat := (arrPlan (s.mathCtx e)).m

/-- The gatherer queue of the operator's stationary bytes: same addresses of element and block plane, format and shape (R245). -/
def State.gatherKey (s : State) (e : OpEntry) : Nat × Nat × BitVec 512 :=
  let w : TDesc := nth e.ts 1 0
  let x := s.ctx e.ctx
  ((x.region w.eReg).base + w.eOff, if w.blockBytes false = 0 then 0 else (x.region w.bReg).base + w.bOff, setFld (setFld w 0 32 0) 256 192 0)

def State.gatherOf (s : State) (e : OpEntry) : Option (Nat × GatherQ) :=
  let k := s.gatherKey e
  s.sched.gather.find? (fun q => q.2.base == k.1 && q.2.blocks == k.2.1 && q.2.tensor == k.2.2 && !q.2.rows.isEmpty)

/-- Bytes of a queue's rows. -/
def State.rowsBytes (s : State) (rows : List GRow) : Nat :=
  sumOf (rows.map (fun r => match NMap.get? s.sched.ops r.op with
    | some e => e.rowSize
    | none => 0))

/-- How many rows of a queue lie in the overflow area: those beyond its first 1 MiB. -/
def State.overflowRows (s : State) (rows : List GRow) : Nat :=
  let fit := (List.range (rows.length + 1)).reverse.find? (fun n => decide (s.rowsBytes (rows.take n) ≤ 2 ^ 20))
  rows.length - fit.getD 0

/-- Bytes in the gatherer overflow area (Table 7.3: 1 GiB). -/
def State.overflowBytes (s : State) : Nat := sumOf (s.sched.gather.map (fun q => s.rowsBytes (q.2.rows.drop (q.2.rows.length - q.2.overflow))))

/-- Do an operator's rows find room in its queue and in the overflow area? -/
def State.gatherRoom (s : State) (e : OpEntry) : Bool :=
  let held := match s.gatherOf e with
    | some q => s.rowsBytes q.2.rows
    | none => 0
  let need := s.streamRows e * e.rowSize
  decide (held + need ≤ 2 ^ 20) || decide (s.overflowBytes + need ≤ 2 ^ 30)

/-- Is gathering suspended for the operator (R355)? -/
def State.gathersNow (s : State) (e : OpEntry) : Bool :=
  e.gathers && (s.sched.quarantine.cores.isEmpty || !s.sched.quarantine.suspects.contains e.ctx)

/-! ### Resolution -/

/-- The operator's outcome once its predecessors in the stream have completed: halted, rejected, no-op, or on to its staging. -/
def State.resolve (s : State) (id : Nat) (e : OpEntry) : State :=
  if s.streamHalted e then (s.signal e 4).endOp id cStreamHalted
  else if e.code != cOk then (s.signal e 4).endOp id e.code
  else if e.noop then (s.signal e 2).endOp id cOk
  else if !s.inputsClear id e then s
  else if s.gathersNow e && !s.gatherRoom e then s.updOp id (fun e => { e with phase := .checked, overflowWait := true, waitFrom := some s.now })
  else (s.updOp id (fun e => { e with phase := .checked })).issueReads id

/-- The instance of an exchange operator. -/
def State.instFor (s : State) (id : Nat) (e : OpEntry) : ExInst :=
  let slot := (s.ctx e.ctx).runSlot
  let r := s.run slot
  let g := s.groupE (e.d.arg 0)
  if isGroupOp e.d.opcode then
    { op := some id, slot := slot, group := e.d.arg 0, xseq := e.xseq, opcode := BitVec.ofNat 16 e.d.opcode, g := g.size,
      me := (s.myIdx (e.d.arg 0)).getD 0, step := r.tagStep, attempt := r.tagAttempt }
  else
    { op := some id, slot := slot, group := noGroup, xseq := e.xseq, opcode := BitVec.ofNat 16 e.d.opcode, g := 2, me := e.d.arg 0 % 2 ^ 18,
      step := r.tagStep, attempt := r.tagAttempt }

/-- An exchange operator whose operands are staged makes check 16 and signals its outcome; it then waits for the group (R189, R230, R275). -/
def State.announce (s : State) (id : Nat) (e : OpEntry) : State :=
  if !(e.phase == .checked && e.d.cls == 9 && !e.contributed && s.planeClear id e && s.stagedAll e) then s
  else
    let c := s.startCode e
    if c != cOk then (s.signal e 4).endOp id c
    else
      let s := (s.setInst (s.instFor id e)).updOp id (fun e => { e with
        contributed := true, outcome := if isGroupOp e.d.opcode then e.outcome else some .run })
      s.signal e 1

/-! ### Readiness and reservations (R244) -/

/-- Do the operators an operator waits for, and its staging, let it start (R178, R180, R227, R239, R340)? -/
def State.unblocked (s : State) (id : Nat) (e : OpEntry) : Bool :=
  e.phase == .checked && e.d.cls != 0x0A && s.planeClear id e && (s.tasksBefore e).isEmpty && s.stagedAll e && !e.overflowWait &&
  (e.d.cls != 9 || e.outcome == some .run)

/-- The operator as the scheduler takes it: as if `gather` were 0 where gathering is suspended (R355). -/
def State.asPlaced (s : State) (e : OpEntry) : OpEntry := if e.gathers && !s.gathersNow e then { e with desc := setFld e.desc 16 1 0 } else e

/-- The run an operator that waits for cores reserves: the lowest that overlaps no reservation (R244). -/
def State.runFor (s : State) (id : Nat) (e : OpEntry) : Option Reservation :=
  let n := s.coreNeed (s.asPlaced e)
  let meets := fun (i : Nat) => s.sched.reservations.any (fun r => decide (i < r.first + r.count) && decide (r.first < i + n))
  ((List.range (801 - n)).find? (fun i => !meets i)).map (fun i => ⟨id, i, n⟩)

/-- May an operator reserve: ready, with none yet, and not one that joins a gather group's cores? -/
def State.mayReserve (s : State) (id : Nat) (e : OpEntry) : Bool :=
  s.unblocked id e && !s.sched.reservations.any (fun r => r.op == id) && s.coreNeed (s.asPlaced e) != 0 &&
  !(e.gathers && s.gathersNow e && (s.gatherOf e).isSome)

/-- The operators that found no run reserve one as soon as a reservation has ended, in issue order. -/
def State.reserveWaiting (s : State) : State :=
  (s.sched.ops.filter (fun e => e.2.wantsRun)).foldl (fun s e =>
    if !s.mayReserve e.1 e.2 then s
    else match s.runFor e.1 e.2 with
      | none => s
      | some r => ({ s with sched := { s.sched with reservations := s.sched.reservations ++ [r] } }.updOp e.1 (fun e => { e with wantsRun := false }))) s

/-- Take one operator as far as it can go without a start. -/
def State.settleOp (s : State) (id : Nat) : State :=
  let get := fun (s : State) => NMap.get? s.sched.ops id
  match get s with
  | none => s
  | some e =>
    let s := if e.phase == .issued && s.barrierClear id e then s.giveSeq id e else s
    let s := match get s with
      | some e => if e.phase == .issued && s.barrierClear id e then s.judge id e else s
      | none => s
    let s := match get s with
      | some e => if e.phase == .issued && e.judged && s.streamClear id e then s.resolve id e else s
      | none => s
    let s := match get s with
      | some e => s.announce id e
      | none => s
    match get s with
      | some e => if e.readyAt.isNone && s.unblocked id e then s.updOp id (fun e => { e with readyAt := some s.now }) else s
      | none => s

/-- Take every operator as far as it can go, in issue order. -/
def State.settle (s : State) : State :=
  (((NMap.keys s.sched.ops).filter (fun id => (NMap.get? s.sched.ops id).isSome)).foldl State.settleOp s).reserveWaiting

/-! ### Issue (R230, R235, R238) -/

/-- The queues that may be fetched, by 4 × context + queue: enabled, not held, not empty, of a cached OPEN context whose record buffer has room (R235,
R242). A stopped or evicted module fetches none. -/
def State.fetchable (s : State) : List Nat :=
  if s.recov.stopped then []
  else s.ctxs.tab.flatMap (fun e => if e.2.state == .open_ && e.2.cached && decide (e.2.crBuffer.length < 64) then
    ((List.range 4).filter (fun q => e.2.qen q && !(nth e.2.queueHeld q false) && nth e.2.qhead q 0 != nth e.2.qtail q 0)).map (4 * e.1 + ·) else [])

/-- The next queue in round robin. -/
def State.nextQueue (s : State) : Option Nat :=
  let l := s.fetchable
  match l.find? (fun k => decide (s.ctxs.rr ≤ k)) with
  | some k => some k
  | none => l.head?

/-- A fetch that failed (R235): the queue is held, the event is recorded, an open step's flag is set. -/
def State.fetchFailed (s : State) (c q : Nat) (code : Code) : State :=
  let x := s.ctx c
  let s := s.updCtx c (fun x => { x with queueHeld := updAt x.queueHeld q (fun _ => true) })
  (s.record uidHub code 2 (c + q * 2 ^ 20 + nth x.qhead q 0 * 2 ^ 64) (s.whoRun x.runSlot)).fault x.runSlot

/-- The host's reply as bytes, or the code of its failure (R447). -/
def hostResult (r : HostReply) : Except Code (List Byte) := match r with
  | .data bs => .ok bs
  | .error _ => .error cHostCompletionError
  | .timeout => .error cHostReadTimeout

/-- Hand a descriptor to the scheduler. `rest` is what the host's reply holds for the tensor list and the kernel image, if they lie in host windows. -/
def State.issue (s : State) (c q : Nat) (desc : BitVec 1024) (rest : Except Code (List Byte)) : State :=
  let x := s.ctx c
  let d : OpDesc := desc
  let la := (x.region d.tlRegion).base + d.tlOffset
  let ka := (x.region d.kimgRegion).base + d.kimgOffset
  let n := 64 * (d.nIn + d.nOut)
  let hostList := isHost la && n != 0
  let hostImg := d.opcode == 0x0300 && isHost ka
  let staged : List Host.Cell := match rest with
    | .ok bs =>
      let l := if hostList then putCells [] la (fitBytes n bs) else []
      if hostImg then putCells l ka (if hostList then bs.drop n else bs) else l
    | .error _ => []
  let owner := match NMap.get? s.ctxs.streams d.stream with
    | some b => b.ctx
    | none => c
  let code := if owner != c then cStreamOwner else match rest with
    | .ok _ => cOk
    | .error k => if hostList || hostImg then k else cOk
  let id := s.sched.nextOp
  let e : OpEntry := { ctx := c, queue := q, desc := desc, gen := x.gen, issuedAt := s.now, code := code, staged := staged }
  let streams := if (NMap.get? s.ctxs.streams d.stream).isNone then NMap.set s.ctxs.streams d.stream ⟨c, false⟩ else s.ctxs.streams
  let s := s.updCtx c (fun x => { x with
    qhead := updAt x.qhead q (fun h => (h + 1) % 2 ^ 32), lastIssued := s.ctxs.issueCount + 1, issuedAt := s.now })
  { s with
    ctxs := { s.ctxs with streams := streams, issueCount := s.ctxs.issueCount + 1, rr := 4 * c + q + 1 }
    sched := { s.sched with ops := NMap.set s.sched.ops id e, nextOp := id + 1 } }

/-- QUEUE_FETCH (R157, R230, R235): one descriptor of the queue whose turn it is; the operand gives the host's reply and the errors in the lines read. -/
def execQueueFetch (reply : FetchReply) (s : State) : Out :=
  match s.nextQueue with
  | none => .next s
  | some k =>
    let c := k / 4
    let q := k % 4
    let x := s.ctx c
    let a := x.qbase q + 128 * (nth x.qhead q 0 % 2 ^ x.qlog2 q)
    let e := x.region ((x.regionAt a 128 RegionE.r).getD 0)
    let s := match reply.host with
      | .timeout => if isHost a then s.advanceTo (s.now + 10 * Config.msCycles) else s
      | _ => s
    if isHost a then
      match s.hostRoute a, hostResult reply.host with
      | .error code, _ => .next (s.fetchFailed c q code)
      | _, .error code => .next (s.fetchFailed c q code)
      | .ok _, .ok bs => .next (s.issue c q (BitVec.ofNat 1024 (leNat (fitBytes 128 bs))) (.ok (bs.drop 128))).settle
    else
      let s := s.meetErrors reply.errors
      let bad := s.memsys.mem.badIn a 128
      if !bad.isEmpty then
        .next ((bad.foldl (fun s l => s.lineBad l (s.whoRun x.runSlot)) s).fetchFailed c q cMemoryUncorrectable)
      else match s.keyFor x e with
        | none => .next ({ s with memsys := { s.memsys with keySlotDrops := s.memsys.keySlotDrops + 1 } }.fetchFailed c q cKeySlotEmpty)
        | some key => .next (s.issue c q (BitVec.ofNat 1024 (leNat (s.memsys.mem.readRange key a 128))) (hostResult reply.host)).settle

/-! ### Cores (R103, R244, R355) -/

/-- Does an operator run on a logical core? -/
def OpEntry.runsOn (e : OpEntry) (c : Nat) : Bool :=
  (e.phase == .started || e.phase == .finished) && decide (e.coreFirst ≤ c) && decide (c < e.coreFirst + e.coreCount)

/-- The checker and arbiter cores of R339, R343. -/
def checkerOf (c : Nat) : Nat := (c + 400) % 800
def arbiterOf (c : Nat) : Nat := (c + 200) % 800

/-- Is a core in service? -/
def State.inService (s : State) (c : Nat) : Bool := (s.core c).state == .running && !(s.core c).resetting

/-- Can a core take a new operator: in service, no operator, no gather group with rows, no check task, not waiting for its retirement between steps
(R104), nor for an attribution outside a step (R344), nor for the check of a hung core (R354)? -/
def State.coreFree (s : State) (c : Nat) : Bool :=
  s.inService c && s.sched.ops.all (fun e => !e.2.runsOn c) &&
  s.sched.gather.all (fun q => q.2.rows.isEmpty || !(decide (q.2.coreFirst ≤ c) && decide (c < q.2.coreFirst + q.2.coreCount))) &&
  s.sched.checks.all (fun t => checkerOf t.2.core != c) &&
  !(s.openSteps.isEmpty && s.cores.due.any (fun d => d.core == c)) && !s.cores.reloading.contains c && !s.sched.quarantine.hung.contains c &&
  s.sched.captures.all (fun k => k.2.inStep || k.2.core != c)

/-- The flags of all cores for an operator: free, and in no other operator's reservation. -/
def State.freeFlags (s : State) (id : Nat) : List Bool :=
  (List.range 800).map (fun c => s.coreFree c && s.sched.reservations.all (fun r => r.op == id || !(decide (r.first ≤ c) && decide (c < r.first + r.count))))

/-- Are cores `i` to `i + n` − 1 all flagged? -/
def allIn (fl : List Bool) (i n : Nat) : Bool := ((fl.drop i).take n).all id

/-- Where a run of `n` cores may begin under the quarantine (R355, R356); none: anywhere. -/
def State.quarantineAt (s : State) (id : Nat) (e : OpEntry) (n : Nat) (i : Nat) : Bool :=
  let q := s.sched.quarantine
  let holds := fun (c : Nat) => decide (i ≤ c) && decide (c < i + n)
  let meets := q.cores.any holds
  let low := q.cores.foldl min 800
  let svc := (List.range 800).map s.inService
  let can := (List.range (801 - n)).any (fun k => decide (k ≤ low) && decide (low < k + n) && allIn svc k n)
  let others := s.sched.ops.any (fun f => f.1 != id && f.2.ctx != e.ctx && q.cores.any f.2.runsOn)
  let turnOn := s.sched.ops.any (fun f => f.2.turn && f.2.ctx != e.ctx && (f.2.phase == .started || f.2.phase == .finished))
  if q.cores.isEmpty then true
  else if e.d.opcode = 0x0B00 then !(meets && turnOn)
  else if q.culprit == some e.ctx || e.gathers && s.gathersNow e then !meets
  else if q.suspects.head? = some e.ctx && can then holds low && !others
  else if q.suspects.contains e.ctx || turnOn then !meets
  else true

/-- The lowest run of cores an operator can start on now: first core and count (R243 to R245). -/
def State.place (s : State) (id : Nat) (e : OpEntry) : Option (Nat × Nat) :=
  let e := s.asPlaced e
  match (if e.gathers then s.gatherOf e else none) with
  | some q => some (q.2.coreFirst, q.2.coreCount)
  | none =>
    let n := s.coreNeed e
    let fl := s.freeFlags id
    let only := fun (i : Nat) => e.d.opcode != 0x0B00 || i == e.d.arg 1
    if n = 0 then none
    else ((List.range (801 - n)).find? (fun i => only i && allIn fl i n && s.quarantineAt id e n i)).map (fun i => (i, n))

/-! ### Starts (R196, R244) -/

/-- Is the operator one the scheduler could start now? -/
def State.startable (s : State) (id : Nat) (e : OpEntry) : Bool :=
  s.unblocked id e && (e.d.cls == 9 || s.startCode e == cOk) && (e.d.cls != 8 || s.pagesReady e) && (s.place id e).isSome

/-- Put a gathered operator's rows into its queue (R245, R180). -/
def State.enqueueRows (s : State) (id : Nat) (e : OpEntry) : State :=
  let k := s.gatherKey e
  let rows : List GRow := (List.range (s.streamRows e)).map (fun r => ⟨id, r, s.now⟩)
  let put := fun (q : GatherQ) =>
    let rs := q.rows ++ rows
    let o := s.overflowRows rs
    ({ q with rows := rs, overflow := o }, o - q.overflow)
  match s.gatherOf e with
  | some q =>
    let p := put q.2
    { s with
      sched := { s.sched with gather := NMap.set s.sched.gather q.1 p.1 }
      ctxs := { s.ctxs with ctr := { s.ctxs.ctr with gathererOverflowRows := sat64 (s.ctxs.ctr.gathererOverflowRows + p.2) } } }
  | none =>
    let n := (s.sched.gather.map Prod.fst).foldl max 0 + 1
    let p := put ⟨k.1, k.2.1, k.2.2, e.coreFirst, e.coreCount, [], 0⟩
    { s with
      sched := { s.sched with gather := NMap.set (s.sched.gather.filter (fun q => !q.2.rows.isEmpty)) n p.1 }
      ctxs := { s.ctxs with ctr := { s.ctxs.ctr with gathererOverflowRows := sat64 (s.ctxs.ctr.gathererOverflowRows + p.2) } } }

/-- Bytes of operator staging in a slice (Table 7.4). -/
def stagingBytes : Nat := 12 * 2 ^ 20

/-- The operand bytes beyond what the staging of `n` cores holds are read again when needed (R180). How often is a free value (log entry 60). -/
def State.countReread (s : State) (e : OpEntry) (n : Nat) : State :=
  let k := sumOf ((s.readSegs e).map Prod.snd) - n * stagingBytes
  if k = 0 then s
  else { s with free := s.free + 1, ctxs := { s.ctxs with ctr := { s.ctxs.ctr with
    stagingRereadBytes := sat64 (s.ctxs.ctr.stagingRereadBytes + k + (Config.freeWord s.free).toNat) } } }

/-- Start an operator on its cores: what begins with the start (R109, R178, R196, R227, R355, R458). -/
def State.startOn (s : State) (id : Nat) (e : OpEntry) (first n : Nat) : State :=
  let q := s.sched.quarantine
  let turn := !q.cores.isEmpty && q.suspects.head? == some e.ctx && q.cores.any (fun c => decide (first ≤ c) && decide (c < first + n))
  let s := (if e.d.cls = 8 then s.endPageWait id e else s).countReread e n
  let e : OpEntry := { s.asPlaced e with
    phase := .started, startedAt := s.now, coreFirst := first, coreCount := n, turn := turn, waitFrom := none
    ports := if e.d.cls = 9 then s.planPorts e else 0 }
  let e : OpEntry := { e with passes := if e.gathers then [] else passesOf (s.mathCtx e) }
  let s := { s with sched := { s.sched with
    ops := NMap.set s.sched.ops id e, reservations := s.sched.reservations.filter (fun r => r.op != id) } }
  let s := if e.d.opcode = 0x0300 then
      let x := s.mathCtx e
      { s with vec := (List.range n).foldl (fun v i => NMap.set v (first + i) (engineStart x id i)) s.vec } else s
  let s := if e.d.cls = 5 then s.mirrorOp e else s
  if e.gathers then s.enqueueRows id e else s

/-- OPERATOR_START (R189, R196, R244): the scheduler makes check 16 on the operator and starts it, unless an earlier operator of the list can start. A stack
operator whose pages are away asks for them (R178). -/
def execOperatorStart (op : Nat) (s : State) : Out :=
  let s := s.settle
  match NMap.get? s.sched.ops op with
  | none => .next s
  | some e =>
    if !s.unblocked op e then .next s
    else
      let c := if e.d.cls = 9 then cOk else s.startCode e
      if c != cOk then .next ((s.endOp op c).settle)
      else
        let s := if e.d.cls = 8 && !s.pagesReady e then s.wantPages e else s
        if e.d.cls = 8 && !s.pagesReady e then .next (s.updOp op (fun e => { e with waitFrom := some (e.waitFrom.getD s.now) }))
        else if (s.earlier op).any (fun f => s.startable f.1 f.2) then .next s
        else match s.place op e with
          | some p => .next (s.startOn op e p.1 p.2).reserveWaiting
          | none => .next s

/-- SCHED_RESERVE (R244): an operator that has waited 100 µs since it was ready reserves the lowest run that overlaps no other reservation, or waits for one. -/
def execSchedReserve (op : Nat) (s : State) : Out :=
  match NMap.get? s.sched.ops op with
  | none => .next s
  | some e =>
    if !s.mayReserve op e then .next s
    else
      let s := s.advanceTo (e.readyAt.getD s.now + 100 * Config.usCycles)
      match s.runFor op e with
      | none => .next (s.updOp op (fun e => { e with wantsRun := true }))
      | some r => .next { s with sched := { s.sched with reservations := s.sched.reservations ++ [r] } }

end Sys2Proof.Machine
end

