-- ==== Sys2Proof/Machine/SchedRows.lean ====
section
/-! DEFINITION. The scheduler's and the checks' events: completion, gatherer passes, check tasks and attribution (R339 to R344), retirement (R104, R105,
R346), hangs and quarantine (R351 to R356). -/

namespace Sys2Proof.Machine

/-! ### Completion (R196, R241) -/

/-- Does an operator write a tensor of a replica group marked for update duplication (R338)? -/
def State.writesMarked (s : State) (e : OpEntry) : Bool :=
  let r := s.runOf e.ctx
  (e.ts.drop e.d.nIn).any (fun t => (s.replicaOf r t.tid).any r.marked.contains)

/-- Is a chunk run again as a check task: one of the update path whose blocks are unique or marked (R339), or one on a checked core of the step (R341)? -/
def State.wantsCheck (s : State) (e : OpEntry) (k : Chunk) : Bool := match (s.runOf e.ctx).openStep with
  | none => false
  | some n => if k.update then s.writesUnique e || s.writesMarked e else (e.coreFirst + k.core) % 64 == n % 64

/-- Form the check tasks of an operator that completes. -/
def State.makeChecks (s : State) (id : Nat) (e : OpEntry) : State :=
  let slot := (s.ctx e.ctx).runSlot
  let r := s.run slot
  (e.chunks.filter (s.wantsCheck e)).foldl (fun s k => { s with sched := { s.sched with
    checks := NMap.set s.sched.checks s.sched.nextCheck
      ⟨id, e.ctx, slot, e.desc, e.tensors, r.openStep.getD 0, r.attempt, e.coreFirst + k.core, k.update, k.value⟩
    nextCheck := s.sched.nextCheck + 1 } }) s

/-- What the completion of an operator means to the quarantine (Table 13.2). -/
def State.turnDone (s : State) (e : OpEntry) : State :=
  let q := s.sched.quarantine
  if q.cores.isEmpty then s
  else if e.turn then (s.record uidHub cHangCleared 0 0 (s.whoOp e)).dropSuspect e.ctx true
  else if q.culprit == some e.ctx && e.d.opcode == q.culpritOpcode.toNat && e.coreCount != 0 then
    let s := s.record uidHub cHangAttributed 4 0 (s.whoOp e)
    ({ s with sched := { s.sched with quarantine := { q with culprit := none } } }.dropSuspect e.ctx false).boundaryStop
  else s

/-- OPERATOR_COMPLETE (R196, R241, R248): at start + T_op; a gathered operator at a moment within the bound of R248 that the spec leaves open. -/
def execOperatorComplete (op : Nat) (s : State) : Out :=
  match NMap.get? s.sched.ops op with
  | none => .next s
  | some e =>
    if e.phase != .finished then .next s
    else
      let s := (s.advanceTo (e.startedAt + e.cycles)).makeChecks op e
      let s := s.endOp op e.code
      .next (s.turnDone e).settle

/-! ### The gatherer (R180, R246) -/

/-- Add a body's changes to the counters of the cores of its set (Table 5.5, R68, R126). -/
def State.addDeltas (s : State) (first : Nat) (l : List CoreDelta) : State := l.foldl (fun s d => s.updCtr (first + d.core) (fun k => { k with
  arrayBusy := sat64 (k.arrayBusy + d.busy), arrayLoadStall := sat64 (k.arrayLoadStall + d.stall), arrayPasses := sat64 (k.arrayPasses + d.passes)
  arrayRowsMasked := sat64 (k.arrayRowsMasked + d.maskedRows), gridFlushed := sat64 (k.gridFlushed + d.flushed)
  gridClamped := sat64 (k.gridClamped + d.clamped) })) s

/-- What an operator's body adds to counters: of a gathered operator the counts of terms, since its rows' passes count where the gatherer closes them. -/
def OpEntry.ownDeltas (e : OpEntry) (l : List CoreDelta) : List CoreDelta :=
  if e.gathers then l.map (fun d => { core := d.core, flushed := d.flushed, clamped := d.clamped }) else l

/-- What the passes of `out`, the rows of one close, are to the cores of their group: one pass on each stationary block, its rows in queue order, its loads as
those of a tile that runs alone (R114, R246; DESIGN CHOICE, log entry 55). -/
def State.gatherDeltas (s : State) (q : GatherQ) (out : List GRow) : List CoreDelta :=
  match out.head?.bind (fun r => NMap.get? s.sched.ops r.op) with
  | none => []
  | some e =>
    let p := arrPlan (s.mathCtx e)
    let rowMasked := fun (r : Nat) => match out[r]? with
      | some g => (NMap.get? s.sched.ops g.op).any (fun f => (s.mathCtx f).masked g.row)
      | none => false
    planDeltas { p with m := out.length, rmax := 1024, groups := 1, tiles := p.outs, sp := max 1 (min (p.nblk / 8) (q.coreCount / p.outs)) }
      (max q.coreCount 1) rowMasked []

/-- Close a pass: the first 1,024 rows at most leave the queue; at the deadline their operators' records bear `deadline`. -/
def State.closePass (s : State) (gq : Nat) (q : GatherQ) (late : Bool) : State :=
  let out := q.rows.take 1024
  let rest := q.rows.drop 1024
  let q' := { q with rows := rest, overflow := s.overflowRows rest }
  let s := s.addDeltas q.coreFirst (s.gatherDeltas q out)
  let s := { s with sched := { s.sched with gather := if rest.isEmpty then NMap.erase s.sched.gather gq else NMap.set s.sched.gather gq q' } }
  if late then (dedup (out.map GRow.op)).foldl (fun s id => s.updOp id (fun e => { e with stat := { e.stat with deadline := true } })) s else s

/-- GATHER_PASS_CLOSE (R246): 1,024 rows, 256 rows with an idle array, any row with an idle array when D is 0. -/
def execGatherPassClose (gq : Nat) (idle : Bool) (s : State) : Out :=
  match NMap.get? s.sched.gather gq with
  | none => .next s
  | some q =>
    let n := q.rows.length
    if 1024 ≤ n || (idle && 256 ≤ n) || (idle && 0 < n && s.gatherD = 0) then .next (s.closePass gq q false) else .next s

/-- GATHER_DEADLINE (R246): the oldest row has waited D. -/
def execGatherDeadline (gq : Nat) (s : State) : Out :=
  match NMap.get? s.sched.gather gq with
  | none => .next s
  | some q => match q.rows with
    | [] => .next s
    | r :: _ => if s.gatherD = 0 then .next s else .next ((s.advanceTo (r.at_ + s.gatherD)).closePass gq q true)

/-- GATHERER_OVERFLOW_DRAIN (R180): in issue order, an operator that waited for room goes on to its staging; the wait is counted. -/
def execGathererOverflowDrain (op : Nat) (s : State) : Out :=
  match NMap.get? s.sched.ops op with
  | none => .next s
  | some e =>
    if !e.overflowWait || !s.gatherRoom e || (s.earlier op).any (fun f => f.2.overflowWait) then .next s
    else
      let s := { s with ctxs := { s.ctxs with ctr := { s.ctxs.ctr with gathererOverflowStall := sat64 (s.ctxs.ctr.gathererOverflowStall + e.waited s.now) } } }
      .next ((s.updOp op (fun e => { e.endWait s.now with overflowWait := false, waitFrom := none })).issueReads op)

/-! ### Check tasks (R339 to R343) -/

/-- The value that the checker core forms: the original's, changed by a fault that the operand gives (R342). -/
def CheckTask.checkerValue (k : CheckTask) : CheckResult → BitVec 128
  | .equal => k.value
  | .differ x _ => k.value ^^^ x.zeroExtend 128

/-- A check task that finds no difference: the original core has passed the check. -/
def State.checkPassed (s : State) (k : CheckTask) : State := (s.updCore k.core (fun c => { c with lastCheck := some k.step })).settle

/-- CHECK_TASK (R339 to R343): the checker's value against the original's; a difference is arbitrated at once (Table 12.8). -/
def execCheckTask (task : Nat) (result : CheckResult) (s : State) : Out :=
  match NMap.get? s.sched.checks task with
  | none => .next s
  | some k =>
    let ck := checkerOf k.core
    if s.sched.ops.any (fun e => e.2.runsOn ck) then .next s
    else
      let s := { s with sched := { s.sched with checks := NMap.erase s.sched.checks task } }
      match result with
      | .equal => .next (s.checkPassed k)
      | .differ _ arb =>
        if k.checkerValue result == k.value then .next (s.checkPassed k)
        else
        let last := ((s.core k.core).lastCheck.getD noStep) % 2 ^ 40
        let w : Who := ⟨true, k.d.opcode, k.ctx, k.d.opSeq.toNat, k.slot, true, k.step, k.attempt⟩
        let s := s.record (uidCore (s.phys k.core) 1 0) cDuplicateMismatch 2
          (k.core + ck * 2 ^ 10 + bit k.update * 2 ^ 20 + last * 2 ^ 24 + (k.checkerValue result ^^^ k.value).toNat % 2 ^ 64 * 2 ^ 64) w
        let seq := s.lastSeq.toNat
        let s := if k.update then s.updRun k.slot (fun r => { r with replicaMismatch := true }) else s.fault k.slot
        let struck := if arb = 0 then some ck else if arb = 1 then some k.core else none
        .next (match struck with
          | some c => ((s.record (uidCore (s.phys c) 1 0) cAttributionResult 0 (seq + 1 * 2 ^ 64 + c * 2 ^ 67) w).strike c 2 seq (some k.slot)).settle
          | none => (s.record (uidCore (s.phys k.core) 1 0) cAttributionResult 4 (seq + 3 * 2 ^ 64 + 0x3FF * 2 ^ 67) w).settle)

/-- The outcome of Table 12.9. Runs that fail on the other core only are in no row of it: the outcome is then a free value (log entry 31). -/
def State.captureOutcome (s : State) (ownFails : Nat) (otherFails : Bool) : Nat :=
  if ownFails = 0 then (if otherFails then (Config.freeWord s.free).toNat % 3 else 0) else if otherFails then 2 else 1

/-- Is a capture due for attribution (R344)? -/
def State.captureDue (s : State) (k : Capture) : Bool :=
  if k.inStep then !((s.run k.runSlot).openStep == some k.step && (s.run k.runSlot).attempt == k.attempt)
  else s.sched.ops.all (fun e => e.2.desc != k.desc || e.2.phase == .issued || e.2.phase == .checked)

/-- CAPTURE_ATTRIBUTION (R335, R344, R345): the runs' outcome; the slot is free afterwards. -/
def execCaptureAttribution (slot ownFails : Nat) (otherFails : Bool) (s : State) : Out :=
  match NMap.get? s.sched.captures slot with
  | none => .next s
  | some k =>
    if !s.captureDue k then .next s
    else
      let o := s.captureOutcome ownFails otherFails
      let s := if k.flushed then s else { s with flash := { s.flash with
        captures := NMap.set s.flash.captures s.flash.captureNext { k with flushed := true }, captureNext := (s.flash.captureNext + 1) % 1024 } }
      let s := { s with sched := { s.sched with captures := NMap.erase s.sched.captures slot }, free := s.free + 1 }
      let run := if k.inStep then some k.runSlot else none
      let s := s.record k.unit cAttributionResult (if o = 2 then 4 else 0) (k.recSeq + o * 2 ^ 64 + (if o = 1 then k.core else 0x3FF) * 2 ^ 67)
      .next (if o = 0 then s.transient k.core k.recSeq run else if o = 1 then s.strike k.core 1 k.recSeq run else s.boundaryStop)

/-! ### Retirement (R104, R105, R346) -/

/-- The stack pages in tile memory on a core. -/
def State.pagesOn (s : State) (core : Nat) : List (Nat × Nat) :=
  s.ctxs.stackTab.flatMap (fun e => (e.2.pages.filter (fun p => p.2.inTile && p.2.core == core)).map (fun p => (e.1, p.1)))

/-- A stack whose page was lost is emptied to depth 0 (R104, R358). -/
def State.loseStack (s : State) (c core : Nat) : State :=
  let s := s.setStack c { s.stackOf c with frames := [], pages := [], bytes := [] }
  let slot := (s.ctx c).runSlot
  (s.record (uidCore (s.phys core) 6 0) cStackLost 2 0 (s.whoRun slot)).fault slot

/-- CORE_RETIRE (R104, R105, R126, R346): between steps, after the attributions and once no operator runs on the core; its counters are cleared. -/
def execCoreRetire (core : Nat) (badPages : List StackPageRef) (s : State) : Out :=
  match s.cores.due.find? (fun d => d.core == core) with
  | none => .next s
  | some d =>
    if !s.openSteps.isEmpty || !s.sched.captures.isEmpty || s.sched.ops.any (fun e => e.2.runsOn core) || !s.sched.checks.isEmpty then .next s
    else
      let p := s.phys core
      match s.cores.spares.find? (fun q => q / 52 == p / 52) with
      | none =>
        let s := { s with cores := { s.cores with due := s.cores.due.filter (fun d => d.core != core) } }
        .next (if d.told then s else s.record (uidCore p 0 0) cPartitionSparesExhausted 4 0).boundaryStop
      | some q =>
        let pages := s.pagesOn core
        let bad := badPages.filter (fun b => pages.contains (b.ctx, b.page))
        let s := bad.foldl (fun s b =>
          (s.tileBad core b.addr (s.whoRun (s.ctx b.ctx).runSlot) none).loseStack b.ctx core) s
        let s := (s.pagesOn core).foldl (fun s g => match NMap.get? (s.stackOf g.1).pages g.2 with
          | some pg => if pg.state == .fetching then s.pageOut g.1 g.2 else (s.writeBack g.1 g.2).pageOut g.1 g.2
          | none => s) s
        let s := { s with
          cores := { s.cores with
            map := NMap.set s.cores.map core q, spares := s.cores.spares.filter (· != q)
            recs := NMap.upd s.cores.recs core {} (fun k => { k with
              ctr := {}, transientFaults := 0, transientHangs := 0, lastCheck := none, backAt := some s.now })
            due := s.cores.due.filter (fun d => d.core != core), reloading := insertRising s.cores.reloading core, badTile := s.cores.badTile.filter (fun t => t.core != core) }
          vec := NMap.erase s.vec core }
        let s := s.setStore { s.store with retired := insertRising s.store.retired p }
        .next (s.record (uidCore p 0 0) cCoreRetired 3 (core + p % 52 * 2 ^ 10 + q % 52 * 2 ^ 16 + s.vigil.seconds * 2 ^ 64))

/-- RETIRE_RELOAD_DONE (R104): the spare's staging is loaded; a waiting STEP_BEGIN may proceed. -/
def execRetireReloadDone (core : Nat) (s : State) : Out :=
  if s.cores.reloading.contains core then
    .next { s with cores := { s.cores with reloading := s.cores.reloading.filter (· != core) } }.settle
  else .next s

/-! ### Hangs (R351 to R356) -/

/-- The moment a watchdog fires: the first cycle at which the count is more than its bound (R351). -/
def State.watchAt (s : State) (e : OpEntry) : Nat :=
  (if e.gathers then e.issuedAt else e.startedAt) + s.watchBound e + e.excluded + (if e.waitStart.isSome then 10 * Config.msCycles else 0) + 1

/-- Does the heartbeat mirror hold a word of a core's sub-units? What such a word says of an operator the spec leaves open (log entry 45). -/
def State.mirrored (s : State) (c : Nat) : Bool := s.cores.heartbeat.any (fun h =>
  h.1 / 2 ^ 28 % 16 == 0 && 52 * (h.1 / 2 ^ 24 % 16) + h.1 / 2 ^ 16 % 2 ^ 8 == s.phys c)

/-- Engine resets of logical cores. -/
def State.resetEngines (s : State) (cs : List Nat) : State := cs.foldl (fun s c => s.engineReset (s.phys c) s.lastSeq) s

/-- Context resets of suspects and the first quarantine of a hang (R354). -/
def State.suspectHang (s : State) (e : OpEntry) (hung : List Nat) : State :=
  let s := s.record uidHub cHangSuspected 2 0 (s.whoOp e)
  let sus := s.ctxsOn hung
  let s := (s.resetCtxs sus).fault (s.ctx e.ctx).runSlot
  let q := s.sched.quarantine
  { s with sched := { s.sched with quarantine := { q with
    cores := hung.foldl insertRising q.cores, suspects := sus.foldl insertRising q.suspects, hung := hung.foldl insertRising q.hung, since := s.now } } }

/-- WATCHDOG_FIRE (R351 to R356): `hung` names the cores whose heartbeat still shows the operator. -/
def execWatchdogFire (op : Nat) (hung : List Nat) (s : State) : Out :=
  match NMap.get? s.sched.ops op with
  | none => .next s
  | some e =>
    if !(e.phase == .started || e.phase == .finished) || e.d.cls == 0x0A || (e.phase == .finished && e.cycles ≤ s.watchBound e) then .next s
    else
      let s := s.advanceTo (s.watchAt e)
      let q := s.sched.quarantine
      if e.turn then
        let s := s.record uidHub cHangReproduced 2 0 (s.whoOp e)
        let s := s.resetCtxs [e.ctx]
        let s := s.resetEngines ((List.range e.coreCount).map (· + e.coreFirst))
        .next { s with sched := { s.sched with quarantine := { s.sched.quarantine with culprit := some e.ctx, culpritOpcode := BitVec.ofNat 16 e.d.opcode } } }
      else if q.culprit == some e.ctx && e.d.opcode == q.culpritOpcode.toNat && !q.cores.isEmpty then
        let s := s.record uidHub cHangExternal 2 0 (s.whoOp e)
        let s := s.resetCtxs [e.ctx]
        .next { s with sched := { s.sched with quarantine := {} } }
      else .next (s.suspectHang e (dedup (hung.filter (fun c => e.runsOn c && s.mirrored c))))

/-- HUNG_CORE_CHECK (R354): 100 µs after the last suspect's reset; a core that still shows an operator gets an engine reset. -/
def execHungCoreCheck (stillBusy : List Nat) (s : State) : Out :=
  let q := s.sched.quarantine
  if q.hung.isEmpty || q.suspects.any (fun c => (s.ctx c).state == .resetting) then .next s
  else
    let last := q.suspects.foldl (fun m c => max m (s.ctx c).resetAt) q.since
    let s := s.advanceTo (last + 100 * Config.usCycles)
    let s := { s with sched := { s.sched with quarantine := { q with hung := [] } } }
    .next (s.resetEngines (q.hung.filter (fun c => stillBusy.contains c && s.mirrored c)))

/-- SUSPECT_IDLE_EXPIRE (R355). -/
def execSuspectIdleExpire (ctx : Nat) (s : State) : Out :=
  let q := s.sched.quarantine
  if q.suspects.contains ctx then
    let s := s.advanceTo (max q.since (s.ctx ctx).issuedAt + Config.sCycles)
    .next (s.dropSuspect ctx false)
  else .next s

/-- WAIT_EXCLUSION_EXPIRE (R352): a wait that has lasted 10 ms counts from now on. -/
def execWaitExclusionExpire (op : Nat) (s : State) : Out :=
  match NMap.get? s.sched.ops op with
  | none => .next s
  | some e => match e.waitStart with
    | none => .next s
    | some t =>
      if e.unexcluded then .next s
      else .next ((s.advanceTo (t + 10 * Config.msCycles)).updOp op (fun e => { e with unexcluded := true }))

/-- STAGING_TIMEOUT (R353): 10 ms after the first operand read. -/
def execStagingTimeout (op : Nat) (s : State) : Out :=
  match NMap.get? s.sched.ops op with
  | none => .next s
  | some e => match e.stagedAt with
    | none => .next s
    | some t =>
      if e.phase != .checked || s.stagedAll e then .next s
      else
        let s := s.advanceTo (t + 10 * Config.msCycles)
        let s := s.record uidHub cStagingTimeout 2 0 (s.whoOp e)
        .next ((s.resetCtxs [e.ctx]).fault (s.ctx e.ctx).runSlot)

end Sys2Proof.Machine
end

