-- ==== Sys2Proof/Machine/Chunks.lean ====
section
/-! DEFINITION. The chunks of an operator and their values, which the check tasks compare (R339, R341, R342). -/

namespace Sys2Proof.Machine

/-- The byte that plane writes leave at an offset of a region: of several, the last. -/
def writtenAt (ws : List PlaneW) (reg off : Nat) : Option Byte := ws.foldl (fun a w =>
  if w.reg == reg && decide (w.off ≤ off) && decide (off < w.off + w.bytes.length) then some (nth w.bytes (off - w.off) 0) else a) none

/-- `n` offsets of a region from `off` on. -/
def placesFrom (reg off n : Nat) : List (Nat × Nat) := (List.range n).map (fun k => (reg, off + k))

/-- Where the bytes of element `i` lie: those of its code that begin in it, and, with the first element of a block, those of the block's entries in the
other planes. -/
def TDesc.placesOf (t : TDesc) (i : Nat) : List (Nat × Nat) :=
  let b := t.elemBit i
  let lo := cdiv b 8
  let q := t.blockOf i
  placesFrom t.eReg (t.eOff + lo) (cdiv (b + elemBits t.fmt) 8 - lo) ++
  (if t.fmt = fmtPair then [(t.bReg, t.bOff + i)]
   else if i != 0 && t.blockOf (i - 1) == q then []
   else if isBlock32 t.fmt then [(t.bReg, t.bOff + q)]
   else if isXB t.fmt then placesFrom t.bReg (t.bOff + 8 * q) 8 ++ placesFrom t.xReg (t.xOff + 2 * q) 2
   else [])

/-- The bytes written to elements `is` of a tensor. -/
def chunkOut (ws : List PlaneW) (t : TDesc) (is : List Nat) : List Byte := (is.flatMap t.placesOf).filterMap (fun p => writtenAt ws p.1 p.2)

/-- An accumulator's state: 16 bytes of a grid partial, the value of a maximum or minimum, value and index of an argmax. -/
def Acc.bytes (a : Acc) : List Byte := match a.kind with
  | .unused => []
  | .sum => leBytes 16 (if a.nonfinite then 2 ^ 127 else intBits 128 a.n)
  | .max | .min => leBytes 4 a.value.toNat
  | .argmax => leBytes 4 a.value.toNat ++ leBytes 4 a.index

/-- The status byte: the bits of R57 and R132 in the order of Table 9.5. -/
def OpStatus.chunkByte (t : OpStatus) : Byte := BitVec.ofNat 8
  (bit t.cvtSat + bit t.cvtNonfinite * 2 + bit t.vxInvalid * 2 ^ 2 + bit t.vxDivzero * 2 ^ 3 + bit t.vxOverflow * 2 ^ 4 +
    bit t.vxUnderflow * 2 ^ 5 + bit t.permOob * 2 ^ 6)

/-- The elements of output `j` that core `i` of the set writes: strips in classes 0x03xx and 0x06xx (R197), rows in class 0x04xx (R214). A result that crosses
rows belongs to no chunk: it is formed from the accumulators. -/
def chunkElems (x : MathCtx) (i j : Nat) : List Nat :=
  let o := x.out j
  let c := max x.cores 1
  if x.d.cls = 4 then
    if o.rows = (x.inp 0).rows then (List.range o.count).filter (fun e => e / o.dim 0 % c == i) else []
  else (stripsOf x.d.nElem c i).flatMap (fun t => (List.range (min x.d.nElem (2048 * (t + 1)) - 2048 * t)).map (· + 2048 * t))

/-- The chunk value of core `i` in classes 0x03xx, 0x04xx and 0x06xx (R342). -/
def chunkValue (x : MathCtx) (b : Body) (i : Nat) : DWord :=
  let k := nth b.chunkAccs i ([], b.stat)
  crc64 ((List.range x.d.nOut).flatMap (fun j => chunkOut b.writes (x.out j) (chunkElems x i j)) ++ k.1.flatMap Acc.bytes ++ [(b.stat.or k.2).chunkByte])

/-- The outputs of the phases of a class 0x02xx operator, by phase. -/
def tileOutput (opcode : Nat) : List (Option Nat) := if opcode = 0x0200 then [none, none, some 0] else [none, none, none, some 0, some 1, some 2]

/-- The tiles of core `i` with the number of their phase. -/
def tilesNumbered (x : MathCtx) (i : Nat) : List (Nat × ArrPhase × Nat) :=
  ((phasesOf x).zip (List.range (phasesOf x).length)).flatMap (fun p => (p.1.plan.partsOf (max x.cores 1) i).map (fun u => (p.2, p.1, u)))

/-- The value of a tile of an attention operator (R341). -/
def tileValue (x : MathCtx) (b : Body) (k : Nat × ArrPhase × Nat) : DWord :=
  let t := k.2.2 / k.2.1.plan.sp
  let out := match nth (tileOutput x.d.opcode) k.1 none with
    | some j => chunkOut b.writes (x.out j) ((List.range (k.2.1.plan.rowsOf t)).flatMap (fun r =>
        (k.2.1.colsOf t).map (fun c => k.2.1.rowNo t r * (x.out j).dim 0 + c)))
    | none => []
  crc64 (out ++ [b.stat.chunkByte])

/-- The core of the set on whose chunk an update block lies: by strips in class 0x05xx (R197), by rows in class 0x04xx (R214); a record's header with its first
block (DESIGN CHOICE, log entry 59). -/
def blockCore (x : MathCtx) (k : DigBlock) : Nat :=
  let c := max x.cores 1
  if k.blk = 0xFFFFFFFF then 0
  else if x.d.cls = 4 then k.blk % c
  else ((List.range c).find? (fun i => (stripsOf (x.out 0).count c i).contains (k.blk / 8))).getD 0

/-- The chunks of an operator's body with the values that the original cores form (R339, R341, R342): step `n`. -/
def chunksOf (x : MathCtx) (b : Body) (n : Nat) : List Chunk :=
  let c := max x.cores 1
  let upd := if x.d.cls = 5 || x.d.opcode = 0x040B then
      (dedup (b.digs.map (blockCore x))).map (fun i => ⟨i, true, BitVec.ofNat 128 (digSum n (b.digs.filter (fun k => blockCore x k == i)))⟩)
    else []
  let rot := if x.d.cls = 2 then (List.range c).flatMap (fun i => (tilesNumbered x i).map (fun k => ⟨i, false, (tileValue x b k).zeroExtend 128⟩))
    else if x.d.cls = 3 || x.d.cls = 4 || x.d.cls = 6 then (List.range c).map (fun i => ⟨i, false, (chunkValue x b i).zeroExtend 128⟩)
    else []
  upd ++ rot

end Sys2Proof.Machine
end

