-- ==== Sys2Proof/Machine/Finish.lean ====
section
/-! DEFINITION. What the end of an operator's body does: the faults met on the way (R110, R121, R122, R157, R335, R499), the stores, the counters (R68, R126),
the step's counts and digests (R86, R87, R91, R320, R337), the known-answer run (R229, R348). -/

namespace Sys2Proof.Machine

/-! ### Faults met by the body -/

/-- One mismatching row (R120, R121): the fault changes the row's check values, and the comparison finds it unless the change is a multiple of the modulus.
Every mismatching row is counted. The first of a tile is recorded, with its capture in the lowest free slot; an accumulator disagreement has no capture and is
a strike (R110, R335, Table 12.10). The known-answer kernels' operands are in the configuration image: of their rows only the difference is known. -/
def State.arrayFault (e : OpEntry) (x : MathCtx) (p : State × List (Nat × Nat)) (f : ArrayFault) : State × List (Nat × Nat) :=
  match if e.d.cls = 0x0B then some {} else rowCheck x (f.core - e.coreFirst) f.tile f.pass f.row with
  | none => p
  | some c =>
    let diff := modM (c.lhs + f.diff.toNat - c.rhs)
    if diff = 0 && !f.accumulator then p
    else
      let s := p.1.updCtr f.core (fun k => { k with chkMismatch := sat32 (k.chkMismatch + 1) })
      if p.2.contains (f.core, f.tile) then (s, p.2)
      else
        let k := s.ctx e.ctx
        let free := (List.range 64).find? (fun i => (NMap.get? s.sched.captures i).isNone)
        let w := s.whoOp e
        let unit := uidCore (s.phys f.core) 0 0
        let kept := !f.accumulator && free.isSome
        let s := s.record unit cArrayChecksum 2
          (f.pass % 2 ^ 32 + f.row % 2 ^ 10 * 2 ^ 32 + bit c.held.transposed * 2 ^ 42 + bit c.held.masked * 2 ^ 43 + bit f.accumulator * 2 ^ 44 +
            (if kept then free.getD 0 else 0xFF) * 2 ^ 48 + (if f.accumulator then 0 else diff.toNat) * 2 ^ 64) w
        let seq := s.lastSeq.toNat
        let s := if f.accumulator then s.strike f.core 3 seq (if w.inStep then some k.runSlot else none)
          else match free with
            | some i =>
              let q : Capture :=
                { recSeq := seq, core := f.core, unit := unit, runSlot := k.runSlot, inStep := w.inStep, attempt := w.attempt, step := w.step, fault := f
                  held := c.held, desc := e.desc, flushed := false }
              { s with sched := { s.sched with captures := NMap.set s.sched.captures i q } }
            | none => { s with sched := { s.sched with captureOverflow := sat32 (s.sched.captureOverflow + 1) } }
        (s, p.2 ++ [(f.core, f.tile)])

/-- Does a fault strike one of the operator's own cores? -/
def OpEntry.owns (e : OpEntry) (core : Nat) : Bool := decide (e.coreFirst ≤ core) && decide (core < e.coreFirst + e.coreCount)

/-- The faults of an operator that uses the array, on its own cores: classes 0x01xx and 0x02xx, and the known-answer kernels. -/
def OpEntry.ownFaults (e : OpEntry) (env : OpEnv) : List ArrayFault :=
  if e.d.cls == 1 || e.d.cls == 2 || e.d.cls == 0x0B then env.arrayFaults.filter (fun f => e.owns f.core) else []

def OpEntry.ownTiles (e : OpEntry) (env : OpEnv) : List BadWord := env.tileFaults.filter (fun f => e.owns f.core)

/-- The operands of an operator whose bad words are delivered as zeros (R122, R329). -/
def MathCtx.zeroed (x : MathCtx) (l : List BadWord) : MathCtx :=
  { x with rd := fun reg off => if l.any (fun w => w.reg == reg && decide (w.off ≤ off) && decide (off < w.off + 8)) then 0 else x.rd reg off }

/-- The planes an operator reads in LPDDR5X under an empty key slot: those reads are dropped (R170). -/
def State.keylessReads (s : State) (e : OpEntry) : Nat :=
  let x := s.ctx e.ctx
  ((e.ts.take e.d.nIn).flatMap (fun t => (t.planes false).filter (fun p =>
    let r := x.region p.1
    r.valid && !isHost r.base && (s.keyFor x r).isNone))).length

/-- The corrected words and lines of an operator's reads count in their cores and controllers, dropped reads at the key slots (R122, R157, R170). -/
def State.addFixed (s : State) (e : OpEntry) (env : OpEnv) : State :=
  { s with
    cores := { s.cores with recs := (env.tileFixed.filter e.owns).foldl (fun m c =>
      NMap.upd m c {} (fun k => { k with ctr := { k.ctr with tileEccCorrected := sat32 (k.ctr.tileEccCorrected + 1) } })) s.cores.recs }
    memsys := { s.memsys with
      keySlotDrops := s.memsys.keySlotDrops + s.keylessReads e
      ctr := env.lineFixed.foldl (fun m l =>
        NMap.upd m (ctrlOf (256 * l)) {} (fun k => { k with corrected := sat32 (k.corrected + 1) })) s.memsys.ctr } }

/-- What the operator leaves in the arrays of its cores (R110, R119). -/
def State.keepArrays (s : State) (e : OpEntry) (x : MathCtx) : State :=
  { s with cores := { s.cores with arrays := (regsOf x).foldl (fun m q => NMap.set m (e.coreFirst + q.1) q.2) s.cores.arrays } }

/-- The lines of the ranges an operator reads in LPDDR5X. -/
def State.readLines (s : State) (e : OpEntry) : List (Nat × Nat) := (s.readSegs e).filter (fun p => !isHost p.1 && p.2 != 0)

/-- The uncorrectable lines an operator meets: those already bad, and those found now within its read ranges (R157). -/
def State.badLinesOf (s : State) (e : OpEntry) (env : OpEnv) : List Nat :=
  let r := s.readLines e
  dedup (r.flatMap (fun p => s.memsys.mem.badIn p.1 p.2) ++ env.lineFaults.filter (fun l => r.any (fun p => rangesMeet (256 * l) 256 p.1 p.2)))

/-- Is the operator in an open step of its context's run? -/
def State.inOpenStep (s : State) (e : OpEntry) : Bool := (s.runOf e.ctx).openStep.isSome

/-! ### Counters and digests -/

/-- A 128-bit sum. -/
def add128 (a : BitVec 128) (n : Nat) : BitVec 128 := a + BitVec.ofNat 128 n

/-- Is this module's part of a scale operator's tensor the one with code block 0, whose digest owner counts the header (R320; log entry 51)? -/
def State.ownsBlock0 (s : State) (e : OpEntry) : Bool :=
  let o : TDesc := nth e.ts e.d.nIn 0
  let me := (s.myIdx e.scaleGroup).getD 0
  if e.d.opcode = 0x0501 then
    let n := (scaleOf o (s.rdOf e.ctx [])).blockCount
    decide (n ≤ o.count) || shareLo n (max 1 (s.groupE e.scaleGroup).size) me == 0
  else me == 0

/-- What the blocks an operator wrote add to the step digest, the replica digests and the update digest (R320, R337, R369). The blocks that ADAMW writes in a
calibration step enter none, since the step commits its scale records alone (R97). -/
def State.addDigests (s : State) (slot : Nat) (e : OpEntry) (l : List DigBlock) : State :=
  match (s.run slot).openStep with
  | none => s
  | some n =>
    let owner := flag e.d 24
    let zero := s.ownsBlock0 e
    let l := if (s.run slot).calibrate && e.d.opcode = 0x0500 then [] else l
    l.foldl (fun s k =>
      let v := blockDigest k.tid k.blk n k.flags k.bytes
      let g := s.replicaOf (s.run slot) k.tid
      s.updRun slot (fun r => { r with
        stepDigest := if owner && (zero || k.blk != 0xFFFFFFFF) then add128 r.stepDigest v else r.stepDigest
        updateDigest := if g.isNone then add128 r.updateDigest v else r.updateDigest
        replica := match g with
          | some g => let q := NMap.getD r.replica g {}
            NMap.set r.replica g { q with digest := add128 q.digest v, blocks := q.blocks + 1 }
          | none => r.replica })) s

/-- The step's counts of R86, R87, R91; SCALE_AT_LIMIT once per tensor per step; the records of a calibration, whose step commits no skip counts (R97). -/
def State.addCounts (s : State) (slot : Nat) (e : OpEntry) (b : Body) : State :=
  if (s.run slot).openStep.isNone then s
  else
    let raised := match b.limitTid with
      | some t => !((s.run slot).limitRaised.contains t)
      | none => false
    let commits := bit !(s.run slot).calibrate
    let scale := e.d.opcode == 0x0501 || e.d.opcode == 0x040B
    let s := s.updRun slot (fun r => { r with
      scaleWritten := if scale then r.scaleWritten ++ [(nth e.ts e.d.nIn 0 : TDesc).tid] else r.scaleWritten
      skipOvf := r.skipOvf + commits * b.skipOvf, skipNf := r.skipNf + commits * b.skipNf, skipUpdate := r.skipUpdate + commits * b.skipUpdate
      scaleFloorBlocks := r.scaleFloorBlocks + b.floorBlocks, scaleAtLimit := r.scaleAtLimit + b.atLimit
      limitRaised := if raised then r.limitRaised ++ b.limitTid.toList else r.limitRaised
      calibRecords := match b.calibRec with
        | some q => putRec r.calibRecords ⟨q.1, q.2⟩
        | none => r.calibRecords })
    if raised then s.record uidHub cScaleAtLimit 0 0 (s.whoOp e) else s

/-! ### The end of a body (R196) -/

/-- No vector engine runs operator `id` any more. -/
def State.unbindVec (s : State) (id : Nat) : State :=
  { s with vec := s.vec.map (fun p => (p.1, if p.2.op == some id then { p.2 with op := none, passes := [], kept := [] } else p.2)) }

/-- T_op of a started operator. A gathered operator ends at a moment that the spec leaves open within the bound of R248: a free value from its issue on. -/
def State.opCycles (s : State) (e : OpEntry) (t stall : Nat) : Nat :=
  if e.gathers then (Config.freeWord s.free).toNat % (s.gatherBound e - (e.startedAt - e.issuedAt) + 1) else 80 + t + stall

/-- An operator outside a step that writes a region of a bank pair makes the mirror stale (R460). -/
def State.touchBanks (s : State) (e : OpEntry) : State :=
  let slot := (s.ctx e.ctx).runSlot
  let r := s.run slot
  if r.openStep.isNone && (e.ts.drop e.d.nIn).any (fun t => (t.planes false).any (fun p => r.inPair e.ctx p.1)) then
    s.updMirror slot (fun m => { m with stale := true }) else s

/-- The chunks of an operator in an open step, with their values. -/
def State.chunksFor (s : State) (e : OpEntry) (x : MathCtx) (b : Body) : List Chunk := match (s.runOf e.ctx).openStep with
  | some n => chunksOf x b n
  | none => []

/-- End a started operator's body: the results `b` are stored, or a fault ends it. A line that proves uncorrectable outside a step was read in staging, before
the start: nothing is written and no cycle counted (R161, R499). In a step bad lines and words are zeros to the operator (R122, R157). -/
def State.finishBody (s : State) (id : Nat) (e : OpEntry) (env : OpEnv) (mk : MathCtx → Body) : State :=
  let slot := (s.ctx e.ctx).runSlot
  let inStep := s.inOpenStep e
  match env.accessFault with
  | some c => ((s.addFixed e env).unbindVec id).endOp id c
  | none =>
    let s := s.loseLines env.lineErrors
    let lines := s.badLinesOf e env
    let tiles := e.ownTiles env
    let arr := e.ownFaults env
    let w := s.whoOp e
    let s := lines.foldl (fun s l => s.lineBad l w) { s with memsys := { s.memsys with mem := lines.foldl Mem.markBad s.memsys.mem } }
    let s := tiles.foldl (fun s t => s.tileBad t.core t.addr w (if inStep then some slot else none)) s
    let x := s.mathCtx e
    let f := arr.foldl (State.arrayFault e x) (s, [])
    let s := f.1
    let wrong := !f.2.isEmpty
    let hurt := !lines.isEmpty || !tiles.isEmpty
    if hurt && !inStep then
      let a := match lines, tiles with
        | l :: _, _ => 256 * l
        | _, t :: _ => tileAddr t.core t.addr
        | _, _ => 0
      let staging := !lines.isEmpty
      let s := s.updOp id (fun e => { e with detail := BitVec.ofNat 64 a, phase := if staging then .checked else e.phase })
      ((s.addFixed e env).unbindVec id).endOp id cMemoryUncorrectable
    else if wrong && !inStep then ((s.addFixed e env).unbindVec id).endOp id cArrayChecksum
    else
      let x := if tiles.isEmpty then s.mathCtx e else (s.mathCtx e).zeroed tiles
      let b := mk x
      let ks := s.chunksFor e x b
      let wl := s.badWrites e.ctx b.writes env.lineFaults
      let s := wl.foldl (fun s l => s.lineBad l w) { s with memsys := { s.memsys with mem := wl.foldl Mem.markBad s.memsys.mem } }
      if !wl.isEmpty && !inStep then
        let s := (s.addFixed e env).updOp id (fun e => { e with detail := BitVec.ofNat 64 (256 * wl.headD 0) })
        (s.unbindVec id).endOp id cMemoryUncorrectable
      else
      let s := if hurt || wrong || !wl.isEmpty then s.fault slot else s
      match s.planeWrites e.ctx b.writes with
      | .error c => ((s.addFixed e env).unbindVec id).endOp id c
      | .ok s =>
        let s := s.touchBanks e
        let s := b.undef.foldl (fun s p => s.forgetPlane e.ctx p) s
        let s := if wrong || b.undefinedOut then s.forgetOutputs e else s
        let s := ((s.addFixed e env).keepArrays e x).addDeltas e.coreFirst (e.ownDeltas b.deltas)
        let s := if b.code = cOk then (s.addCounts slot e b).addDigests slot e b.digs else s
        let t := s.opCycles e b.tBody env.stall
        let s := s.updOp id (fun e => { e with
          phase := .finished, code := b.code, stat := e.stat.or b.stat, flushed := b.flushed, clamped := b.clamped, cycles := t
          chunks := ks
          detail := BitVec.ofNat 64 b.detail })
        ({ s with free := s.free + 1 }).unbindVec id

/-- May the body of operator `id` run: started, with the opcode, none of its rows left at the gatherer? -/
def State.bodyDue (s : State) (id opcode : Nat) : Option OpEntry := match NMap.get? s.sched.ops id with
  | some e => if e.phase == .started && e.d.opcode == opcode && s.sched.gather.all (fun q => q.2.rows.all (fun r => r.op != id)) then some e else none
  | none => none

/-- The row of an opcode whose result depends on its tensors alone. -/
def State.bodyRow (s : State) (id opcode : Nat) (env : OpEnv) (mk : MathCtx → Body) : Out := match s.bodyDue id opcode with
  | some e => .next (s.finishBody id e env mk)
  | none => .next s

/-! ### SCALE_UPDATE and SCALE_CALIBRATE (R85, R97, R213, R310) -/

/-- The first block of this module's share in a tensor whose record has `n` codes, for a scale operator of `k` blocks (R282; log entry 51). -/
def State.shardFirst (s : State) (e : OpEntry) (n k : Nat) : Nat :=
  if n ≤ k then 0 else shareLo n (max 1 (s.groupE e.scaleGroup).size) ((s.myIdx e.scaleGroup).getD 0)

/-- The record that a replay's SCALE_CALIBRATE takes from the reference, of the tensor it calibrates (R21, R98). -/
def State.recordedScale (s : State) (e : OpEntry) : Option ScaleRec :=
  let r := s.runOf e.ctx
  if e.d.opcode = 0x040B then (r.openStep.bind r.recorded).bind (fun l => l.find? (fun q => q.tid == (nth e.ts 0 0 : TDesc).tid)) else none

/-- A scale operator: its own estimates and their maximum over the group first; the record once the maximum is known. A replay loads the recorded one. -/
def State.scaleRow (s : State) (id opcode : Nat) (env : OpEnv) (est : MathCtx → List Int) : Out := match s.bodyDue id opcode with
  | none => .next s
  | some e => match s.recordedScale e with
    | some q => .next (s.finishBody id e env (fun x => scaleLoad x (q.header, q.codes) (s.shardFirst e q.codes.length (x.out 0).count)))
    | none =>
    let s := if e.lnew.isEmpty then
        let l := est (s.mathCtx e)
        let m := l.foldl max noObs
        let g := e.scaleGroup
        let s := s.updOp id (fun e => { e with lnew := l })
        let tag : BitVec 32 := BitVec.ofNat 32 (nth e.ts e.d.nIn 0 : TDesc).tid
        s.contribute { s.runKey (s.ctx e.ctx).runSlot 3 tag with group := g } [BitVec.ofInt 64 (m + 2 ^ 15)]
      else s
    match s.bodyDue id opcode with
    | none => .next s
    | some e => match e.scaleMax with
      | none => .next s
      | some m =>
        let s := if opcode = 0x0501 then s.mirrorMax e m else s
        .next (s.finishBody id e env (fun x => scaleFinish x e.lnew m))

/-! ### KNOWN_ANSWER (R229, R348) -/

/-- The record of a mismatch. -/
def State.katRecord (s : State) (e : OpEntry) (sev : Nat) (r : KatRun) : State :=
  s.record (uidCore (s.phys e.coreFirst) 0 0) cKatMismatch sev (e.d.arg 0 % 2 ^ 8 + e.coreFirst % 2 ^ 10 * 2 ^ 8 + r.hash8.toNat * 2 ^ 64) (s.whoOp e)

/-- The consequences of the second run (R348). -/
def State.katSecond (s : State) (e : OpEntry) (r : KatRun) : State :=
  if r.pass then s.transient e.coreFirst s.lastSeq.toNat none
  else
    let s := s.katRecord e 3 r
    s.strike e.coreFirst 6 s.lastSeq.toNat none

end Sys2Proof.Machine
end

