-- ==== Sys2Proof/Machine/OpRows.lean ====
section
/-! DEFINITION. The operators of classes 0x01xx to 0x08xx and KNOWN_ANSWER, one row each (Tables 8.4 to 8.11, R229): the body of a started operator. -/

namespace Sys2Proof.Machine

/-! ### Arrays, attention, vectors, rows, updates, conversions, copies -/

/-- MATMUL (R199). -/
def execMatmul (op : Nat) (env : OpEnv) (s : State) : Out := s.bodyRow op 0x0100 env arrBody

/-- MATMUL_DX (R199). -/
def execMatmulDx (op : Nat) (env : OpEnv) (s : State) : Out := s.bodyRow op 0x0101 env arrBody

/-- MATMUL_DW (R200). -/
def execMatmulDw (op : Nat) (env : OpEnv) (s : State) : Out := s.bodyRow op 0x0102 env arrBody

/-- BATCHED_MATMUL (R199). -/
def execBatchedMatmul (op : Nat) (env : OpEnv) (s : State) : Out := s.bodyRow op 0x0103 env arrBody

/-- CONV_FWD (R199). -/
def execConvFwd (op : Nat) (env : OpEnv) (s : State) : Out := s.bodyRow op 0x0108 env arrBody

/-- CONV_DX (R199). -/
def execConvDx (op : Nat) (env : OpEnv) (s : State) : Out := s.bodyRow op 0x0109 env arrBody

/-- CONV_DW (R200). -/
def execConvDw (op : Nat) (env : OpEnv) (s : State) : Out := s.bodyRow op 0x010A env arrBody

/-- ATTN_FWD (R204). -/
def execAttnFwd (op : Nat) (env : OpEnv) (s : State) : Out := s.bodyRow op 0x0200 env attnFwdBody

/-- ATTN_BWD (R205). -/
def execAttnBwd (op : Nat) (env : OpEnv) (s : State) : Out := s.bodyRow op 0x0201 env attnBwdBody

/-- CUSTOM_KERNEL (R146). -/
def execCustomKernel (op : Nat) (env : OpEnv) (s : State) : Out := s.bodyRow op 0x0300 env customBody

/-- ADD (R208). -/
def execAddTensors (op : Nat) (env : OpEnv) (s : State) : Out := s.bodyRow op 0x0301 env libBody

/-- MUL (R208). -/
def execMulTensors (op : Nat) (env : OpEnv) (s : State) : Out := s.bodyRow op 0x0302 env libBody

/-- AXPBY (R208). -/
def execAxpby (op : Nat) (env : OpEnv) (s : State) : Out := s.bodyRow op 0x0303 env libBody

/-- ACT (R208). -/
def execAct (op : Nat) (env : OpEnv) (s : State) : Out := s.bodyRow op 0x0304 env libBody

/-- ACT_BWD (R208). -/
def execActBwd (op : Nat) (env : OpEnv) (s : State) : Out := s.bodyRow op 0x0305 env libBody

/-- RMSNORM (R211). -/
def execRmsnorm (op : Nat) (env : OpEnv) (s : State) : Out := s.bodyRow op 0x0400 env rowBody

/-- RMSNORM_BWD (R211). -/
def execRmsnormBwd (op : Nat) (env : OpEnv) (s : State) : Out := s.bodyRow op 0x0401 env rowBody

/-- LAYERNORM (R211). -/
def execLayernorm (op : Nat) (env : OpEnv) (s : State) : Out := s.bodyRow op 0x0402 env rowBody

/-- LAYERNORM_BWD (R211). -/
def execLayernormBwd (op : Nat) (env : OpEnv) (s : State) : Out := s.bodyRow op 0x0403 env rowBody

/-- SOFTMAX (R211). -/
def execSoftmax (op : Nat) (env : OpEnv) (s : State) : Out := s.bodyRow op 0x0404 env rowBody

/-- SOFTMAX_BWD (R211). -/
def execSoftmaxBwd (op : Nat) (env : OpEnv) (s : State) : Out := s.bodyRow op 0x0405 env rowBody

/-- REDUCE_SUM (R211). -/
def execReduceSum (op : Nat) (env : OpEnv) (s : State) : Out := s.bodyRow op 0x0406 env reduceSumBody

/-- REDUCE_MAX (R212). -/
def execReduceMax (op : Nat) (env : OpEnv) (s : State) : Out := s.bodyRow op 0x0407 env rowBody

/-- ARGMAX (R212). -/
def execArgmax (op : Nat) (env : OpEnv) (s : State) : Out := s.bodyRow op 0x0408 env rowBody

/-- TOPK (R212). -/
def execTopk (op : Nat) (env : OpEnv) (s : State) : Out := s.bodyRow op 0x0409 env rowBody

/-- SCALE_CALIBRATE (R213). -/
def execScaleCalibrate (op : Nat) (env : OpEnv) (s : State) : Out := s.scaleRow op 0x040B env calibLnew

/-- ADAMW (R93). -/
def execAdamw (op : Nat) (env : OpEnv) (s : State) : Out := s.bodyRow op 0x0500 env adamBody

/-- SCALE_UPDATE (R85). -/
def execScaleUpdate (op : Nat) (env : OpEnv) (s : State) : Out := s.scaleRow op 0x0501 env updateLnew

/-- CONVERT (R219). -/
def execConvert (op : Nat) (env : OpEnv) (s : State) : Out := s.bodyRow op 0x0600 env cvtBody

/-- QUANT_XB16 (R219). -/
def execQuantXb16 (op : Nat) (env : OpEnv) (s : State) : Out := s.bodyRow op 0x0601 env cvtBody

/-- PAIR_TO_WORKING (R55). -/
def execPairToWorking (op : Nat) (env : OpEnv) (s : State) : Out := s.bodyRow op 0x0602 env cvtBody

/-- PAIR_FROM (R54). -/
def execPairFrom (op : Nat) (env : OpEnv) (s : State) : Out := s.bodyRow op 0x0603 env cvtBody

/-- COPY (R220). -/
def execCopyTensor (op : Nat) (env : OpEnv) (s : State) : Out := s.bodyRow op 0x0700 env copyBody

/-- GATHER_ROWS (R221). -/
def execGatherRows (op : Nat) (env : OpEnv) (s : State) : Out := s.bodyRow op 0x0701 env gatherBody

/-- SCATTER_ROWS (R221). -/
def execScatterRows (op : Nat) (env : OpEnv) (s : State) : Out := s.bodyRow op 0x0702 env scatterBody

/-- SCATTER_ADD_ROWS (R221). -/
def execScatterAddRows (op : Nat) (env : OpEnv) (s : State) : Out := s.bodyRow op 0x0703 env scatterAddBody

/-- PERMUTE (R221). -/
def execPermute (op : Nat) (env : OpEnv) (s : State) : Out := s.bodyRow op 0x0704 env permuteBody

/-- TRANSPOSE (R220). -/
def execTranspose (op : Nat) (env : OpEnv) (s : State) : Out := s.bodyRow op 0x0705 env transposeBody

/-! ### The activation stack (R171 to R179) -/

/-- The header of a frame (Table 7.7). -/
def Frame.header (f : Frame) : List Byte :=
  leBytes 4 f.tensorId.toNat ++ leBytes 4 (f.fmt.toNat + bit f.mark * 2 ^ 8) ++ leBytes 8 (f.step % 2 ^ 40) ++ leBytes 8 f.bytes ++
  ((List.range 6).flatMap (fun i => leBytes 4 (nth f.shape i 0))) ++ leBytes 16 0

/-- A new frame at the top of a stack, with its header and payload in the stack's pages (R172). -/
def State.pushOn (s : State) (c : Nat) (f : Frame) (payload : List Byte) : State :=
  let k := s.stackOf c
  let bs := f.header ++ payload
  s.setStack c { k with frames := f :: k.frames, bytes := ((List.range bs.length).zip bs).foldl (fun l p => cellPut l (f.off + p.1) p.2) k.bytes }

/-- The payload of a frame. -/
def State.framePayload (s : State) (c : Nat) (f : Frame) : List Byte :=
  let k := s.stackOf c
  (List.range f.bytes).map (fun i => k.byte s.free (f.off + 64 + i))

/-- The `step` of a frame pushed now. -/
def State.frameStep (s : State) (c : Nat) : Nat := (s.runOf c).openStep.getD noStep

/-- The planes of a tensor as a frame's payload holds them. -/
def TDesc.payloadOf (t : TDesc) (rd : Rd) : List Byte :=
  t.elemDense rd ++ rdBytes rd t.bReg t.bOff (t.blockBytes false) ++ rdBytes rd t.xReg t.xOff t.auxBytes

/-- The frame's tensor, its planes in regions 0, 1 and 2 of a reader over the payload. -/
def Frame.tensor (f : Frame) : TDesc :=
  let t : TDesc := BitVec.ofNat 512 (f.tensorId.toNat + f.fmt.toNat * 2 ^ 32 + sumOf ((List.range 6).map (fun i => nth f.shape i 1 * 2 ^ (64 + 32 * i))))
  t.overImage 0

/-- The body of a POP or PEEK: the frame's planes, or under `transpose` its elements with dimensions 0 and 1 exchanged (R173, R179). -/
def popBody (x : MathCtx) (f : Frame) (payload : List Byte) (t : Nat) : Body :=
  let o := x.out 0
  if bitsOf x.d.cflags 0 1 == 1 then
    let a := f.tensor
    let e := transposeEnc x a o (a.code (rdLists [payload]))
    { writes := o.writes e, stat := { cvtSat := e.sat, cvtNonfinite := e.nonfin }, tBody := t }
  else
    let n := o.denseLen
    let b := o.blockBytes false
    { writes := o.imageWrites false (padTo 32 (payload.take n) ++ padTo 32 ((payload.drop n).take b) ++ padTo 32 ((payload.drop (n + b)).take o.auxBytes))
      tBody := t }

/-- A stack operator's row: the stack is looked at again, since operators of other streams may have changed it; a change that makes a check of R171 to R174
fail ends the operator with that check's code (DESIGN CHOICE, log entry 27). `after` is what a body that succeeds does to the stack. -/
def State.stackRow (s : State) (id opcode : Nat) (env : OpEnv) (mk : OpEntry → MathCtx → Body) (after : OpEntry → State → State) : Out :=
  match s.bodyDue id opcode with
  | none => .next s
  | some e =>
    let c := s.stackCode e
    if c != cOk then .next (s.endOp id c)
    else
      let s' := s.finishBody id e env (mk e)
      if (NMap.get? s'.sched.ops id).any (fun e => e.phase == .finished) then .next (after e s') else .next s'

/-- The frame a POP or PEEK reads, with its depth. -/
def State.popFrame (s : State) (e : OpEntry) : Option (Nat × Frame) :=
  (stackDepth e.d (s.stackOf e.ctx)).bind (fun n => ((s.stackOf e.ctx).frames[n]?).map (fun f => (n, f)))

/-- The body of POP and PEEK in a state. -/
def State.popMk (s : State) (e : OpEntry) (x : MathCtx) : Body :=
  let t := s.stackT e
  match s.popFrame e with
  | some (_, f) => if e.d.nOut = 0 then { tBody := t } else popBody x f (s.framePayload e.ctx f) t
  | none => { tBody := t }

/-- PUSH (R172, R173). -/
def execPushFrame (op : Nat) (env : OpEnv) (s : State) : Out :=
  s.stackRow op 0x0800 env (fun e _ => { tBody := s.stackT e }) (fun e s' =>
    let t : TDesc := nth e.ts 0 0
    let f : Frame :=
      { tensorId := BitVec.ofNat 32 t.tid, fmt := BitVec.ofNat 8 t.fmt, mark := false, step := s.frameStep e.ctx, bytes := t.payload, shape := t.dims
        off := (s.stackOf e.ctx).top, len := frameLen t.payload }
    s'.pushOn e.ctx f (t.payloadOf (s'.rdOf e.ctx e.staged)))

/-- POP (R173, R176, R177): with `to_mark` every frame down to the newest mark goes, and nothing is copied. -/
def execPopFrame (op : Nat) (env : OpEnv) (s : State) : Out :=
  s.stackRow op 0x0801 env (fun e => s.popMk e) (fun e s' => match s.popFrame e with
    | some (n, _) => let k := s'.stackOf e.ctx
      (s'.setStack e.ctx (k.cut (k.frames.length - n - 1))).fetchBack e.ctx true
    | none => s')

/-- PEEK (R173): nothing is removed. -/
def execPeekFrame (op : Nat) (env : OpEnv) (s : State) : Out := s.stackRow op 0x0802 env (fun e => s.popMk e) (fun _ s' => s')

/-- MARK (R173): a frame of a header alone; its `fmt`, `bytes` and lengths are zero. -/
def execMarkFrame (op : Nat) (env : OpEnv) (s : State) : Out :=
  s.stackRow op 0x0803 env (fun e _ => { tBody := s.stackT e }) (fun e s' =>
    s'.pushOn e.ctx ⟨0, 0, true, s.frameStep e.ctx, 0, List.replicate 6 0, (s.stackOf e.ctx).top, 4096⟩ [])

/-! ### KNOWN_ANSWER -/

/-- What happens to the arrays in the runs of a kernel that count: the first, and the second where the first disagrees. -/
def katEnv (runs : List KatRun) : OpEnv := match runs with
  | [] => .quiet
  | r :: rest => { OpEnv.quiet with arrayFaults := r.faults ++ (if r.pass then [] else (rest.take 1).flatMap KatRun.faults) }

/-- KNOWN_ANSWER (R229, R348): a mismatch is recorded and the kernel runs once more. A checksum mismatch of the array ends it with ARRAY_CHECKSUM (R121). -/
def execKnownAnswer (op : Nat) (runs : List KatRun) (s : State) : Out :=
  match s.bodyDue op 0x0B00, runs with
  | some e, r :: rest =>
    let t := s.tBody e
    let done := fun (s : State) => s.finishBody op e (katEnv (r :: rest)) (fun _ => { stat := { katPass := r.pass }, tBody := t })
    if r.pass then .next (done s)
    else match rest with
      | r2 :: _ => .next (done ((s.katRecord e 0 r).katSecond e r2))
      | [] => .next s
  | _, _ => .next s

end Sys2Proof.Machine
end

