-- ==== Sys2Proof/Machine/CtrlRows.lean ====
section
/-! DEFINITION. The control lane's events: CTRL cells as they arrive (R301 to R307, R309, R310, R315, R319, R321, R323, R324), heartbeats (R306), stragglers and
failed roots (R362, R363), rank moves and the spare role (R307, R366). -/

namespace Sys2Proof.Machine

/-! ### Arrival -/

/-- Can the module take this cell from the link now? A GUARDED port takes only what it had received before (R296). -/
def State.cellHere (s : State) (l : LinkRef) (c : Cell) : Bool :=
  let k := s.link l
  (match l with
    | .host _ => false
    | _ => true) && (cellFault l c).isNone &&
  (k.state == .up || (k.state == .guarded && k.rx.any (fun i => i.hdr == c.hdr && i.data == c.payload)) || s.links.own.contains c)

/-- A CTRL cell of a type, meant for this module. -/
def State.ctrlHere (s : State) (l : LinkRef) (c : Cell) (cmsg : Nat) : Bool :=
  s.cellHere l c && c.kind == 2 && c.hi 0 8 == cmsg && (s.isOwnRank c.dst || (cmsg == 9 && c.dst == floodDst))

/-- The key under which a neighbour of a run's tree is kept. -/
def peerKey (slot rank : Nat) : Nat := slot * 2 ^ 18 + rank

/-- A message has arrived from a rank (R306). -/
def State.seen (s : State) (slot rank : Nat) : State := { s with ctrl := { s.ctrl with peerSeen := NMap.set s.ctrl.peerSeen (peerKey slot rank) s.now } }

/-- The runs whose tree has neighbours of this module. -/
def State.treeRuns (s : State) : List Nat := s.openRuns.filter (fun k => decide (1 < (s.groupE (s.run k).group).size) && (s.runMe k).isSome)

/-- Is a rank this module's parent or child in a run's tree? -/
def State.treeNear (s : State) (slot rank : Nat) : Bool := match s.runMe slot with
  | none => false
  | some me =>
    let e := s.groupE (s.run slot).group
    (treeChildren e.size me).any (fun j => e.rank j == rank) || (me != 0 && e.rank (treeParent me) == rank)

/-- A message that names no run has arrived from a rank: it counts in every run whose tree has that rank beside this module (R306). -/
def State.heard (s : State) (rank : Nat) : State := (s.treeRuns.filter (fun k => s.treeNear k rank)).foldl (fun s k => s.seen k rank) s

/-- The reduction key a CTRL cell carries. -/
def ctrlKey (c : Cell) : RedKey :=
  { group := c.group, cmsg := c.hi 0 8, step := c.step, attempt := c.attempt, xseq := c.hi 16 14, tag := BitVec.ofNat 32 (c.hi 32 32) }

/-- Is the direction of a CTRL cell one that its sender may use: up from a child, down from the parent? The root's answer to a late VOID_REQUEST comes
from the root itself (R323). -/
def ctrlFrom (c : Cell) (g me j : Nat) : Bool :=
  if c.hi 8 1 = 1 then me != 0 && (j == treeParent me || (c.hi 0 8 == 5 && j == 0)) else (treeChildren g me).contains j

/-- The mark of an up-sweep message that a move makes child `j` send again, while such a message may come. -/
def State.resentMark (s : State) (k : RedKey) (j : Nat) (lanes : List DWord) : Option Resent :=
  s.ctrl.resent.find? (fun m => m.key == k && m.child == j && m.lanes == lanes && decide (s.now < m.at_ + resentWindow))

/-- An up-sweep message of child `j`: the first counts; a second, also one that comes after the reduction has ended here, or one of a child declared
failed, is discarded (R304, R305, R363). -/
def State.upSweep (s : State) (k : RedKey) (j : Nat) (lanes : List DWord) : State :=
  let r := s.redOf k
  let unmark := fun (m : Resent) => { s with ctrl := { s.ctrl with resent := s.ctrl.resent.erase m } }
  if (NMap.get? r.children j).isSome || r.excused.contains j || (s.resentMark k j lanes).isSome then
    match s.resentMark k j lanes with
    | some m => unmark m
    | none => s
  else (s.setRed { r with children := NMap.set r.children j lanes, arrivals := NMap.set r.arrivals j s.now }).redStep k

/-- A reduction message (R304): a cell of an unknown group or from a member that is no neighbour is violation 0x0009; a message of a step not opened here
yet waits; one of another step or attempt matches nothing. -/
def State.reduceCell (s : State) (l : LinkRef) (c : Cell) (cmsg : Nat) : Out :=
  if !s.ctrlHere l c cmsg then .next s
  else
    let k := ctrlKey c
    let e := s.groupE k.group
    let fit := if k.step = noStep then TagFit.present else s.tagFit e.slot k.step k.attempt
    match s.myIdx k.group, s.idxOf k.group c.src with
    | some me, some j =>
      if !ctrlFrom c e.size me j then .next ((s.takeCell l c).violation l 9)
      else match fit with
        | .waiting => .next (s.seen e.slot c.src)
        | .stale => .next ((s.takeCell l c).seen e.slot c.src)
        | .present =>
          let s := (s.takeCell l c).seen e.slot c.src
          let lanes := lanesOf ((ctrlLanes cmsg).getD 0) c.payload
          if c.hi 8 1 = 0 then .next (s.upSweep k j lanes).settle
          else if (cmsg == 1 || cmsg == 2 || cmsg == 3 || cmsg == 0x0B) && (s.redOf k).own.isNone then
            .next (if cmsg = 2 then s.violation l 9 else s)
          else .next (s.deliver k (c.hi 64 64) lanes).settle
    | _, _ => .next ((s.takeCell l c).violation l 9)

/-- CTRL_STEP_BEGIN (R315). -/
def execCtrlStepBegin (l : LinkRef) (c : Cell) (s : State) : Out := s.reduceCell l c 1
/-- CTRL_GROUP_START (R309). -/
def execCtrlGroupStart (l : LinkRef) (c : Cell) (s : State) : Out := match s.reduceCell l c 2 with
  | .next t => .next ((t.openSteps.foldl (fun (t : State) k => t.tryCheck k) t).settle)
  | o => o
/-- CTRL_SCALE_MAX (R310). -/
def execCtrlScaleMax (l : LinkRef) (c : Cell) (s : State) : Out := s.reduceCell l c 3
/-- CTRL_STEP_CHECK (R319). -/
def execCtrlStepCheck (l : LinkRef) (c : Cell) (s : State) : Out := s.reduceCell l c 4
/-- CTRL_STEP_COMMIT (R321, R322). -/
def execCtrlStepCommit (l : LinkRef) (c : Cell) (s : State) : Out := s.reduceCell l c 5
/-- CTRL_CHECKPOINT (R32, R33). -/
def execCtrlCheckpoint (l : LinkRef) (c : Cell) (s : State) : Out := s.reduceCell l c 0x0B

/-- CTRL_VOID_REQUEST (R323, R363, R365): at the root; at member 1 when it names the root's own rank. -/
def execCtrlVoidRequest (l : LinkRef) (c : Cell) (s : State) : Out :=
  if !s.ctrlHere l c 6 then .next s
  else
    let e := s.groupE c.group
    let reason := c.hi 64 8
    let failed := c.hi 72 18
    let s := s.takeCell l c
    match s.myIdx c.group, s.idxOf c.group c.src with
    | some me, some _ =>
      let s := s.seen e.slot c.src
      if (s.run e.slot).group != c.group || !(s.run e.slot).isOpen then .next (s.violation l 9)
      else if me = 0 then .next (s.handleVoid e.slot c.step c.attempt c.src reason failed).settle
      else if me = 1 && reason != 0 && failed = s.rootRank e.slot then .next (s.failRoot e.slot).settle
      else .next (s.violation l 9)
    | _, _ => .next (s.violation l 9)

/-- CTRL_DECISION (R323, R324): a void goes on down the tree and is applied. A spare that has no step open passes it on. -/
def execCtrlDecision (l : LinkRef) (c : Cell) (s : State) : Out :=
  if !s.ctrlHere l c 7 then .next s
  else
    let k := ctrlKey c
    let e := s.groupE k.group
    match s.myIdx k.group, s.idxOf k.group c.src with
    | some me, some j =>
      if !ctrlFrom c e.size me j || c.hi 8 1 = 0 then .next ((s.takeCell l c).violation l 9)
      else
        let fit := s.tagFit e.slot k.step k.attempt
        let spare := s.recov.adoption.any (fun a => a.group == k.group)
        if fit == .waiting && !spare then .next (s.seen e.slot c.src)
        else
          let s := (s.takeCell l c).seen e.slot c.src
          if fit == .present || spare then
            let s := (treeChildren e.size me).foldl (fun s j => s.sendCell (s.ctrlCell k true (e.rank j) 1 [])) s
            .next (if fit == .present then s.applyVoid e.slot cStepVoided else s).settle
          else .next s
    | _, _ => .next ((s.takeCell l c).violation l 9)

/-- CTRL_RANK_MOVE (R307): a newer move is applied and flooded on. -/
def execCtrlRankMove (l : LinkRef) (c : Cell) (s : State) : Out :=
  if !s.ctrlHere l c 9 then .next s
  else
    let q := c.hi 32 16
    let rank := c.hi 64 18
    let s := (s.takeCell l c).heard c.src
    if newerSeq (NMap.getD s.links.moveSeq rank 0) q then .next (s.applyMove rank (c.hi 82 20) q).settle else .next s

/-- CTRL_HEARTBEAT (R306). -/
def execCtrlHeartbeat (l : LinkRef) (c : Cell) (s : State) : Out :=
  if !s.ctrlHere l c 0x0A then .next s
  else
    let e := s.groupE c.group
    let s := s.takeCell l c
    match s.myIdx c.group, s.idxOf c.group c.src with
    | some me, some j => .next (if ctrlFrom c e.size me j then s.seen e.slot c.src else s.violation l 9)
    | _, _ => .next (s.violation l 9)

/-! ### Heartbeats and silence (R306, R364) -/

/-- HEARTBEAT_SEND (R306): every 100 µs to the parent and the children in every run tree. -/
def execHeartbeatSend (s : State) : Out :=
  if !s.released then .next s
  else
    let s := s.advanceTo (s.ctrl.hbAt + 100 * Config.usCycles)
    let beat := fun (s : State) (slot : Nat) => match s.runMe slot with
      | none => s
      | some me =>
        let e := s.groupE (s.run slot).group
        let k := s.runKey slot 0x0A (BitVec.ofNat 32 s.ctrl.hbCount)
        let arg := (s.run slot).lastCommitted
        let s := if me = 0 then s else s.sendCell (s.ctrlCell k false (e.rank (treeParent me)) arg [])
        (treeChildren e.size me).foldl (fun s j => s.sendCell (s.ctrlCell k true (e.rank j) arg [])) s
    let s := s.treeRuns.foldl beat s
    .next { s with ctrl := { s.ctrl with hbCount := (s.ctrl.hbCount + 1) % 2 ^ 32, hbAt := s.now } }

/-- CONTROL_PEER_SILENT (R306, R364): 1 ms without a message of a neighbour. A silent child is declared failed, and so is the root by member 1. -/
def execControlPeerSilent (slot peer : Nat) (s : State) : Out :=
  match s.runMe slot with
  | none => .next s
  | some me =>
    let r := s.run slot
    let e := s.groupE r.group
    let child := (treeChildren e.size me).any (fun j => e.rank j == peer)
    if !r.isOpen || !s.treeNear slot peer then .next s
    else
      let s := s.advanceTo (NMap.getD s.ctrl.peerSeen (peerKey slot peer) r.openedAt + Config.msCycles)
      let s := (s.record uidHub cControlPeerSilent 2 peer (s.whoRun slot)).fault slot
      let s := s.seen slot peer
      .next (if child then s.askVoid slot 2 peer else if me = 1 then s.failRoot slot else s).settle

/-! ### Stragglers (R362, R363) -/

/-- Insert a number into a rising list, beside its equals. -/
def insertNat : List Nat → Nat → List Nat
  | [], n => [n]
  | a :: r, n => if n ≤ a then n :: a :: r else a :: insertNat r n

/-- The watch median of a node, as a time after its own opening of the step; none while it is infinite. -/
def State.watchMedian (s : State) (slot me : Nat) : Option Nat :=
  let r := s.run slot
  let e := s.groupE r.group
  let nodes := me :: treeChildren e.size me
  let red := s.redOf (s.runKey slot 4 0)
  let at_ := (nodes.filterMap (NMap.get? red.arrivals)).foldl insertNat []
  at_[cdiv nodes.length 2 - 1]?.map (· - r.openAt)

/-- STRAGGLER_DECLARE (R362, R363): the child is declared failed; the node's up-sweep goes without it, with bit 0 of lane 0 set. -/
def execStragglerDeclare (slot child : Nat) (s : State) : Out :=
  match s.runMe slot with
  | none => .next s
  | some me =>
    let r := s.run slot
    let e := s.groupE r.group
    let k := s.runKey slot 4 0
    let red := s.redOf k
    match (treeChildren e.size me).find? (fun j => e.rank j == child), s.watchMedian slot me with
    | some j, some m =>
      if r.openStep.isNone || (NMap.get? red.children j).isSome || red.excused.contains j then .next s
      else
        let s := s.advanceTo (r.openAt + 3 * m + 50 * Config.usCycles * (treeDepth e.size - treeLevel 8 me))
        let s := s.setRed { red with excused := red.excused ++ [j] }
        let s := s.askVoid slot 1 child
        .next (if me != 0 && red.sentUp.isNone then s.sweepUp (s.redOf k) me else s).settle
    | _, _ => .next s

/-- ROOT_DECLARE_FAILED (R363): member 1, when no decision has come by 4 × m1 + 100 µs. -/
def execRootDeclareFailed (slot : Nat) (s : State) : Out :=
  let r := s.run slot
  match s.runMe slot, s.watchMedian slot 1 with
  | some 1, some m =>
    if r.openStep.isNone || r.passed then .next s
    else .next ((s.advanceTo (r.openAt + 4 * m + 100 * Config.usCycles)).failRoot slot).settle
  | _, _ => .next s

/-! ### The rank objects (R307, R366, Table 16.12) -/

/-- RANK_MOVE: a write of `rank_move` floods the move with the next sequence. -/
def execRankMove (q : Req) (v : BitVec 64) (s : State) : Out :=
  .next (s.dictWrite q 0x7200 6 (leBytes 8 v.toNat) (fun s =>
    let rank := fld v 0 18
    ((s.applyMove rank (fld v 18 20) ((NMap.getD s.links.moveSeq rank 0 + 1) % 2 ^ 16)).settle, cOk))).1

/-- SPARE_ROLE: a released module without a context is armed for the group it names (R366); a degraded one is not (R411). -/
def execSpareRole (q : Req) (v : BitVec 16) (s : State) : Out :=
  .next (s.dictWrite q 0x7200 7 (leBytes 2 v.toNat) (fun s =>
    if s.boot.degraded && v != 0xFFFF then (s, cModuleDegraded)
    else ({ s with recov := { s.recov with spareRole := v, armed := v != 0xFFFF } }, cOk))).1

end Sys2Proof.Machine
end

