-- ==== Sys2Proof/Machine/Twin.lean ====
section
/-! DEFINITION. The twin's side of mirroring (R456 to R462): identity, the mirror of a partner's runs, acknowledgements, mirror tasks, seeding, the loss of the
bridge. -/

namespace Sys2Proof.Machine

/-! ### TWIN_IDENT (R456) -/

/-- TWIN_IDENT (R456): another serial with the same numerics level is accepted, and mirroring runs. -/
def execTwinIdent (c : Cell) (s : State) : Out :=
  if !(s.cellHere .bridge c && c.kind == 0x38) then .next s
  else
    let s := s.takeCell .bridge c
    let serial : DWord := BitVec.ofNat 64 (leAt c.payload 0 8)
    let s := { s with twin := { s.twin with serial := serial, site := BitVec.ofNat 32 (leAt c.payload 8 4), partnerReserve := leAt c.payload 16 2 } }
    if serial.toNat != s.serial && leAt c.payload 12 1 == Config.numericsLevel then
      let s := ({ s with twin := { s.twin with accepted := true } }).record (uidLink .bridge 0xFF) cTwinFound 0 0
      .next (if s.twin.state == .stopped then s.mirrorRuns else s)
    else .next (({ s with twin := { s.twin with accepted := false, state := .stopped } }).record (uidLink .bridge 0xFF) cTwinMismatch 2 0)

/-! ### Items -/

def MirrorItem.bytes (i : MirrorItem) : List Byte := (NMap.vals i.segs).flatten
/-- Have all segments of an item come? -/
def MirrorItem.whole (i : MirrorItem) : Bool := i.last && NMap.keys i.segs == List.range i.segs.length
def MirrorItem.size (i : MirrorItem) : Nat := sumOf (i.segs.map (fun e => e.2.length))

/-- Put a segment into its item. -/
def putSeg (l : List MirrorItem) (step item : Nat) (tid : BitVec 32) (seg : Nat) (bs : List Byte) (last : Bool) : List MirrorItem :=
  let same := fun (i : MirrorItem) => i.step == step && i.item == item && i.tensorId == tid
  if l.any same then l.map (fun i => if same i then { i with segs := NMap.set i.segs seg bs, last := i.last || last } else i)
  else l ++ [⟨step, item, tid, [(seg, bs)], last⟩]

/-- The item with a number, of a step and a tensor. -/
def findItem (l : List MirrorItem) (step item tid : Nat) : Option MirrorItem := l.find? (fun i => i.step == step && i.item == item && i.tensorId.toNat == tid)

def State.mirrorOf (s : State) (slot : Nat) : Mirror := NMap.getD s.twin.mirrors slot {}

/-- The bytes a mirror occupies in the reserve, and what it counts for against the reserve: with two gradient shards (R461). -/
def Mirror.bytes (m : Mirror) : Nat := sumOf (m.items.map MirrorItem.size) + sumOf (m.copies.map (fun e => sumOf (e.2.map MirrorItem.size)))
def Mirror.weight (m : Mirror) : Nat :=
  let grads := m.items.filter (fun i => i.item == 2)
  let per := fun (n : Nat) => sumOf ((grads.filter (fun i => i.step == n)).map MirrorItem.size)
  m.bytes - sumOf (grads.map MirrorItem.size) + 2 * (grads.map (fun i => per i.step)).foldl max 0

def State.setMirror (s : State) (slot : Nat) (m : Mirror) : State :=
  let l := NMap.set s.twin.mirrors slot m
  { s with twin := { s.twin with mirrors := l, reserveUsed := sumOf (l.map (fun e => e.2.bytes)) } }

/-- A mirror leaves the reserve. -/
def State.dropMirror (s : State) (slot : Nat) : State :=
  let l := NMap.erase s.twin.mirrors slot
  { s with twin := { s.twin with mirrors := l, reserveUsed := sumOf (l.map (fun e => e.2.bytes)) } }

/-- Would the mirrors exceed the reserve? -/
def State.reserveFull (s : State) : Bool := decide (s.memsys.twinReserveActive * 2 ^ 30 < sumOf (s.twin.mirrors.map (fun e => e.2.weight)))

/-- The run whose rank `c.src` is mirrored here: its twin is the rank the cell is for. -/
def State.mirrorSlot (s : State) (c : Cell) : Option Nat :=
  let slot := (s.groupE c.group).slot
  let r := s.run slot
  let t := NMap.getD r.twinMap c.src 0
  if s.isOwnRank c.dst && r.isOpen && r.group == c.group && flag t 31 && fld t 0 18 == c.dst then some slot else none

/-! ### MIRROR_DATA, CLOSE and the answer (R458, R460, R461, R375) -/

/-- Cells of another step or attempt begin a new batch; what came before of that step is dropped (R280). -/
def Mirror.begin_ (m : Mirror) (step attempt : Nat) : Mirror :=
  if m.batch = some (step, attempt) then m
  else { m with batch := some (step, attempt), count := 0, sum := 0, closed := none, items := m.items.filter (fun i => i.step != step) }

/-- Answer a batch. -/
def State.mirrorAnswer (s : State) (l : LinkRef) (c : Cell) (ok : Bool) : State :=
  let k := cellOf 3 0x3A c.src c.dst c.attempt c.step (s.runGen (s.groupE c.group).slot) c.group (bit ok + (if ok then 0 else cTwinReserveFull.toNat) * 2 ^ 16) []
  if l == .bridge then s.cellOut .bridge k else s.sendCell k

/-- A batch whose counts and sums agree is kept and answered: a step's items, a seed (R460), or a copy of compatibility mode in one of two slots. -/
def State.mirrorFinish (s : State) (slot : Nat) (l : LinkRef) (c : Cell) : State :=
  let m := s.mirrorOf slot
  let done := { m with batch := none, count := 0, sum := 0, closed := none }
  let mine := m.items.filter (fun i => i.step == c.step)
  let man := ((findItem m.items c.step 0 0).map MirrorItem.bytes).getD []
  let drop := { done with items := m.items.filter (fun i => i.step != c.step) }
  if s.reserveFull then (s.setMirror slot drop).mirrorAnswer l c false
  else if c.step != noStep then
    if m.copyHeld then (s.setMirror slot { done with digests := NMap.set m.digests c.step (BitVec.ofNat 128 (leAt man 0 16)) }).mirrorAnswer l c true
    else (s.setMirror slot drop).mirrorAnswer l c false
  else
    let n := leAt man 24 8
    if (s.run slot).compatInterval != 0 then
      let old := m.copies.filter (fun e => e.1 + 2 * (s.run slot).compatInterval != n && e.1 + (s.run slot).compatInterval ≤ n)
      (s.setMirror slot { drop with copies := NMap.set (old.drop (old.length - 1)) n (mine.filter (fun i => i.item != 0)) }).mirrorAnswer l c true
    else
      let copy := (mine.filter (fun i => i.item == 1)).map (fun i => { i with step := n })
      (s.setMirror slot { done with items := copy, copyHeld := true, copyStep := n, stale := false, digests := [] }).mirrorAnswer l c true

/-- Look whether a batch is complete. -/
def State.mirrorSettle (s : State) (slot : Nat) (l : LinkRef) (c : Cell) : State :=
  let m := s.mirrorOf slot
  if m.closed = some (m.count % 2 ^ 32, m.sum) then s.mirrorFinish slot l c else s

/-- A mirror cell, with what it does to the mirror. Cells with a step tag follow R280; those between steps belong to a seed or a copy. -/
def State.mirrorCellIn (s : State) (l : LinkRef) (c : Cell) (f : Mirror → Mirror) : Out :=
  match s.mirrorSlot c with
  | none => .next ((s.takeCell l c).violation l 9)
  | some slot => match (if c.step = noStep then TagFit.present else s.tagFit slot c.step c.attempt) with
    | .waiting => .next s
    | .stale => .next ((s.takeCell l c).staleOn l)
    | .present => .next (((s.takeCell l c).setMirror slot (f ((s.mirrorOf slot).begin_ c.step c.attempt))).mirrorSettle slot l c)

/-- MIRROR_DATA (R458). -/
def execMirrorData (l : LinkRef) (c : Cell) (s : State) : Out :=
  if !(s.cellHere l c && c.kind == 0x39) then .next s
  else s.mirrorCellIn l c (fun m => { m with
    count := m.count + 1, sum := (m.sum + c.check) % 2 ^ 64
    items := putSeg m.items c.step (c.hi 0 8) (BitVec.ofNat 32 (c.hi 16 32)) (c.hi 48 40) c.payload (c.hi 8 1 == 1) })

/-- The CLOSE of a mirror's batch (lane 3, R458). -/
def State.mirrorClosed (s : State) (l : LinkRef) (c : Cell) : Out := s.mirrorCellIn l c (fun m => { m with closed := some (c.hi 32 32, c.hi 64 64) })

/-- MIRROR_ACK (R318, R458, R460, R461): of the open attempt, of a seed, or of a copy. -/
def execMirrorAck (l : LinkRef) (c : Cell) (s : State) : Out :=
  if !(s.cellHere l c && c.kind == 0x3A) then .next s
  else
    let slot := (s.groupE c.group).slot
    let r := s.run slot
    let ok := c.hi 0 1 == 1
    if !(s.isOwnRank c.dst && r.isOpen && r.group == c.group && s.twinRank slot == some c.src) then .next ((s.takeCell l c).violation l 9)
    else
      let s := s.takeCell l c
      if c.step != noStep then
        if s.tagFit slot c.step c.attempt == .present then
          .next ((s.updMirror slot (fun m => { m with acked := some ok, ackReason := BitVec.ofNat 16 (c.hi 16 16) })).tryCheck slot).settle
        else .next (s.staleOn l)
      else if r.compatInterval != 0 then .next (s.updRun slot (fun r => { r with compatAcked := r.compatAcked || ok }))
      else if r.mirror.seeding then
        .next (s.updMirror slot (fun m => { m with
          seeding := false, seeded := ok, stale := m.stale && !ok, acked := if ok then none else some false, ackReason := BitVec.ofNat 16 (c.hi 16 16) }))
      else .next (s.staleOn l)

/-! ### Mirror tasks (R459) -/

/-- Is a mirror task due: the copy is a step behind what the last commit allows, and the items of its next step are held? -/
def State.taskDue (s : State) (slot : Nat) : Bool :=
  let m := s.mirrorOf slot
  m.copyHeld && !m.stale && decide (m.copyStep + 2 ≤ (s.run slot).lastCommitted) && (NMap.get? m.digests (m.copyStep + 1)).isSome

/-- The entries of item 3 from their segments, maxima joined to their SCALE_UPDATEs. -/
def mirrorOps : Nat → List (List Byte) → List MirrorOp → List MirrorOp
  | 0, _, acc => acc
  | _, [], acc => acc
  | f + 1, g :: gs, acc =>
    if leAt g 0 4 = 0 then
      let put := fun (o : MirrorOp) => let d : OpDesc := o.desc; d.opcode == 0x0501 && o.lmax.isNone && leAt g 4 4 == (nth o.tensors 0 0 : TDesc).tid
      mirrorOps f gs (match acc.findIdx? put with
        | some i => updAt acc i (fun o => { o with lmax := some (signedOf 32 (leAt g 8 4)) })
        | none => acc)
    else
      let d : OpDesc := BitVec.ofNat 1024 (leAt g 0 128)
      let n := d.nIn + d.nOut
      let bytes := (g :: gs.take 3).flatten
      let ts : List (BitVec 512) := (List.range n).map (fun j => BitVec.ofNat 512 (leAt bytes (128 + 64 * j) 64))
      let k := if d.opcode = 0x0500 && d.nIn = 5 then (nth ts 4 0 : TDesc).denseLen else 0
      let segs := cdiv (128 + 64 * n + k) 512
      mirrorOps f (gs.drop (segs - 1)) (acc ++ [⟨d, ts, ((((g :: gs).take segs).flatten).drop (128 + 64 * n)).take k, none⟩])

/-- Is tensor `j` of a class 0x05xx operator a scale-state tensor? -/
def OpDesc.scaleIn5 (d : OpDesc) (j : Nat) : Bool := d.opcode == 0x0501 && (j == 0 || j == d.nIn)

/-- Is input `j` the reduced gradient? -/
def OpDesc.gradIn5 (d : OpDesc) (j : Nat) : Bool := j == (if d.opcode = 0x0500 then 0 else 1)

/-- The body of a mirrored operator over a reader. -/
def mirrorBody (o : MirrorOp) (x : MathCtx) : Body :=
  if x.d.opcode = 0x0500 then adamBody x else let l := updateLnew x; scaleFinish x l (o.lmax.getD (l.foldl max noObs))

/-- Store bytes into one of a list of planes. -/
def putPlane (l : List (List Byte)) (w : PlaneW) : List (List Byte) :=
  updAt l w.reg (fun p => p.take w.off ++ w.bytes ++ p.drop (w.off + w.bytes.length))

/-- Run a mirrored operator over packed images: the images of its outputs, and its digest blocks. -/
def MirrorOp.run (o : MirrorOp) (seed : Nat) (img : Nat → Nat → List Byte) : List (Nat × List Byte) × List DigBlock :=
  let d : OpDesc := o.desc
  let ts : List TDesc := o.tensors
  let planes := (List.range ts.length).flatMap (fun j =>
    let t := nth ts j 0
    t.planesOf (d.scaleIn5 j) (if j < d.nIn then img j t.tid else List.replicate (t.imageLen (d.scaleIn5 j)) 0))
  let x : MathCtx := ⟨d, (List.range ts.length).map (fun j => (nth ts j 0 : TDesc).overImage (3 * j)), rdLists planes, seed, false, 1⟩
  let b := mirrorBody o x
  let out := b.writes.foldl putPlane planes
  ((List.range d.nOut).map (fun i => let j := d.nIn + i
    ((nth ts j 0 : TDesc).tid, ((List.range 3).map (fun p => padTo 32 (nth out (3 * j + p) []))).flatten)), b.digs)

/-- The digest sum of blocks of unique tensors (R336, R369). -/
def State.uniqueSum (s : State) (slot step : Nat) (l : List DigBlock) : Nat := digSum step (l.filter (fun k => (s.replicaOf (s.run slot) k.tid).isNone))

/-- Run a step's mirrored operators over a copy: the new copy and the digest sum. -/
def State.mirrorReplay (s : State) (slot step : Nat) (items : List MirrorItem) (copy : List MirrorItem) : List MirrorItem × Nat :=
  let ops := match findItem items step 3 0 with
    | some i => mirrorOps i.segs.length (NMap.vals i.segs) []
    | none => []
  let grad := fun (tid : Nat) => ((findItem items step 2 tid).map MirrorItem.bytes).getD []
  let r := ops.foldl (fun (a : List MirrorItem × List DigBlock) o =>
    let d : OpDesc := o.desc
    let cur := fun (tid : Nat) => ((copy.find? (fun i => i.tensorId.toNat == tid)).map MirrorItem.bytes).getD []
    let q := o.run (s.run slot).seed (fun j tid => if d.gradIn5 j then grad tid else if j = 4 then o.mask else cur tid)
    (q.1.foldl (fun l p => if copy.any (fun i => i.tensorId.toNat == p.1) then
        l.filter (fun i => i.tensorId.toNat != p.1) ++ [⟨step, 1, BitVec.ofNat 32 p.1, segmentsOf p.2, true⟩] else l) a.1, a.2 ++ q.2))
    (copy.map (fun i => { i with step := step }), [])
  (r.1, s.uniqueSum slot step r.2)

/-- MIRROR_TASK (R459): the copy advances by one step; a digest that differs makes the mirror stale. -/
def execMirrorTask (slot : Nat) (s : State) : Out :=
  if !s.taskDue slot then .next s
  else
    let m := s.mirrorOf slot
    let n := m.copyStep + 1
    let r := s.mirrorReplay slot n m.items (m.items.filter (fun i => i.item == 1 && i.step == m.copyStep))
    let good := NMap.get? m.digests n == some (BitVec.ofNat 128 r.2)
    let rest := m.items.filter (fun i => i.step != n && i.step != m.copyStep)
    let s := s.setMirror slot { m with items := r.1 ++ rest, copyStep := n, digests := NMap.erase m.digests n, stale := !good }
    .next (if good then s else (s.record (uidLink .bridge 0xFF) cTwinMirrorDigest 2 0 (s.whoRun slot)).fault slot)

/-! ### Seeding and the loss of the bridge (R460, R462) -/

/-- MIRROR_SEED (R460): between steps, a new or stale mirror is seeded. -/
def execMirrorSeed (slot : Nat) (s : State) : Out :=
  let r := s.run slot
  if r.isOpen && r.openStep.isNone && s.needsSeed slot && !r.mirror.seeding then
    .next { s.seedMirror slot with twin := { (s.seedMirror slot).twin with seeds := sat32 (s.twin.seeds + 1) } }
  else .next s

/-- TWIN_BRIDGE_LOST (R461, R462): open attempts void, and mirroring moves to the fabric. -/
def execTwinBridgeLost (s : State) : Out :=
  let k := s.link .bridge
  if !(s.twin.accepted && s.twin.state == .running && !s.twin.degraded && !k.live && k.state != .training) then .next s
  else
    let s := s.bridgeGone
    let f : Nat × Run → Nat × Run := fun e => (e.1, { e.2 with mirror := { e.2.mirror with seeding := false } })
    let s : State := { s with twin := { s.twin with degraded := true }, runs := s.runs.map f }
    let s := s.record (uidLink .bridge 0xFF) cTwinBridgeLost 3 0
    .next (s.openSteps.foldl (fun (s : State) slot => s.tryCheck slot) s).settle

end Sys2Proof.Machine
end

