-- ==== Sys2Proof/Machine/StepRows.lean ====
section
/-! DEFINITION. The step-control operators (R32, R33, R228, R312 to R326) and the wait before an attempt number is used again (R281). -/

namespace Sys2Proof.Machine

/-- The operator `id`, if it may proceed: it has an opcode, its checks are made and its predecessors have completed (R314). -/
def State.stepDue (s : State) (id opcode : Nat) : Option OpEntry := match NMap.get? s.sched.ops id with
  | some e => if e.d.opcode == opcode && (e.phase == .checked || e.phase == .started) then some e else none
  | none => none

/-- A step-control operator starts now. -/
def State.begun (s : State) (id : Nat) : State :=
  s.updOp id (fun e => if e.phase == .started then e else { e with phase := .started, startedAt := s.now })

/-- The rows of class 0x0Axx: an operator that its predecessors' effects have made inadmissible is rejected; one that is due runs `body`. -/
def State.stepRow (s : State) (id opcode : Nat) (body : State → Nat → OpEntry → State) : Out :=
  let s := s.settle
  match s.stepDue id opcode with
  | none => .next s
  | some e =>
    let c := if e.phase == .checked then s.stepControlCode e.ctx e.d else cOk
    .next ((if c = cOk then body s (s.ctx e.ctx).runSlot e else s.endOp id c).settle)

/-! ### STEP_BEGIN (R77, R96, R104, R281, R315, R344, R375, R456, R460, R462) -/

/-- The first STEP_BEGIN of a run after its open looks for its twin (R456); a bridge that is back takes the mirroring again (R462). -/
def State.pairTwin (s : State) (slot : Nat) : State :=
  let home := s.twin.degraded && s.links.bridge.state == .up && s.twin.accepted &&
    (s.twinRank slot).any (fun k => s.rankSite k == some (fld s.twin.site 0 20))
  let s := if home then { s with twin := { s.twin with degraded := false } } else s
  if (s.run slot).mirror.checked then s
  else
    let good := s.twinPaired slot
    let s := s.updMirror slot (fun m => { m with checked := true, paired := good })
    if s.twin.accepted && (s.twinRank slot).isSome && !good then s.record (uidLink .bridge 0xFF) cTwinMismatch 2 0 (s.whoRun slot) else s

/-- What a STEP_BEGIN waits for before its reduction: attributions, retirements and their reloads, a seed, the acknowledgement of a copy. -/
def State.beginWaits (s : State) (slot : Nat) (e : OpEntry) : Bool :=
  s.sched.captures.any (fun k => k.2.inStep && k.2.runSlot == slot) || !s.cores.due.isEmpty || !s.cores.reloading.isEmpty || s.seedHolds slot ||
  (match (s.run slot).compatAt with
    | some c => !(s.run slot).compatAcked && decide (c + 2 ≤ e.d.step)
    | none => false)

/-- The contribution of STEP_BEGIN. -/
def State.sendBegin (s : State) (slot : Nat) (e : OpEntry) : State :=
  let r := s.run slot
  let a : DWord := BitVec.ofNat 64 (e.d.step % 2 ^ 40 + r.attempt % 16 * 2 ^ 40 + bit r.calibrate * 2 ^ 44)
  let q : DWord := BitVec.ofNat 64 (r.quanta % 2 ^ 24)
  (s.updRun slot (fun r => { r with startWait := false })).contribute (s.runKey slot 1 0) [a, ~~~a, q, ~~~q]

/-- The time from which the run's attempt number may be used again (R281). -/
def State.reuseAt (s : State) (slot : Nat) : Nat := match NMap.get? (s.run slot).voidAt (s.run slot).attempt with
  | some t => t + 20 * Config.sCycles
  | none => 0

/-- STEP_BEGIN. -/
def execStepBegin (op : Nat) (s : State) : Out :=
  s.stepRow op 0x0A00 (fun s slot e =>
    if e.phase == .started then s
    else
      let s := s.pairTwin slot
      if s.beginWaits slot e then s
      else
        let w := decide (s.now < s.reuseAt slot)
        let s := (s.begun op).updRun slot (fun r => { r with
          calibrate := flag e.d 24, quanta := e.d.arg 0 - 1, startWait := w
          qinput := BitVec.ofNat 128 (e.d.arg 1 + e.d.arg 2 * 2 ^ 32 + e.d.arg 3 * 2 ^ 64 + e.d.arg 4 * 2 ^ 96) })
        if w then s else s.sendBegin slot e)

/-- ATTEMPT_REUSE_WAIT (R281): the reduction starts once 20 s have passed. -/
def execAttemptReuseWait (slot : Nat) (s : State) : Out :=
  match (s.opBy slot 0x0A00).bind (NMap.get? s.sched.ops) with
  | none => .next s
  | some e =>
    if (s.run slot).startWait then
      let s := s.advanceTo (s.reuseAt slot)
      .next (s.sendBegin slot e).settle
    else .next s

/-! ### STEP_CHECK, STEP_COMMIT, STEP_VOID (R318, R321, R323, R337, R459) -/

/-- The ALLGATHERs of the replica comparisons are issued and signalled, in rising group (R337, R309). -/
def State.compareReplicas (s : State) (slot : Nat) : State :=
  (s.replicaGroups slot).foldl (fun (s : State) g =>
    let s := s.startReplica slot g
    let k := { s.runKey slot 2 0 with group := g, xseq := NMap.getD (s.run slot).xseqs g 0 }
    s.contribute k [1, replicaSig, ~~~replicaSig]) s

/-- STEP_CHECK: the replica comparisons and the close of the mirror's items start with it; mirror tasks that are due come first. -/
def execStepCheck (op : Nat) (s : State) : Out :=
  s.stepRow op 0x0A01 (fun s slot _ =>
    if s.taskDue slot then s
    else if (s.run slot).replicaStarted then (s.begun op).tryCheck slot
    else
      let s := ((s.begun op).mirrorClose slot).compareReplicas slot
      (s.updRun slot (fun r => { r with replicaStarted := true })).tryCheck slot)

/-- STEP_COMMIT: after a pass decision, the veto. -/
def execStepCommit (op : Nat) (s : State) : Out :=
  s.stepRow op 0x0A02 (fun s slot _ =>
    let s := s.begun op
    let r := s.run slot
    if r.passed && !r.vetoSent then
      (s.updRun slot (fun r => { r with vetoSent := true })).contribute (s.runKey slot 5 0) [BitVec.ofNat 64 (bit r.checkFailure)]
    else s)

/-- STEP_VOID: the check-failure flag is set, and the root is asked. After the step's commit or void it completes at once. -/
def execStepVoid (op : Nat) (s : State) : Out :=
  s.stepRow op 0x0A03 (fun s slot e =>
    let r := s.run slot
    if e.phase == .started then s
    else if r.openStep.isSome then ((s.begun op).fault slot).askVoid slot 0 0
    else if e.d.step ≤ r.lastCommitted then s.endOp op cStepAlreadyCommitted
    else (s.updOp op (fun e => { e with noop := true })).endOp op cOk)

/-! ### SNAPSHOT (R312) -/

/-- SNAPSHOT: at once, or with its run's next decision. -/
def execSnapshot (op : Nat) (s : State) : Out :=
  s.stepRow op 0x0A04 (fun s _ e =>
    if e.phase == .started then s
    else if flag e.d 24 && (s.ctx e.ctx).runSlot != noRun then s.begun op
    else (s.begun op).strobe (.op op))

/-! ### CHECKPOINT and CHECKPOINT_VERIFY (R32, R33) -/

/-- A module's part of a checkpoint's digest goes into the reduction; its own failure stays with its operator. -/
def State.sendCkpt (s : State) (slot op c kind : Nat) : State :=
  let p := s.stateSum slot c
  let s := (s.begun op).updOp op (fun e => { e with code := p.2.getD cOk })
  s.contribute (s.runKey slot 0xB (BitVec.ofNat 32 kind)) (pairOf p.1 ++ [BitVec.ofNat 64 (bit p.2.isSome)])

/-- CHECKPOINT. -/
def execCheckpoint (op : Nat) (s : State) : Out :=
  s.stepRow op 0x0A05 (fun s slot e => if e.phase == .started then s else s.sendCkpt slot op (s.run slot).lastCommitted 0)

/-- CHECKPOINT_VERIFY; loaded records go into bank pairs, which makes the mirror stale (R460). -/
def execCheckpointVerify (op : Nat) (s : State) : Out :=
  s.stepRow op 0x0A06 (fun s slot e =>
    if e.phase == .started then s
    else
      let c := e.d.arg 0 + e.d.arg 1 % 256 * 2 ^ 32
      let s := match (if flag e.d 24 then (s.run slot).ckptOf c else none) with
        | some k => (s.loadScales slot k).updMirror slot (fun m => { m with stale := true })
        | none => s
      s.sendCkpt slot op c 1)

end Sys2Proof.Machine
end

