-- ==== Sys2Proof/Machine/Recovery.lean ====
section
/-! DEFINITION. The recovery of a failed rank's state (R369 to R376): requests and their answers, what the spare pulls and places, the replay of the update, the
restore of compatibility mode. Item 0 is laid out as: 16 bytes update digest; a byte of flags (1 no update, 2 the run's bank, 4 nothing held); the attempt;
from byte 24 the step S; from byte 32 the last committed step; from byte 64 an entry of 32 bytes per tensor (tensor ID, item at byte 4, length at byte 8). Item 4 is
456 bytes of position (window length, its base, the state of the running hash, the chain, the last step record, flags, three lengths), the steps with a lineage
break, the calibration steps, the CHECKPOINT entries and the staging window (DESIGN CHOICE, log entry 24). -/

namespace Sys2Proof.Machine

/-! ### What a twin answers (R369, R375, R459) -/

/-- The segments of an item; an empty item has one empty segment. -/
def itemSegs (bs : List Byte) : List (Nat × List Byte) := if bs.isEmpty then [(0, [])] else segmentsOf bs

/-- The newest checkpoint of compatibility mode that a run at step `s` goes back to (R376). -/
def compatStep (n s : Nat) : Nat := (s - 1) / n * n

/-- Does the mirror hold what a recovery of step S needs: the state of S − 1 with the items of S, or a seed of S? -/
def Mirror.serves (m : Mirror) (r : Run) (n : Nat) : Bool :=
  if r.compatInterval != 0 then decide (r.compatInterval < n) && (NMap.get? m.copies (compatStep r.compatInterval n)).isSome
  else m.copyHeld && !m.stale && (m.copyStep == n || (m.copyStep + 1 == n && (NMap.get? m.digests n).isSome))

/-- No update is to be replayed: the copy stands at S, or it is one of compatibility mode. -/
def Mirror.noUpdate (m : Mirror) (r : Run) (n : Nat) : Bool := r.compatInterval != 0 || m.copyStep == n

/-- The items 1 to 3 the mirror answers with. -/
def Mirror.served (m : Mirror) (r : Run) (n : Nat) : List MirrorItem :=
  if r.compatInterval != 0 then (NMap.getD m.copies (compatStep r.compatInterval n) []).filter (fun i => i.item == 1)
  else m.items.filter (fun i => (i.item == 1 && i.step == m.copyStep) || (!m.noUpdate r n && (i.item == 2 || i.item == 3) && i.step == n))

/-- Item 4: the run's Almanac position, what a certificate, a restore and a step record need of the bytes that have left the window (R23, R33, R326), and the
staging window (R30). -/
def Run.almItem (r : Run) : List Byte :=
  let ks := (r.ckpts.map (fun k => (ckptEntry k).bytes)).flatten
  leBytes 8 r.almWindow.length ++ leBytes 8 r.almBase ++ leBytes 8 r.sha.len ++ leBytes 8 r.sha.h.length ++ digestBytes r.chain ++
  fitBytes 64 (r.sha.h.map (fun w => leBytes 8 w.toNat)).flatten ++ fitBytes 128 r.sha.buf ++
  leBytes 128 r.stepRecord.toNat ++ leBytes 8 (bit r.committedAny + 2 * bit r.restored + 4 * bit r.scaleLost) ++ leBytes 8 r.breaks.length ++
  leBytes 8 r.calibSteps.length ++ leBytes 16 ks.length ++ (r.breaks.map (leBytes 8)).flatten ++ (r.calibSteps.map (leBytes 8)).flatten ++ ks ++ r.almWindow

/-- Item 0. -/
def State.manifest (s : State) (slot : Nat) : List Byte :=
  let r := s.run slot
  let m := s.mirrorOf slot
  let n := r.lastCommitted
  let has := m.serves r n
  let step := if r.compatInterval != 0 then compatStep r.compatInterval r.lastCommitted else r.lastCommitted
  let entry := fun (tid item len : Nat) => leBytes 4 tid ++ leBytes 4 item ++ leBytes 8 len ++ leBytes 16 0
  leBytes 16 (NMap.getD m.digests r.lastCommitted 0).toNat ++ leBytes 1 (bit (m.noUpdate r n) + 2 * bit r.bank + 4 * bit (!has)) ++ leBytes 1 r.attempt ++
  leBytes 6 0 ++ leBytes 8 step ++ leBytes 8 r.lastCommitted ++ leBytes 24 0 ++
  (if has then ((m.served r n).map (fun i => entry i.tensorId.toNat i.item i.size)).flatten ++ entry 0 4 r.almItem.length else [])

/-- The bytes of an item that this module is the source of, for a recovery of step S. -/
def State.recoveryItem (s : State) (slot n item tid : Nat) : List Byte :=
  let r := s.run slot
  if item = 0 then s.manifest slot
  else if item = 4 then r.almItem
  else if item = 5 then match r.stateTs.find? (fun e => e.desc.tid == tid) with
    | some e => (r.sideTensor e.ctx r.bank e.desc).image (s.rdOf e.ctx []) e.scale
    | none => []
  else match (((s.mirrorOf slot).served r n).find? (fun i => i.item == item && i.tensorId.toNat == tid)) with
    | some i => i.bytes
    | none => []

/-- May the sender ask this module for the item: its twin for items 0 to 4, the lowest-ranked other member of a replica group for item 5 (R369)? -/
def State.mayAsk (s : State) (slot : Nat) (c : Cell) (item tid : Nat) : Bool :=
  let r := s.run slot
  let t := NMap.getD r.twinMap c.src 0
  if item ≤ 4 then flag t 31 && fld t 0 18 == c.dst
  else if item = 5 then match s.replicaOf r tid with
    | some g =>
      let ranks := (List.range (s.groupE g).size).map (s.groupE g).rank
      ranks.contains c.src && ranks.contains c.dst && (ranks.filter (· != c.src)).all (fun k => decide (c.dst ≤ k))
    | none => false
  else false

/-- RECOVERY_REQ (R369): the wanted segments go back; items 0 and 1 wait for the mirror tasks that are due (R459). -/
def execRecoveryReq (l : LinkRef) (c : Cell) (s : State) : Out :=
  if !(s.cellHere l c && c.kind == 0x31 && s.isOwnRank c.dst) then .next s
  else
    let slot := (s.groupE c.group).slot
    let r := s.run slot
    let item := c.hi 0 8
    let tid := c.hi 16 32
    if !(r.isOpen && r.group == c.group && s.mayAsk slot c item tid) then .next ((s.takeCell l c).violation l 9)
    else if item ≤ 1 && s.taskDue slot then .next s
    else
      let n := if item = 0 then r.lastCommitted else c.step
      let segs := itemSegs (s.recoveryItem slot n item tid)
      let want := (segs.drop (c.hi 48 40)).take (c.hi 88 24)
      .next (want.foldl (fun s p =>
        s.sendCell (cellOf 3 0x32 c.src c.dst 0 n (s.runGen slot) c.group (itemHigh item (p.1 + 1 == segs.length) tid p.1 0) p.2)) (s.takeCell l c))

/-! ### What a spare pulls (R370, R372) -/

/-- The entries of a manifest: tensor, item, length. -/
def manifestEntries (bs : List Byte) : List (Nat × Nat × Nat) :=
  (chunks 32 (bs.length / 32) (bs.drop 64)).map (fun b => (leAt b 0 4, leAt b 4 4, leAt b 8 8))

def State.setAdoption (s : State) (a : Option Adoption) : State := { s with recov := { s.recov with adoption := a } }

/-- Ask a rank for an item of a length, in requests of at most 2^24 − 1 segments. -/
def State.askItem (s : State) (slot : Nat) (a : Adoption) (dst item tid len : Nat) : State :=
  let n := max 1 (cdiv len 512)
  let k := 2 ^ 24 - 1
  (List.range (cdiv n k)).foldl (fun s i =>
    s.sendCell (cellOf 3 0x31 dst a.rank 0 a.last (s.runGen slot) a.group (itemHigh item false tid (i * k) (min k (n - i * k))) [])) s

/-- The replicated tensors of the module with the rank to ask: the lowest-ranked other member (Table 13.7). -/
def State.replicated (s : State) (slot rank : Nat) : List (Nat × Nat × Nat) :=
  let r := s.run slot
  r.stateTs.filterMap (fun e => match s.replicaOf r e.desc.tid with
    | some g =>
      let others := ((List.range (s.groupE g).size).map (s.groupE g).rank).filter (· != rank)
      some (others.foldl min (2 ^ 18), e.desc.tid, e.desc.imageLen e.scale)
    | none => none)

/-- Once the manifest is here and the host is ready, every item is asked for. -/
def State.askItems (s : State) (slot : Nat) : State := match s.recov.adoption with
  | none => s
  | some a =>
    if !(a.ready && a.manifest && !a.requested) then s
    else
      let es := manifestEntries (((findItem a.items 0 0 0).map MirrorItem.bytes).getD [])
      let rs := if (s.run slot).compatInterval != 0 then [] else s.replicated slot a.rank
      let s := s.setAdoption (some { a with
        requested := true, wanted := es.map (fun e => (e.2.1, e.1)) ++ rs.map (fun e => (5, e.2.1)) })
      let s := es.foldl (fun s e => s.askItem slot a a.twinRank e.2.1 e.1 e.2.2) s
      rs.foldl (fun s e => s.askItem slot a e.1 5 e.2.1 e.2.2) s

/-- Has every wanted item come whole? -/
def Adoption.pulled (a : Adoption) : Bool :=
  a.requested && a.wanted.all (fun w => match findItem a.items 0 w.1 w.2 with
    | some i => i.whole
    | none => false)

/-- Place a state tensor's image in set `b` of its bank pair (R370). -/
def State.placeState (s : State) (slot tid : Nat) (b : Bool) (bs : List Byte) : State :=
  let r := s.run slot
  match r.stateTs.find? (fun e => e.desc.tid == tid) with
  | none => s
  | some e => s.runWrites slot e.ctx ((r.sideTensor e.ctx b e.desc).imageWrites e.scale bs)

/-- The manifest is whole. Without a mirror of step S the recovery ends (R372). -/
def State.takeManifest (s : State) (slot : Nat) (a : Adoption) (bs : List Byte) : State :=
  let f := leAt bs 16 1
  if bitsOf f 2 1 = 1 then ((s.setAdoption none).record uidHub cRecoveryTwinLost 4 0 (s.whoRun slot)).declareSelf slot 4
  else
    let need := bitsOf f 0 1 = 0
    let s := s.updRun slot (fun r => { r with bank := (bitsOf f 1 1 = 1) != need })
    (s.setAdoption (some { a with
      manifest := true, step := leAt bs 24 8, last := leAt bs 32 8, attempt := leAt bs 17 1, needUpdate := need
      updateDigest := BitVec.ofNat 128 (leAt bs 0 16) })).askItems slot

/-- RECOVERY_DATA (R370): a segment at a spare, or at a module that restores a copy (R376); an item that is whole is placed. A segment nobody asked for is
dropped and counted as stale (DESIGN CHOICE, log entry 33). -/
def execRecoveryData (l : LinkRef) (c : Cell) (s : State) : Out :=
  if !(s.cellHere l c && c.kind == 0x32 && s.isOwnRank c.dst) then .next s
  else
    let slot := (s.groupE c.group).slot
    let item := c.hi 0 8
    let tid := c.hi 16 32
    let s := s.takeCell l c
    match s.recov.adoption with
    | none => .next (s.staleOn l)
    | some a =>
      let wanted := (item == 0 && !a.manifest && c.src == a.twinRank) || a.wanted.contains (item, tid)
      if !(a.group == c.group && a.rank == c.dst && wanted) then .next (s.staleOn l)
      else
        let a := { a with items := putSeg a.items 0 item (BitVec.ofNat 32 tid) (c.hi 48 40) c.payload (c.hi 8 1 == 1) }
        let s := s.setAdoption (some a)
        match findItem a.items 0 item tid with
        | none => .next s
        | some i =>
          let b := (s.run slot).bank
          .next (if !i.whole then s
            else if item = 0 then s.takeManifest slot a i.bytes
            else if item = 1 then s.placeState slot tid b i.bytes
            else if item = 5 then s.placeState slot tid (b != a.needUpdate) i.bytes
            else s)

/-- RANK_READY (R370, Table 16.12): without an adoption of the run it is `OBJ_STATE`. -/
def execRankReady (q : Req) (v : Byte) (s : State) : Out :=
  .next (s.dictWrite q 0x7001 4 [v] (fun s => match s.selected q.who with
    | none => (s, cObjState)
    | some slot =>
      if 1 < v.toNat then (s, cObjValueRange)
      else match s.recov.adoption with
        | none => (s, cObjState)
        | some a =>
          if a.group != (s.run slot).group || !(s.run slot).isOpen then (s, cObjState)
          else if v = 0 then (s, cOk)
          else ((s.setAdoption (some { a with ready := true })).askItems slot, cOk))).1

/-! ### The replay of the update (R371, R374) -/

/-- Run a mirrored operator over the module's own planes: its frozen mask and its gradient first, then its body. -/
def State.replayOp (s : State) (slot : Nat) (a : Adoption) (o : MirrorOp) : State × List DigBlock :=
  let r := s.run slot
  let d : OpDesc := o.desc
  let ts : List TDesc := o.tensors
  let c := ((r.stateTs.find? (fun e => e.desc.tid == (nth ts d.nIn 0).tid)).map StateT.ctx).getD r.stepContext
  let put := fun (s : State) (ws : List PlaneW) => s.runWrites slot c ws
  let g := nth ts (if d.opcode = 0x0500 then 0 else 1) 0
  let s := match findItem a.items 0 2 g.tid with
    | some i => put s (g.imageWrites false i.bytes)
    | none => s
  let k := nth ts 4 0
  let s := if d.opcode = 0x0500 && d.nIn = 5 then put s (k.imageWrites false (padTo 32 o.mask)) else s
  let b := mirrorBody o ⟨d, ts, s.rdOf c [], r.seed, false, 1⟩
  let s := put s b.writes
  (b.undef.foldl (fun s p => s.forgetPlane c p) s, b.digs)

/-- The run's Almanac from item 4: the window, the running hash and chain, and what its entries tell. -/
def State.takeAlmanac (s : State) (slot : Nat) (bs : List Byte) : State :=
  let n := leAt bs 0 8
  let base := leAt bs 8 8
  let len := leAt bs 16 8
  let flags := leAt bs 416 8
  let nb := leAt bs 424 8
  let nc := leAt bs 432 8
  let nk := leAt bs 440 16
  let w := fitBytes n (bs.drop (456 + 8 * nb + 8 * nc + nk))
  let list := fun (off k : Nat) => (List.range k).map (fun i => leAt bs (off + 8 * i) 8)
  let ks := (almEntries 8 (nk / 16) (fitBytes nk (bs.drop (456 + 8 * nb + 8 * nc)))).getD []
  let l := if base = 0 then (almEntries 8 (n / 16) (w.drop 256)).getD [] else []
  let steps := l.filter (fun e => e.etype == 4)
  let word := fun (e : AlmEntry) => BitVec.ofNat 1024 (leAt e.body 0 128)
  let s := s.updRun slot (fun r => { r with
    almBase := base, almWindow := w, almParts := [(s.now, n)], chain := digestOf ((bs.drop 32).take 64)
    sha := { h := (lanesOf (leAt bs 24 8) (bs.drop 96)), buf := fitBytes (len % 128) (bs.drop 160), len := len }
    ckpts := ks.map (fun e => ⟨e.estep, digestOf (e.body.take 64), recsOf (leAt e.body 64 4) (e.body.drop 80)⟩)
    breaks := list 456 nb, calibSteps := list (456 + 8 * nb) nc, stepRecord := BitVec.ofNat 1024 (leAt bs 288 128)
    committedAny := flags % 2 = 1, restored := flags / 2 % 2 = 1, scaleLost := flags / 4 % 2 = 1
    recs := if r.compatInterval = 0 then [] else steps.foldl (fun m e => NMap.set m e.estep (word e)) [] })
  s.almTrim (sumOf (s.runs.map (fun e => e.2.almParts.length)))

/-- What is true of the run once its rank's state is here (R371, R374): the mirroring goes on over the fabric, the old twin's copy is still to come. -/
def State.adopted (s : State) (slot : Nat) (a : Adoption) (flip : Bool) : State :=
  let s := match findItem a.items 0 4 0 with
    | some i => s.takeAlmanac slot i.bytes
    | none => s
  let s := s.updRun slot (fun r => { r with
    bank := r.bank != flip, lastCommitted := a.last, attempt := a.attempt, verified := true
    mirror := { r.mirror with seeded := true, checked := true, paired := true } })
  let s := s.setAdoption none
  let s := { s with twin := { s.twin with state := .running, degraded := true } }
  s.record uidHub cTwinMirrorIncomplete 0 0 (s.whoRun slot)

/-- RECOVERY_UPDATE_REPLAY (R371, R372, R374): every item is in place; the update runs, and its digest must be the failed rank's. -/
def execRecoveryUpdateReplay (s : State) : Out :=
  match s.recov.adoption with
  | none => .next s
  | some a =>
    let slot := (s.groupE a.group).slot
    if !a.pulled || (s.run slot).compatInterval != 0 then .next s
    else if !a.needUpdate then .next (s.adopted slot a false)
    else
      let ops := match findItem a.items 0 3 0 with
        | some i => mirrorOps i.segs.length (NMap.vals i.segs) []
        | none => []
      let p := ops.foldl (fun (p : State × List DigBlock) o => let q := p.1.replayOp slot a o; (q.1, p.2 ++ q.2)) (s, [])
      if p.1.uniqueSum slot a.step p.2 = a.updateDigest.toNat then .next (p.1.adopted slot a true)
      else .next (((p.1.setAdoption none).record uidHub cRecoveryDigest 4 0 (s.whoRun slot)).declareSelf slot 4)

/-! ### Compatibility mode (R375, R376) -/

/-- The module's own copy is asked back from its twin. -/
def State.askCopy (s : State) (slot c : Nat) : State :=
  let r := s.run slot
  let a : Adoption :=
    { group := r.group, rank := s.runRank slot, twinRank := (s.twinRank slot).getD 0, manifest := true, step := c, last := r.lastCommitted
      needUpdate := false, ready := true, requested := true
      wanted := (r.stateTs.filter (fun e => !e.scale || r.compatScale)).map (fun e => (1, e.desc.tid)) }
  let s := s.setAdoption (some a)
  (r.stateTs.filter (fun e => !e.scale || r.compatScale)).foldl (fun s e => s.askItem slot a a.twinRank 1 e.desc.tid (e.desc.imageLen e.scale)) s

/-- The restored checkpoint takes effect: the step, and what follows when it has no scale records. -/
def State.compatDone (s : State) (slot : Nat) (a : Adoption) : State :=
  let s := match findItem a.items 0 4 0 with
    | some i => s.takeAlmanac slot i.bytes
    | none => s
  let s := (s.setAdoption none).updRun slot (fun r => { r with
    lastCommitted := a.step, attempt := 0, voidAt := [], verified := true, committedAny := true })
  if (s.run slot).compatScale then s
  else
    let s := s.updRun slot (fun r => { r with scaleLost := true, recs := r.recs.filter (fun e => decide (e.1 ≤ a.step)) })
    s.almEntry slot (supersededEntry a.step (a.step + 1) a.last)

/-- COMPAT_RESTORE (R376): the first time the copies are asked for, the next time, when they are all here, the restore takes effect. -/
def execCompatRestore (slot : Nat) (s : State) : Out :=
  let r := s.run slot
  let n := r.compatInterval
  if !(r.isOpen && n != 0 && r.openStep.isNone && (s.runMe slot).isSome) then .next s
  else match s.recov.adoption with
    | some a => .next (if a.group == r.group && a.ready && a.pulled then s.compatDone slot a else s)
    | none =>
      if r.lastCommitted - 1 < n then .next (s.record uidHub cCompatNoCheckpoint 2 0 (s.whoRun slot))
      else .next (s.askCopy slot (compatStep n r.lastCommitted))

end Sys2Proof.Machine
end

