-- ==== Sys2Proof/Machine/RunObjects.lean ====
section
/-! DEFINITION. The tables and objects of runs (R29 to R31, R270, R316, R336, R438, R450, R452, R475, R500): their DOMAIN_END checks, the opening and closing of
a run, its Almanac and certificate. -/

namespace Sys2Proof.Machine

/-! ### Tables (R270, R336, R316, R500, R450, R452) -/

/-- Has a list of numbers no repeats? -/
def distinctNats (l : List Nat) : Bool := (l.foldl (fun (p : Nat × Bool) r => (p.1 ||| 2 ^ r, p.2 && !p.1.testBit r)) (0, true)).2

/-- May the entry stand in the group table (R270)? An entry that is not valid has its reserved field alone to keep. -/
def State.groupOk (s : State) (e : GroupE) : Bool :=
  let ranks := (List.range e.size).map e.rank
  fld e 109 18 == 0 && (!e.valid || (e.size != 0 && decide (e.size ≤ 262144) && distinctNats ranks &&
    ranks.all (fun r => flag (NMap.getD s.links.rankTable r 0) 31) && (s.run e.slot).isOpen))

/-- GROUP_TABLE_WRITE (R270). A refused entry is an exchange fault of an open step of the run it names (R297). -/
def execGroupTableWrite (q : Req) (sha : BitVec 512) (s : State) : Out :=
  .next (s.dictEnd q 0x7000 2 sha (fun s t =>
    let es := entriesOf 16 t
    if es.all (fun e => s.groupOk (BitVec.ofNat 128 e.2)) then ({ s with links := { s.links with groups := setEntries s.links.groups es } }, cOk)
    else (es.foldl (fun (s : State) e => if s.groupOk (BitVec.ofNat 128 e.2) then s else s.fault (GroupE.slot (BitVec.ofNat 128 e.2))) s, cGroupInvalid))).1

/-- REPLICA_TABLE_WRITE (R336): a group of one member is refused. -/
def execReplicaTableWrite (q : Req) (sha : BitVec 512) (s : State) : Out :=
  .next (s.dictEnd q 0x7002 2 sha (fun s t =>
    let es := unreserved [(0, 48), (63, 1)] (entriesOf 8 t)
    let one := fun (v : Nat) => let g := s.groupE (bitsOf v 32 16); bitsOf v 63 1 == 1 && g.valid && g.size == 1
    if es.any (fun e => one e.2) then (s.fault t.runSlot, cGroupInvalid)
    else (s.updRun t.runSlot (fun r => { r with replicaTable := setEntries r.replicaTable es }), cOk))).1

/-- BANK_PAIRS_WRITE (R316): at most 32 pairs of one context, of regions of equal size; a pair of which one region does not exist has unequal sizes
(DESIGN CHOICE, log entry 34). -/
def execBankPairsWrite (q : Req) (sha : BitVec 512) (s : State) : Out :=
  .next (s.dictEnd q 0x7002 5 sha (fun s t =>
    let es := unreserved [(0, 32), (63, 1)] (entriesOf 8 t)
    let r := s.run t.runSlot
    let r' := { r with bankPairs := setEntries r.bankPairs es }
    let size := fun (c k : Nat) => let e := (s.ctx c).region k; if e.valid then e.size else 0
    let uneven := fun (v : Nat) => let p : BankPair := BitVec.ofNat 64 v; p.valid && size p.ctx p.set0 != size p.ctx p.set1
    let over_ := fun (v : Nat) => let p : BankPair := BitVec.ofNat 64 v; p.valid && decide (32 < (r'.pairsOf p.ctx).length)
    if es.any (fun e => over_ e.2) then (s, cObjValueRange)
    else if es.any (fun e => uneven e.2) then (s, cRegionInvalid)
    else (s.setRun t.runSlot r', cOk))).1

/-- May the entry stand in `state_tensors` (R500)? -/
def Run.stateOk (r : Run) (e : StateT) : Bool :=
  let t := e.desc
  let set0 := fun (k : Nat) => (r.pairsOf e.ctx).any (fun p => p.set0 == k)
  !e.valid || (fld e 21 42 == 0 && fld e 64 448 == 0 && t.fieldCode == cOk && t.layoutOk e.scale && (t.planes e.scale).all (fun p => set0 p.1) &&
    decide ((r.stateTs.filter (fun o => o.desc.tid == t.tid)).length ≤ 1))

/-- STATE_TENSORS_WRITE (R500). -/
def execStateTensorsWrite (q : Req) (sha : BitVec 512) (s : State) : Out :=
  .next (s.dictEnd q 0x7002 6 sha (fun s t =>
    let r := s.run t.runSlot
    let es := entriesOf 128 t
    let r' := { r with stateTensors := setEntries r.stateTensors es }
    if r.openStep.isSome then (s, cObjState)
    else if es.all (fun e => r'.stateOk (BitVec.ofNat 1024 e.2)) then (s.setRun t.runSlot r', cOk)
    else (s, cObjValueRange))).1

/-- Does a region of a context that is not FREE overlap host window `w` (R449, R450)? -/
def State.windowUsed (s : State) (w : Nat) : Bool :=
  s.ctxs.tab.any (fun e => e.2.state != .free &&
    e.2.regions.any (fun (g : RegionE) => g.valid && rangesMeet g.base g.size (0x800000000000 + w * 2 ^ 37) (2 ^ 37)))

/-- HOST_WINDOWS_WRITE (R450). -/
def execHostWindowsWrite (q : Req) (sha : BitVec 512) (s : State) : Out :=
  .next (s.dictEnd q 0x5130 0x28 sha (fun s t =>
    let es := entriesOf 8 t
    let bad := fun (v : Nat) => bitsOf v 58 5 != 0 || bitsOf v 0 12 != 0 || decide (2 ^ 56 < bitsOf v 0 56 + 2 ^ 37)
    let held := fun (e : Nat × Nat) => let old : BitVec 64 := NMap.getD s.links.windows e.1 0; flag old 63 && old.toNat != e.2 && s.windowUsed e.1
    if es.any (fun e => bad e.2) then (s, cObjValueRange)
    else if es.any held then (s, cObjState)
    else ({ s with links := { s.links with windows := setEntries s.links.windows es } }, cOk))).1

/-- RECORD_RINGS_WRITE (R452): the count of records stays as it is; a valid entry outside its ranges is refused. -/
def execRecordRingsWrite (q : Req) (sha : BitVec 512) (s : State) : Out :=
  .next (s.dictEnd q 0x5130 0x29 sha (fun s t =>
    let es := unreserved [(0, 53), (63, 1)] (entriesOf 16 t)
    let bad := fun (v : Nat) =>
      (bitsOf v 63 1 == 1 && (!isHost (bitsOf v 0 48) || bitsOf v 0 12 != 0 || decide (bitsOf v 48 5 < 4) || decide (20 < bitsOf v 48 5)))
    let keep := fun (e : Nat × Nat) => let old : BitVec 128 := NMap.getD s.links.rings e.1 0; (e.1, e.2 + fld old 64 64 * 2 ^ 64)
    if es.any (fun e => bad e.2) then (s, cObjValueRange)
    else ({ s with links := { s.links with rings := setEntries s.links.rings (es.map keep) } }, cOk))).1

/-! ### Opening and closing a run (R17, R27, R28, R438, R475) -/

/-- The checks of R438 on a run-open record. -/
def State.openCode (s : State) (slot : Nat) (v : BitVec 1024) : Code :=
  let r := s.run slot
  firstCode [fun _ => if s.released then cOk else cNotReleased,
    fun _ => if s.boot.degraded then cModuleDegraded else cOk,
    fun _ => if lcState s.fuses.shadow = 2 then cOk else cLcState,
    fun _ => if r.isOpen then cObjState else cOk,
    fun _ => if fld v 213 7 = 0 && fld v 248 8 = 0 && fld v 292 4 = 0 && fld v 336 48 = 0 && fld v 448 576 = 0 then cOk else cObjValueRange,
    fun _ => if 1 ≤ fld v 192 21 && fld v 192 21 ≤ 2 ^ 20 then cOk else cRunQuantumSize,
    fun _ => if fld v 220 8 = Config.numericsLevel then cOk else cRunNumericsLevel,
    fun _ => if !flag v 228 then cOk else match r.refAlmanac with
      | none => cObjState
      | some bs => replayCode bs (fld v 296 40),
    fun _ => if fld v 232 16 != 0 && s.twin.partnerReserve * 2 ^ 30 < 2 * fld v 384 64 then cCompatCapacity else cOk]

/-- A run as it is right after its opening: the slot's tables stay, the chain starts from the run's ID. -/
def Run.opened (r : Run) (v : BitVec 1024) : Run :=
  { state := .open_, rec_ := v, lastCommitted := fld v 296 40
    refRunId := if flag v 228 then BitVec.ofNat 128 (leAt (r.refAlmanac.getD []) 8 16) else 0
    chain := sha512 (leBytes 16 (fld v 0 128)), refAlmanac := r.refAlmanac, lineageCert := r.lineageCert
    expertSlots := r.expertSlots, replicaTable := r.replicaTable, spareList := r.spareList, twinMap := r.twinMap, bankPairs := r.bankPairs
    stateTensors := r.stateTensors }

/-- RUN_OPEN (R28, R438): the header of its Almanac is written. -/
def execRunOpen (q : Req) (sha : BitVec 512) (s : State) : Out :=
  .next (s.dictEnd q 0x7001 1 sha (fun s t =>
    let slot := t.runSlot
    let v : BitVec 1024 := BitVec.ofNat 1024 (leNat t.got)
    let c := s.openCode slot v
    if c != cOk then (s, c)
    else
      let s := (s.updRun slot (fun r => r.opened v)).dropMirror slot
      (s.almAppend slot (almHeader (s.run slot)), cOk))).1

/-- RUN_CLOSE (R475, R31): a certificate is issued, the reference and the staged bytes leave. -/
def execRunClose (q : Req) (v : Byte) (s : State) : Out :=
  .next (s.dictWrite q 0x7001 2 [v] (fun s => match s.selected q.who with
    | none => (s, cObjState)
    | some slot =>
      if 1 < v.toNat then (s, cObjValueRange)
      else if v = 0 then (s, cOk)
      else if !(s.run slot).isOpen || (s.run slot).openStep.isSome then (s, cObjState)
      else
        let s := (s.issueCert slot true).updRun slot (fun r => { r with
          state := .closed, refAlmanac := none, almWindow := [], almParts := [], almBase := r.sha.len })
        (s.dropMirror slot, cOk))).1

/-! ### Almanac and certificate (R29, R31, R475) -/

/-- REF_ALMANAC (R31). -/
def execRefAlmanac (q : Req) (sha : BitVec 512) (s : State) : Out :=
  .next (s.dictEnd q 0x7001 5 sha (fun s t =>
    let bs := fitBytes t.offset (((s.run t.runSlot).refAlmanac).getD []) ++ t.got
    if almFraming bs then (s.updRun t.runSlot (fun r => { r with refAlmanac := some bs }), cOk) else (s, cObjValueRange))).1

/-- ALMANAC_APPEND (R29). -/
def execAlmanacAppend (q : Req) (sha : BitVec 512) (s : State) : Out :=
  .next (s.dictEnd q 0x7003 4 sha (fun s t =>
    let r := s.run t.runSlot
    if !r.isOpen || r.openStep.isSome then (s, cObjState)
    else match almEntries 3 (t.got.length / 16 + 1) t.got with
      | none => (s, cObjValueRange)
      | some es =>
        if es.all (fun e => if e.etype = 3 then decide (r.lastCommitted < e.estep) else e.estep == r.lastCommitted) then
          (s.almAppend t.runSlot t.got, cOk)
        else (s, cObjValueRange))).1

/-- LINEAGE_REQUEST (R475): held while a step is open. -/
def execLineageRequest (q : Req) (v : Byte) (s : State) : Out :=
  .next (s.dictWrite q 0x7003 1 [v] (fun s => match s.selected q.who with
    | none => (s, cObjState)
    | some slot =>
      if 1 < v.toNat then (s, cObjValueRange)
      else if !(s.run slot).isOpen then (s, cObjState)
      else if v = 0 then (s, cOk)
      else if (s.run slot).openStep.isSome then (s.updRun slot (fun r => { r with lineageHeld := true }), cOk)
      else (s.issueCert slot false, cOk))).1

end Sys2Proof.Machine
end

