-- ==== Sys2Proof/Machine/Exchange.lean ====
section
/-! DEFINITION. The exchange operators (R226, R227, R282 to R294): shards, what each member sends, how contributions are combined, and the outputs. -/

namespace Sys2Proof.Machine

/-! ### Shards and blocks (R282) -/

/-- The blocks or units of member `j`'s shard of `n` among `g`. -/
def shareBlocks (n g j : Nat) : List Nat := (List.range (shareLo n g (j + 1) - shareLo n g j)).map (· + shareLo n g j)

/-- The member that owns block `b`. -/
def ownerOf (n g b : Nat) : Nat := ((List.range g).find? (fun j => decide (shareLo n g j ≤ b) && decide (b < shareLo n g (j + 1)))).getD 0

/-- The logical core whose exchange receive buffer holds the accumulator of block `b`, of a shard that begins at `first` (R282). -/
def accCore (b first : Nat) : Nat := (b - first) % 800

/-- Block `b` of an XB16 or XP40 tensor, at full size (R37); the reserved bits of its header are taken as zero (R46). -/
def TDesc.xbBlock (t : TDesc) (rd : Rd) (b : Nat) : BlockAcc :=
  let w := elemBits t.fmt
  ⟨b, BitVec.ofNat 64 (xbClean (t.header rd b)), BitVec.ofNat 16 (rdLe rd t.xReg (t.xOff + 2 * b) 2),
    (List.range 256).map (fun i => if i + 256 * b < t.count then signedOf w (t.code rd (i + 256 * b)) else 0)⟩

/-- An XB16 element of −32,768 that is read is −32,767 with `ovf` set (R48). -/
def BlockAcc.norm16 (a : BlockAcc) : BlockAcc :=
  if a.elems.contains (-32768) then { a with hdr := a.hdr ||| 0x10000, elems := a.elems.map (max (-32767)) } else a

/-- The element bytes of a block in `w` bytes each. -/
def BlockAcc.bytes (w : Nat) (a : BlockAcc) : List Byte := (a.elems.map (fun v => leBytes w (intBits (8 * w) v))).flatten

/-- Add a contribution to the accumulator of its block, after the checks of R47 and R50 (R49, R84, R283). -/
def ExInst.addBlock (x : ExInst) (a : BlockAcc) : Except Code ExInst :=
  match x.blocks.find? (fun o => o.idx == a.idx) with
  | none => .ok x
  | some o =>
    let h := a.hdr.toNat
    if !xbExpOk (xbExp h) then .error cXbExponentRange
    else if xbExp h != xbExp o.hdr.toNat then .error cXbExponentMismatch
    else
      let n : BlockAcc := ⟨o.idx, BitVec.ofNat 64 (hdrAdd o.hdr.toNat h), if o.obs.toInt < a.obs.toInt then a.obs else o.obs,
        List.zipWith (· + ·) o.elems a.elems⟩
      .ok { x with blocks := x.blocks.map (fun b => if b.idx == a.idx then n else b) }

/-- The blocks in rising number. -/
def ExInst.sorted (x : ExInst) : List BlockAcc :=
  x.blocks.foldl (fun l a => l.takeWhile (fun b => decide (b.idx ≤ a.idx)) ++ a :: l.dropWhile (fun b => decide (b.idx ≤ a.idx))) []

/-- G128 addition: the marker makes every sum it enters the marker (R66, R287). -/
def g128Add (a b : Int) : Int :=
  let m : Int := -(2 : Int) ^ 127
  if a = m || b = m then m else signedOf 128 (intBits 128 (a + b))

/-- Add a unit of G128 elements. -/
def ExInst.addUnit (x : ExInst) (u : Nat) (es : List Int) : ExInst :=
  { x with blocks := x.blocks.map (fun b => if b.idx == u then { b with elems := List.zipWith g128Add b.elems es } else b) }

/-- Unit `u` of a G128 tensor: elements beyond it are 0. -/
def TDesc.g128Unit (t : TDesc) (rd : Rd) (u : Nat) : BlockAcc :=
  ⟨u, 0, 0, (List.range 32).map (fun i => if i + 32 * u < t.count then signedOf 128 (t.code rd (i + 32 * u)) else 0)⟩

/-! ### Sending -/

/-- A block to a rank: one XB16_BLOCK cell or three XP40_SEG cells (R283). -/
def State.sendBlock (s : State) (x : ExInst) (fmt dst : Nat) (a : BlockAcc) : State × ExInst :=
  if fmt = fmtXB16 then s.sendData x 1 0x10 dst (exHigh x.xseq 0 a.obs.toNat a.idx a.hdr.toNat) (a.bytes 2)
  else
    let l := chunks 512 3 (a.bytes 5)
    ((List.range 3).zip l).foldl (fun (p : State × ExInst) k =>
      p.1.sendData p.2 1 0x11 dst (exHigh x.xseq k.1 (if k.1 = 0 then a.obs.toNat else 0) a.idx (if k.1 = 0 then a.hdr.toNat else 0)) k.2) (s, x)

/-- A unit to a rank (R287). -/
def State.sendUnit (s : State) (x : ExInst) (dst : Nat) (a : BlockAcc) : State × ExInst :=
  s.sendData x 1 0x12 dst (exHigh x.xseq 0 0 a.idx (a.idx / 2 ^ 32)) (a.bytes 16)

/-- Fold a sender over a list. -/
def sendAll {α : Type} (l : List α) (f : State → ExInst → α → State × ExInst) (p : State × ExInst) : State × ExInst :=
  l.foldl (fun p a => f p.1 p.2 a) p

/-- The contributions of a two-phase operator go to the owners of other shards; its own shard's start the accumulators; the CLOSEs of phase 0. -/
def State.scatter (s : State) (x : ExInst) (n : Nat) (blk : Nat → BlockAcc) (send : State → ExInst → Nat → BlockAcc → State × ExInst) : State × ExInst :=
  let own := shareBlocks n x.g x.me
  let x := { x with blocks := own.map blk }
  let far := (List.range n).filter (fun b => ownerOf n x.g b != x.me)
  let p := sendAll far (fun s x b => send s x (s.memberRank x (ownerOf n x.g b)) (blk b)) (s, x)
  p.1.closeAll p.2 1

/-- Phase 1: every owner's shard goes to every other member (R284, R287). -/
def State.distribute (s : State) (x : ExInst) (n : Nat) (send : State → ExInst → Nat → BlockAcc → State × ExInst) : State × ExInst :=
  let x := { x with phase := 1 }
  let own := x.sorted.filter (fun b => ownerOf n x.g b.idx == x.me)
  let p := sendAll (s.others x) (fun s x r => sendAll own (fun s x b => send s x r b) (s, x)) (s, x)
  p.1.closeAll p.2 1

/-! ### Rank order (R288, R289) -/

/-- Numbers in rising order. -/
def risingOf (l : List Nat) : List Nat := l.foldl insertRising []

/-- The elements of a member's shard of an input. -/
def shardSpan (n g j : Nat) : List Nat :=
  let nb := cdiv n 256
  let lo := min n (256 * shareLo nb g j)
  (List.range (min n (256 * shareLo nb g (j + 1)) - lo)).map (· + lo)

/-- The bytes of a member's shard of an input. -/
def TDesc.shardBytes (t : TDesc) (rd : Rd) (g j : Nat) : List Byte :=
  ((shardSpan t.count g j).map (fun i => leBytes (elemBits t.fmt / 8) (t.code rd i))).flatten

/-- Elements of an input format converted to binary32 (R56, R288). -/
def wordsOf (fmt : Nat) (bs : List Byte) : List Cvt :=
  let w := elemBits fmt / 8
  (List.range (bs.length / w)).map (fun i => cvtPlain fmtB32 .rne 0 (elemVal fmt (leAt bs (w * i) w) 0 0))

/-- The admission window w (R289). -/
def goWindow (n g j : Nat) : Nat := let b := 4 * (shardSpan n g j).length; if b = 0 then 2 ^ 29 else max 1 (2 ^ 29 / b)

/-- The owner's own shard of the contribution of a rank, once it is all here: its bytes in order. -/
def State.contribution (s : State) (x : ExInst) (mc : MathCtx) (rank : Nat) : Option (List Byte) :=
  let t := mc.inp 0
  if rank = s.memberRank x x.me then some (t.shardBytes mc.rd x.g x.me)
  else
    let len := (shardSpan t.count x.g x.me).length * (elemBits t.fmt / 8)
    let parts := (List.range (cdiv len 512)).map (fun u => x.segs.find? (fun e => e.src == rank && e.unit == u))
    if parts.all Option.isSome then some (((parts.filterMap id).map Seg.bytes).flatten.take len) else none

/-- Add the next contribution in rank order, if it is here. -/
def State.addNext (s : State) (x : ExInst) (mc : MathCtx) : ExInst :=
  let ranks := risingOf ((List.range x.g).map (s.memberRank x))
  match ranks.find? (fun r => !x.added.contains r) with
  | none => x
  | some r => match s.contribution x mc r with
    | none => x
    | some bs =>
      let cs := wordsOf (mc.inp 0).fmt bs
      let ws := cs.map (fun q => (BitVec.ofNat 32 q.code : Word))
      let cur := match x.blocks with
        | [] => ws
        | b :: _ => List.zipWith (fun (v : Int) (w : Word) => (add32 (BitVec.ofInt 32 v) w).1) b.elems ws
      { x with added := x.added ++ [r], nonfin := x.nonfin || cs.any (·.nonfin), blocks := [⟨0, 0, 0, cur.map (fun (w : Word) => (w.toNat : Int))⟩], segs := x.segs.filter (fun e => e.src != r) }

/-- The owner admits the senders of its window in rank order. -/
def State.letIn (s : State) (x : ExInst) (mc : MathCtx) : State × ExInst :=
  let far := risingOf (s.others x)
  let n := goWindow (mc.inp 0).count x.g x.me + (x.added.filter (fun r => r != s.memberRank x x.me)).length
  ((far.take n).filter (fun r => !x.goSent.contains r)).foldl (fun (p : State × ExInst) r =>
    (p.1.sendCell (cellOf 1 0x19 r (s.instRank x) x.attempt x.step (s.instGen x) x.group (exHigh x.xseq 0 0 0 0) []), { p.2 with goSent := p.2.goSent ++ [r] })) (s, x)

/-- Take the rank-order reduction as far as it can go. -/
def State.rankStep (s : State) (x : ExInst) (mc : MathCtx) : State × ExInst :=
  let x := (List.range x.g).foldl (fun x _ => s.addNext x mc) x
  s.letIn x mc

/-- An owner's GO has come: its shard of the input goes to it, then the CLOSE. -/
def State.onGo (s : State) (x : ExInst) (mc : MathCtx) (rank : Nat) : State × ExInst :=
  if x.goGot.contains rank then (s, x)
  else
    let j := (s.idxOf x.group rank).getD 0
    let p := s.sendRaw { x with goGot := x.goGot ++ [rank] } rank ((mc.inp 0).shardBytes mc.rd x.g j)
    p.1.sendClose p.2 1 rank

/-! ### DISPATCH and COMBINE (R290 to R293) -/

/-- The bytes of a row as it travels: its element bytes, then its block-plane entries (R290). -/
def TDesc.wireBytes (t : TDesc) (rd : Rd) (r : Nat) : List Byte :=
  let nb := if isBlock32 t.fmt then cdiv (t.dim 0) 32 else if t.fmt = fmtPair then t.dim 0 else 0
  rdBytes rd t.eReg (t.eOff + t.rowOff r) t.rowBytes ++ rdBytes rd t.bReg (t.bOff + r * nb) nb

/-- The writes that place such bytes as row `q`. -/
def TDesc.wireWrites (t : TDesc) (q : Nat) (bs : List Byte) : List PlaneW :=
  let nb := if isBlock32 t.fmt then cdiv (t.dim 0) 32 else if t.fmt = fmtPair then t.dim 0 else 0
  ⟨t.eReg, t.eOff + t.rowOff q, fitBytes t.rowBytes bs⟩ :: (if nb = 0 then [] else [⟨t.bReg, t.bOff + q * nb, fitBytes nb (bs.drop t.rowBytes)⟩])

/-- The bytes of a collected row. -/
def RowAcc.bytes (r : RowAcc) : List Byte := (NMap.vals r.segs).flatten

/-- Kind-specific fields of a row cell (Table 10.5). -/
def rowHigh (xseq slot quantum row j seg t : Nat) : Nat :=
  xseq % 2 ^ 14 + slot % 2 ^ 16 * 2 ^ 16 + quantum % 2 ^ 32 * 2 ^ 32 + row % 2 ^ 20 * 2 ^ 64 + j % 64 * 2 ^ 84 + seg % 256 * 2 ^ 96 + t % 2 ^ 24 * 2 ^ 104

/-- A row goes to a rank, or stays here where it is at home (R290). -/
def State.sendRow (s : State) (x : ExInst) (kind dst : Nat) (r : RowAcc) (bs : List Byte) : State × ExInst :=
  if s.isOwnRank dst then (s, { x with rows := x.rows ++ [{ r with segs := [(0, bs)] }] })
  else (segmentsOf bs).foldl (fun (p : State × ExInst) u => p.1.sendData p.2 2 kind dst (rowHigh x.xseq r.slot r.quantum r.row r.j u.1 r.t) u.2) (s, x)

/-- DISPATCH sends every selected row to its slot's home. -/
def State.dispatchRows (s : State) (e : OpEntry) (x : ExInst) (mc : MathCtx) : State × ExInst :=
  let a := mc.inp 0
  let t := mc.inp 1
  let k := e.d.arg 1
  let col := fun (i c : Nat) => t.code mc.rd (c + t.dim 0 * i)
  let p := sendAll ((List.range t.rows).flatMap (fun i => (List.range k).map (fun j => (i, j)))) (fun s x q =>
    let slot := col q.1 q.2
    let home := fld (NMap.getD (s.run x.slot).expertSlots slot 0) 0 18
    s.sendRow x 0x20 home ⟨s.instRank x, slot, col q.1 k, col q.1 (k + 1), q.2, q.1, []⟩ (a.wireBytes mc.rd q.1)) (s, x)
  p.1.closeAll p.2 2

/-- COMBINE returns every expert row to its source; a row whose source is no member is not sent and counts as violation 0x000B (R292, R295). The
cells of spilled rows name slot 0 (DESIGN CHOICE, log entry 36). -/
def State.combineRows (s : State) (e : OpEntry) (x : ExInst) (mc : MathCtx) : State × ExInst :=
  let a := mc.inp 0
  let w := mc.inp 1
  let m := mc.inp 2
  let slots := s.homeSlots e.ctx
  let cap := a.rows / max 1 slots.length
  let p := sendAll (List.range m.rows) (fun s x i =>
    let f := fun (c : Nat) => m.code mc.rd (c + 5 * i)
    let bs := if i < a.rows then a.wireBytes mc.rd i else w.wireBytes mc.rd (i - a.rows)
    let slot := if i < a.rows then nth slots (i / max 1 cap) 0 else 0
    if (s.idxOf x.group (f 0)).isSome then s.sendRow x 0x21 (f 0) ⟨s.instRank x, slot, f 2, f 3, f 4, f 1, []⟩ bs
    else (s.violation (.fabric 0) 0x0B, x)) (s, x)
  p.1.closeAll p.2 2

/-- The order of R291: quantum, row, j. -/
def rowLe (a b : RowAcc) : Bool :=
  decide (a.quantum < b.quantum) || (a.quantum == b.quantum && (decide (a.row < b.row) || (a.row == b.row && decide (a.j ≤ b.j))))

/-- Insertion into a list in order. -/
def insertRow (a : RowAcc) : List RowAcc → List RowAcc
  | [] => [a]
  | b :: l => if rowLe a b then a :: b :: l else b :: insertRow a l

/-- The rows of a slot in order. -/
def ExInst.slotRows (x : ExInst) (slot : Nat) : List RowAcc := (x.rows.filter (fun r => r.slot == slot)).foldr insertRow []

/-! ### Begin -/

/-- The instance's first work: what the module sends without waiting for others. -/
def State.exBegin (s : State) (e : OpEntry) (x : ExInst) : State × ExInst :=
  let mc := s.mathCtx e
  let a := mc.inp 0
  let x := { x with begun := true }
  match e.d.opcode with
  | 0x0900 | 0x0901 => s.scatter x (cdiv a.count 256) (fun b => if a.fmt = fmtXB16 then (a.xbBlock mc.rd b).norm16 else a.xbBlock mc.rd b) (fun s x r b => s.sendBlock x a.fmt r b)
  | 0x0902 =>
    let p := sendAll (s.others x) (fun s x r => s.sendRaw x r (a.image mc.rd false)) (s, x)
    p.1.closeAll p.2 1
  | 0x0903 => s.dispatchRows e x mc
  | 0x0904 => s.combineRows e x mc
  | 0x0905 => s.rankStep x mc
  | 0x0906 =>
    let p := sendAll (segmentsOf (a.image mc.rd false)) (fun s x u => s.sendData x 3 0x30 x.me (exHigh x.xseq 0 x.slot u.1 (u.1 / 2 ^ 32)) u.2) (s, x)
    p.1.sendClose p.2 3 x.me
  | 0x0908 => s.scatter x (cdiv a.count 32) (fun u => a.g128Unit mc.rd u) (fun s x r b => s.sendUnit x r b)
  | _ => (s, x)

/-! ### Progress (R278, R284, R289) -/

/-- The phases of an instance's data: the sum and its distribution, or one. -/
def ExInst.phases (x : ExInst) : Nat := if x.opcode = 0x0900 || x.opcode = 0x0908 then 2 else 1

/-- The data cells a member sends this module in a phase of a two-phase operator. -/
def State.wantCells (s : State) (x : ExInst) (mc : MathCtx) (rank phase : Nat) : Option Nat :=
  let a := mc.inp 0
  let n := if x.opcode = 0x0900 then cdiv a.count 256 else cdiv a.count 32
  let j := (s.idxOf x.group rank).getD 0
  let per := if x.opcode = 0x0908 then 1 else if phase = 1 || a.fmt = fmtXP40 then 3 else 1
  if x.phases = 1 then none else some (per * (shareBlocks n x.g (if phase = 0 then x.me else j)).length)

/-- Whom the instance has cells from. -/
def State.senders (s : State) (x : ExInst) : List Nat :=
  if x.group != noGroup then s.others x else if x.opcode = 0x0907 then [x.me] else []

/-- Are all senders' accounts of a phase matched? -/
def State.phaseDone (s : State) (x : ExInst) (phase : Nat) : Bool := (s.senders x).all (fun r => x.matchedBy r phase)

/-- Is the whole of row (t, j) of a COMBINE here? -/
def ExInst.rowHere (x : ExInst) (len t j : Nat) : Bool :=
  x.rows.any (fun r => r.t == t && r.j == j && decide (len ≤ r.bytes.length))

/-- Has the instance done its part? -/
def State.partDone (s : State) (e : OpEntry) (x : ExInst) (mc : MathCtx) : Bool :=
  x.begun && (List.range x.phases).all (s.phaseDone x) &&
  (match e.d.opcode with
    | 0x0900 | 0x0908 => x.phase == 1
    | 0x0904 => let a := mc.inp 0
      (List.range (mc.out 0).rows).all (fun t => (List.range (e.d.arg 1)).all (fun j => x.rowHere a.wireRow t j))
    | 0x0905 => x.added.length == x.g && (s.others x).all x.goGot.contains
    | _ => true)

/-- Take an instance as far as it can go. -/
def State.exStep (s : State) (e : OpEntry) (x : ExInst) : State :=
  let mc := s.mathCtx e
  let a := mc.inp 0
  let p := if !x.begun then (s, x) else match e.d.opcode with
    | 0x0900 => if x.phase = 0 && s.phaseDone x 0 then s.distribute x (cdiv a.count 256) (fun s x r b => s.sendBlock x fmtXP40 r b) else (s, x)
    | 0x0908 => if x.phase = 0 && s.phaseDone x 0 then s.distribute x (cdiv a.count 32) (fun s x r b => s.sendUnit x r b) else (s, x)
    | 0x0905 => s.rankStep x mc
    | _ => (s, x)
  p.1.setInst { p.2 with complete := p.1.partDone e p.2 mc }

/-! ### The exchange receive buffers (R161, R264, R282) -/

/-- The exchange receive buffer of a slice in bytes (Table 7.4). -/
def bufferBytes : Nat := 2 ^ 20

/-- The member whose contribution RANK_ORDER_REDUCE adds next. -/
def State.nextRank (s : State) (x : ExInst) : Option Nat := (risingOf ((List.range x.g).map (s.memberRank x))).find? (fun r => !x.added.contains r)

/-- The core at which segment `u` of a contribution to a rank-order reduction waits: that of the first element it holds. -/
def rawCore (mc : MathCtx) (u : Nat) : Nat := accCore (u * 512 / (32 * elemBits (mc.inp 0).fmt)) 0

/-- What an instance keeps in the receive buffers, by core: the accumulators of its shard, the segments of blocks that are not whole, the contributions
that wait for their turn (R289), the entries of a replica comparison (R337). What the rules let go straight on takes no room (DESIGN CHOICE, log entry 57). -/
def State.bufferOf (s : State) (x : ExInst) (mc : MathCtx) : List (Nat × Nat) :=
  let n := if x.opcode = 0x0908 then cdiv (mc.inp 0).count 32 else cdiv (mc.inp 0).count 256
  let first := shareLo n x.g x.me
  let accs := fun (bytes : Nat) => if x.begun then (shareBlocks n x.g x.me).map (fun b => (accCore b first, bytes)) else []
  if x.op.isNone then x.segs.map (fun e => (e.src % 800, e.bytes.length))
  else if x.opcode = 0x0900 || x.opcode = 0x0901 then
    accs 1290 ++ (x.segs.filter (fun e => e.phase == 0)).map (fun e => (accCore e.unit first, e.bytes.length))
  else if x.opcode = 0x0905 then accs 1024 ++ (x.segs.filter (fun e => some e.src != s.nextRank x)).map (fun e => (rawCore mc e.unit, e.bytes.length))
  else if x.opcode = 0x0908 then accs 512
  else []

/-- The tensors of an instance's operator. -/
def State.exCtx (s : State) (x : ExInst) : MathCtx := match x.op.bind (NMap.get? s.sched.ops) with
  | some e => s.mathCtx e
  | none => ⟨0, [], fun _ _ => 0, 0, false, 0⟩

/-- The bytes in use in the receive buffer of a core. -/
def State.bufferUsed (s : State) (core : Nat) : Nat :=
  sumOf (s.exch.map (fun x => sumOf (((s.bufferOf x (s.exCtx x)).filter (fun q => q.1 == core)).map (·.2))))

/-- Where a data cell must wait in a receive buffer, and with how many bytes: a segment that does not complete its block, a contribution out of turn. -/
def State.bufferNeed (s : State) (x : ExInst) (c : Cell) : Option (Nat × Nat) :=
  let mc := s.exCtx x
  let n := cdiv (mc.inp 0).count 256
  let b := c.hi 32 32
  if c.kind = 0x11 then
    if ownerOf n x.g b = x.me && (x.segs.filter (fun e => e.src == c.src && e.phase == 0 && e.unit == b)).length < 2 then
      some (accCore b (shareLo n x.g x.me), c.payload.length)
    else none
  else if c.kind = 0x13 && x.opcode == 0x0905 && s.nextRank x != some c.src then some (rawCore mc (c.hi 32 32 + c.hi 64 8 * 2 ^ 32), c.payload.length)
  else none

/-- Does a cell find its receive buffer full, so that it stays in the port's and gives no credit back (R264, Table 7.8)? -/
def State.noRoom (s : State) (x : ExInst) (c : Cell) : Bool := match s.bufferNeed x c with
  | none => false
  | some q => decide (bufferBytes < s.bufferUsed q.1 + q.2)

/-! ### Faults -/

/-- An exchange fault of an instance (R50, R278, R297): the error record, the end of its operator. -/
def State.exFail (s : State) (x : ExInst) (code : Code) (detail : Nat) : State := match x.op.bind (NMap.get? s.sched.ops) with
  | some e => (s.record uidHub code 2 detail (s.whoOp e)).endOp (x.op.getD 0) code
  | none => ((s.record uidHub code 2 detail (s.whoRun x.slot)).setInst { x with complete := true }).fault x.slot

/-- After a cell: CLOSEs are matched; a disagreement ends the instance, else it goes on. -/
def State.exAfter (s : State) (x : ExInst) : State :=
  let e := x.op.bind (NMap.get? s.sched.ops)
  let mc := match e with
    | some e => s.mathCtx e
    | none => ⟨0, [], fun _ _ => 0, 0, false, 0⟩
  let x := x.matchCloses x.phases (s.wantCells x mc)
  match (s.senders x).find? (x.disagrees x.phases) with
  | some r => (s.setInst x).exFail x cExchangeDigest r
  | none => match e with
    | some e => s.exStep e x
    | none =>
      let s := s.setInst x
      if !x.complete && s.replicaReady x then s.compareReplica x else s

/-! ### Outputs -/

/-- The shard of `n` elements as a tensor of one row, in the format of `t`, over an image. -/
def TDesc.flatShard (t : TDesc) (n : Nat) : TDesc :=
  (((((setFld (t.overImage 0) 64 32 n |> fun t => setFld t 96 32 1) |> fun t => setFld t 128 32 1) |> fun t => setFld t 160 32 1) |> fun t => setFld t 192 32 1) |>
    fun t => setFld t 224 32 1)

/-- ALLGATHER: the shards' planes, one after another (R286). -/
def State.gathered (s : State) (x : ExInst) (mc : MathCtx) : List PlaneW :=
  let o := mc.out 0
  let imgs := (List.range x.g).map (fun j =>
    let n := shardCount o.count 256 x.g j
    if j = x.me then (mc.inp 0).planesOf false ((mc.inp 0).image mc.rd false)
    else
      let r := s.memberRank x j
      let t := o.flatShard n
      let bs := (List.range (cdiv (t.imageLen false) 512)).flatMap (fun u => match x.segs.find? (fun e => e.src == r && e.unit == u) with
        | some e => fitBytes 512 e.bytes
        | none => List.replicate 512 0)
      t.planesOf false bs)
  let plane := fun (k : Nat) => (imgs.map (fun i => nth i k [])).flatten
  o.imageWrites false (padTo 32 (fitBytes o.denseLen (plane 0)) ++ padTo 32 (fitBytes (o.blockBytes false) (plane 1)) ++ padTo 32 (fitBytes o.auxBytes (plane 2)))

/-- The writes of an XP40 tensor from blocks in order. -/
def TDesc.xpWrites (o : TDesc) (bs : List BlockAcc) : List PlaneW :=
  o.elemWrites (((bs.map BlockAcc.elems).flatten.take o.count).map (intBits 40)) ++ o.entryWrites (bs.map (fun b => b.hdr.toNat)) ++
    o.auxWrites (bs.map (fun b => b.obs.toNat))

/-- DISPATCH: the slots' rows, the spill, the counts, the origins (R290, R291). Where the spec states nothing (the spill's and the origins' unused rows) the
bytes are unstated. -/
def State.dispatched (s : State) (e : OpEntry) (x : ExInst) (mc : MathCtx) : Body :=
  let cap := e.d.arg 2
  let slots := s.homeSlots e.ctx
  let o := mc.out 0
  let sp := mc.out 1
  let m := mc.out 3
  let per := slots.map x.slotRows
  let spill := (per.map (fun l => l.drop cap)).flatten
  let origin := fun (i : Nat) (r : RowAcc) => (⟨m.eReg, m.eOff + m.rowOff i,
    leBytes 4 r.src ++ leBytes 4 r.t ++ leBytes 4 r.quantum ++ leBytes 4 r.row ++ leBytes 4 r.j⟩ : PlaneW)
  if sp.rows < spill.length then { code := cSlotSpillCapacity, tBody := s.exchangeT e }
  else
    let ix := List.range slots.length
    let rowsAt := fun (i : Nat) => (List.range cap).zip (((nth per i []).take cap).map some ++ List.replicate cap none)
    let ws0 := ix.flatMap (fun i => (rowsAt i).flatMap (fun q => o.wireWrites (i * cap + q.1) (match q.2 with
      | some r => r.bytes
      | none => [])))
    let or0 := ix.flatMap (fun i => (rowsAt i).filterMap (fun q => q.2.map (origin (i * cap + q.1))))
    let ws1 := ((List.range spill.length).zip spill).flatMap (fun q => sp.wireWrites q.1 q.2.bytes)
    let or1 := ((List.range spill.length).zip spill).map (fun q => origin (o.rows + q.1) q.2)
    let free0 := ix.flatMap (fun i => (rowsAt i).filterMap (fun q => if q.2.isNone then some (m.eReg, m.eOff + m.rowOff (i * cap + q.1), 20) else none))
    let left := (List.range (sp.rows - spill.length)).map (· + spill.length)
    let free1 := left.flatMap (fun i => (m.eReg, m.eOff + m.rowOff (o.rows + i), 20) ::
      (sp.wireWrites i []).map (fun (w : PlaneW) => (w.reg, w.off, w.bytes.length)))
    { writes := ws0 ++ ws1 ++ (mc.out 2).elemWrites (per.map List.length) ++ or0 ++ or1
      undef := free0 ++ free1, tBody := s.exchangeT e }

/-- COMBINE: each element one grid sum of gate × expert output over the k slots, rounded once (R292). The sums of token t count on core t mod 800 (DESIGN
CHOICE, log entry 55). -/
def State.combined (s : State) (e : OpEntry) (x : ExInst) (mc : MathCtx) : Body :=
  let a := mc.inp 0
  let gate := mc.inp 3
  let o := mc.out 0
  let k := e.d.arg 1
  let yt := a.flatShard (a.dim 0)
  let row := fun (t j : Nat) => match x.rows.find? (fun r => r.t == t && r.j == j) with
    | some r => r.bytes
    | none => []
  let terms := (List.range o.rows).flatMap (fun t =>
    let ys := (List.range k).map (fun j => let bs := row t j; rdLists [bs.take a.rowBytes, bs.drop a.rowBytes])
    (List.range (o.dim 0)).map (fun i => ((List.range k).zip ys).map (fun q => (t, Val.mul (gate.val mc.rd 0 (q.1 + gate.dim 0 * t)) (yt.val q.2 0 i)))))
  let gs := terms.map (fun l => sumFloor e.d (l.map (·.2)))
  let sums := (terms.zip gs).map (fun p => gridSum p.2 (p.1.map (·.2)))
  let nf := sums.any (·.nonfinite)
  let w : List PlaneW × OpStatus :=
    if o.fmt = fmtG128 then (maskedWrites o ⟨sums.map (·.g128), [], false, false⟩ (fun _ => false), { gridNonfinite := nf })
    else
      let c := encodeVals o (mc.rnd o) [] ((sums.zip gs).map (fun p => p.1.val p.2))
      (maskedWrites o c (fun _ => false), { gridNonfinite := nf, cvtSat := c.sat, cvtNonfinite := c.nonfin })
  { writes := w.1, stat := w.2, flushed := sumOf (sums.map (·.flushed)), clamped := sumOf (sums.map (·.clamped)), tBody := s.exchangeT e
    deltas := (terms.zip gs).flatMap (fun p => coreCounts 800 p.2 p.1) }

/-- RECV: the image, when as many cells came as the output's image has segments (R294). -/
def State.received (s : State) (e : OpEntry) (x : ExInst) (mc : MathCtx) : Body :=
  let o := mc.out 0
  let n := cdiv (o.imageLen false) 512
  let segs := (List.range n).map (fun u => x.segs.find? (fun e => e.unit == u))
  if (x.peer x.me 0).recvCount != n || !segs.all Option.isSome then { code := cGroupMismatch, tBody := s.exchangeT e }
  else { writes := o.imageWrites false ((segs.filterMap id).map (fun g => fitBytes 512 g.bytes)).flatten, tBody := s.exchangeT e }

/-- The result of a complete instance. -/
def State.exBody (s : State) (e : OpEntry) (x : ExInst) (mc : MathCtx) : Body :=
  let o := mc.out 0
  match e.d.opcode with
  | 0x0900 | 0x0901 => { writes := o.xpWrites x.sorted, tBody := s.exchangeT e }
  | 0x0902 => { writes := s.gathered x mc, tBody := s.exchangeT e }
  | 0x0903 => s.dispatched e x mc
  | 0x0904 => s.combined e x mc
  | 0x0905 => { writes := o.elemWrites ((((x.blocks.head?).map BlockAcc.elems).getD []).map Int.toNat), stat := { cvtNonfinite := x.nonfin }, tBody := s.exchangeT e }
  | 0x0907 => s.received e x mc
  | 0x0908 =>
    let es := (x.sorted.map BlockAcc.elems).flatten.take o.count
    { writes := o.elemWrites (es.map (intBits 128)), stat := { gridNonfinite := es.contains (-(2 : Int) ^ 127) }, tBody := s.exchangeT e }
  | _ => { tBody := s.exchangeT e }

/-! ### The rows of Table 8.12 -/

/-- Rows that found no room in their slot (Table 7.8). -/
def State.spilled (s : State) (e : OpEntry) (x : ExInst) : Nat :=
  if e.d.opcode = 0x0903 then sumOf ((s.homeSlots e.ctx).map (fun k => (x.slotRows k).length - e.d.arg 2)) else 0

/-- End an operator whose instance is complete. -/
def State.exFinish (s : State) (id : Nat) (e : OpEntry) (env : OpEnv) (x : ExInst) : State :=
  let n := s.spilled e x
  let s := { s with ctxs := { s.ctxs with ctr := { s.ctxs.ctr with expertSpillRows := sat64 (s.ctxs.ctr.expertSpillRows + n) } } }
  s.finishBody id e env (s.exBody e x)

/-- An exchange operator: its sends with its first event, its results with the event that finds its instance complete. -/
def State.exRow (s : State) (id opcode : Nat) (env : OpEnv) : Out := match s.bodyDue id opcode with
  | none => .next s
  | some e =>
    if env.accessFault.isSome then .next (s.finishBody id e env (fun _ => {})).settle
    else match s.instOf id with
      | none => .next s
      | some x =>
        let p := if x.begun then (s, x) else s.exBegin e x
        let s := (p.1.setInst p.2).exAfter p.2
        match s.bodyDue id opcode, s.instOf id with
        | some e, some x => .next (if x.complete then s.exFinish id e env x else s).settle
        | _, _ => .next s.settle

/-- ALLREDUCE_XB (R284). -/
def execAllreduceXb (op : Nat) (env : OpEnv) (s : State) : Out := s.exRow op 0x0900 env
/-- REDUCE_SCATTER_XB (R283). -/
def execReduceScatterXb (op : Nat) (env : OpEnv) (s : State) : Out := s.exRow op 0x0901 env
/-- ALLGATHER (R286). -/
def execAllgather (op : Nat) (env : OpEnv) (s : State) : Out := s.exRow op 0x0902 env
/-- DISPATCH (R290, R291). -/
def execDispatch (op : Nat) (env : OpEnv) (s : State) : Out := s.exRow op 0x0903 env
/-- COMBINE (R292). -/
def execCombine (op : Nat) (env : OpEnv) (s : State) : Out := s.exRow op 0x0904 env
/-- RANK_ORDER_REDUCE (R288, R289). -/
def execRankOrderReduce (op : Nat) (env : OpEnv) (s : State) : Out := s.exRow op 0x0905 env
/-- SEND (R294). -/
def execSendTensor (op : Nat) (env : OpEnv) (s : State) : Out := s.exRow op 0x0906 env
/-- RECV (R294). -/
def execRecvTensor (op : Nat) (env : OpEnv) (s : State) : Out := s.exRow op 0x0907 env
/-- G128_EXCHANGE (R287). -/
def execG128Exchange (op : Nat) (env : OpEnv) (s : State) : Out := s.exRow op 0x0908 env

end Sys2Proof.Machine
end

