-- ==== Sys2Proof/Machine/ExCells.lean ====
section
/-! DEFINITION. The cells of exchange operators as they arrive (R278, R280, R281, R283 to R294): to which instance a cell belongs, and what it does there. -/

namespace Sys2Proof.Machine

/-! ### To which instance a cell belongs -/

/-- What becomes of an arriving cell: it waits in the receive buffer, is stale (R280), is violation 0x0009, belongs to an instance that has ended, or
belongs to one that is at work. -/
inductive CellFor where
  | wait | stale | bad | gone
  | inst (x : ExInst)
deriving DecidableEq, Repr

/-- The instance if it is at work, else what its operator's state makes of the cell. -/
def cellFor (x : Option ExInst) (issued waiting : Bool) : CellFor := match x with
  | some x => if x.begun then .inst x else .wait
  | none => if !issued then .bad else if waiting then .wait else .gone

/-- Is an operator of a run still here under a number? -/
def State.opHere (s : State) (slot xseq : Nat) (f : OpEntry → Bool) : Bool :=
  s.sched.ops.any (fun e => (s.ctx e.2.ctx).runSlot == slot && e.2.xseq == xseq && f e.2)

/-- Of a group cell (R280, Table 10.11). -/
def State.groupCellFor (s : State) (c : Cell) : CellFor :=
  let g := c.group
  let slot := (s.groupE g).slot
  let r := s.run slot
  let q := c.hi 0 14
  match s.myIdx g, s.idxOf g c.src with
  | some me, some j =>
    if me = j || !r.isOpen then .bad
    else match s.tagFit slot c.step c.attempt with
      | .waiting => .wait
      | .stale => .stale
      | .present => cellFor (s.inst g q) (decide (1 ≤ q) && decide (q ≤ NMap.getD r.xseqs g 0))
          (s.opHere slot q (fun e => isExchange e.d.opcode && isGroupOp e.d.opcode && e.d.arg 0 == g))
  | _, _ => .bad

/-- The RECV instance of a run that a sender's cell with a number belongs to. -/
def State.recvInst (s : State) (slot src q : Nat) : Option ExInst :=
  s.exch.find? (fun x => x.group == noGroup && x.opcode == 0x0907 && x.slot == slot && x.me == src && x.xseq == q)

/-- Of a SEND's cell to a run slot (R294). A cell whose RECV has not been issued waits. -/
def State.recvCellFor (s : State) (c : Cell) (slot : Nat) : CellFor :=
  let r := s.run slot
  let q := c.hi 0 14
  if !r.isOpen then .stale
  else match s.tagFit slot c.step c.attempt with
    | .waiting => .wait
    | .stale => .stale
    | .present => cellFor (s.recvInst slot c.src q) true
        (decide (NMap.getD r.recvs c.src 0 < q) || s.opHere slot q (fun e => e.d.opcode == 0x0907 && e.d.arg 0 % 2 ^ 18 == c.src))

/-- Of the CLOSE of a SEND, which names no run: the run that has such a RECV, else one whose step it fits. -/
def State.recvCloseFor (s : State) (c : Cell) : CellFor :=
  let fits := (s.runs.map Prod.fst).filter (fun k => (s.run k).isOpen && s.tagFit k c.step c.attempt != .stale)
  match fits.find? (fun k => (s.recvInst k c.src (c.hi 0 14)).isSome) with
  | some k => s.recvCellFor c k
  | none => if fits.isEmpty then .stale else .wait

/-! ### What a data cell does -/

/-- A data cell is discarded under a violation, or accepted in a phase and applied to its instance; the application may fail with an exchange fault. -/
inductive CellFate where
  | bad (v phase : Nat)
  | take (phase : Nat) (f : ExInst → Except Code ExInst)

/-- A discarded data cell leaves its sender's account wrong for good (Table 10.11). -/
def State.spoil (s : State) (x : ExInst) (phase : Nat) (c : Cell) : State :=
  let p := x.peer c.src phase
  if p.close.isSome then s.exFail x cExchangeDigest c.src else s.exAfter (x.setPeer { p with recvCount := p.recvCount + 1 })

/-- A data cell in its instance (R278): one after its sender's matched CLOSE is a fault. -/
def State.dataIn (s : State) (l : LinkRef) (c : Cell) (x : ExInst) (fate : CellFate) : State := match fate with
  | .bad v ph => (s.violation l v).spoil x ph c
  | .take ph f =>
    if (x.peer c.src ph).close.isSome then s.exFail x cExchangeDigest c.src
    else
      let p := s.acceptData x ph c
      match f p.2 with
      | .ok y => p.1.exAfter y
      | .error code => (p.1.setInst p.2).exFail p.2 code (c.hi 32 32)

/-- Take a cell by what becomes of it; what waits for the module's operators or its STEP_CHECK then goes on. -/
def State.cellTaken (s : State) (l : LinkRef) (c : Cell) (which : CellFor) (f : State → ExInst → State) : Out := match which with
  | .wait => .next s
  | .stale => .next ((s.takeCell l c).staleOn l)
  | .bad => .next ((s.takeCell l c).violation l 9)
  | .gone => .next (s.takeCell l c)
  | .inst x => .next ((f (s.takeCell l c) x).tryCheck x.slot).settle

/-- A cell that finds no room in its exchange receive buffer waits (R264). -/
def State.roomFor (s : State) (c : Cell) : CellFor → CellFor
  | .inst x => if s.noRoom x c then .wait else .inst x
  | w => w

/-- Is a cell of a kind here for this module? -/
def State.exHere (s : State) (l : LinkRef) (c : Cell) (kind : Nat) : Bool := s.cellHere l c && c.kind == kind && s.isOwnRank c.dst

/-- A data cell of a group instance. -/
def State.groupData (s : State) (l : LinkRef) (c : Cell) (kind : Nat) (f : State → ExInst → MathCtx → CellFate) : Out :=
  if s.exHere l c kind then s.cellTaken l c (s.roomFor c (s.groupCellFor c)) (fun s x => s.dataIn l c x (f s x (s.exCtx x))) else .next s

/-! ### XB16, XP40 and G128 (R283, R284, R287) -/

/-- The phase of block `b` of `n` from a sender: a contribution to this module's shard, or a part of the sender's. -/
def State.blockPhase (s : State) (x : ExInst) (n b src : Nat) : Option Nat :=
  if n ≤ b then none
  else if ownerOf n x.g b = x.me then some 0
  else if x.phases = 2 && ownerOf n x.g b = (s.idxOf x.group src).getD x.me then some 1
  else none

/-- Signed elements of `w` bytes. -/
def signedsOf (w n : Nat) (bs : List Byte) : List Int := (List.range n).map (fun i => signedOf (8 * w) (leAt bs (w * i) w))

/-- XB16_BLOCK. -/
def State.xb16Fate (s : State) (c : Cell) (x : ExInst) (mc : MathCtx) : CellFate :=
  let a := mc.inp 0
  let b := c.hi 32 32
  if !((x.opcode == 0x0900 || x.opcode == 0x0901) && a.fmt == fmtXB16) then .bad 9 0
  else match s.blockPhase x (cdiv a.count 256) b c.src with
    | some 0 => .take 0 (fun x => x.addBlock (BlockAcc.norm16 ⟨b, BitVec.ofNat 64 (c.hi 64 64), BitVec.ofNat 16 (c.hi 16 16), signedsOf 2 256 c.payload⟩))
    | _ => .bad 0x0A 0

/-- A segment joins its block; the third completes it. A block of an out-of-range exponent is refused in both phases (R47). -/
def ExInst.joinSeg (x : ExInst) (c : Cell) (ph : Nat) : Except Code ExInst :=
  let b := c.hi 32 32
  let mine := fun (e : Seg) => e.src == c.src && e.phase == ph && e.unit == b
  let segs := x.segs ++ [⟨c.src, ph, b, c.hi 14 2, BitVec.ofNat 64 (c.hi 64 64), BitVec.ofNat 16 (c.hi 16 16), c.payload⟩]
  let parts := (List.range 3).filterMap (fun k => segs.find? (fun e => mine e && e.seg == k))
  match parts with
  | [p, q, r] =>
    let a : BlockAcc := ⟨b, BitVec.ofNat 64 (xbClean p.hdr.toNat), p.obs, signedsOf 5 256 (p.bytes ++ q.bytes ++ r.bytes)⟩
    let x := { x with segs := segs.map (fun e => if mine e then { e with bytes := [] } else e) }
    if ph = 0 then x.addBlock a
    else if xbExpOk (xbExp a.hdr.toNat) then .ok { x with blocks := x.blocks ++ [a] } else .error cXbExponentRange
  | _ => .ok { x with segs := segs }

/-- XP40_SEG. -/
def State.xp40Fate (s : State) (c : Cell) (x : ExInst) (mc : MathCtx) : CellFate :=
  let a := mc.inp 0
  let b := c.hi 32 32
  if !(x.opcode == 0x0900 || x.opcode == 0x0901) then .bad 9 0
  else match s.blockPhase x (cdiv a.count 256) b c.src with
    | none => .bad 0x0A 0
    | some ph =>
      if ph = 0 && a.fmt != fmtXP40 then .bad 9 0
      else if x.segs.any (fun e => e.src == c.src && e.phase == ph && e.unit == b && e.seg == c.hi 14 2) then .bad 0x0A ph
      else .take ph (fun x => x.joinSeg c ph)

/-- The unit of a G128_SEG or RAW_SEG (Table 10.4). -/
def longUnit (c : Cell) : Nat := c.hi 32 32 + c.hi 64 8 * 2 ^ 32

/-- G128_SEG. -/
def State.g128Fate (s : State) (c : Cell) (x : ExInst) (mc : MathCtx) : CellFate :=
  let u := longUnit c
  let es := signedsOf 16 32 c.payload
  if x.opcode != 0x0908 then .bad 9 0
  else match s.blockPhase x (cdiv (mc.inp 0).count 32) u c.src with
    | none => .bad 0x0A 0
    | some 0 => .take 0 (fun x => .ok (x.addUnit u es))
    | some ph => .take ph (fun x => .ok { x with blocks := x.blocks ++ [⟨u, 0, 0, es⟩] })

/-- XB16_BLOCK (R283). -/
def execXb16Block (l : LinkRef) (c : Cell) (s : State) : Out := s.groupData l c 0x10 (fun s => s.xb16Fate c)
/-- XP40_SEG (R283, R284). -/
def execXp40Seg (l : LinkRef) (c : Cell) (s : State) : Out := s.groupData l c 0x11 (fun s => s.xp40Fate c)
/-- G128_SEG (R287). -/
def execG128Seg (l : LinkRef) (c : Cell) (s : State) : Out := s.groupData l c 0x12 (fun s => s.g128Fate c)

/-! ### Packed images (R286, R288, R294, R337) -/

/-- RAW_SEG: of ALLGATHER, of RANK_ORDER_REDUCE and of the replica comparison. -/
def rawFate (c : Cell) (x : ExInst) : CellFate :=
  if !(x.opcode == 0x0902 || x.opcode == 0x0905) then .bad 9 0
  else .take 0 (fun x => .ok { x with segs := x.segs ++ [⟨c.src, 0, longUnit c, 0, 0, 0, c.payload⟩] })

/-- RAW_SEG (R286, R289). -/
def execRawSeg (l : LinkRef) (c : Cell) (s : State) : Out := s.groupData l c 0x13 (fun _ x _ => rawFate c x)

/-- BULK_SEG (R294). -/
def execBulkSeg (l : LinkRef) (c : Cell) (s : State) : Out :=
  if s.exHere l c 0x30 then
    s.cellTaken l c (s.recvCellFor c (c.hi 16 16)) (fun s x => s.dataIn l c x
      (.take 0 (fun x => .ok { x with segs := x.segs ++ [⟨c.src, 0, c.hi 32 40, 0, 0, 0, c.payload⟩] })))
  else .next s

/-! ### Rows (R290 to R293) -/

/-- A row segment joins its row. -/
def ExInst.joinRow (x : ExInst) (c : Cell) : ExInst :=
  let n : RowAcc := ⟨c.src, c.hi 16 16, c.hi 32 32, c.hi 64 20, c.hi 84 6, c.hi 104 24, [(c.hi 96 8, c.payload)]⟩
  let same := fun (r : RowAcc) => r.src == n.src && r.slot == n.slot && r.quantum == n.quantum && r.row == n.row && r.j == n.j && r.t == n.t
  if x.rows.any same then { x with rows := x.rows.map (fun r => if same r then { r with segs := NMap.set r.segs (c.hi 96 8) c.payload } else r) }
  else { x with rows := x.rows ++ [n] }

/-- A row cell of an operator (R293). The home is checked where rows arrive at their home: at a DISPATCH (DEDUCED, log entry 36); a COMBINE checks the
token key. -/
def State.rowFate (s : State) (c : Cell) (opcode : Nat) (x : ExInst) (mc : MathCtx) : CellFate :=
  let a := mc.inp 0
  let k := mc.d.arg 1
  let t := c.hi 104 24
  let op := x.op.bind (NMap.get? s.sched.ops)
  let homed := match op with
    | some e => (s.homeSlots e.ctx).contains (c.hi 16 16)
    | none => false
  let keyOk := let r := mc.inp 4
    r.code mc.rd (k + r.dim 0 * t) == c.hi 32 32 && r.code mc.rd (k + 1 + r.dim 0 * t) == c.hi 64 20
  let rows := if opcode = 0x0903 then (mc.inp 1).rows else (mc.out 0).rows
  if x.opcode.toNat != opcode then .bad 9 0
  else if (opcode = 0x0903 && !homed) || k ≤ c.hi 84 6 || cdiv a.wireRow 512 ≤ c.hi 96 8 || rows ≤ t || (opcode = 0x0904 && !keyOk) then .bad 0x0B 0
  else .take 0 (fun x => .ok (x.joinRow c))

/-- DISPATCH_ROW (R290, R291, R293). -/
def execDispatchRow (l : LinkRef) (c : Cell) (s : State) : Out := s.groupData l c 0x20 (fun s => s.rowFate c 0x0903)
/-- COMBINE_ROW (R292, R293). -/
def execCombineRow (l : LinkRef) (c : Cell) (s : State) : Out := s.groupData l c 0x21 (fun s => s.rowFate c 0x0904)

/-! ### CLOSE, GO and the age limit (R278, R281, R289) -/

/-- The lane of an instance's cells. -/
def ExInst.lane (x : ExInst) : Nat := if x.group = noGroup then 3 else if x.opcode == 0x0903 || x.opcode == 0x0904 then 2 else 1

/-- A CLOSE of an instance. One more than the sender owes has no effect. -/
def State.closeIn (s : State) (l : LinkRef) (c : Cell) (x : ExInst) : State :=
  let owed := ((List.range x.phases).filter (fun ph => (x.peer c.src ph).close.isNone)).length
  if c.lane != x.lane then s.violation l 2
  else if owed ≤ (x.closes.filter (fun k => k.src == c.src)).length then s
  else (s.countRecv x.slot c.check).exAfter { x with closes := x.closes ++ [⟨c.src, c.hi 32 32, c.hi 64 64, l, s.now⟩] }

/-- CLOSE (R278, R458): of a mirror's batch, of a SEND, or of a group instance. -/
def execCloseCell (l : LinkRef) (c : Cell) (s : State) : Out :=
  if !(s.cellHere l c && c.kind == 0x18) then .next s
  else if c.lane = 3 && c.group != noGroup then s.mirrorClosed l c
  else if !s.isOwnRank c.dst then .next s
  else s.cellTaken l c (if c.group = noGroup then s.recvCloseFor c else s.groupCellFor c) (fun s x => s.closeIn l c x)

/-- GO (R289): the sender of a GO is an owner; this module's contribution to its shard goes to it. -/
def execGoCell (l : LinkRef) (c : Cell) (s : State) : Out :=
  if s.exHere l c 0x19 then
    s.cellTaken l c (s.groupCellFor c) (fun s x =>
      if x.opcode != 0x0905 then s.violation l 9
      else let p := s.onGo x (s.exCtx x) c.src
        (p.1.setInst p.2).exAfter p.2)
  else .next s

/-- How long a cell may wait. -/
def cellAge : Nat := 10 * Config.msCycles

/-- The RECV of a run that a cell belongs to, once it is issued. -/
def State.recvOpen (s : State) (c : Cell) (slot : Nat) : Option ExInst :=
  let q := c.hi 0 14
  if !((s.run slot).isOpen && s.tagFit slot c.step c.attempt == .present) then none
  else match s.recvInst slot c.src q with
    | some x => some x
    | none => (s.sched.ops.find? (fun e => (s.ctx e.2.ctx).runSlot == slot && e.2.xseq == q && e.2.d.opcode == 0x0907 && e.2.d.arg 0 % 2 ^ 18 == c.src)).map
        (fun e => s.instFor e.1 e.2)

/-- The open instance of a data or CLOSE cell, at work or not yet. -/
def State.openInst (s : State) (c : Cell) : Option ExInst :=
  if c.kind = 0x30 then s.recvOpen c (c.hi 16 16)
  else if c.kind = 0x18 && c.lane = 3 then (if c.group = noGroup then (s.runs.map Prod.fst).findSome? (s.recvOpen c) else none)
  else if [0x10, 0x11, 0x12, 0x13, 0x18, 0x20, 0x21].contains c.kind then match s.groupCellFor c with
    | .inst x => some x
    | .wait => s.inst c.group (c.hi 0 14)
    | _ => none
  else none

/-- The data and CLOSE cells among dropped items, as sender and instance. -/
def State.lostInsts (s : State) (ds : List LinkItem) : List (Nat × ExInst) :=
  ds.filterMap (fun i => (s.openInst ⟨i.hdr, i.data⟩).map (fun x => ((⟨i.hdr, i.data⟩ : Cell).src, x)))

/-- Is an instance still open: its operator, or the comparison it belongs to? -/
def State.stillOpen (s : State) (x : ExInst) : Bool := match x.op with
  | some id => (NMap.get? s.sched.ops id).isSome
  | none => s.exch.any (fun y => y.same x)

/-- STALE_CELL_EXPIRE (R281): the oldest waiting cell of lanes 1 to 3 passes its 10 ms; all cells that old are dropped and counted. A data or CLOSE
cell of an open instance ends it (R278), a CLOSE that still lacks cells too. -/
def execStaleCellExpire (l : LinkRef) (s : State) : Out :=
  let k := s.link l
  let aged := fun (i : LinkItem) => decide (1 ≤ i.lane) && decide (i.lane ≤ 3)
  let host := match l with
    | .host _ => true
    | _ => false
  let times := ((k.rx ++ k.txq).filter aged).map (·.at_) ++ (s.exch.flatMap (fun x => (x.closes.filter (fun q => q.link == l)).map (·.at_)))
  match times with
  | [] => .next s
  | t0 :: ts =>
    if host then .next s
    else
      let s := s.advanceTo (ts.foldl min t0 + cellAge + 1)
      let late := fun (i : LinkItem) => aged i && decide (i.at_ + cellAge < s.now)
      let lost := k.rx.filter late
      let old := fun (q : CloseCell) => q.link == l && decide (q.at_ + cellAge < s.now)
      let closes := s.exch.flatMap (fun x => (x.closes.filter old).map (fun q => (q.src, x)))
      let insts := s.lostInsts lost ++ closes
      let s := s.updLink l (fun k =>
        let k := lost.foldl (fun k i => k.free i.lane (1 + cdiv i.data.length 32)) k
        let n := lost.length + closes.length + (k.txq.filter late).length
        ({ k with rx := k.rx.filter (fun i => !late i), txq := k.txq.filter (fun i => !late i) } : Link).count
          (fun t => { t with staleCells := sat64 (t.staleCells + n) }))
      .next ((insts.foldl (fun (s : State) e => if s.stillOpen e.2 then s.exFail e.2 cExchangeDigest e.1 else s) s).settle)

end Sys2Proof.Machine
end

