-- ==== Sys2Proof/Machine/VectorRows.lean ====
section
/-! DEFINITION. The vector instructions (file 06, Table 6.7), each on the vector engine of one logical core: it acts while the core's chunk has not
stopped at a faulted VLDX (R149). Ports and results are those of the operator the engine is bound to. -/

namespace Sys2Proof.Machine

/-- The vector engine of a logical core. -/
def State.vcore (s : State) (core : Nat) : VCore := NMap.getD s.vec core {}

def State.setVcore (s : State) (core : Nat) (c : VCore) : State := { s with vec := NMap.set s.vec core c }

/-- Does a vector instruction act on the core? -/
def State.vecOk (s : State) (core : Nat) : Bool := decide (core < Config.logicalCores) && (s.vcore core).faultIndex.isNone

/-- A vector instruction that changes its core's vector engine only. -/
def State.vecStep (s : State) (core : Nat) (f : VCore → VCore) : Out :=
  if s.vecOk core then .next (s.setVcore core (f (s.vcore core))) else .next s

/-- The operator a core's vector engine is bound to. -/
def State.vecOp (s : State) (core : Nat) : Option OpEntry := match (s.vcore core).op with
  | none => none
  | some id => NMap.get? s.sched.ops id

/-- A SETVL that reads s1 is the first instruction of the body: the next pass of the chunk begins with it (R143, R146). -/
def VCore.nextPass (c : VCore) (a : Nat) : VCore :=
  if c.op.isSome && a = 1 then match c.passes with
    | p :: r => { c.beginPass p with passes := r }
    | [] => c
  else c

/-- SETVL (R130, R146). -/
def execSetvl (core : Nat) (d a : BitVec 4) (s : State) : Out :=
  s.vecStep core (fun c => (c.nextPass a.toNat).setvl d.toNat a.toNat)

/-- SLI (R142). -/
def execSli (core : Nat) (d : BitVec 4) (imm : BitVec 32) (s : State) : Out :=
  s.vecStep core (fun c => c.sli d.toNat imm)

/-- SADD (R142). -/
def execSadd (core : Nat) (d a b : BitVec 4) (s : State) : Out :=
  s.vecStep core (fun c => c.sadd d.toNat a.toNat b.toNat)

/-- SSUB (R142). -/
def execSsub (core : Nat) (d a b : BitVec 4) (s : State) : Out :=
  s.vecStep core (fun c => c.ssub d.toNat a.toNat b.toNat)

/-- SMINU (R142). -/
def execSminu (core : Nat) (d a b : BitVec 4) (s : State) : Out :=
  s.vecStep core (fun c => c.sminu d.toNat a.toNat b.toNat)

/-- VBCAST (R129, R142). -/
def execVbcast (core : Nat) (d : BitVec 5) (a : BitVec 4) (mk : BitVec 3) (s : State) : Out :=
  s.vecStep core (fun c => c.vbcast d.toNat a.toNat mk.toNat)

/-- VBCASTI (R142). -/
def execVbcasti (core : Nat) (d : BitVec 5) (imm : BitVec 32) (mk : BitVec 3) (s : State) : Out :=
  s.vecStep core (fun c => c.vbcasti d.toNat imm mk.toNat)

/-- VIOTA (R142). -/
def execViota (core : Nat) (d : BitVec 5) (mk : BitVec 3) (s : State) : Out :=
  s.vecStep core (fun c => c.viota d.toNat mk.toNat)

/-- VADD (R128). -/
def execVadd (core : Nat) (d a b : BitVec 5) (mk : BitVec 3) (s : State) : Out :=
  s.vecStep core (fun c => c.fop2 d.toNat a.toNat b.toNat mk.toNat add32)

/-- VSUB (R128). -/
def execVsub (core : Nat) (d a b : BitVec 5) (mk : BitVec 3) (s : State) : Out :=
  s.vecStep core (fun c => c.fop2 d.toNat a.toNat b.toNat mk.toNat sub32)

/-- VMUL (R128). -/
def execVmul (core : Nat) (d a b : BitVec 5) (mk : BitVec 3) (s : State) : Out :=
  s.vecStep core (fun c => c.fop2 d.toNat a.toNat b.toNat mk.toNat mul32)

/-- VFMA (R128). -/
def execVfma (core : Nat) (d a b e : BitVec 5) (mk : BitVec 3) (s : State) : Out :=
  s.vecStep core (fun c => c.fop3 d.toNat a.toNat b.toNat e.toNat mk.toNat fma32)

/-- VFMS (R128). -/
def execVfms (core : Nat) (d a b e : BitVec 5) (mk : BitVec 3) (s : State) : Out :=
  s.vecStep core (fun c => c.fop3 d.toNat a.toNat b.toNat e.toNat mk.toNat fms32)

/-- VFNMA (R128). -/
def execVfnma (core : Nat) (d a b e : BitVec 5) (mk : BitVec 3) (s : State) : Out :=
  s.vecStep core (fun c => c.fop3 d.toNat a.toNat b.toNat e.toNat mk.toNat fnma32)

/-- VDIV (R128). -/
def execVdiv (core : Nat) (d a b : BitVec 5) (mk : BitVec 3) (s : State) : Out :=
  s.vecStep core (fun c => c.fop2 d.toNat a.toNat b.toNat mk.toNat div32)

/-- VSQRT (R128). -/
def execVsqrt (core : Nat) (d a : BitVec 5) (mk : BitVec 3) (s : State) : Out :=
  s.vecStep core (fun c => c.fop1 d.toNat a.toNat mk.toNat sqrt32)

/-- VMIN (R128). -/
def execVmin (core : Nat) (d a b : BitVec 5) (mk : BitVec 3) (s : State) : Out :=
  s.vecStep core (fun c => c.lop2 d.toNat a.toNat b.toNat mk.toNat min32)

/-- VMAX (R128). -/
def execVmax (core : Nat) (d a b : BitVec 5) (mk : BitVec 3) (s : State) : Out :=
  s.vecStep core (fun c => c.lop2 d.toNat a.toNat b.toNat mk.toNat max32)

/-- VABS (R128). -/
def execVabs (core : Nat) (d a : BitVec 5) (mk : BitVec 3) (s : State) : Out :=
  s.vecStep core (fun c => c.lop1 d.toNat a.toNat mk.toNat abs32)

/-- VNEG (R128). -/
def execVneg (core : Nat) (d a : BitVec 5) (mk : BitVec 3) (s : State) : Out :=
  s.vecStep core (fun c => c.lop1 d.toNat a.toNat mk.toNat neg32)

/-- VCPYSGN (R128). -/
def execVcpysgn (core : Nat) (d a b : BitVec 5) (mk : BitVec 3) (s : State) : Out :=
  s.vecStep core (fun c => c.lop2 d.toNat a.toNat b.toNat mk.toNat cpysgn32)

/-- VEXP (R134). -/
def execVexp (core : Nat) (d a : BitVec 5) (mk : BitVec 3) (s : State) : Out :=
  s.vecStep core (fun c => c.fop1 d.toNat a.toNat mk.toNat exp32)

/-- VLOG (R134). -/
def execVlog (core : Nat) (d a : BitVec 5) (mk : BitVec 3) (s : State) : Out :=
  s.vecStep core (fun c => c.fop1 d.toNat a.toNat mk.toNat log32)

/-- VRSQRT (R134). -/
def execVrsqrt (core : Nat) (d a : BitVec 5) (mk : BitVec 3) (s : State) : Out :=
  s.vecStep core (fun c => c.fop1 d.toNat a.toNat mk.toNat rsqrt32)

/-- VTANH (R134). -/
def execVtanh (core : Nat) (d a : BitVec 5) (mk : BitVec 3) (s : State) : Out :=
  s.vecStep core (fun c => c.fop1 d.toNat a.toNat mk.toNat tanh32)

/-- VERF (R134). -/
def execVerf (core : Nat) (d a : BitVec 5) (mk : BitVec 3) (s : State) : Out :=
  s.vecStep core (fun c => c.fop1 d.toNat a.toNat mk.toNat erf32)

/-- VSIGM (R134). -/
def execVsigm (core : Nat) (d a : BitVec 5) (mk : BitVec 3) (s : State) : Out :=
  s.vecStep core (fun c => c.fop1 d.toNat a.toNat mk.toNat sigm32)

/-- VIADD (R129). -/
def execViadd (core : Nat) (d a b : BitVec 5) (mk : BitVec 3) (s : State) : Out :=
  s.vecStep core (fun c => c.lop2 d.toNat a.toNat b.toNat mk.toNat (· + ·))

/-- VISUB (R129). -/
def execVisub (core : Nat) (d a b : BitVec 5) (mk : BitVec 3) (s : State) : Out :=
  s.vecStep core (fun c => c.lop2 d.toNat a.toNat b.toNat mk.toNat (· - ·))

/-- VIMUL (R129). -/
def execVimul (core : Nat) (d a b : BitVec 5) (mk : BitVec 3) (s : State) : Out :=
  s.vecStep core (fun c => c.lop2 d.toNat a.toNat b.toNat mk.toNat (· * ·))

/-- VAND (R142). -/
def execVand (core : Nat) (d a b : BitVec 5) (mk : BitVec 3) (s : State) : Out :=
  s.vecStep core (fun c => c.lop2 d.toNat a.toNat b.toNat mk.toNat (· &&& ·))

/-- VOR (R142). -/
def execVor (core : Nat) (d a b : BitVec 5) (mk : BitVec 3) (s : State) : Out :=
  s.vecStep core (fun c => c.lop2 d.toNat a.toNat b.toNat mk.toNat (· ||| ·))

/-- VXOR (R142). -/
def execVxor (core : Nat) (d a b : BitVec 5) (mk : BitVec 3) (s : State) : Out :=
  s.vecStep core (fun c => c.lop2 d.toNat a.toNat b.toNat mk.toNat (· ^^^ ·))

/-- VSHL (R142). -/
def execVshl (core : Nat) (d a sh : BitVec 5) (mk : BitVec 3) (s : State) : Out :=
  s.vecStep core (fun c => c.lop1 d.toNat a.toNat mk.toNat (fun w => w <<< sh.toNat))

/-- VSHRL (R142). -/
def execVshrl (core : Nat) (d a sh : BitVec 5) (mk : BitVec 3) (s : State) : Out :=
  s.vecStep core (fun c => c.lop1 d.toNat a.toNat mk.toNat (fun w => w >>> sh.toNat))

/-- VSHRA (R142). -/
def execVshra (core : Nat) (d a sh : BitVec 5) (mk : BitVec 3) (s : State) : Out :=
  s.vecStep core (fun c => c.lop1 d.toNat a.toNat mk.toNat (fun w => w.sshiftRight sh.toNat))

/-- VIMIN (R142). -/
def execVimin (core : Nat) (d a b : BitVec 5) (mk : BitVec 3) (s : State) : Out :=
  s.vecStep core (fun c => c.lop2 d.toNat a.toNat b.toNat mk.toNat imin32)

/-- VIMAX (R142). -/
def execVimax (core : Nat) (d a b : BitVec 5) (mk : BitVec 3) (s : State) : Out :=
  s.vecStep core (fun c => c.lop2 d.toNat a.toNat b.toNat mk.toNat imax32)

/-- VCVTFI (R142). -/
def execVcvtfi (core : Nat) (d a : BitVec 5) (tz : Bool) (mk : BitVec 3) (s : State) : Out :=
  s.vecStep core (fun c => c.vcvtfi d.toNat a.toNat tz mk.toNat)

/-- VCVTIF (R142). -/
def execVcvtif (core : Nat) (d a : BitVec 5) (mk : BitVec 3) (s : State) : Out :=
  s.vecStep core (fun c => c.lop1 d.toNat a.toNat mk.toNat cvtIF)

/-- VCVTUF (R142). -/
def execVcvtuf (core : Nat) (d a : BitVec 5) (mk : BitVec 3) (s : State) : Out :=
  s.vecStep core (fun c => c.lop1 d.toNat a.toNat mk.toNat cvtUF)

/-- VCMP (R142). -/
def execVcmp (core : Nat) (d : BitVec 3) (a b : BitVec 5) (pred mk : BitVec 3) (s : State) : Out :=
  s.vecStep core (fun c => c.vcmp d.toNat a.toNat b.toNat pred.toNat mk.toNat)

/-- VSEL (R129, R142). -/
def execVsel (core : Nat) (d a b : BitVec 5) (mk : BitVec 3) (s : State) : Out :=
  s.vecStep core (fun c => c.vsel d.toNat a.toNat b.toNat mk.toNat)

/-- MAND (R142). -/
def execMand (core : Nat) (d a b : BitVec 3) (s : State) : Out :=
  s.vecStep core (fun c => c.mop d.toNat (fun i => c.mbit a.toNat i && c.mbit b.toNat i))

/-- MOR (R142). -/
def execMor (core : Nat) (d a b : BitVec 3) (s : State) : Out :=
  s.vecStep core (fun c => c.mop d.toNat (fun i => c.mbit a.toNat i || c.mbit b.toNat i))

/-- MXOR (R142). -/
def execMxor (core : Nat) (d a b : BitVec 3) (s : State) : Out :=
  s.vecStep core (fun c => c.mop d.toNat (fun i => c.mbit a.toNat i != c.mbit b.toNat i))

/-- MNOT (R142). -/
def execMnot (core : Nat) (d a : BitVec 3) (s : State) : Out :=
  s.vecStep core (fun c => c.mop d.toNat (fun i => !c.mbit a.toNat i))

/-- VPERM (R133). -/
def execVperm (core : Nat) (d a b : BitVec 5) (mk : BitVec 3) (s : State) : Out :=
  s.vecStep core (fun c => c.vperm d.toNat a.toNat b.toNat mk.toNat)

/-- RSUM (R137). -/
def execRsum (core : Nat) (a : BitVec 5) (acc : BitVec 2) (mk : BitVec 3) (s : State) : Out :=
  s.vecStep core (fun c => c.rsum acc.toNat mk.toNat (fun i => val32 (c.lane a.toNat i)))

/-- RSUMP (R137). -/
def execRsump (core : Nat) (a b : BitVec 5) (acc : BitVec 2) (mk : BitVec 3) (s : State) : Out :=
  s.vecStep core (fun c => c.rsum acc.toNat mk.toNat (fun i => Val.mul (val32 (c.lane a.toNat i)) (val32 (c.lane b.toNat i))))

/-- RMAX (R138). -/
def execRmax (core : Nat) (a : BitVec 5) (acc : BitVec 2) (mk : BitVec 3) (s : State) : Out :=
  s.vecStep core (fun c => c.rminmax acc.toNat mk.toNat a.toNat .max)

/-- RMIN (R138). -/
def execRmin (core : Nat) (a : BitVec 5) (acc : BitVec 2) (mk : BitVec 3) (s : State) : Out :=
  s.vecStep core (fun c => c.rminmax acc.toNat mk.toNat a.toNat .min)

/-- RARGMAX (R138). -/
def execRargmax (core : Nat) (a : BitVec 5) (acc : BitVec 2) (mk : BitVec 3) (s : State) : Out :=
  s.vecStep core (fun c => c.rminmax acc.toNat mk.toNat a.toNat .argmax)

/-! ### Ports (R144, R145, R149) -/

/-- VLD (R145): elements of a stream input. -/
def execVld (core : Nat) (d : BitVec 5) (port mk : BitVec 3) (s : State) : Out :=
  match s.vecOp core with
  | none => .next s
  | some e => s.vecStep core (fun c => c.vld d.toNat mk.toNat ((kenvOf (s.mathCtx e)).inEl port.toNat))

/-- VLDX (R149): table elements by index; an index out of range stops the core's chunk. -/
def execVldx (core : Nat) (d a : BitVec 5) (port mk : BitVec 3) (s : State) : Out :=
  match s.vecOp core with
  | none => .next s
  | some e =>
    let env := kenvOf (s.mathCtx e)
    s.vecStep core (fun c => c.vldx d.toNat a.toNat mk.toNat (env.inLen port.toNat) (env.inEl port.toNat))

/-- Write what an engine stores to its operator's output, with the status bits of the conversion; `undef` is left unstated. -/
def State.vecStore (s : State) (core : Nat) (e : OpEntry) (w : List PlaneW × OpStatus) (undef : List (Nat × Nat × Nat)) : Out :=
  match s.planeWrites e.ctx w.1 with
  | .error _ => .next s
  | .ok t =>
    let t := undef.foldl (fun s p => s.forgetPlane e.ctx p) t
    .next (t.setVcore core { s.vcore core with stat := (s.vcore core).stat.or w.2 })

/-- What the engines of an operator have stored to a port whose blocks are not whole yet. -/
def State.keptAt (s : State) (op : Option Nat) (port : Nat) : List KStore :=
  (NMap.vals s.vec).flatMap (fun c => if c.op == op then c.kept.filter (fun k => k.port == port) else [])

/-- VST (R145): the active lanes go to a stream output. A block of 32 is formed once all its elements are stored, by whichever passes. -/
def execVst (core : Nat) (a : BitVec 5) (port : BitVec 3) (p : BitVec 6) (mk : BitVec 3) (s : State) : Out :=
  match s.vecOp core with
  | none => .next s
  | some e =>
    if !s.vecOk core then .next s
    else
      let st := ((s.vcore core).vst a.toNat mk.toNat).map (fun x => (⟨port.toNat, p.toNat, x.1, x.2⟩ : KStore))
      let x := s.mathCtx e
      let o := x.out port.toNat
      let all := s.keptAt (s.vcore core).op port.toNat ++ st
      let missing := fun (i : Nat) => all.all (fun k => k.idx != i)
      let part := fun (k : KStore) => isBlock32 o.fmt && !o.wholeAt missing k.idx
      match s.vecStore core e (streamWrites x port.toNat (fun q => 0x40 + q) all) [] with
      | .next t =>
        let t := { t with vec := t.vec.map (fun (p : Nat × VCore) => if p.2.op == (s.vcore core).op then
          (p.1, { p.2 with kept := p.2.kept.filter (fun k => k.port != port.toNat || part k) }) else p) }
        .next (t.setVcore core { t.vcore core with kept := (t.vcore core).kept ++ st.filter part })
      | o => o

/-- The accumulators of an operator, combined over its cores (R139). -/
def State.combinedAcc (s : State) (op : Option Nat) : List Acc :=
  ((NMap.vals s.vec).filter (fun c => c.op == op)).foldl (fun a c => List.zipWith accJoin a c.acc) (List.replicate 4 {})

/-- RSTORE (R139): a combined accumulator, rounded once, to one element of a result port. -/
def execRstore (core : Nat) (acc : BitVec 2) (part : Bool) (port : BitVec 3) (p : BitVec 6) (elem : BitVec 16) (s : State) : Out :=
  match s.vecOp core with
  | none => .next s
  | some e =>
    if !s.vecOk core then .next s
    else
      let v : VI := { op := 0x88, d := 0, a := 0, b := 0, c := 0, msk := 0,
                      imm := acc.toNat + bit part * 2 ^ 3 + port.toNat * 2 ^ 4 + p.toNat * 2 ^ 8 + elem.toNat * 2 ^ 16, res := 0 }
      s.vecStore core e (rstoreWrite (s.mathCtx e) v (s.combinedAcc (s.vcore core).op)) (rstoreUndef (s.mathCtx e) [v])

end Sys2Proof.Machine
end

