-- ==== Sys2Proof/Machine/Dispatch.lean ====
section
/-! DEFINITION. The meaning of each command: one arm per constructor of `Instr`, each one direct call. -/

namespace Sys2Proof.Machine

def exec (i : Instr) (s : State) : Host.Outcome State Fault Refusal :=
  match i with
  | .pwrEnRise => Sys2Proof.Machine.execPwrEnRise s
  | .rails good => Sys2Proof.Machine.execRails good s
  | .boxwood => Sys2Proof.Machine.execBoxwood s
  | .bootImage => Sys2Proof.Machine.execBootImage s
  | .clockAlign tries delays => Sys2Proof.Machine.execClockAlign tries delays s
  | .memTrain fails => Sys2Proof.Machine.execMemTrain fails s
  | .wipe bad => Sys2Proof.Machine.execWipe bad s
  | .selfTest fails => Sys2Proof.Machine.execSelfTest fails s
  | .linkUp up => Sys2Proof.Machine.execLinkUp up s
  | .enterReleased => Sys2Proof.Machine.execEnterReleased s
  | .pwrEnFall => Sys2Proof.Machine.execPwrEnFall s
  | .inputUndervoltage => Sys2Proof.Machine.execInputUndervoltage s
  | .powerFailFlush written => Sys2Proof.Machine.execPowerFailFlush written s
  | .thermtrip sensor => Sys2Proof.Machine.execThermtrip sensor s
  | .resetNFall lowNs => Sys2Proof.Machine.execResetNFall lowNs s
  | .refclkLost => Sys2Proof.Machine.execRefclkLost s
  | .pllLockLost => Sys2Proof.Machine.execPllLockLost s
  | .vigilWatchdog => Sys2Proof.Machine.execVigilWatchdog s
  | .vigilSramUncorrectable => Sys2Proof.Machine.execVigilSramUncorrectable s
  | .chipReset q v => Sys2Proof.Machine.execChipReset q v s
  | .partitionReset p src => Sys2Proof.Machine.execPartitionReset p src s
  | .engineReset core src => Sys2Proof.Machine.execEngineReset core src s
  | .resetEscalate scope => Sys2Proof.Machine.execResetEscalate scope s
  | .crashDump silent => Sys2Proof.Machine.execCrashDump silent s
  | .dumpRequest q v => Sys2Proof.Machine.execDumpRequest q v s
  | .captureFlush slot => Sys2Proof.Machine.execCaptureFlush slot s
  | .logFlush => Sys2Proof.Machine.execLogFlush s
  | .thermalSample temps => Sys2Proof.Machine.execThermalSample temps s
  | .voltageSample volts => Sys2Proof.Machine.execVoltageSample volts s
  | .railOutOfRange monitor => Sys2Proof.Machine.execRailOutOfRange monitor s
  | .powerLimit watts => Sys2Proof.Machine.execPowerLimit watts s
  | .regulatorPoll n reply => Sys2Proof.Machine.execRegulatorPoll n reply s
  | .serviceSecondTick => Sys2Proof.Machine.execServiceSecondTick s
  | .serviceSecondsSave => Sys2Proof.Machine.execServiceSecondsSave s
  | .lpddrTempLimit ctrl field => Sys2Proof.Machine.execLpddrTempLimit ctrl field s
  | .lpddrMaintSlot work => Sys2Proof.Machine.execLpddrMaintSlot work s
  | .zeroingDone granule => Sys2Proof.Machine.execZeroingDone granule s
  | .tileScrub core finds => Sys2Proof.Machine.execTileScrub core finds s
  | .unitHeartbeat unit word => Sys2Proof.Machine.execUnitHeartbeat unit word s
  | .unitSilent unit => Sys2Proof.Machine.execUnitSilent unit s
  | .snapshotObject q v => Sys2Proof.Machine.execSnapshotObject q v s
  | .snapshotLatch => Sys2Proof.Machine.execSnapshotLatch s
  | .linkBlock l b => Sys2Proof.Machine.execLinkBlock l b s
  | .linkRetrainStart l => Sys2Proof.Machine.execLinkRetrainStart l s
  | .linkRetrainDone l ok => Sys2Proof.Machine.execLinkRetrainDone l ok s
  | .portTrained l => Sys2Proof.Machine.execPortTrained l s
  | .portTrainingTimeout l => Sys2Proof.Machine.execPortTrainingTimeout l s
  | .laneFifoSlip l lane => Sys2Proof.Machine.execLaneFifoSlip l lane s
  | .linkCtrlSend l => Sys2Proof.Machine.execLinkCtrlSend l s
  | .linkCtrl l c => Sys2Proof.Machine.execLinkCtrl l c s
  | .portGuarded n => Sys2Proof.Machine.execPortGuarded n s
  | .staleCellExpire l => Sys2Proof.Machine.execStaleCellExpire l s
  | .xb16Block l c => Sys2Proof.Machine.execXb16Block l c s
  | .xp40Seg l c => Sys2Proof.Machine.execXp40Seg l c s
  | .g128Seg l c => Sys2Proof.Machine.execG128Seg l c s
  | .rawSeg l c => Sys2Proof.Machine.execRawSeg l c s
  | .closeCell l c => Sys2Proof.Machine.execCloseCell l c s
  | .goCell l c => Sys2Proof.Machine.execGoCell l c s
  | .dispatchRow l c => Sys2Proof.Machine.execDispatchRow l c s
  | .combineRow l c => Sys2Proof.Machine.execCombineRow l c s
  | .bulkSeg l c => Sys2Proof.Machine.execBulkSeg l c s
  | .recoveryReq l c => Sys2Proof.Machine.execRecoveryReq l c s
  | .recoveryData l c => Sys2Proof.Machine.execRecoveryData l c s
  | .twinIdent c => Sys2Proof.Machine.execTwinIdent c s
  | .mirrorData l c => Sys2Proof.Machine.execMirrorData l c s
  | .mirrorAck l c => Sys2Proof.Machine.execMirrorAck l c s
  | .ctrlStepBegin l c => Sys2Proof.Machine.execCtrlStepBegin l c s
  | .ctrlGroupStart l c => Sys2Proof.Machine.execCtrlGroupStart l c s
  | .ctrlScaleMax l c => Sys2Proof.Machine.execCtrlScaleMax l c s
  | .ctrlStepCheck l c => Sys2Proof.Machine.execCtrlStepCheck l c s
  | .ctrlStepCommit l c => Sys2Proof.Machine.execCtrlStepCommit l c s
  | .ctrlVoidRequest l c => Sys2Proof.Machine.execCtrlVoidRequest l c s
  | .ctrlDecision l c => Sys2Proof.Machine.execCtrlDecision l c s
  | .ctrlRankMove l c => Sys2Proof.Machine.execCtrlRankMove l c s
  | .ctrlHeartbeat l c => Sys2Proof.Machine.execCtrlHeartbeat l c s
  | .ctrlCheckpoint l c => Sys2Proof.Machine.execCtrlCheckpoint l c s
  | .heartbeatSend => Sys2Proof.Machine.execHeartbeatSend s
  | .controlPeerSilent slot peer => Sys2Proof.Machine.execControlPeerSilent slot peer s
  | .stragglerDeclare slot child => Sys2Proof.Machine.execStragglerDeclare slot child s
  | .rootDeclareFailed slot => Sys2Proof.Machine.execRootDeclareFailed slot s
  | .recoveryUpdateReplay => Sys2Proof.Machine.execRecoveryUpdateReplay s
  | .compatRestore slot => Sys2Proof.Machine.execCompatRestore slot s
  | .mirrorSeed slot => Sys2Proof.Machine.execMirrorSeed slot s
  | .mirrorTask slot => Sys2Proof.Machine.execMirrorTask slot s
  | .twinBridgeLost => Sys2Proof.Machine.execTwinBridgeLost s
  | .queueFetch reply => Sys2Proof.Machine.execQueueFetch reply s
  | .operatorStart op => Sys2Proof.Machine.execOperatorStart op s
  | .operatorComplete op => Sys2Proof.Machine.execOperatorComplete op s
  | .schedReserve op => Sys2Proof.Machine.execSchedReserve op s
  | .gatherPassClose gq idle => Sys2Proof.Machine.execGatherPassClose gq idle s
  | .gatherDeadline gq => Sys2Proof.Machine.execGatherDeadline gq s
  | .gathererOverflowDrain op => Sys2Proof.Machine.execGathererOverflowDrain op s
  | .stackSpillAck ctx page => Sys2Proof.Machine.execStackSpillAck ctx page s
  | .stackFetchDone ctx page reply => Sys2Proof.Machine.execStackFetchDone ctx page reply s
  | .checkTask task result => Sys2Proof.Machine.execCheckTask task result s
  | .captureAttribution slot ownFails otherFails => Sys2Proof.Machine.execCaptureAttribution slot ownFails otherFails s
  | .coreRetire core badPages => Sys2Proof.Machine.execCoreRetire core badPages s
  | .retireReloadDone core => Sys2Proof.Machine.execRetireReloadDone core s
  | .watchdogFire op hung => Sys2Proof.Machine.execWatchdogFire op hung s
  | .hungCoreCheck stillBusy => Sys2Proof.Machine.execHungCoreCheck stillBusy s
  | .suspectIdleExpire ctx => Sys2Proof.Machine.execSuspectIdleExpire ctx s
  | .waitExclusionExpire op => Sys2Proof.Machine.execWaitExclusionExpire op s
  | .stagingTimeout op => Sys2Proof.Machine.execStagingTimeout op s
  | .doorbellQueueTail port gen payload => Sys2Proof.Machine.execDoorbellQueueTail port gen payload s
  | .doorbellRingTail port gen payload => Sys2Proof.Machine.execDoorbellRingTail port gen payload s
  | .doorbellResumeStream port gen payload => Sys2Proof.Machine.execDoorbellResumeStream port gen payload s
  | .contextLoad ctx reply => Sys2Proof.Machine.execContextLoad ctx reply s
  | .contextOpen q v => Sys2Proof.Machine.execContextOpen q v s
  | .contextReset src => Sys2Proof.Machine.execContextReset src s
  | .contextRelease q v => Sys2Proof.Machine.execContextRelease q v s
  | .contextResetDone ctx => Sys2Proof.Machine.execContextResetDone ctx s
  | .contextReleaseDone ctx => Sys2Proof.Machine.execContextReleaseDone ctx s
  | .contextTableWrite q sha => Sys2Proof.Machine.execContextTableWrite q sha s
  | .regionSeal q v => Sys2Proof.Machine.execRegionSeal q v s
  | .yalvoLink port p => Sys2Proof.Machine.execYalvoLink port p s
  | .yalvoLinkSend port => Sys2Proof.Machine.execYalvoLinkSend port s
  | .completion port p => Sys2Proof.Machine.execCompletion port p s
  | .hostReadTimeout port tag => Sys2Proof.Machine.execHostReadTimeout port tag s
  | .requestExpire port tag => Sys2Proof.Machine.execRequestExpire port tag s
  | .hostPortGuarded n => Sys2Proof.Machine.execHostPortGuarded n s
  | .fieldDatagram r bytes => Sys2Proof.Machine.execFieldDatagram r bytes s
  | .fieldGuarded => Sys2Proof.Machine.execFieldGuarded s
  | .fieldGuardExpire => Sys2Proof.Machine.execFieldGuardExpire s
  | .neighbourDiscovery m => Sys2Proof.Machine.execNeighbourDiscovery m s
  | .duplicateAddressDetection conflict => Sys2Proof.Machine.execDuplicateAddressDetection conflict s
  | .requesterEvict r => Sys2Proof.Machine.execRequesterEvict r s
  | .domainBegin q index sub offset total => Sys2Proof.Machine.execDomainBegin q index sub offset total s
  | .domainSeg q index sub offset bytes => Sys2Proof.Machine.execDomainSeg q index sub offset bytes s
  | .domainCancel q index sub => Sys2Proof.Machine.execDomainCancel q index sub s
  | .domainTimeout r => Sys2Proof.Machine.execDomainTimeout r s
  | .auth q token => Sys2Proof.Machine.execAuth q token s
  | .elevationLapse r => Sys2Proof.Machine.execElevationLapse r s
  | .nonceRead q => Sys2Proof.Machine.execNonceRead q s
  | .objectWrite q index sub w => Sys2Proof.Machine.execObjectWrite q index sub w s
  | .lcToProvisioned q => Sys2Proof.Machine.execLcToProvisioned q s
  | .lcToFleet q => Sys2Proof.Machine.execLcToFleet q s
  | .lcToService q => Sys2Proof.Machine.execLcToService q s
  | .lcToRetired q => Sys2Proof.Machine.execLcToRetired q s
  | .fleetKey q sha => Sys2Proof.Machine.execFleetKey q sha s
  | .keySlotWrite q sha => Sys2Proof.Machine.execKeySlotWrite q sha s
  | .keySlotClear q v => Sys2Proof.Machine.execKeySlotClear q v s
  | .attestNonce q sha => Sys2Proof.Machine.execAttestNonce q sha s
  | .fwImage q sha programOk => Sys2Proof.Machine.execFwImage q sha programOk s
  | .configImage q sha programOk => Sys2Proof.Machine.execConfigImage q sha programOk s
  | .fieldStateClear q v => Sys2Proof.Machine.execFieldStateClear q v s
  | .coreDrainStop q core => Sys2Proof.Machine.execCoreDrainStop q core s
  | .coreDrainStart q core => Sys2Proof.Machine.execCoreDrainStart q core s
  | .fabricPortRetrain q n => Sys2Proof.Machine.execFabricPortRetrain q n s
  | .fabricPortDisable q n => Sys2Proof.Machine.execFabricPortDisable q n s
  | .hostPortRetrain q n => Sys2Proof.Machine.execHostPortRetrain q n s
  | .hostPortDisable q n => Sys2Proof.Machine.execHostPortDisable q n s
  | .bridgeRetrain q => Sys2Proof.Machine.execBridgeRetrain q s
  | .bridgeDisable q => Sys2Proof.Machine.execBridgeDisable q s
  | .mirrorStart q => Sys2Proof.Machine.execMirrorStart q s
  | .mirrorStop q => Sys2Proof.Machine.execMirrorStop q s
  | .groupTableWrite q sha => Sys2Proof.Machine.execGroupTableWrite q sha s
  | .replicaTableWrite q sha => Sys2Proof.Machine.execReplicaTableWrite q sha s
  | .bankPairsWrite q sha => Sys2Proof.Machine.execBankPairsWrite q sha s
  | .stateTensorsWrite q sha => Sys2Proof.Machine.execStateTensorsWrite q sha s
  | .hostWindowsWrite q sha => Sys2Proof.Machine.execHostWindowsWrite q sha s
  | .recordRingsWrite q sha => Sys2Proof.Machine.execRecordRingsWrite q sha s
  | .runOpen q sha => Sys2Proof.Machine.execRunOpen q sha s
  | .runClose q v => Sys2Proof.Machine.execRunClose q v s
  | .refAlmanac q sha => Sys2Proof.Machine.execRefAlmanac q sha s
  | .almanacAppend q sha => Sys2Proof.Machine.execAlmanacAppend q sha s
  | .rankReady q v => Sys2Proof.Machine.execRankReady q v s
  | .lineageRequest q v => Sys2Proof.Machine.execLineageRequest q v s
  | .rankMove q v => Sys2Proof.Machine.execRankMove q v s
  | .spareRole q v => Sys2Proof.Machine.execSpareRole q v s
  | .matmul op env => Sys2Proof.Machine.execMatmul op env s
  | .matmulDx op env => Sys2Proof.Machine.execMatmulDx op env s
  | .matmulDw op env => Sys2Proof.Machine.execMatmulDw op env s
  | .batchedMatmul op env => Sys2Proof.Machine.execBatchedMatmul op env s
  | .convFwd op env => Sys2Proof.Machine.execConvFwd op env s
  | .convDx op env => Sys2Proof.Machine.execConvDx op env s
  | .convDw op env => Sys2Proof.Machine.execConvDw op env s
  | .attnFwd op env => Sys2Proof.Machine.execAttnFwd op env s
  | .attnBwd op env => Sys2Proof.Machine.execAttnBwd op env s
  | .customKernel op env => Sys2Proof.Machine.execCustomKernel op env s
  | .addTensors op env => Sys2Proof.Machine.execAddTensors op env s
  | .mulTensors op env => Sys2Proof.Machine.execMulTensors op env s
  | .axpby op env => Sys2Proof.Machine.execAxpby op env s
  | .act op env => Sys2Proof.Machine.execAct op env s
  | .actBwd op env => Sys2Proof.Machine.execActBwd op env s
  | .rmsnorm op env => Sys2Proof.Machine.execRmsnorm op env s
  | .rmsnormBwd op env => Sys2Proof.Machine.execRmsnormBwd op env s
  | .layernorm op env => Sys2Proof.Machine.execLayernorm op env s
  | .layernormBwd op env => Sys2Proof.Machine.execLayernormBwd op env s
  | .softmax op env => Sys2Proof.Machine.execSoftmax op env s
  | .softmaxBwd op env => Sys2Proof.Machine.execSoftmaxBwd op env s
  | .reduceSum op env => Sys2Proof.Machine.execReduceSum op env s
  | .reduceMax op env => Sys2Proof.Machine.execReduceMax op env s
  | .argmax op env => Sys2Proof.Machine.execArgmax op env s
  | .topk op env => Sys2Proof.Machine.execTopk op env s
  | .scaleCalibrate op env => Sys2Proof.Machine.execScaleCalibrate op env s
  | .adamw op env => Sys2Proof.Machine.execAdamw op env s
  | .scaleUpdate op env => Sys2Proof.Machine.execScaleUpdate op env s
  | .convert op env => Sys2Proof.Machine.execConvert op env s
  | .quantXb16 op env => Sys2Proof.Machine.execQuantXb16 op env s
  | .pairToWorking op env => Sys2Proof.Machine.execPairToWorking op env s
  | .pairFrom op env => Sys2Proof.Machine.execPairFrom op env s
  | .copyTensor op env => Sys2Proof.Machine.execCopyTensor op env s
  | .gatherRows op env => Sys2Proof.Machine.execGatherRows op env s
  | .scatterRows op env => Sys2Proof.Machine.execScatterRows op env s
  | .scatterAddRows op env => Sys2Proof.Machine.execScatterAddRows op env s
  | .permute op env => Sys2Proof.Machine.execPermute op env s
  | .transpose op env => Sys2Proof.Machine.execTranspose op env s
  | .pushFrame op env => Sys2Proof.Machine.execPushFrame op env s
  | .popFrame op env => Sys2Proof.Machine.execPopFrame op env s
  | .peekFrame op env => Sys2Proof.Machine.execPeekFrame op env s
  | .markFrame op env => Sys2Proof.Machine.execMarkFrame op env s
  | .allreduceXb op env => Sys2Proof.Machine.execAllreduceXb op env s
  | .reduceScatterXb op env => Sys2Proof.Machine.execReduceScatterXb op env s
  | .allgather op env => Sys2Proof.Machine.execAllgather op env s
  | .dispatch op env => Sys2Proof.Machine.execDispatch op env s
  | .combine op env => Sys2Proof.Machine.execCombine op env s
  | .rankOrderReduce op env => Sys2Proof.Machine.execRankOrderReduce op env s
  | .sendTensor op env => Sys2Proof.Machine.execSendTensor op env s
  | .recvTensor op env => Sys2Proof.Machine.execRecvTensor op env s
  | .g128Exchange op env => Sys2Proof.Machine.execG128Exchange op env s
  | .stepBegin op => Sys2Proof.Machine.execStepBegin op s
  | .stepCheck op => Sys2Proof.Machine.execStepCheck op s
  | .stepCommit op => Sys2Proof.Machine.execStepCommit op s
  | .stepVoid op => Sys2Proof.Machine.execStepVoid op s
  | .snapshot op => Sys2Proof.Machine.execSnapshot op s
  | .checkpoint op => Sys2Proof.Machine.execCheckpoint op s
  | .checkpointVerify op => Sys2Proof.Machine.execCheckpointVerify op s
  | .knownAnswer op runs => Sys2Proof.Machine.execKnownAnswer op runs s
  | .setvl core d a => Sys2Proof.Machine.execSetvl core d a s
  | .sli core d imm => Sys2Proof.Machine.execSli core d imm s
  | .sadd core d a b => Sys2Proof.Machine.execSadd core d a b s
  | .ssub core d a b => Sys2Proof.Machine.execSsub core d a b s
  | .sminu core d a b => Sys2Proof.Machine.execSminu core d a b s
  | .vld core d port mk => Sys2Proof.Machine.execVld core d port mk s
  | .vldx core d a port mk => Sys2Proof.Machine.execVldx core d a port mk s
  | .vst core a port p mk => Sys2Proof.Machine.execVst core a port p mk s
  | .vbcast core d a mk => Sys2Proof.Machine.execVbcast core d a mk s
  | .vbcasti core d imm mk => Sys2Proof.Machine.execVbcasti core d imm mk s
  | .viota core d mk => Sys2Proof.Machine.execViota core d mk s
  | .vadd core d a b mk => Sys2Proof.Machine.execVadd core d a b mk s
  | .vsub core d a b mk => Sys2Proof.Machine.execVsub core d a b mk s
  | .vmul core d a b mk => Sys2Proof.Machine.execVmul core d a b mk s
  | .vfma core d a b c mk => Sys2Proof.Machine.execVfma core d a b c mk s
  | .vfms core d a b c mk => Sys2Proof.Machine.execVfms core d a b c mk s
  | .vfnma core d a b c mk => Sys2Proof.Machine.execVfnma core d a b c mk s
  | .vdiv core d a b mk => Sys2Proof.Machine.execVdiv core d a b mk s
  | .vsqrt core d a mk => Sys2Proof.Machine.execVsqrt core d a mk s
  | .vmin core d a b mk => Sys2Proof.Machine.execVmin core d a b mk s
  | .vmax core d a b mk => Sys2Proof.Machine.execVmax core d a b mk s
  | .vabs core d a mk => Sys2Proof.Machine.execVabs core d a mk s
  | .vneg core d a mk => Sys2Proof.Machine.execVneg core d a mk s
  | .vcpysgn core d a b mk => Sys2Proof.Machine.execVcpysgn core d a b mk s
  | .vexp core d a mk => Sys2Proof.Machine.execVexp core d a mk s
  | .vlog core d a mk => Sys2Proof.Machine.execVlog core d a mk s
  | .vrsqrt core d a mk => Sys2Proof.Machine.execVrsqrt core d a mk s
  | .vtanh core d a mk => Sys2Proof.Machine.execVtanh core d a mk s
  | .verf core d a mk => Sys2Proof.Machine.execVerf core d a mk s
  | .vsigm core d a mk => Sys2Proof.Machine.execVsigm core d a mk s
  | .viadd core d a b mk => Sys2Proof.Machine.execViadd core d a b mk s
  | .visub core d a b mk => Sys2Proof.Machine.execVisub core d a b mk s
  | .vimul core d a b mk => Sys2Proof.Machine.execVimul core d a b mk s
  | .vand core d a b mk => Sys2Proof.Machine.execVand core d a b mk s
  | .vor core d a b mk => Sys2Proof.Machine.execVor core d a b mk s
  | .vxor core d a b mk => Sys2Proof.Machine.execVxor core d a b mk s
  | .vshl core d a sh mk => Sys2Proof.Machine.execVshl core d a sh mk s
  | .vshrl core d a sh mk => Sys2Proof.Machine.execVshrl core d a sh mk s
  | .vshra core d a sh mk => Sys2Proof.Machine.execVshra core d a sh mk s
  | .vimin core d a b mk => Sys2Proof.Machine.execVimin core d a b mk s
  | .vimax core d a b mk => Sys2Proof.Machine.execVimax core d a b mk s
  | .vcvtfi core d a tz mk => Sys2Proof.Machine.execVcvtfi core d a tz mk s
  | .vcvtif core d a mk => Sys2Proof.Machine.execVcvtif core d a mk s
  | .vcvtuf core d a mk => Sys2Proof.Machine.execVcvtuf core d a mk s
  | .vcmp core d a b pred mk => Sys2Proof.Machine.execVcmp core d a b pred mk s
  | .vsel core d a b mk => Sys2Proof.Machine.execVsel core d a b mk s
  | .mand core d a b => Sys2Proof.Machine.execMand core d a b s
  | .mor core d a b => Sys2Proof.Machine.execMor core d a b s
  | .mxor core d a b => Sys2Proof.Machine.execMxor core d a b s
  | .mnot core d a => Sys2Proof.Machine.execMnot core d a s
  | .vperm core d a b mk => Sys2Proof.Machine.execVperm core d a b mk s
  | .rsum core a acc mk => Sys2Proof.Machine.execRsum core a acc mk s
  | .rsump core a b acc mk => Sys2Proof.Machine.execRsump core a b acc mk s
  | .rmax core a acc mk => Sys2Proof.Machine.execRmax core a acc mk s
  | .rmin core a acc mk => Sys2Proof.Machine.execRmin core a acc mk s
  | .rargmax core a acc mk => Sys2Proof.Machine.execRargmax core a acc mk s
  | .rstore core acc part port p elem => Sys2Proof.Machine.execRstore core acc part port p elem s
  | .attemptReuseWait slot => Sys2Proof.Machine.execAttemptReuseWait slot s
  | .hostPortDisableTimeout n => Sys2Proof.Machine.execHostPortDisableTimeout n s
  | .stopCompletes u => Sys2Proof.Machine.execStopCompletes u s
  | .resetReturnToService scope => Sys2Proof.Machine.execResetReturnToService scope s
  | .pwrEnLowTimeExpire => Sys2Proof.Machine.execPwrEnLowTimeExpire s
  | .refclkRestored => Sys2Proof.Machine.execRefclkRestored s
  | .inputPowerReturn => Sys2Proof.Machine.execInputPowerReturn s

end Sys2Proof.Machine
end

