-- ==== Sys2Proof/Machine/Tick.lean ====
section
/-! DEFINITION. What happens while no command waits (log entry 14): one alignment frame of 4 cycles passes, every link that can send puts a block on
the wire (R256, R257, R263, R264, R446, R448, R454), and the work that waits goes on. -/

namespace Sys2Proof.Machine

/-! ### What a transmitter sends next -/

/-- Units of an item: its header and its payload. -/
def LinkItem.units (i : LinkItem) : Nat := 1 + cdiv i.data.length 32

/-- The item as it is sent. -/
def LinkItem.bytes (i : LinkItem) : List Byte := leBytes 32 i.hdr.toNat ++ padTo 32 i.data

/-- Is the item a LINK_CTRL cell or a LINK packet, which takes no credit? -/
def LinkItem.isLink (host : Bool) (i : LinkItem) : Bool := if host then i.lane == 0 else (⟨i.hdr, i.data⟩ : Cell).kind == 1

/-- Send an item: it leaves the queue and takes its units of credit. -/
def Link.sendItem (k : Link) (host : Bool) (i : LinkItem) : Link :=
  { k with txq := k.txq.erase i
           sentUnits := if i.isLink host then k.sentUnits else updAt k.sentUnits i.lane (· + i.units) }

/-- The quanta of lanes 1 to 3 in bytes (R264). -/
def quantum (t : Nat) : Nat := nth [4096, 4096, 1024] t 0

/-- The turn passes to the next lane. -/
def Link.passTurn (k : Link) (left : Nat) : Link :=
  let t := (k.turn + 1) % 3
  { k with turn := t, deficit := updAt (updAt k.deficit k.turn (fun _ => left)) t (· + quantum t) }

/-- Deficit round robin over lanes 1 to 3; a lane without credit is skipped (R264). -/
def Link.robin : Nat → Link → Option (LinkItem × Link)
  | 0, _ => none
  | f + 1, k => match k.txq.find? (fun i => i.lane == k.turn + 1) with
    | none => robin f (k.passTurn 0)
    | some i =>
      if k.laneCredit i.lane < i.units then robin f (k.passTurn 0)
      else if nth k.deficit k.turn 0 < 32 * i.units then robin f (k.passTurn (nth k.deficit k.turn 0))
      else some (i, { k with deficit := updAt k.deficit k.turn (· - 32 * i.units) })

/-- The next cell of a fabric port or the bridge: LINK_CTRL, the control lane, then lanes 1 to 3. A GUARDED port sends LINK_CTRL only (R296). -/
def Link.nextCell (k : Link) : Option (LinkItem × Link) :=
  match k.txq.find? (fun i => i.isLink false) with
  | some i => some (i, k)
  | none =>
    if k.state != .up then none
    else match k.txq.find? (fun i => i.lane == 0) with
      | some i => if i.units ≤ k.laneCredit 0 then some (i, k) else k.robin 4
      | none => k.robin 4

/-- The next packet of a host port: the first whose class has credit, with none of its class before it; READ, NOTICE and ATTN pass no WRITE (R448). A
GUARDED port sends LINK and DICT only (R454). -/
def Link.nextPacket (k : Link) : List Nat → List LinkItem → Option LinkItem
  | _, [] => none
  | before, i :: l =>
    let waits := before.contains i.lane || ((i.lane == 2 || i.lane == 5 || i.lane == 7) && before.contains 1)
    let may := k.state == .up || i.lane == 0 || i.lane == 6
    if !waits && may && (i.lane == 0 || decide (i.units ≤ k.hostCredit i.lane)) then some i else nextPacket k (i.lane :: before) l

/-- The next item of a link. -/
def Link.nextItem (k : Link) (host : Bool) : Option (LinkItem × Link) :=
  if host then (k.nextPacket [] k.txq).map (fun i => (i, k)) else k.nextCell

/-! ### Blocks -/

/-- Collect the stream of a block: items are begun until 1,280 bytes are there or none can go; `n` counts the cells, or host WRITEs, begun. -/
def Link.gather (host : Bool) : Nat → Link → List Byte → Nat → Link × List Byte × Nat
  | 0, k, bs, n => (k, bs, n)
  | f + 1, k, bs, n =>
    if 1280 ≤ bs.length then (k, bs, n)
    else match k.nextItem host with
      | none => (k, bs, n)
      | some p => gather host f (p.2.sendItem host p.1) (bs ++ p.1.bytes) (if !host || p.1.lane == 1 then n + 1 else n)

/-- Blocks the retry buffer holds (R257, R443). -/
def retryRoom (host : Bool) : Nat := if host then 102 else 204

/-- A null block goes out (R257): it repeats the number of the last numbered block and holds fill. -/
def Link.sendNull (k : Link) : Link := { k with wire := [⟨true, k.blockHdr (k.txSeq + 2 ^ 16 - 1) 40 true, []⟩] }

/-- Send one numbered block if any unit is ready and the retry buffer has room; otherwise a null block (R257). -/
def Link.transmit (k : Link) (host : Bool) : Link :=
  if !k.live then k
  else if retryRoom host ≤ k.retry.length then k.sendNull
  else
    let g := Link.gather host 41 k k.txPart 0
    if g.2.1.isEmpty then k.sendNull
    else
      let first := if g.1.txq.length < k.txq.length then k.txPart.length / 32 else 40
      let bs := fitBytes 1280 g.2.1
      let k := g.1
      { k with
        txPart := g.2.1.drop 1280, txSeq := (k.txSeq + 1) % 2 ^ 16, wire := [⟨true, k.blockHdr k.txSeq first false, bs⟩]
        retry := k.retry ++ [⟨k.txSeq, bs, 1, g.2.2, first⟩] }

/-- Every link sends. -/
def State.transmitAll (s : State) : State :=
  { s with links := { s.links with
      fabric := s.links.fabric.map (fun e => (e.1, e.2.transmit false))
      host := s.links.host.map (fun e => (e.1, e.2.transmit true))
      bridge := s.links.bridge.transmit false } }

/-! ### Time spent waiting -/

/-- Cycles of a frame (R384). -/
def frame : Nat := 4

/-- Is the first item of a lane or class held back for credit? -/
def Link.starved (k : Link) (host : Bool) (lane : Nat) : Bool :=
  k.state == .up && (match k.txq.find? (fun i => i.lane == lane) with
    | some i => decide ((if host then k.hostCredit lane else k.laneCredit lane) < i.units)
    | none => false)

/-- Do a port's queued exchange and dispatch cells belong to more than one group, or to a transit flow beside a group of this module (R273)? -/
def State.contends (s : State) (k : Link) : Bool :=
  let cs := (k.txq.filter (fun i => i.lane == 1 || i.lane == 2)).map (fun i => ((⟨i.hdr, i.data⟩ : Cell).group, s.isOwnRank (⟨i.hdr, i.data⟩ : Cell).src))
  cs.any (fun c => c.2 && cs.any (fun d => d.1 != c.1 || !d.2))

/-- Add a frame to a counter. -/
def tickIf (b : Bool) (n : Nat) : Nat := if b then sat64 (n + frame) else n

/-- Is a started operator in a wait that its watchdog does not count: an exchange whose port lacks credit or contends, or one of a host window's data (R352)? -/
def State.inExcludedWait (s : State) (e : OpEntry) : Bool :=
  let host := (s.writeSegs e ++ s.readSegs e).any (fun p => isHost p.1)
  e.phase == .started &&
  ((e.d.cls == 9 && s.links.fabric.any (fun k => k.2.starved false 1 || s.contends k.2)) ||
   (host && s.links.host.any (fun k => k.2.starved true 1 || k.2.starved true 2)))

/-- Waits begin and end for every operator. -/
def State.markWaits (s : State) : State :=
  { s with sched := { s.sched with ops := s.sched.ops.map (fun p =>
      (p.1, if s.inExcludedWait p.2 then { p.2 with waitSince := some (p.2.waitSince.getD s.now) }
        else if p.2.waitSince.isSome then p.2.endWait s.now else p.2)) } }

/-- Count the waits of Table 7.8 and Table 13.1 (R234, R242, R264, R273, R340) for one frame. -/
def State.countStalls (s : State) : State :=
  let group := s.sched.ops.any (fun e => e.2.d.cls == 9 && e.2.phase == .started)
  let exch := group && s.links.fabric.any (fun e => e.2.starved false 1)
  let full := s.ctxs.tab.any (fun e => e.2.state == .open_ && decide (64 ≤ e.2.crBuffer.length))
  let load := s.cacheFull && s.cacheRoom.isNone && s.ctxs.tab.any (fun e => e.2.state == .open_ && e.2.loading)
  let held := (s.sched.ops.filter (fun e => e.2.phase == .checked)).flatMap (fun e => (s.tasksBefore e.2).map (fun k => checkerOf k.core))
  let c := s.ctxs.ctr
  let s := { s with
    ctxs := { s.ctxs with ctr := { c with
      exchangeCreditStall := tickIf exch c.exchangeCreditStall, ringFullStall := tickIf full c.ringFullStall
      contextCacheStall := tickIf load c.contextCacheStall } }
    links := { s.links with
      fabric := s.links.fabric.map (fun e => (e.1, e.2.count (fun t => { t with planContention := tickIf (group && s.contends e.2) t.planContention })))
      host := s.links.host.map (fun e => (e.1, e.2.count (fun t =>
        { t with hostCreditStall := tickIf (e.2.starved true 1 || e.2.starved true 2) t.hostCreditStall }))) } }
  (dedup held).foldl (fun s i => s.updCore i (fun k => { k with ctr := { k.ctr with dupCheckStall := sat64 (k.ctr.dupCheckStall + frame) } })) s

/-- One frame. -/
def State.tick (s : State) : State := ((s.markWaits.countStalls.transmitAll.advance frame).settle).boundaryStop.boundaryRetrain

end Sys2Proof.Machine
end

