-- ==== Sys2Proof/Safety.lean ====
section
/-! DEFINITION. The words in which statements about the module speak: what a command gives, which dictionary requests are executed, which operators
are due, and the invariants of a state. -/

namespace Sys2Proof.Machine

/-- Command `i` answers a next state from `s`, and that state has `P`. -/
def Gives (i : Instr) (s : State) (P : State → Prop) : Prop := ∃ t, exec i s = .next t ∧ P t

/-! ### Dictionary requests (R426 to R433) -/

/-- The state on which a request's action runs: its packet is taken out of the buffer and its requester is noted. -/
def State.opened (s : State) (q : Req) : State := (s.takeDict q.who).touch q.who

/-- A request that is executed: its requester is answered, it repeats no kept or waiting `sequence`, fewer than 8 wait, and its object is in reach. -/
def Fresh (s : State) (q : Req) (op i sub : Nat) : Prop :=
  let x := (s.opened q).reqOf q.who
  s.answers q.who = true ∧ (∀ r ∈ x.kept, r.seq ≠ q.seq) ∧ q.seq ∉ x.deferred ∧ x.deferred.length < 8 ∧ (s.opened q).inReach op i sub = true

/-- A WRITE of `n` bytes to an object that exists, may be written, is no DOMAIN, lies within the requester's privilege and has that length. -/
def Writes (s : State) (q : Req) (i sub n : Nat) : Prop :=
  Fresh s q 2 i sub ∧ ∃ o, objInfo i sub = some o ∧ o.wr = true ∧ o.domain = false ∧ (s.opened q).mayWrite q.who i sub o.level = true ∧
    (if o.str then n ≤ 64 else n = o.size)

/-- The state on which the object's own action of a WRITE runs: the elevation has ended. -/
def State.forWrite (s : State) (q : Req) : State := (s.opened q).endElevation q.who

/-- A DOMAIN_END whose transfer `t` is of the object, complete, and has the digest named. -/
def Ends (s : State) (q : Req) (i sub : Nat) (sha : Digest) (t : Transfer) : Prop :=
  Fresh s q 6 i sub ∧ ((s.opened q).reqOf q.who).transfer = some t ∧ t.index.toNat = i ∧ t.sub.toNat = sub ∧
    (s.opened q).mayWrite q.who i sub ((objInfo i sub).getD { size := 0 }).level = true ∧ t.got.length = t.total ∧ sha512 t.got = sha

/-- The state on which the object's own action of a DOMAIN_END runs: the transfer is over. -/
def State.forEnd (s : State) (q : Req) : State := (s.opened q).updReq q.who (fun x => { x with transfer := none, elevation := none })

/-- The response to a request. -/
def answerOf (q : Req) (op i sub : Nat) (c : Code) (pl : List Byte) : Response :=
  ⟨BitVec.ofNat 8 (op + 128), q.seq, BitVec.ofNat 16 i, BitVec.ofNat 8 sub, c, if c = cOk then pl else []⟩

/-- A request has been answered with OK: what `respond` does after its effect. -/
def State.answered (s : State) (q : Req) (op i sub : Nat) : State := s.respond q.who (answerOf q op i sub cOk [])

/-! ### Operators' bodies (R68, R196) -/

/-- Nothing faults while operator `e` runs with result `b`: no access fails, no line or tile it reads, and no line it writes in part, is uncorrectable or
loses its contents, no array of its cores disagrees. -/
def Clean (s : State) (e : OpEntry) (env : OpEnv) (b : Body) : Prop :=
  env.accessFault = none ∧ (env.lineErrors.filter (fun x => lineLost x.line x.symbols)).isEmpty = true ∧ s.badLinesOf e env = [] ∧ e.ownTiles env = [] ∧ e.ownFaults env = [] ∧ s.badWrites e.ctx b.writes env.lineFaults = []

/-- Operator `id` has ended its body with result `b`: its writes are in memory, its entry holds the values of its completion record, and the other operators,
the contexts and what lies outside an operator's reach are as before. -/
def Stored (s : State) (id : Nat) (e : OpEntry) (env : OpEnv) (b : Body) (t : State) : Prop :=
  (∃ u, s.planeWrites e.ctx b.writes = .ok u ∧ (b.undef = [] → b.undefinedOut = false → t.memsys.mem = u.memsys.mem)) ∧
  (∃ f, NMap.get? t.sched.ops id = some f ∧ f.phase = .finished ∧ f.code = b.code ∧ f.stat = e.stat.or b.stat ∧ f.flushed = b.flushed ∧
    f.clamped = b.clamped ∧ f.desc = e.desc ∧ f.ctx = e.ctx ∧ f.startedAt = e.startedAt ∧ (e.gathers = false → f.cycles = 80 + b.tBody + env.stall)) ∧
  (∀ j, j ≠ id → NMap.get? t.sched.ops j = NMap.get? s.sched.ops j) ∧ t.ctxs = s.ctxs ∧ t.now = s.now ∧ t.boot = s.boot ∧ t.fuses = s.fuses ∧
  t.flash = s.flash ∧ t.memsys.keys = s.memsys.keys ∧ t.memsys.grants = s.memsys.grants

/-! ### Vector engines (R127, R130, R131) -/

/-- A vector instruction may act on the core, whose engine has its 32 vector, 8 mask and 16 scalar registers and 4 accumulators. -/
def Engine (s : State) (core : Nat) : Prop :=
  s.vecOk core = true ∧ (s.vcore core).v.length = 32 ∧ (s.vcore core).m.length = 8 ∧ (s.vcore core).s.length = 16 ∧ (s.vcore core).acc.length = 4

/-- Only the vector engine of the core has changed. -/
def OnlyEngine (s : State) (core : Nat) (t : State) : Prop := t = { s with vec := t.vec } ∧ ∀ k, k ≠ core → t.vcore k = s.vcore k

/-- Vector register `d` holds `f i` in its active lanes, and in the others what it held; nothing else changes but the status bits. -/
def LaneWrite (s : State) (core d mk : Nat) (f : Nat → Word) (t : State) : Prop :=
  let c := s.vcore core
  let e := t.vcore core
  OnlyEngine s core t ∧ (∀ i, e.lane d i = if c.active mk i then f i else c.lane d i) ∧ (∀ r, r ≠ d → e.vreg r = c.vreg r) ∧
  e.m = c.m ∧ e.s = c.s ∧ e.vl = c.vl ∧ e.acc = c.acc ∧ e.op = c.op ∧ e.flushed = c.flushed ∧ e.clamped = c.clamped

/-- The same, with the IEEE events of the active lanes added to the status. -/
def FloatWrite (s : State) (core d mk : Nat) (f : Nat → Word × Fl) (t : State) : Prop :=
  let c := s.vcore core
  LaneWrite s core d mk (fun i => (f i).1) t ∧ (t.vcore core).faultIndex = none ∧
  (t.vcore core).stat = c.stat.addFl ((c.activeLanes mk).foldl (fun a i => Fl.or a (f i).2) {})

/-! ### The invariant -/

/-- The engine has its 32 vector, 8 mask and 16 scalar registers and 4 accumulators, and `vl` is at most 2,048 (Table 6.1). -/
def VCore.shaped (c : VCore) : Prop := c.v.length = 32 ∧ c.m.length = 8 ∧ c.s.length = 16 ∧ c.acc.length = 4 ∧ c.vl ≤ 2048

/-- Memory is in its canonical form, and every vector engine has the registers of Table 6.1. -/
def Inv (s : State) : Prop := s.memsys.mem.wf = true ∧ ∀ e ∈ s.vec, e.2.shaped

end Sys2Proof.Machine
end

