-- ==== Sys2Proof/Certificates/Slice0/Obligations.lean ====
section
/-! DEFINITION. Statements about the module for the provers. -/

open Sys2Proof Sys2Proof.Machine


/-! ### The queue and the clock -/

/-- The block's step: with command `c` at the front of its queue, a step is `exec c` on the state with the queue's rest. Where the spec leaves room,
it says what the model chose (log entry 1). -/
def Obligations.StepRunsFrontCommand : Prop :=
  ∀ (s : State) (c : Instr) (rest : List Instr), s.pending = c :: rest → step s = exec c { s with pending := rest }

/-- With an empty queue and no work waiting, a step lets one frame of 4 cycles pass (the model's choice, log entry 14): time advances, the uptime
counter counts while the clocks are aligned, and memory, runs and contexts' tables stay. -/
def Obligations.IdleStepPassesOneFrame : Prop :=
  ∀ s : State, s.pending = [] → s.sched.ops = [] → s.vigil.stopPending = false → s.twin.heldRetrain = false →
    ∃ t, step s = .next t ∧ t.now = s.now + 4 ∧ t.clk.uptime = s.clk.uptime + (if s.clk.aligned then 4 else 0) ∧
      t.memsys = s.memsys ∧ t.runs = s.runs ∧ t.ctxs.tab = s.ctxs.tab ∧ t.pending = []

/-- Right after reset, the invariant holds: 48 V present, PWR_EN low, nothing powered, no command waiting, no register changed, memory with nothing
listed. Where the spec leaves room, it says what the model chose (log entries 3, 4, 5). -/
def Obligations.ResetStateIsUnpowered : Prop :=
  State.reset.pending = [] ∧ State.reset.boot.powered = false ∧ State.reset.pins.pwrEn = false ∧ State.reset.pins.inputOk = true ∧
  State.reset.pins.pgood = false ∧ State.reset.clk.aligned = false ∧ State.reset.clk.uptime = 0 ∧
  State.reset.memsys.mem.cells = [] ∧ State.reset.memsys.mem.tags = [] ∧ State.reset.memsys.mem.bad = [] ∧
  State.reset.runs = [] ∧ State.reset.ctxs.tab = [] ∧ State.reset.sched.ops = [] ∧ State.reset.vigil.requesters = [] ∧
  (∀ k a, State.reset.memsys.mem.read k a = 0 ∨ k ≠ .slot0) ∧ Inv State.reset

/-! ### Power, start-up, pins (files 14, 15, 19) -/

/-- Start-up takes its stages in order (Table 15.1): each row of it, where its stage passes, enters the next. Where the spec leaves room, it says
what the model chose (log entries 2, 38). -/
def Obligations.StartUpStagesFollowInOrder : Prop :=
  (∀ s : State, s.pins.pwrEn = false → s.pins.inputOk = true → s.pins.tripLatch = false →
    (∀ t, s.pins.pwrEnFellAt = some t → t + 100 * Config.msCycles ≤ s.now) →
    Gives .pwrEnRise s (fun t => t.boot.stage = .rails ∧ t.boot.powered = true ∧ t.pins.pwrEn = true ∧ t.pins.pgood = false ∧
      t.flash = s.flash ∧ t.fuses.bits = s.fuses.bits ∧ t.memsys = {} ∧ t.runs = [])) ∧
  (∀ s : State, s.boot.powered = true → s.boot.stage = .rails →
    Gives (.rails true) s (fun t => t.boot.stage = .boxwood ∧ t.pins.pgood = true ∧ t.boot.powered = true)) ∧
  (∀ s : State, s.boot.powered = true → s.boot.stage = .boxwood → s.dump.wanted = none → (thermometer s.fuses.bits 320 3).isSome = true →
    fld s.fuses.bits 323 5 = 0 → (thermometer s.fuses.bits 328 32).isSome = true → (thermometer s.fuses.bits 360 64).isSome = true →
    Gives .boxwood s (fun t => t.boot.stage = .bootImage ∧ t.fuses.shadow = setFld s.fuses.bits 0 256 0 ∧
      t.vigil.seconds = s.store.serviceSeconds)) ∧
  (∀ s : State, s.boot.powered = true → s.boot.stage = .bootImage → slotCheck s.fuses.shadow (s.flash.slot s.store.bootSlot) = cOk →
    Gives .bootImage s (fun t => t.boot.stage = .clockAlign ∧ t.boot.slotBooted = s.store.bootSlot ∧ t.boot.fellBack = false)) ∧
  (∀ (s : State) (tries : List AlignTry) (ds : List UnitDelay) (n : Nat), s.boot.powered = true → s.boot.stage = .clockAlign →
    s.pins.refclk = true → alignRun 0 tries = (n, true, true) →
    Gives (.clockAlign tries ds) s (fun t => t.boot.stage = .memTrain ∧ t.clk.aligned = true ∧ t.clk.uptime = 0 ∧ t.clk.alignTries = n)) ∧
  (∀ (s : State) (fs : List TrainFault), s.boot.powered = true → s.boot.stage = .memTrain → s.boot.heldChipReset = false →
    Gives (.memTrain fs) s (fun t => t.boot.stage = if fs.isEmpty then .wipe else .halted)) ∧
  (∀ (s : State) (bad : List Nat), s.boot.powered = true → s.boot.stage = .wipe → s.boot.heldChipReset = false →
    Gives (.wipe bad) s (fun t => (t.boot.stage = if bad.isEmpty then .selfTest else .halted) ∧ t.memsys.mem = {} ∧ t.memsys.keys = [] ∧
      t.memsys.grants = [] ∧ t.ctxs = {})) ∧
  (∀ (s : State) (fs : List KatFail), s.boot.powered = true → s.boot.stage = .selfTest →
    Gives (.selfTest fs) s (fun t => t.boot.stage = .linkUp ∧ t.cores.map.length ≤ 800)) ∧
  (∀ (s : State) (up : List LinkRef) (n : Nat), s.boot.powered = true → s.boot.stage = .linkUp → (s.link (.host 0)).state = .disabled → n < 2 →
    Gives (.linkUp up) s (fun t => (t.link (.host n)).state = if up.contains (.host n) then .up else .down)) ∧
  (∀ s : State, s.boot.powered = true → s.boot.stage = .linkUp → (s.link (.host 0)).state ≠ .disabled → s.boot.heldChipReset = false →
    Gives .enterReleased s (fun t => t.boot.stage = .released ∧ t.pins.faultN = true ∧ t.clk.uptime = 0))

/-- The events of power, pins and clocks (R393 to R395, R416, R421, R487 to R490). Where the spec leaves room, it says what the model chose (log
entries 2, 38). -/
def Obligations.PowerAndPinEvents : Prop :=
  (∀ s : State, s.pins.pwrEn = true →
    Gives .pwrEnFall s (fun t => t.boot.powered = false ∧ t.pins.pgood = false ∧ t.pins.pwrEn = false ∧ t.pins.pwrEnFellAt = some s.now ∧
      t.pins.tripLatch = false ∧ t.pins.thermtripN = true ∧ t.memsys = {} ∧ t.flash = s.flash)) ∧
  (∀ s : State, Gives .inputUndervoltage s (fun t => t.boot.powered = false ∧ t.pins.pgood = false ∧ t.pins.inputOk = false ∧ t.runs = [])) ∧
  (∀ s : State, s.pins.inputOk = false → s.pins.pwrEn = true → s.pins.tripLatch = false →
    Gives .inputPowerReturn s (fun t => t.pins.inputOk = true ∧ t.boot.powered = true ∧ t.boot.stage = .rails)) ∧
  (∀ s : State, s.pins.pgood = false → s.boot.stage ≠ .rails →
    ∀ n, Gives (.powerFailFlush n) s (fun t => t.vigil.buffer = [] ∧ t.boot.powered = false ∧ t.store.serviceSeconds = s.vigil.seconds)) ∧
  (∀ (s : State) (k : Nat), s.pins.inputOk = true →
    Gives (.thermtrip k) s (fun t => t.pins.thermtripN = false ∧ t.pins.tripLatch = true ∧ t.pins.pgood = false ∧ t.boot.powered = false)) ∧
  (∀ (s : State) (ns : Nat), 1000 ≤ ns → s.pins.pwrEn = true → s.boot.powered = true → s.boot.stage = .released → s.boot.chipResetting = false →
    s.dump.wanted = none →
    Gives (.resetNFall ns) s (fun t => t.boot.stage = .boxwood ∧ t.boot.chipResetting = true ∧ t.pins.faultN = false ∧ t.pins.pgood = true)) ∧
  (∀ s : State, s.boot.powered = true →
    Gives .refclkLost s (fun t => t.clk.refLost = true ∧ t.clk.onFallback = true ∧ t.pins.refclk = false)) ∧
  (∀ s : State, Gives .refclkRestored s (fun t => t.pins.refclk = true ∧ t.clk.onFallback = false ∧ t.clk.refLost = s.clk.refLost)) ∧
  (∀ s : State, s.clk.aligned = true → s.dump.wanted = none →
    Gives .pllLockLost s (fun t => t.clk.aligned = false ∧ t.clk.lockLost = true ∧ t.boot.stage = .boxwood ∧ t.pins.faultN = false)) ∧
  (∀ s : State, s.boot.powered = true → Gives .vigilWatchdog s (fun t => t.pins.faultN = false ∧ t.boot.stage = s.boot.stage)) ∧
  (∀ s : State, s.boot.powered = true → s.dump.wanted = none →
    Gives .vigilSramUncorrectable s (fun t => t.boot.stage = .boxwood ∧ t.boot.chipResetting = true ∧ t.vigil.buffer = [])) ∧
  (∀ (s : State) (f : Nat), s.pins.pwrEnHeld = true → s.pins.pwrEn = true → s.pins.inputOk = true → s.pins.pwrEnFellAt = some f →
    Gives .pwrEnLowTimeExpire s (fun t => t.boot.stage = .rails ∧ t.boot.powered = true ∧ f + 100 * Config.msCycles ≤ t.now))

/-! ### Resets, dumps, Vigil, memory maintenance, snapshots (files 07, 11, 12, 13, 16) -/

/-- Chip reset requested by the object (R357): the request is answered and the module re-enters start-up at BOXWOOD with FAULT_N low; before
RELEASED it is held (R416). Where the spec leaves room, it says what the model chose (log entry 38). -/
def Obligations.ChipResetReentersStartUp : Prop :=
  ∀ (s : State) (q : Req), Writes s q 0x1300 9 1 → s.boot.chipResetting = false → s.dump.wanted = none →
    (s.boot.stage = .released → s.boot.heldChipReset = false →
      Gives (.chipReset q 0x5A) s (fun t => t.boot.stage = .boxwood ∧ t.boot.chipResetting = true ∧ t.pins.faultN = false ∧ t.memsys = {} ∧ t.runs = [])) ∧
    (s.boot.stage = .linkUp → s.boot.heldChipReset = false →
      Gives (.chipReset q 0x5A) s (fun t => t.boot.heldChipReset = true ∧ t.boot.stage = .linkUp))

/-- Engine and partition resets, their escalation and return, and drains (R357, R358, R360, R361): a reset core leaves service with cleared counters
and no vector state; it returns RUNNING, or STOPPED where a stop was held. Where the spec leaves room, it says what the model chose (log entry 38). -/
def Obligations.EngineAndPartitionResets : Prop :=
  (∀ (s : State) (c p : Nat), s.released = true → s.logicalOf p = some c → (s.core c).engineResetAt = none →
    Gives (.engineReset p .vigil) s (fun t => (t.core c).resetting = true ∧ (t.core c).state = .stopping ∧ (t.core c).ctr = {} ∧
      NMap.get? t.vec c = none ∧ (t.core c).engineResetAt = some s.now)) ∧
  (∀ (s : State) (p : Nat), s.released = true → p < 16 →
    Gives (.partitionReset p .vigil) s (fun t => t.cores.partResetting.contains p = true ∧ (t.core (50 * p)).resetting = true ∧
      (t.core (50 * p + 49)).ctr = {})) ∧
  (∀ (s : State) (p c : Nat), s.logicalOf p = some c → (s.core c).resetting = true → s.cores.partResetting.contains (p / 52) = false →
    Gives (.resetReturnToService (.engine p)) s (fun t => (t.core c).resetting = false ∧
      (t.core c).state = if (s.core c).held then .stopped else .running)) ∧
  (∀ (s : State) (p : Nat), s.cores.partResetting.contains p = true → s.dump.wanted = none →
    Gives (.resetEscalate (.partition p)) s (fun t => t.boot.stage = .boxwood ∧ t.boot.chipResetting = true)) ∧
  (∀ (s : State) (c : Nat), (s.core c).state = .stopping → (s.core c).resetting = false → s.opsOn [c] = [] →
    Gives (.stopCompletes (.core c)) s (fun t => (t.core c).state = .stopped))

/-- Crash dumps and captures (R335, R377 to R381): a wanted dump goes to the next of the 47 Yew slots, a request asks for one, a capture goes to the
next of 1,024 places and its slot stays until its attribution. Where the spec leaves room, it says what the model chose (log entries 17, 38). -/
def Obligations.DumpsAndCapturesReachFlash : Prop :=
  (∀ (s : State) (silent : List (BitVec 32)) (k : Nat), s.dump.wanted = some k → s.dump.resetAfter = false →
    Gives (.crashDump silent) s (fun t => t.dump.wanted = none ∧ (NMap.get? t.flash.dumps s.flash.dumpNext).isSome = true ∧
      t.flash.dumpNext = (s.flash.dumpNext + 1) % 47 ∧ t.flash.dumpOpen = false)) ∧
  (∀ (s : State) (q : Req), Writes s q 0x2300 1 1 → s.dump.wanted = none →
    Gives (.dumpRequest q 1) s (fun t => t.dump.wanted = some 2 ∧ t.dump.staged = ((s.forWrite q)).chipEntries)) ∧
  (∀ (s : State) (i : Nat) (c : Capture), NMap.get? s.sched.captures i = some c → c.flushed = false →
    Gives (.captureFlush i) s (fun t => NMap.get? t.flash.captures s.flash.captureNext = some { c with flushed := true } ∧
      NMap.get? t.sched.captures i = some { c with flushed := true } ∧ t.flash.captureNext = (s.flash.captureNext + 1) % 1024))

/-- Vigil's log, sensors, regulators and clock of service (R346, R419, R420, R423, R424, R156). Where the spec leaves room, it says what the model
chose (log entries 16, 38). -/
def Obligations.VigilSamplesAndRecords : Prop :=
  (∀ s : State, s.boot.powered = true → s.pins.pgood = true →
    Gives .logFlush s (fun t => t.vigil.buffer = [] ∧ t.flash = s.vigil.buffer.foldl Flash.append s.flash)) ∧
  (∀ (s : State) (ts : List (BitVec 16)), s.vigilRuns = true → ts ≠ [] →
    Gives (.thermalSample ts) s (fun t => t.vigil.temps = (List.range 128).zip ts ∧ t.memsys = s.memsys ∧ t.runs = s.runs)) ∧
  (∀ (s : State) (vs : List (BitVec 16)), s.vigilRuns = true →
    exec (.voltageSample vs) s = .next { s with vigil := { s.vigil with volts := (List.range 48).zip vs } }) ∧
  (∀ (s : State) (m : Nat), s.vigilRuns = true → s.released = true →
    Gives (.railOutOfRange m) s (fun t => t.vigil.stopPending = true ∧ t.vigil.nextSeq = (s.vigil.nextSeq + 1) % 2 ^ 64)) ∧
  (∀ (s : State) (w : Nat), s.vigilRuns = true → s.released = true →
    Gives (.powerLimit w) s (fun t => t.vigil.powerW = w ∧ (2400 < w → t.vigil.stopPending = true) ∧
      (w ≤ 2400 → t.vigil.stopPending = s.vigil.stopPending))) ∧
  (∀ (s : State) (n : Nat) (a : BitVec 16), s.vigilRuns = true →
    Gives (.regulatorPoll n (.answer false a)) s (fun t => NMap.getD t.vigil.regIout n 0 = a ∧ NMap.getD t.vigil.missedPolls n 0 = 0)) ∧
  (∀ (s : State) (n : Nat), s.vigilRuns = true →
    Gives (.regulatorPoll n .missed) s (fun t => NMap.getD t.vigil.missedPolls n 0 = NMap.getD s.vigil.missedPolls n 0 + 1)) ∧
  (∀ s : State, s.released = true →
    Gives .serviceSecondTick s (fun t => t.vigil.seconds = s.vigil.seconds + 1 ∧ s.vigil.secondsFrom + Config.sCycles ≤ t.now)) ∧
  (∀ s : State, s.released = true → Gives .serviceSecondsSave s (fun t => t.store.serviceSeconds = s.vigil.seconds)) ∧
  (∀ (s : State) (c : Nat) (f : Byte), s.released = true →
    Gives (.lpddrTempLimit c f) s (fun t => NMap.getD t.vigil.mr4 c 0 = f ∧ t.vigil.stopPending = true))

/-- Maintenance of the memories (R154, R155, R157, R160, R165, R167). A refresh adds its stall to its controller's counter and does nothing else. A
patrol scrub leaves a clean line alone and only counts a line with one wrong symbol; a line with two or three, or one already uncorrectable, is
kept, marked, counted and recorded. Zeroing writes the next line of the lowest zeroing granule, and a granule with all its lines zeroed becomes
free. A tile scrub takes its finds in turn: a clean word is nothing, a corrected one is only counted, an uncorrectable one is counted and recorded;
memory stays. An address that does not exist is the model's one fault. Where the spec leaves room, it says what the model chose (log entries 9, 38). -/
def Obligations.MemoryMaintenance : Prop :=
  (∀ (s : State) (c k : Nat),
    exec (.lpddrMaintSlot (.refresh c k)) s = .next (s.updMemCtr c (fun x => { x with refreshStall := sat64 (x.refreshStall + k) }))) ∧
  (∀ (s : State) (line : Nat), 256 * line < lpddrEnd → line ∉ s.memsys.mem.bad → exec (.lpddrMaintSlot (.scrub line [])) s = .next s) ∧
  (∀ (s : State) (line x : Nat), 256 * line < lpddrEnd → line ∉ s.memsys.mem.bad →
    exec (.lpddrMaintSlot (.scrub line [x])) s =
      .next (s.updMemCtr (ctrlOf (256 * line)) (fun k => { k with corrected := sat32 (k.corrected + 1) }))) ∧
  (∀ (s : State) (line : Nat) (xs : List Nat), 256 * line < lpddrEnd →
    (line ∈ s.memsys.mem.bad ∨ (xs.Nodup ∧ (xs.length = 2 ∨ xs.length = 3))) →
    Gives (.lpddrMaintSlot (.scrub line xs)) s (fun t =>
      (t.memsys.mem = if line ∈ s.memsys.mem.bad then s.memsys.mem else s.memsys.mem.markBad line) ∧
      t.memsys.ctr = (s.updMemCtr (ctrlOf (256 * line)) (fun k => { k with uncorrectable := sat32 (k.uncorrectable + 1) })).memsys.ctr ∧
      t.vigil.nextSeq = (s.vigil.nextSeq + 1) % 2 ^ 64)) ∧
  (∀ (s : State) (line : Nat), 256 * line < lpddrEnd → s.zeroingNext = some (256 * line / granule) →
    line = 256 * line / granule * 8192 + NMap.getD s.memsys.zeroed (256 * line / granule) 0 →
    Gives (.lpddrMaintSlot (.zero line)) s (fun t => t.memsys.mem = s.memsys.mem.zeroLine line ∧
      NMap.getD t.memsys.zeroed (256 * line / granule) 0 = NMap.getD s.memsys.zeroed (256 * line / granule) 0 + 1 ∧
      t.memsys.grants = s.memsys.grants ∧ ∀ a, a / 256 = line → t.memsys.mem.read .slot0 a = 0)) ∧
  (∀ (s : State) (g : Nat), s.zeroingNext = some g → NMap.getD s.memsys.zeroed g 0 = 8192 →
    Gives (.zeroingDone g) s (fun t => NMap.get? t.memsys.grants g = none ∧ NMap.get? t.memsys.zeroed g = none ∧
      t.memsys.mem = s.memsys.mem ∧ ∀ h, h ≠ g → NMap.get? t.memsys.grants h = NMap.get? s.memsys.grants h)) ∧
  (∀ (s : State) (c : Nat) (fs : List TileFind), (∀ f ∈ fs, f.addr < 0x1E00000) →
    exec (.tileScrub c fs) s = .next (fs.foldl (fun s f => s.tileFound c f) s)) ∧
  (∀ (s : State) (c : Nat) (f : TileFind),
    (f.find = .clean → s.tileFound c f = s) ∧
    (f.find = .corrected → s.tileFound c f = s.updCtr c (fun k => { k with tileEccCorrected := sat32 (k.tileEccCorrected + 1) })) ∧
    (f.find = .uncorrectable →
      ((s.tileFound c f).core c).ctr.tileEccUncorrectable = sat32 ((s.core c).ctr.tileEccUncorrectable + 1) ∧
      (s.tileFound c f).memsys = s.memsys ∧
      ∃ n, 0 < n ∧ n < 4 ∧ (s.tileFound c f).vigil.nextSeq = (s.vigil.nextSeq + n) % 2 ^ 64)) ∧
  (∀ (s : State) (c : Nat) (fs : List TileFind), (∃ f ∈ fs, 0x1E00000 ≤ f.addr) → exec (.tileScrub c fs) s = .fault .noSuchAddress) ∧
  (∀ (s : State) (line : Nat), lpddrEnd ≤ 256 * line → exec (.lpddrMaintSlot (.zero line)) s = .fault .noSuchAddress ∧
    ∀ xs, exec (.lpddrMaintSlot (.scrub line xs)) s = .fault .noSuchAddress)

/-- Heartbeats of units, silent units and the snapshot strobe (R300, R311, R312). Where the spec leaves room, it says what the model chose (log
entry 38). -/
def Obligations.HeartbeatsAndSnapshots : Prop :=
  (∀ (s : State) (u w : BitVec 32), s.clk.aligned = true →
    Gives (.unitHeartbeat u w) s (fun t => NMap.get? t.cores.heartbeat u.toNat = some ⟨w, s.now⟩)) ∧
  (∀ (s : State) (u : BitVec 32), s.released = true → s.quietUnit u = false → fld u 28 4 = 2 →
    Gives (.unitSilent u) s (fun t => t.vigil.nextSeq = (s.vigil.nextSeq + 1) % 2 ^ 64 ∧ t.boot = s.boot)) ∧
  (∀ (s : State) (q : Req), Fresh s q 2 0x6000 1 → (s.opened q).mayWrite q.who 0x6000 1 1 = true → s.clk.aligned = true →
    Gives (.snapshotObject q 1) s (fun t => t.ctrl.strobes = s.ctrl.strobes ++ [.object q] ∧ q.seq ∈ (t.reqOf q.who).deferred)) ∧
  (∀ (s : State) (n a : Nat) (fs : List SnapFor), s.ctrl.strobes = .boundary n a :: fs →
    Gives .snapshotLatch s (fun t => t.ctrl.strobes = fs ∧ t.ctrl.snapId = (s.ctrl.snapId + 1) % 2 ^ 32 ∧ t.ctrl.shadows.mods = s.ctxs.ctr ∧
      t.ctrl.shadows.mem = s.memsys.ctr ∧ s.ctrl.strobeAt + 1024 ≤ t.now))

/-! ### Units that software stops and restarts (R361, R441 to R443, R456, R462, R465) -/

/-- A drained core, port, bridge or mirror: the accepted command's effect and its answer. A stop of a link completes into DISABLED; a host port's
disable that is not acknowledged within 1 s ends as a loss (R443). Where the spec leaves room, it says what the model chose (log entries 22, 37). -/
def Obligations.UnitCommandsTakeEffect : Prop :=
  (∀ (s : State) (q : Req) (c : Nat), Writes s q (0x4000 + c) 3 1 → s.released = true → (s.core c).resetting = false → (s.core c).state = .running →
    exec (.coreDrainStop q c) s = .next (((s.forWrite q).updCore c (fun k => { k with state := .stopping })).answered q 2 (0x4000 + c) 3)) ∧
  (∀ (s : State) (q : Req) (c : Nat), Writes s q (0x4000 + c) 3 1 → s.released = true → (s.core c).resetting = false → (s.core c).state = .stopped →
    exec (.coreDrainStart q c) s = .next (((s.forWrite q).updCore c (fun k => { k with state := .running })).answered q 2 (0x4000 + c) 3)) ∧
  (∀ (s : State) (q : Req) (n : Nat), Writes s q (0x5100 + n) 3 1 → s.released = true → (s.link (.fabric n)).unit = .stopped →
    exec (.fabricPortRetrain q n) s = .next (((s.forWrite q).startTraining (.fabric n)).answered q 2 (0x5100 + n) 3)) ∧
  (∀ (s : State) (q : Req) (n : Nat), Writes s q (0x5100 + n) 3 1 → s.released = true → (s.link (.fabric n)).unit = .running →
    exec (.fabricPortDisable q n) s = .next (((s.forWrite q).updLink (.fabric n)
      (fun k => { k with unit := .stopping, disabling := true, disableAt := s.now })).answered q 2 (0x5100 + n) 3)) ∧
  (∀ (s : State) (q : Req) (n : Nat), Writes s q (0x5130 + n) 2 1 → s.released = true → ((s.forWrite q).link (.host n)).unit = .stopped →
    exec (.hostPortRetrain q n) s = .next (((s.forWrite q).startTraining (.host n)).answered q 2 (0x5130 + n) 2)) ∧
  (∀ (s : State) (q : Req) (n : Nat), Writes s q (0x5130 + n) 2 1 → s.released = true → ((s.forWrite q).link (.host n)).unit = .running →
    exec (.hostPortDisable q n) s = .next (((s.forWrite q).updLink (.host n)
      (fun k => { k with unit := .stopping, disabling := true, disableAt := s.now })).answered q 2 (0x5130 + n) 2)) ∧
  (∀ (s : State) (q : Req), Writes s q 0x5120 2 1 → s.released = true → s.twin.sense = true → s.openSteps ≠ [] → s.twin.heldRetrain = false →
    exec (.bridgeRetrain q) s = .next (({ s.forWrite q with twin := { s.twin with heldRetrain := true } } : State).answered q 2 0x5120 2)) ∧
  (∀ (s : State) (q : Req), Writes s q 0x5120 2 1 → s.twin.heldRetrain = true →
    exec (.bridgeDisable q) s = .next (({ s.forWrite q with twin := { s.twin with heldRetrain := false } } : State).answered q 2 0x5120 2)) ∧
  (∀ (s : State) (q : Req), Writes s q 0x5120 0x26 1 → s.released = true → s.twin.state = .stopped → s.twin.accepted = true →
    exec (.mirrorStart q) s = .next ((s.forWrite q).mirrorRuns.answered q 2 0x5120 0x26)) ∧
  (∀ (s : State) (q : Req), Writes s q 0x5120 0x26 1 → s.released = true → s.twin.state = .running →
    exec (.mirrorStop q) s = .next (({ s.forWrite q with twin := { s.twin with state := .stopping } } : State).answered q 2 0x5120 0x26)) ∧
  (∀ (s : State) (n : Nat), (s.link (.fabric n)).unit = .stopping → (s.link (.fabric n)).live = false →
    Gives (.stopCompletes (.fabric n)) s (fun t => (t.link (.fabric n)).state = .disabled ∧ (t.link (.fabric n)).unit = .stopped)) ∧
  (∀ (s : State) (n : Nat), (s.link (.host n)).unit = .stopping → (s.link (.host n)).retry = [] → s.sched.reads = [] →
    Gives (.stopCompletes (.host n)) s (fun t => (t.link (.host n)).state = .disabled)) ∧
  (∀ (s : State) (n : Nat), (s.link (.host n)).unit = .stopping → (s.link (.host n)).disabling = true → (s.link (.host n)).retry ≠ [] → s.sched.reads = [] →
    Gives (.hostPortDisableTimeout n) s (fun t => (t.link (.host n)).state = .disabled ∧ (s.link (.host n)).disableAt + Config.sCycles ≤ t.now ∧
      t.vigil.nextSeq = (s.vigil.nextSeq + 1) % 2 ^ 64))

/-! ### Link blocks, retrains, credit (files 10, 17) -/

/-- Link blocks (R256 to R258): on a live link a block that does not decode asks for a replay, an unnumbered or repeated one only acknowledges, and
the expected one advances the number expected; its fill carries nothing. Where the spec leaves room, it says what the model chose (log entry 22). -/
def Obligations.LinkBlocksAreNumbered : Prop :=
  (∀ (s : State) (l : LinkRef) (b : Block), (s.link l).live = true → b.decoded = false →
    Gives (.linkBlock l b) s (fun t => (t.link l).nakOut = true ∧ (t.link l).inRetry = true ∧ (t.link l).rxNext = (s.link l).rxNext ∧
      t.memsys = s.memsys ∧ t.runs = s.runs)) ∧
  (∀ (s : State) (l : LinkRef) (b : Block), (s.link l).live = true → b.decoded = true → fld b.hdr 34 6 ≤ 40 →
    (flag b.hdr 33 = true ∨ fld b.hdr 0 16 ≠ (s.link l).rxNext) →
    exec (.linkBlock l b) s = .next (s.updLink l (fun k => k.acked (fld b.hdr 16 16) (flag b.hdr 32)))) ∧
  (∀ (s : State) (n : Nat) (b : Block), (s.link (.fabric n)).live = true → b.decoded = true → fld b.hdr 34 6 ≤ 40 → flag b.hdr 33 = false →
    fld b.hdr 0 16 = (s.link (.fabric n)).rxNext → b.stream = [] → (s.link (.fabric n)).partialCell = [] → (s.link (.fabric n)).resync = false →
    Gives (.linkBlock (.fabric n) b) s (fun t => (t.link (.fabric n)).rxNext = ((s.link (.fabric n)).rxNext + 1) % 2 ^ 16 ∧
      (t.link (.fabric n)).nakOut = false ∧ (t.link (.fabric n)).inRetry = false ∧ (t.link (.fabric n)).rx = (s.link (.fabric n)).rx ∧
      (t.link (.fabric n)).retry = ((s.link (.fabric n)).acked (fld b.hdr 16 16) (flag b.hdr 32)).retry)) ∧
  (∀ (s : State) (n lane : Nat), (s.link (.fabric n)).live = true → lane < 4 →
    Gives (.laneFifoSlip (.fabric n) lane) s (fun t => (t.link (.fabric n)).nakOut = true ∧ (t.link (.fabric n)).inRetry = true)) ∧
  (∀ (s : State) (n lane : Nat), (s.link (.host n)).live = true → lane < 8 →
    Gives (.laneFifoSlip (.host n) lane) s (fun t => (t.link (.host n)).nakOut = true ∧ (t.link (.host n)).inRetry = true)) ∧
  (∀ (s : State) (lane : Nat), (s.link .bridge).live = true → lane < 16 →
    Gives (.laneFifoSlip .bridge lane) s (fun t => (t.link .bridge).nakOut = true))

/-- A cell that keeps the format (R263, R266, R267): one for this module waits in its lane's buffer; one for another rank frees its units at once
and leaves on the port of its route with one hop more; at 63 hops it is dropped as violation 8. Where the spec leaves room, it says what the model
chose (log entries 22, 23). -/
def Obligations.CellsWaitOrTravel : Prop :=
  (∀ (s : State) (n : Nat) (c : Cell), c.kind ≠ 1 → s.isOwnRank c.dst = true →
    s.acceptCell (.fabric n) c = s.updLink (.fabric n) (fun k => { k with rx := k.rx ++ [⟨c.lane, c.hdr, c.payload, s.now⟩] })) ∧
  (∀ (s : State) (n p : Nat) (c : Cell), c.kind ≠ 1 → c.kind ≠ 2 → s.isOwnRank c.dst = false → c.hops ≠ 63 →
    (s.updLink (.fabric n) (fun k => k.free c.lane (1 + c.len))).routeRank (some n) c = some p → p ≠ n →
    ((s.acceptCell (.fabric n) c).link (.fabric p)).txq = (s.link (.fabric p)).txq ++ [⟨fld (setFld c.hdr 101 6 (c.hops + 1)) 0 2, setFld c.hdr 101 6 (c.hops + 1), c.payload, s.now⟩] ∧
    ((s.acceptCell (.fabric n) c).link (.fabric n)).rx = (s.link (.fabric n)).rx) ∧
  (∀ (s : State) (n : Nat) (c : Cell), c.kind ≠ 1 → c.kind ≠ 2 → s.isOwnRank c.dst = false → c.hops = 63 →
    ((s.acceptCell (.fabric n) c).link (.fabric n)).violCode = 8 ∧
    ((s.acceptCell (.fabric n) c).link (.fabric n)).ctr.hopLimitDrops = sat64 ((s.link (.fabric n)).ctr.hopLimitDrops + 1) ∧
    ((s.acceptCell (.fabric n) c).link (.fabric n)).txq = (s.link (.fabric n)).txq)

/-- Retrains and training (R255, R259, R296, R443). A link that carries blocks starts to retrain when a block has been sent 8 times or 256 retry
events fell within 1 ms, and keeps its retry buffer. Its success returns it to the state it had, UP or GUARDED, and sends every block of the retry
buffer again in order; a first or second failure within 10 s leaves it training; the third takes it DOWN, and the cells of its retry buffer are
discarded and counted as stale. Training ends UP, or 1 s after its start DOWN. A fabric port with 64 violations within 1 ms becomes GUARDED, and an
event says so. Where the spec leaves room, it says what the model chose (log entry 22). -/
def Obligations.LinksTrainAndRetrain : Prop :=
  (∀ (s : State) (l : LinkRef), (s.link l).live = true →
    ((∃ b ∈ (s.link l).retry, 8 ≤ b.sends) ∨ 256 ≤ (recent s.now Config.msCycles (s.link l).retryStamps).length) →
    Gives (.linkRetrainStart l) s (fun t => (t.link l).state = .training ∧ (t.link l).retraining = true ∧ (t.link l).retry = (s.link l).retry ∧
      ((t.link l).wasGuarded = true ↔ (s.link l).state = .guarded))) ∧
  (∀ (s : State) (l : LinkRef), (s.link l).live = true → (∀ b ∈ (s.link l).retry, b.sends < 8) →
    (recent s.now Config.msCycles (s.link l).retryStamps).length < 256 → exec (.linkRetrainStart l) s = .next s) ∧
  (∀ (s : State) (l : LinkRef), (s.link l).state = .training → (s.link l).retraining = true →
    Gives (.linkRetrainDone l true) s (fun t => (t.link l).state = (if (s.link l).wasGuarded then .guarded else .up) ∧ (t.link l).retraining = false ∧
      (t.link l).retry = (s.link l).retry.map (fun b => { b with sends := 1 }) ∧
      (t.link l).wire = (s.link l).retry.map (fun b => (⟨true, (t.link l).blockHdr b.seq b.first false, b.stream⟩ : Block)) ∧
      ∀ m, m ≠ l → t.link m = s.link m)) ∧
  (∀ (s : State) (l : LinkRef), (s.link l).state = .training → (s.link l).retraining = true →
    (recent s.now (10 * Config.sCycles) (s.link l).retrainStamps).length < 2 →
    Gives (.linkRetrainDone l false) s (fun t => (t.link l).state = .training ∧ (t.link l).retraining = true ∧ (t.link l).retry = (s.link l).retry)) ∧
  (∀ (s : State) (l : LinkRef), (s.link l).state = .training → (s.link l).retraining = true →
    2 ≤ (recent s.now (10 * Config.sCycles) (s.link l).retrainStamps).length →
    Gives (.linkRetrainDone l false) s (fun t => (t.link l).state = .down ∧ (t.link l).retry = [] ∧
      (t.link l).ctr.staleCells = sat64 ((s.link l).ctr.staleCells + sumOf ((s.link l).retry.map RetryBlk.cells)))) ∧
  (∀ (s : State) (l : LinkRef), (s.link l).state = .training → (s.link l).retraining = false →
    Gives (.portTrained l) s (fun t => (t.link l).state = .up ∧ (t.link l).unit = .running)) ∧
  (∀ (s : State) (l : LinkRef), (s.link l).state = .training → (s.link l).retraining = false →
    Gives (.portTrainingTimeout l) s (fun t => (t.link l).state = .down ∧ t.now = max s.now ((s.link l).trainStart + Config.sCycles))) ∧
  (∀ (s : State) (n : Nat), (s.link (.fabric n)).state = .up → 64 ≤ (recent s.now Config.msCycles (s.link (.fabric n)).violStamps).length →
    Gives (.portGuarded n) s (fun t => (t.link (.fabric n)).state = .guarded ∧ t.vigil.nextSeq = (s.vigil.nextSeq + 1) % 2 ^ 64))

/-- Credit of a fabric port or the bridge (R263, R295): a LINK_CTRL that is sent returns what was freed of every lane and carries the last violation
and the count of violations; one that arrives grows the credit by what it returns, and a return of more than was sent is violation 6. Where the spec
leaves room, it says what the model chose (log entry 22). -/
def Obligations.CreditReturns : Prop :=
  (∀ (s : State) (l : LinkRef), (∀ n, l ≠ .host n) → (s.link l).live = true →
    Gives (.linkCtrlSend l) s (fun t => (t.link l).returned = (s.link l).freedUnits ∧ (t.link l).lastReturn = s.now ∧
      ∃ c : Cell, (t.link l).txq = (s.link l).txq ++ [⟨c.lane, c.hdr, c.payload, s.now⟩] ∧ c.kind = 1 ∧ c.lane = 0 ∧
        (∀ i < 4, c.hi (24 * i) 24 = nth (s.link l).freedUnits i 0 % 2 ^ 24) ∧ c.hi 96 16 = (s.link l).violCode.toNat ∧
        c.hi 112 16 = (s.link l).violCount % 2 ^ 16)) ∧
  (∀ (s : State) (l : LinkRef) (c : Cell), (∀ n, l ≠ .host n) → (s.link l).live = true → c.kind = 1 → cellFault l c = none →
    (∀ i < 4, ((s.link l).grow i (c.hi (24 * i) 24)).2 = false) →
    Gives (.linkCtrl l c) s (fun t => (t.link l).gotLink = true ∧ (t.link l).partnerViol = BitVec.ofNat 16 (c.hi 96 16) ∧
      (t.link l).backUnits = (List.range 4).map (fun i => ((s.link l).grow i (c.hi (24 * i) 24)).1) ∧ t.memsys = s.memsys)) ∧
  (∀ (s : State) (l : LinkRef) (c : Cell), (∀ n, l ≠ .host n) → (s.link l).live = true → c.kind = 1 → cellFault l c = none →
    (∃ i < 4, ((s.link l).grow i (c.hi (24 * i) 24)).2 = true) →
    Gives (.linkCtrl l c) s (fun t => (t.link l).violCode = 6 ∧ (t.link l).ctr.violations = sat64 ((s.link l).ctr.violations + 1)))

/-- A violation on a link (R295, R453): it is counted, its code is kept for the next LINK_CTRL or LINK, at most one record a millisecond is written,
and no other link changes. Where the spec leaves room, it says what the model chose (log entry 22). -/
def Obligations.ViolationsAreCounted : Prop :=
  ∀ (s : State) (l : LinkRef) (v : Nat),
    ((s.violation l v).link l).ctr.violations = sat64 ((s.link l).ctr.violations + 1) ∧ ((s.violation l v).link l).violCode = BitVec.ofNat 16 v ∧
    ((s.violation l v).link l).violCount = ((s.link l).violCount + 1) % 2 ^ 16 ∧
    (s.violation l v).vigil.nextSeq = (if (s.link l).lastViolRecord.any (fun t => decide (s.now < t + Config.msCycles)) then s.vigil.nextSeq
      else (s.vigil.nextSeq + 1) % 2 ^ 64) ∧
    (∀ m, m ≠ l → (s.violation l v).link m = s.link m)

/-! ### Exchange cells (R277 to R294) -/

/-- A data cell of a reduction or of packed images joins its instance (R283, R284, R286 to R288): the cell leaves the receive buffer, its check
value enters the sender's account and the run's digest (`acceptData`), its elements enter the sum of their block, or are kept as a block of the
distribution phase or as a segment, and the instance and the scheduler go on. Its sender's CLOSE has not matched yet; a segment for which its
receive buffer has no room stays where it is. Where the spec leaves room, it says what the model chose (log entry 18). -/
def Obligations.DataCellsJoinTheirBlocks : Prop :=
  ∀ (s : State) (l : LinkRef) (c : Cell) (x y : ExInst), s.groupCellFor c = .inst x →
    let u := s.takeCell l c
    let a := (u.exCtx x).inp 0
    (s.exHere l c 0x10 = true → (x.opcode = 0x0900 ∨ x.opcode = 0x0901) → a.fmt = fmtXB16 → c.hi 32 32 < cdiv a.count 256 →
      ownerOf (cdiv a.count 256) x.g (c.hi 32 32) = x.me → (x.peer c.src 0).close = none →
      (u.acceptData x 0 c).2.addBlock (BlockAcc.norm16 ⟨c.hi 32 32, BitVec.ofNat 64 (c.hi 64 64), BitVec.ofNat 16 (c.hi 16 16), signedsOf 2 256 c.payload⟩) = .ok y →
      exec (.xb16Block l c) s = .next ((((u.acceptData x 0 c).1.exAfter y).tryCheck x.slot).settle)) ∧
    (∀ ph, s.exHere l c 0x11 = true → s.noRoom x c = false → (x.opcode = 0x0900 ∨ x.opcode = 0x0901) → (ph = 0 → a.fmt = fmtXP40) →
      u.blockPhase x (cdiv a.count 256) (c.hi 32 32) c.src = some ph → (x.peer c.src ph).close = none →
      (∀ e ∈ x.segs, ¬ (e.src = c.src ∧ e.phase = ph ∧ e.unit = c.hi 32 32 ∧ e.seg = c.hi 14 2)) → (u.acceptData x ph c).2.joinSeg c ph = .ok y →
      exec (.xp40Seg l c) s = .next ((((u.acceptData x ph c).1.exAfter y).tryCheck x.slot).settle)) ∧
    (s.exHere l c 0x12 = true → x.opcode = 0x0908 → longUnit c < cdiv a.count 32 → ownerOf (cdiv a.count 32) x.g (longUnit c) = x.me →
      (x.peer c.src 0).close = none →
      exec (.g128Seg l c) s = .next ((((u.acceptData x 0 c).1.exAfter ((u.acceptData x 0 c).2.addUnit (longUnit c) (signedsOf 16 32 c.payload))).tryCheck
        x.slot).settle)) ∧
    (s.exHere l c 0x12 = true → x.opcode = 0x0908 → u.blockPhase x (cdiv a.count 32) (longUnit c) c.src = some 1 →
      (x.peer c.src 1).close = none →
      exec (.g128Seg l c) s = .next ((((u.acceptData x 1 c).1.exAfter { (u.acceptData x 1 c).2 with
        blocks := (u.acceptData x 1 c).2.blocks ++ [⟨longUnit c, 0, 0, signedsOf 16 32 c.payload⟩] }).tryCheck x.slot).settle)) ∧
    (s.exHere l c 0x13 = true → s.noRoom x c = false → (x.opcode = 0x0902 ∨ x.opcode = 0x0905) → (x.peer c.src 0).close = none →
      exec (.rawSeg l c) s = .next ((((u.acceptData x 0 c).1.exAfter { (u.acceptData x 0 c).2 with
        segs := x.segs ++ [⟨c.src, 0, longUnit c, 0, 0, 0, c.payload⟩] }).tryCheck x.slot).settle)) ∧
    (s.noRoom x c = true → (s.exHere l c 0x11 = true → exec (.xp40Seg l c) s = .next s) ∧ (s.exHere l c 0x13 = true → exec (.rawSeg l c) s = .next s))

/-- A row that fits its operator joins the rows received (R290 to R293, where `rowFate` finds its home, quantum, token and place right), a bulk
segment its RECV (R294); a CLOSE of a sender that still owes one is kept for matching (R278), and a GO lets this module's contribution to its
sender's shard out (R289). Where the spec leaves room, it says what the model chose (log entries 18, 36, 43, 57). -/
def Obligations.RowsClosesAndGoReachTheirInstance : Prop :=
  (∀ (s : State) (l : LinkRef) (c : Cell) (x : ExInst) (f : ExInst → Except Code ExInst) (y : ExInst), s.groupCellFor c = .inst x →
    (x.peer c.src 0).close = none → f ((s.takeCell l c).acceptData x 0 c).2 = .ok y →
    (s.exHere l c 0x20 = true → (s.takeCell l c).rowFate c 0x0903 x ((s.takeCell l c).exCtx x) = .take 0 f →
      exec (.dispatchRow l c) s = .next (((((s.takeCell l c).acceptData x 0 c).1.exAfter y).tryCheck x.slot).settle)) ∧
    (s.exHere l c 0x21 = true → (s.takeCell l c).rowFate c 0x0904 x ((s.takeCell l c).exCtx x) = .take 0 f →
      exec (.combineRow l c) s = .next (((((s.takeCell l c).acceptData x 0 c).1.exAfter y).tryCheck x.slot).settle))) ∧
  (∀ (s : State) (l : LinkRef) (c : Cell) (x : ExInst), s.exHere l c 0x30 = true → s.recvCellFor c (c.hi 16 16) = .inst x →
    (x.peer c.src 0).close = none →
    exec (.bulkSeg l c) s = .next (((((s.takeCell l c).acceptData x 0 c).1.exAfter { ((s.takeCell l c).acceptData x 0 c).2 with
      segs := x.segs ++ [⟨c.src, 0, c.hi 32 40, 0, 0, 0, c.payload⟩] }).tryCheck x.slot).settle)) ∧
  (∀ (s : State) (l : LinkRef) (c : Cell) (x : ExInst), s.cellHere l c = true → c.kind = 0x18 → (c.lane = 3 → c.group = noGroup) →
    s.isOwnRank c.dst = true → (if c.group = noGroup then s.recvCloseFor c else s.groupCellFor c) = .inst x → c.lane = x.lane →
    (x.closes.filter (fun k => k.src == c.src)).length < ((List.range x.phases).filter (fun ph => (x.peer c.src ph).close.isNone)).length →
    exec (.closeCell l c) s = .next (((((s.takeCell l c).countRecv x.slot c.check).exAfter { x with
      closes := x.closes ++ [⟨c.src, c.hi 32 32, c.hi 64 64, l, (s.takeCell l c).now⟩] }).tryCheck x.slot).settle)) ∧
  (∀ (s : State) (l : LinkRef) (c : Cell) (x : ExInst), s.exHere l c 0x19 = true → s.groupCellFor c = .inst x → x.opcode = 0x0905 →
    let p := (s.takeCell l c).onGo x ((s.takeCell l c).exCtx x) c.src
    exec (.goCell l c) s = .next ((((p.1.setInst p.2).exAfter p.2).tryCheck x.slot).settle))

/-- What an accepted data cell does to the accounts (R278, R279): its sender's count and sum in the phase, and the run's receive digest; nothing
else. -/
def Obligations.AcceptedCellsAreCounted : Prop :=
  ∀ (s : State) (x : ExInst) (ph : Nat) (c : Cell),
    ((s.acceptData x ph c).2.peer c.src ph).recvCount = (x.peer c.src ph).recvCount + 1 ∧
    ((s.acceptData x ph c).2.peer c.src ph).recvSum = ((x.peer c.src ph).recvSum + c.check) % 2 ^ 64 ∧
    (∀ r q, (r, q) ≠ (c.src, ph) → (s.acceptData x ph c).2.peer r q = x.peer r q) ∧
    ((s.acceptData x ph c).1.run x.slot).recvDigest = digAdd (s.run x.slot).recvDigest c.check ∧
    (∀ k, k ≠ x.slot → (s.acceptData x ph c).1.run k = s.run k) ∧ (s.acceptData x ph c).1.memsys = s.memsys ∧ (s.acceptData x ph c).1.links = s.links

/-- The cell check value does not depend on `hops`, `attempt` and `gen` (R277): re-addressed, repeated and forwarded cells have one check value. -/
def Obligations.CheckValueIgnoresHops : Prop :=
  ∀ (c : Cell) (h a g : Nat), (⟨setFld (setFld (setFld c.hdr 101 6 h) 44 4 a) 88 8 g, c.payload⟩ : Cell).check = c.check

/-- The order of contributions makes no difference: two blocks' additions give the same sums, header and observation in either order (R49, R84,
R283), and sums of G128 elements within the format are commutative and associative, a sum that the marker enters being the marker (R66, R287). -/
def Obligations.SumsAreOrderFree : Prop :=
  (∀ (x y z : ExInst) (a b : BlockAcc), x.addBlock a = .ok y → y.addBlock b = .ok z → ∃ w, x.addBlock b = .ok w ∧ w.addBlock a = .ok z) ∧
  (∀ a b c : Int, let m : Int := -(2 : Int) ^ 127
    (∀ z ∈ [a, b, c], z = m ∨ (-(2 : Int) ^ 125 < z ∧ z < 2 ^ 125)) →
    g128Add a b = g128Add b a ∧ g128Add (g128Add a b) c = g128Add a (g128Add b c) ∧ (g128Add (g128Add a b) c = m ↔ m ∈ [a, b, c]))

/-- The addition of a contribution to its block (R47, R49, R50, R84): elements add, the observation is the maximum, the tally adds up to its limit;
another exponent is EXPONENT_MISMATCH and one out of range EXPONENT_RANGE. -/
def Obligations.BlocksAddElementwise : Prop :=
  ∀ (x : ExInst) (a o : BlockAcc), x.blocks = [o] → o.idx = a.idx →
    (xbExpOk (xbExp a.hdr.toNat) = false → x.addBlock a = .error cXbExponentRange) ∧
    (xbExpOk (xbExp a.hdr.toNat) = true → xbExp a.hdr.toNat ≠ xbExp o.hdr.toNat → x.addBlock a = .error cXbExponentMismatch) ∧
    (xbExpOk (xbExp a.hdr.toNat) = true → xbExp a.hdr.toNat = xbExp o.hdr.toNat → ∃ n : BlockAcc,
      x.addBlock a = .ok { x with blocks := [n] } ∧ n.idx = a.idx ∧ n.elems = List.zipWith (· + ·) o.elems a.elems ∧
      n.obs.toInt = max o.obs.toInt a.obs.toInt ∧ xbTally n.hdr.toNat = min (xbTally o.hdr.toNat + xbTally a.hdr.toNat) 0xFFFFFFFF ∧
      xbExp n.hdr.toNat = xbExp o.hdr.toNat ∧ xbOvf n.hdr.toNat = (xbOvf o.hdr.toNat || xbOvf a.hdr.toNat) ∧
      xbNf n.hdr.toNat = (xbNf o.hdr.toNat || xbNf a.hdr.toNat))

/-! ### The twin (R456 to R462) -/

/-- Who the twin is (R456) and what the loss of the bridge does (R461, R462): a partner of another serial and the same numerics level is accepted,
and mirroring runs; one of another level or with the module's own serial is not, and an event says so; without a bridge mirroring goes on degraded,
an event says so, and the open steps look again whether they may be checked. Where the spec leaves room, it says what the model chose (log entries
22, 41). -/
def Obligations.TwinIsFoundAndLost : Prop :=
  (∀ (s : State) (c : Cell), s.cellHere .bridge c = true → c.kind = 0x38 → leAt c.payload 12 1 = Config.numericsLevel →
    (BitVec.ofNat 64 (leAt c.payload 0 8)).toNat ≠ s.serial →
    Gives (.twinIdent c) s (fun t => t.twin.accepted = true ∧ t.twin.serial = BitVec.ofNat 64 (leAt c.payload 0 8) ∧
      t.twin.site = BitVec.ofNat 32 (leAt c.payload 8 4) ∧ t.twin.partnerReserve = leAt c.payload 16 2 ∧
      (s.twin.state = .stopped → t.twin.state = .running) ∧ t.vigil.nextSeq = (s.vigil.nextSeq + 1) % 2 ^ 64)) ∧
  (∀ (s : State) (c : Cell), s.cellHere .bridge c = true → c.kind = 0x38 →
    (leAt c.payload 12 1 ≠ Config.numericsLevel ∨ (BitVec.ofNat 64 (leAt c.payload 0 8)).toNat = s.serial) →
    Gives (.twinIdent c) s (fun t => t.twin.accepted = false ∧ t.twin.state = .stopped ∧ t.runs = s.runs ∧
      t.vigil.nextSeq = (s.vigil.nextSeq + 1) % 2 ^ 64)) ∧
  (∀ s : State, s.twin.accepted = true → s.twin.state = .running → s.twin.degraded = false → (s.link .bridge).live = false →
    (s.link .bridge).state ≠ .training →
    let u : State := { s.bridgeGone with
      twin := { s.bridgeGone.twin with degraded := true }
      runs := s.bridgeGone.runs.map (fun e => (e.1, { e.2 with mirror := { e.2.mirror with seeding := false } })) }
    let v := u.record (uidLink .bridge 0xFF) cTwinBridgeLost 3 0
    exec .twinBridgeLost s = .next (v.openSteps.foldl (fun s k => s.tryCheck k) v).settle ∧
    (s.sched.ops = [] → s.openSteps = [] → Gives .twinBridgeLost s (fun t => t.twin.degraded = true ∧
      t.vigil.nextSeq = (s.vigil.nextSeq + 1) % 2 ^ 64 ∧ t.memsys = s.memsys)))

/-- The mirror of a partner's run (R458 to R461): a segment is kept in its item and counted, a CLOSE closes its batch, and the batch whose count and
sum agree is finished: where the reserve is full its items are dropped and the answer is no, else a step's items are kept for the mirror task and
the answer is yes. A mirror task advances the copy by one step, stale, with an error record, where the digest differs. Where the spec leaves room,
it says what the model chose (log entries 24, 41). -/
def Obligations.MirrorKeepsPartnersState : Prop :=
  (∀ (s : State) (l : LinkRef) (c : Cell) (slot : Nat), s.cellHere l c = true → s.mirrorSlot c = some slot →
    (c.step = noStep ∨ s.tagFit slot c.step c.attempt = .present) →
    let m := (s.mirrorOf slot).begin_ c.step c.attempt
    (c.kind = 0x39 → exec (.mirrorData l c) s = .next (((s.takeCell l c).setMirror slot { m with
      count := m.count + 1, sum := (m.sum + c.check) % 2 ^ 64
      items := putSeg m.items c.step (c.hi 0 8) (BitVec.ofNat 32 (c.hi 16 32)) (c.hi 48 40) c.payload (c.hi 8 1 == 1) }).mirrorSettle slot l c)) ∧
    (c.kind = 0x18 → c.lane = 3 → c.group ≠ noGroup →
      exec (.closeCell l c) s = .next (((s.takeCell l c).setMirror slot { m with closed := some (c.hi 32 32, c.hi 64 64) }).mirrorSettle slot l c))) ∧
  (∀ (s : State) (slot : Nat) (l : LinkRef) (c : Cell),
    let m := s.mirrorOf slot
    (m.closed ≠ some (m.count % 2 ^ 32, m.sum) → s.mirrorSettle slot l c = s) ∧
    (m.closed = some (m.count % 2 ^ 32, m.sum) → s.reserveFull = true →
      s.mirrorSettle slot l c = (s.setMirror slot { m with
        batch := none, count := 0, sum := 0, closed := none, items := m.items.filter (fun i => i.step != c.step) }).mirrorAnswer l c false) ∧
    (m.closed = some (m.count % 2 ^ 32, m.sum) → s.reserveFull = false → c.step ≠ noStep → m.copyHeld = true →
      ∃ d, s.mirrorSettle slot l c = (s.setMirror slot { m with
        batch := none, count := 0, sum := 0, closed := none, digests := NMap.set m.digests c.step d }).mirrorAnswer l c true)) ∧
  (∀ (s : State) (slot : Nat), s.taskDue slot = true →
    let m := s.mirrorOf slot
    let r := s.mirrorReplay slot (m.copyStep + 1) m.items (m.items.filter (fun i => i.item == 1 && i.step == m.copyStep))
    Gives (.mirrorTask slot) s (fun t => (t.mirrorOf slot).copyStep = m.copyStep + 1 ∧ t.memsys = s.memsys ∧
      NMap.get? (t.mirrorOf slot).digests (m.copyStep + 1) = none ∧
      (NMap.get? m.digests (m.copyStep + 1) = some (BitVec.ofNat 128 r.2) → (t.mirrorOf slot).stale = false ∧ t.vigil = s.vigil ∧ t.runs = s.runs) ∧
      (NMap.get? m.digests (m.copyStep + 1) ≠ some (BitVec.ofNat 128 r.2) → (t.mirrorOf slot).stale = true ∧
        t.vigil.nextSeq = (s.vigil.nextSeq + 1) % 2 ^ 64)))

/-- The sender's side (R318, R374, R460): seeding sends the committed state with a CLOSE and is counted; the answer to a seed ends it, and a yes
makes the mirror seeded; the answer of an open attempt reaches STEP_CHECK; in compatibility mode a yes says that the copy is held; an answer nobody
waits for is stale. Where the spec leaves room, it says what the model chose (log entries 24, 41). -/
def Obligations.MirrorIsSeededAndAcknowledged : Prop :=
  (∀ (s : State) (slot : Nat), (s.run slot).isOpen = true → (s.run slot).openStep = none → s.needsSeed slot = true → (s.run slot).mirror.seeding = false →
    exec (.mirrorSeed slot) s = .next { s.seedMirror slot with twin := { (s.seedMirror slot).twin with seeds := sat32 (s.twin.seeds + 1) } } ∧
    Gives (.mirrorSeed slot) s (fun t => (t.run slot).mirror.seeding = true ∧ (t.run slot).mirror.closed = true ∧
      (t.run slot).mirror.acked = none ∧ t.memsys = s.memsys)) ∧
  (∀ (s : State) (l : LinkRef) (c : Cell), s.cellHere l c = true → c.kind = 0x3A → s.isOwnRank c.dst = true →
    let slot := (s.groupE c.group).slot
    (s.run slot).isOpen = true → (s.run slot).group = c.group → s.twinRank slot = some c.src →
    (c.step = noStep → (s.run slot).compatInterval = 0 → (s.run slot).mirror.seeding = true →
      Gives (.mirrorAck l c) s (fun t => (t.run slot).mirror.seeding = false ∧ (t.run slot).mirror.seeded = (c.hi 0 1 == 1) ∧
        (t.run slot).mirror.acked = (if c.hi 0 1 = 1 then none else some false))) ∧
    (c.step ≠ noStep → s.tagFit slot c.step c.attempt = .present →
      exec (.mirrorAck l c) s = .next ((((s.takeCell l c).updMirror slot (fun m => { m with
        acked := some (c.hi 0 1 == 1), ackReason := BitVec.ofNat 16 (c.hi 16 16) })).tryCheck slot).settle)) ∧
    (c.step = noStep → (s.run slot).compatInterval ≠ 0 →
      exec (.mirrorAck l c) s = .next ((s.takeCell l c).updRun slot (fun r => { r with compatAcked := r.compatAcked || c.hi 0 1 == 1 }))) ∧
    ((c.step ≠ noStep ∧ s.tagFit slot c.step c.attempt ≠ .present) ∨
        (c.step = noStep ∧ (s.run slot).compatInterval = 0 ∧ (s.run slot).mirror.seeding = false) →
      exec (.mirrorAck l c) s = .next ((s.takeCell l c).staleOn l)))

/-! ### Recovery (R366 to R376) -/

/-- What a twin or replica member answers and what a spare pulls (R369, R370, R372): the wanted segments go back to the asker; an asked segment is
kept with its item, and a state tensor that is whole is placed in its set of the bank pair, a whole manifest is taken; the host's readiness starts
the pull. Where the spec leaves room, it says what the model chose (log entries 24, 33, 41). -/
def Obligations.RecoveryItemsTravel : Prop :=
  (∀ (s : State) (l : LinkRef) (c : Cell), s.cellHere l c = true → c.kind = 0x31 → s.isOwnRank c.dst = true →
    let slot := (s.groupE c.group).slot
    (s.run slot).isOpen = true → (s.run slot).group = c.group → s.mayAsk slot c (c.hi 0 8) (c.hi 16 32) = true →
    (c.hi 0 8 ≤ 1 → s.taskDue slot = false) →
    let n := if c.hi 0 8 = 0 then (s.run slot).lastCommitted else c.step
    let segs := itemSegs (s.recoveryItem slot n (c.hi 0 8) (c.hi 16 32))
    exec (.recoveryReq l c) s = .next (((segs.drop (c.hi 48 40)).take (c.hi 88 24)).foldl (fun s p =>
      s.sendCell (cellOf 3 0x32 c.src c.dst 0 n (s.runGen slot) c.group (itemHigh (c.hi 0 8) (p.1 + 1 == segs.length) (c.hi 16 32) p.1 0) p.2))
      (s.takeCell l c))) ∧
  (∀ (s : State) (l : LinkRef) (c : Cell) (a : Adoption) (i : MirrorItem), s.cellHere l c = true → c.kind = 0x32 → s.isOwnRank c.dst = true →
    s.recov.adoption = some a → a.group = c.group → a.rank = c.dst →
    ((c.hi 0 8 ≠ 0 ∧ a.wanted.contains (c.hi 0 8, c.hi 16 32) = true) ∨ (c.hi 0 8 = 0 ∧ a.manifest = false ∧ c.src = a.twinRank)) →
    let items := putSeg a.items 0 (c.hi 0 8) (BitVec.ofNat 32 (c.hi 16 32)) (c.hi 48 40) c.payload (c.hi 8 1 == 1)
    findItem items 0 (c.hi 0 8) (c.hi 16 32) = some i →
    let t := (s.takeCell l c).setAdoption (some { a with items := items })
    (i.whole = false → exec (.recoveryData l c) s = .next t) ∧
    (i.whole = true → c.hi 0 8 = 0 →
      exec (.recoveryData l c) s = .next (t.takeManifest (s.groupE c.group).slot { a with items := items } i.bytes)) ∧
    (i.whole = true → c.hi 0 8 = 1 →
      exec (.recoveryData l c) s = .next (t.placeState (s.groupE c.group).slot (c.hi 16 32) (t.run (s.groupE c.group).slot).bank i.bytes)) ∧
    (i.whole = true → c.hi 0 8 = 5 →
      exec (.recoveryData l c) s =
        .next (t.placeState (s.groupE c.group).slot (c.hi 16 32) ((t.run (s.groupE c.group).slot).bank != a.needUpdate) i.bytes)) ∧
    (i.whole = true → c.hi 0 8 ≠ 0 → c.hi 0 8 ≠ 1 → c.hi 0 8 ≠ 5 → exec (.recoveryData l c) s = .next t)) ∧
  (∀ (s : State) (q : Req) (slot : Nat) (a : Adoption), Writes s q 0x7001 4 1 → (s.forWrite q).selected q.who = some slot →
    s.recov.adoption = some a → a.group = (s.run slot).group → (s.run slot).isOpen = true →
    exec (.rankReady q 1) s = .next ((((s.forWrite q).setAdoption (some { a with ready := true })).askItems slot).answered q 2 0x7001 4))

/-- The end of a recovery (R371, R374, R376): with every item in place and no update to replay, the rank's run goes on from the step of its twin,
verified, its mirroring degraded; a replayed update must give the failed rank's digest, or the module declares its rank failed. In compatibility
mode the module asks its copies back, and when they are whole goes back to the copy's step; before the first copy an event says that there is none.
Where the spec leaves room, it says what the model chose (log entries 32, 41). -/
def Obligations.RecoveryEnds : Prop :=
  (∀ (s : State) (a : Adoption), s.recov.adoption = some a → a.pulled = true →
    let slot := (s.groupE a.group).slot
    (s.run slot).compatInterval = 0 →
    (a.needUpdate = false →
      Gives .recoveryUpdateReplay s (fun t => t.recov.adoption = none ∧ (t.run slot).verified = true ∧ (t.run slot).lastCommitted = a.last ∧
        (t.run slot).attempt = a.attempt ∧ (t.run slot).bank = (s.run slot).bank ∧ t.twin.degraded = true ∧ t.twin.state = .running)) ∧
    (a.needUpdate = true → ∀ (ops : List MirrorOp) (u : State) (bs : List DigBlock),
      ops = (match findItem a.items 0 3 0 with
        | some i => mirrorOps i.segs.length (NMap.vals i.segs) []
        | none => []) →
      ops.foldl (fun (p : State × List DigBlock) o => let q := p.1.replayOp slot a o; (q.1, p.2 ++ q.2)) (s, []) = (u, bs) →
      (u.uniqueSum slot a.step bs = a.updateDigest.toNat → exec .recoveryUpdateReplay s = .next (u.adopted slot a true)) ∧
      (u.uniqueSum slot a.step bs ≠ a.updateDigest.toNat →
        exec .recoveryUpdateReplay s = .next (((u.setAdoption none).record uidHub cRecoveryDigest 4 0 (s.whoRun slot)).declareSelf slot 4)))) ∧
  (∀ (s : State) (slot : Nat), (s.run slot).isOpen = true → (s.run slot).compatInterval ≠ 0 → (s.run slot).openStep = none →
    (s.runMe slot).isSome = true →
    (s.recov.adoption = none → (s.run slot).compatInterval < (s.run slot).lastCommitted →
      Gives (.compatRestore slot) s (fun t => t.runs = s.runs ∧ t.memsys = s.memsys ∧
        ∃ a, t.recov.adoption = some a ∧ a.step = compatStep (s.run slot).compatInterval (s.run slot).lastCommitted ∧ a.requested = true)) ∧
    (∀ a, s.recov.adoption = some a → a.group = (s.run slot).group → a.ready = true → a.pulled = true →
      exec (.compatRestore slot) s = .next (s.compatDone slot a) ∧ ((s.compatDone slot a).run slot).lastCommitted = a.step) ∧
    (s.recov.adoption = none → (s.run slot).lastCommitted ≤ (s.run slot).compatInterval →
      exec (.compatRestore slot) s = .next (s.record uidHub cCompatNoCheckpoint 2 0 (s.whoRun slot))))

/-- The rank objects (R307, R366): a move is applied and flooded with the next sequence number, a spare is armed by its role, a degraded module not
(R411). Where the spec leaves room, it says what the model chose (log entries 37, 41). -/
def Obligations.RankObjectsTakeEffect : Prop :=
  (∀ (s : State) (q : Req) (v : BitVec 64), Writes s q 0x7200 6 8 →
    exec (.rankMove q v) s = .next ((((s.forWrite q).applyMove (fld v 0 18) (fld v 18 20)
      ((NMap.getD s.links.moveSeq (fld v 0 18) 0 + 1) % 2 ^ 16)).settle).answered q 2 0x7200 6)) ∧
  (∀ (s : State) (q : Req) (v : BitVec 16), Writes s q 0x7200 7 2 → (s.boot.degraded = true → v = 0xFFFF) →
    exec (.spareRole q v) s = .next (({ s.forWrite q with recov := { s.recov with
      spareRole := v, armed := v != 0xFFFF } } : State).answered q 2 0x7200 7)) ∧
  (∀ (s : State) (q : Req) (v : BitVec 16), Writes s q 0x7200 7 2 → s.boot.degraded = true → v ≠ 0xFFFF →
    exec (.spareRole q v) s = .next ((s.forWrite q).respond q.who (answerOf q 2 0x7200 7 cModuleDegraded [])))

/-! ### The control network (R299 to R325, R362 to R365) -/

/-- A reduction message of a neighbour in the tree (R304, R306): its sender has been heard. One of the step and attempt that is open here, or of
none, joins the up-sweep of its key when it comes from a child, and delivers the result when it comes from the parent; a result without this
module's contribution is dropped where its reduction needs one. One of a step not opened here yet waits, one of another step or attempt is dropped.
Where the spec leaves room, it says what the model chose (log entries 30, 52). -/
def Obligations.ReductionMessagesClimbAndDescend : Prop :=
  ∀ (s : State) (l : LinkRef) (c : Cell) (i : Instr) (cmsg me j : Nat),
    (i, cmsg) ∈ [(Instr.ctrlStepBegin l c, 1), (Instr.ctrlScaleMax l c, 3), (Instr.ctrlStepCheck l c, 4), (Instr.ctrlStepCommit l c, 5),
      (Instr.ctrlCheckpoint l c, 0x0B)] →
    s.ctrlHere l c cmsg = true → s.myIdx c.group = some me → s.idxOf c.group c.src = some j → ctrlFrom c (s.groupE c.group).size me j = true →
    let u := (s.takeCell l c).seen (s.groupE c.group).slot c.src
    let lanes := lanesOf ((ctrlLanes cmsg).getD 0) c.payload
    let fit := if c.step = noStep then TagFit.present else s.tagFit (s.groupE c.group).slot c.step c.attempt
    (fit = .present → c.hi 8 1 = 0 → exec i s = .next (u.upSweep (ctrlKey c) j lanes).settle) ∧
    (fit = .present → c.hi 8 1 = 1 → ((u.redOf (ctrlKey c)).own.isSome = true ∨ cmsg = 4 ∨ cmsg = 5) →
      exec i s = .next (u.deliver (ctrlKey c) (c.hi 64 64) lanes).settle) ∧
    (fit = .present → c.hi 8 1 = 1 → (u.redOf (ctrlKey c)).own = none → cmsg ≠ 4 → cmsg ≠ 5 → exec i s = .next u) ∧
    (fit = .waiting → exec i s = .next (s.seen (s.groupE c.group).slot c.src)) ∧
    (fit = .stale → exec i s = .next u)

/-- GROUP_START of a neighbour, of the step and attempt that is open here or of none (R309): from a child it joins the up-sweep of its key, from the
parent it delivers the result; then every open step's STEP_CHECK looks again and the operators go on. A result for an operator that this module has
not contributed to is violation 9 of the port. Where the spec leaves room, it says what the model chose (log entries 20, 30). -/
def Obligations.GroupStartReleasesOperators : Prop :=
  ∀ (s : State) (l : LinkRef) (c : Cell) (me j : Nat),
    s.ctrlHere l c 2 = true → s.myIdx c.group = some me → s.idxOf c.group c.src = some j → ctrlFrom c (s.groupE c.group).size me j = true →
    (c.step = noStep ∨ s.tagFit (s.groupE c.group).slot c.step c.attempt = .present) →
    let u := (s.takeCell l c).seen (s.groupE c.group).slot c.src
    let lanes := lanesOf 3 c.payload
    let go := fun (t : State) => (t.openSteps.foldl (fun (t : State) k => t.tryCheck k) t).settle
    (c.hi 8 1 = 0 → exec (.ctrlGroupStart l c) s = .next (go (u.upSweep (ctrlKey c) j lanes).settle)) ∧
    (c.hi 8 1 = 1 → (u.redOf (ctrlKey c)).own.isSome = true →
      exec (.ctrlGroupStart l c) s = .next (go (u.deliver (ctrlKey c) (c.hi 64 64) lanes).settle)) ∧
    (c.hi 8 1 = 1 → (u.redOf (ctrlKey c)).own = none → exec (.ctrlGroupStart l c) s = .next (go (u.violation l 9)))

/-- Void requests and decisions, rank moves and heartbeats (R306, R307, R323, R324, R365): the root handles a void request; member 1 takes one that
names the root's own rank as failed for the root's failure; at every other member a void request is violation 9. A void decision from the parent
goes on to the children and is applied. A heartbeat of a neighbour marks it as heard. A newer rank move is applied (and flooded on), an older one is
not; its sender has been heard. Where the spec leaves room, it says what the model chose (log entries 30, 44). -/
def Obligations.ControlCellsTakeEffect : Prop :=
  (∀ (s : State) (l : LinkRef) (c : Cell) (me j : Nat), s.myIdx c.group = some me → s.idxOf c.group c.src = some j →
    let e := s.groupE c.group
    let u := (s.takeCell l c).seen e.slot c.src
    (s.ctrlHere l c 6 = true → (s.run e.slot).group = c.group → (s.run e.slot).isOpen = true → me = 0 →
      exec (.ctrlVoidRequest l c) s = .next (u.handleVoid e.slot c.step c.attempt c.src (c.hi 64 8) (c.hi 72 18)).settle) ∧
    (s.ctrlHere l c 6 = true → (s.run e.slot).group = c.group → (s.run e.slot).isOpen = true → me = 1 → c.hi 64 8 ≠ 0 →
      c.hi 72 18 = u.rootRank e.slot → exec (.ctrlVoidRequest l c) s = .next (u.failRoot e.slot).settle) ∧
    (s.ctrlHere l c 6 = true → (s.run e.slot).group = c.group → (s.run e.slot).isOpen = true → 1 < me →
      exec (.ctrlVoidRequest l c) s = .next (u.violation l 9)) ∧
    (s.ctrlHere l c 7 = true → ctrlFrom c e.size me j = true → c.hi 8 1 = 1 → s.tagFit e.slot c.step c.attempt = .present →
      exec (.ctrlDecision l c) s = .next (((treeChildren e.size me).foldl (fun s j => s.sendCell (s.ctrlCell (ctrlKey c) true (e.rank j) 1 [])) u).applyVoid
        e.slot cStepVoided).settle) ∧
    (s.ctrlHere l c 0x0A = true → ctrlFrom c e.size me j = true →
      Gives (.ctrlHeartbeat l c) s (fun t => NMap.get? t.ctrl.peerSeen (peerKey e.slot c.src) = some s.now ∧ t.runs = s.runs ∧ t.memsys = s.memsys))) ∧
  (∀ (s : State) (l : LinkRef) (c : Cell), s.ctrlHere l c 9 = true →
    let u := (s.takeCell l c).heard c.src
    (newerSeq (NMap.getD u.links.moveSeq (c.hi 64 18) 0) (c.hi 32 16) = true →
      exec (.ctrlRankMove l c) s = .next (u.applyMove (c.hi 64 18) (c.hi 82 20) (c.hi 32 16)).settle) ∧
    (newerSeq (NMap.getD u.links.moveSeq (c.hi 64 18) 0) (c.hi 32 16) = false → exec (.ctrlRankMove l c) s = .next u))

/-- Heartbeats and what their absence means (R306, R363, R364): every 100 µs a beat with the last committed step goes to the parent and the children
in every run's tree; 1 ms without a message of a neighbour is recorded and flags the run's open step, and then a silent child is declared failed, a
silent root by member 1. Where the spec leaves room, it says what the model chose (log entry 30). -/
def Obligations.HeartbeatsAndSilence : Prop :=
  (∀ s : State, s.released = true →
    let u := s.advanceTo (s.ctrl.hbAt + 100 * Config.usCycles)
    let b := u.treeRuns.foldl (fun (s : State) slot => match s.runMe slot with
      | none => s
      | some me =>
        let e := s.groupE (s.run slot).group
        let k := s.runKey slot 0x0A (BitVec.ofNat 32 s.ctrl.hbCount)
        let n := (s.run slot).lastCommitted
        (treeChildren e.size me).foldl (fun s j => s.sendCell (s.ctrlCell k true (e.rank j) n []))
          (if me = 0 then s else s.sendCell (s.ctrlCell k false (e.rank (treeParent me)) n []))) u
    exec .heartbeatSend s = .next { b with ctrl := { b.ctrl with hbCount := (b.ctrl.hbCount + 1) % 2 ^ 32, hbAt := b.now } } ∧
    Gives .heartbeatSend s (fun t => t.ctrl.hbCount = (s.ctrl.hbCount + 1) % 2 ^ 32 ∧ t.ctrl.hbAt = t.now ∧ t.now = max s.now (s.ctrl.hbAt + 100 * Config.usCycles) ∧
      t.runs = s.runs ∧ t.memsys = s.memsys ∧ t.vigil = s.vigil)) ∧
  (∀ (s : State) (slot peer me : Nat), s.runMe slot = some me → (s.run slot).isOpen = true →
    let e := s.groupE (s.run slot).group
    let u := s.advanceTo (NMap.getD s.ctrl.peerSeen (peerKey slot peer) (s.run slot).openedAt + Config.msCycles)
    let v := ((u.record uidHub cControlPeerSilent 2 peer (u.whoRun slot)).fault slot).seen slot peer
    ((∃ j ∈ treeChildren e.size me, e.rank j = peer) → exec (.controlPeerSilent slot peer) s = .next (v.askVoid slot 2 peer).settle) ∧
    ((∀ j ∈ treeChildren e.size me, e.rank j ≠ peer) → 1 < me → e.rank (treeParent me) = peer → exec (.controlPeerSilent slot peer) s = .next v.settle) ∧
    ((∀ j ∈ treeChildren e.size me, e.rank j ≠ peer) → me = 1 → e.rank (treeParent 1) = peer →
      exec (.controlPeerSilent slot peer) s = .next (v.failRoot slot).settle))

/-- Stragglers and a root that does not decide (R362, R363): 3 medians and 50 µs per level after the opening of the step a child whose up-sweep has
not come is declared failed and excused, and the node sweeps up without it; 4 medians and 100 µs after it member 1 declares the root failed. An
attempt number is used again 20 s after its void at the earliest (R281). Where the spec leaves room, it says what the model chose (log entry 30). -/
def Obligations.StragglersAreDeclared : Prop :=
  (∀ (s : State) (slot child me j m : Nat), s.runMe slot = some me → s.watchMedian slot me = some m → (s.run slot).openStep.isSome = true →
    let e := s.groupE (s.run slot).group
    let k := s.runKey slot 4 0
    (treeChildren e.size me).find? (fun j => e.rank j == child) = some j → NMap.get? (s.redOf k).children j = none → j ∉ (s.redOf k).excused →
    let u := (s.advanceTo ((s.run slot).openAt + 3 * m + 50 * Config.usCycles * (treeDepth e.size - treeLevel 8 me))).setRed
      { s.redOf k with excused := (s.redOf k).excused ++ [j] }
    ((me = 0 ∨ (s.redOf k).sentUp.isSome = true) → exec (.stragglerDeclare slot child) s = .next (u.askVoid slot 1 child).settle) ∧
    (me ≠ 0 → (s.redOf k).sentUp = none →
      exec (.stragglerDeclare slot child) s = .next ((u.askVoid slot 1 child).sweepUp ((u.askVoid slot 1 child).redOf k) me).settle)) ∧
  (∀ (s : State) (slot m : Nat), s.runMe slot = some 1 → s.watchMedian slot 1 = some m → (s.run slot).openStep.isSome = true → (s.run slot).passed = false →
    exec (.rootDeclareFailed slot) s = .next ((s.advanceTo ((s.run slot).openAt + 4 * m + 100 * Config.usCycles)).failRoot slot).settle) ∧
  (∀ (s : State) (slot id : Nat) (e : OpEntry), s.opBy slot 0x0A00 = some id → NMap.get? s.sched.ops id = some e → (s.run slot).startWait = true →
    exec (.attemptReuseWait slot) s = .next ((s.advanceTo (s.reuseAt slot)).sendBegin slot e).settle) ∧
  (∀ (s : State) (slot t : Nat), NMap.get? (s.run slot).voidAt (s.run slot).attempt = some t → s.reuseAt slot = t + 20 * Config.sCycles)

/-! ### Step control (R228, R312 to R326) -/

/-- The step-control operators that are due and admissible (R32, R33, R228, R312, R315, R318, R321, R323): STEP_BEGIN contributes its step, attempt
and quanta unless it waits; STEP_CHECK starts the replica comparisons and the step's check once no mirror task is due; STEP_COMMIT contributes its
veto after a pass; STEP_VOID asks the root, or ends at once where its step is not open; the checkpoint operators contribute their digests; SNAPSHOT
strobes, or waits for its run's boundary. Where the spec leaves room, it says what the model chose (log entries 20, 26). -/
def Obligations.StepOperatorsTakeEffect : Prop :=
  ∀ (s : State) (op : Nat) (e : OpEntry),
    let u := s.settle
    let slot := (u.ctx e.ctx).runSlot
    let p := u.pairTwin slot
    let start := fun (w : Bool) => (p.begun op).updRun slot (fun r => { r with
      calibrate := flag e.d 24, quanta := e.d.arg 0 - 1, startWait := w
      qinput := BitVec.ofNat 128 (e.d.arg 1 + e.d.arg 2 * 2 ^ 32 + e.d.arg 3 * 2 ^ 64 + e.d.arg 4 * 2 ^ 96) })
    e.phase = .checked → u.stepControlCode e.ctx e.d = cOk →
    (u.stepDue op 0x0A00 = some e → p.beginWaits slot e = false → p.reuseAt slot ≤ p.now →
      exec (.stepBegin op) s = .next (((start false).sendBegin slot e).settle)) ∧
    (u.stepDue op 0x0A00 = some e → p.beginWaits slot e = false → p.now < p.reuseAt slot → exec (.stepBegin op) s = .next ((start true).settle)) ∧
    (u.stepDue op 0x0A00 = some e → p.beginWaits slot e = true → exec (.stepBegin op) s = .next p.settle) ∧
    (u.stepDue op 0x0A01 = some e → u.taskDue slot = true → exec (.stepCheck op) s = .next u.settle) ∧
    (u.stepDue op 0x0A01 = some e → u.taskDue slot = false → (u.run slot).replicaStarted = false →
      exec (.stepCheck op) s = .next ((((((u.begun op).mirrorClose slot).compareReplicas slot).updRun slot (fun r => { r with
        replicaStarted := true })).tryCheck slot).settle)) ∧
    (u.stepDue op 0x0A01 = some e → u.taskDue slot = false → (u.run slot).replicaStarted = true →
      exec (.stepCheck op) s = .next (((u.begun op).tryCheck slot).settle)) ∧
    (u.stepDue op 0x0A02 = some e → ((u.run slot).passed = false ∨ (u.run slot).vetoSent = true) → exec (.stepCommit op) s = .next ((u.begun op).settle)) ∧
    (u.stepDue op 0x0A02 = some e → (u.run slot).passed = true → (u.run slot).vetoSent = false →
      exec (.stepCommit op) s = .next ((((u.begun op).updRun slot (fun r => { r with vetoSent := true })).contribute
        ((u.begun op).runKey slot 5 0) [BitVec.ofNat 64 (bit (u.run slot).checkFailure)]).settle)) ∧
    (u.stepDue op 0x0A03 = some e → (u.run slot).openStep.isSome = true → exec (.stepVoid op) s = .next ((((u.begun op).fault slot).askVoid slot 0 0).settle)) ∧
    (u.stepDue op 0x0A03 = some e → (u.run slot).openStep = none → e.d.step ≤ (u.run slot).lastCommitted →
      exec (.stepVoid op) s = .next ((u.endOp op cStepAlreadyCommitted).settle)) ∧
    (u.stepDue op 0x0A03 = some e → (u.run slot).openStep = none → (u.run slot).lastCommitted < e.d.step →
      exec (.stepVoid op) s = .next (((u.updOp op (fun e => { e with noop := true })).endOp op cOk).settle)) ∧
    (u.stepDue op 0x0A04 = some e → flag e.d 24 = true → slot ≠ noRun → exec (.snapshot op) s = .next ((u.begun op).settle)) ∧
    (u.stepDue op 0x0A04 = some e → (flag e.d 24 = false ∨ slot = noRun) → exec (.snapshot op) s = .next (((u.begun op).strobe (.op op)).settle)) ∧
    (u.stepDue op 0x0A05 = some e → exec (.checkpoint op) s = .next ((u.sendCkpt slot op (u.run slot).lastCommitted 0).settle)) ∧
    (u.stepDue op 0x0A06 = some e →
      let c := e.d.arg 0 + e.d.arg 1 % 256 * 2 ^ 32
      ((flag e.d 24 = false ∨ (u.run slot).ckptOf c = none) → exec (.checkpointVerify op) s = .next ((u.sendCkpt slot op c 1).settle)) ∧
      (∀ k, flag e.d 24 = true → (u.run slot).ckptOf c = some k →
        exec (.checkpointVerify op) s = .next ((((u.loadScales slot k).updMirror slot (fun m => { m with stale := true })).sendCkpt slot op c 1).settle)))

/-! ### The scheduler, check tasks, hangs (files 07, 08, 09, 12, 13) -/

/-- A descriptor of the queue in turn is fetched and issued (R157, R170, R230, R235), whether its queue lies in LPDDR5X, whose lines may meet
errors, or in a host window; a failing window, an uncorrectable line or an empty key slot holds the queue; without a queue to serve nothing happens.
Where the spec leaves room, it says what the model chose (log entry 20). -/
def Obligations.QueuesAreFetched : Prop :=
  ∀ (s : State) (reply : HostReply) (errors : List LineError),
    (s.nextQueue = none → exec (.queueFetch ⟨reply, errors⟩) s = .next s) ∧
    ∀ k, s.nextQueue = some k →
      let c := k / 4
      let q := k % 4
      let x := s.ctx c
      let a := x.qbase q + 128 * (nth x.qhead q 0 % 2 ^ x.qlog2 q)
      let e := x.region ((x.regionAt a 128 RegionE.r).getD 0)
      let u := s.meetErrors errors
      (∀ key, isHost a = false → u.memsys.mem.badIn a 128 = [] → u.keyFor x e = some key →
        exec (.queueFetch ⟨reply, errors⟩) s =
          .next (u.issue c q (BitVec.ofNat 1024 (leNat (u.memsys.mem.readRange key a 128))) (hostResult reply)).settle) ∧
      (isHost a = false → u.memsys.mem.badIn a 128 ≠ [] →
        exec (.queueFetch ⟨reply, errors⟩) s =
          .next (((u.memsys.mem.badIn a 128).foldl (fun s l => s.lineBad l (s.whoRun x.runSlot)) u).fetchFailed c q cMemoryUncorrectable)) ∧
      (isHost a = false → u.memsys.mem.badIn a 128 = [] → u.keyFor x e = none →
        exec (.queueFetch ⟨reply, errors⟩) s =
          .next (({ u with memsys := { u.memsys with keySlotDrops := u.memsys.keySlotDrops + 1 } } : State).fetchFailed c q cKeySlotEmpty)) ∧
      (∀ bs p, isHost a = true → reply = .data bs → s.hostRoute a = .ok p →
        exec (.queueFetch ⟨reply, errors⟩) s = .next (s.issue c q (BitVec.ofNat 1024 (leNat (fitBytes 128 bs))) (.ok (bs.drop 128))).settle) ∧
      (∀ code, isHost a = true → reply ≠ .timeout → s.hostRoute a = .error code → exec (.queueFetch ⟨reply, errors⟩) s = .next (s.fetchFailed c q code)) ∧
      (∀ p st, isHost a = true → reply = .error st → s.hostRoute a = .ok p →
        exec (.queueFetch ⟨reply, errors⟩) s = .next (s.fetchFailed c q cHostCompletionError)) ∧
      (∀ p, isHost a = true → reply = .timeout → s.hostRoute a = .ok p →
        exec (.queueFetch ⟨reply, errors⟩) s = .next ((s.advanceTo (s.now + 10 * Config.msCycles)).fetchFailed c q cHostReadTimeout)) ∧
      (∀ t : State, ∀ code, (t.fetchFailed c q code).ctx c = { t.ctx c with queueHeld := updAt (t.ctx c).queueHeld q (fun _ => true) } ∧
        (t.fetchFailed c q code).sched = t.sched ∧ (t.fetchFailed c q code).vigil.nextSeq = (t.vigil.nextSeq + 1) % 2 ^ 64)

/-- Issue (R230, R235, R238): the operator enters the list with the next number, its queue's head advances, its stream is bound if it was not. Where
the spec leaves room, it says what the model chose (log entry 20). -/
def Obligations.IssueEntersTheList : Prop :=
  ∀ (s : State) (c q : Nat) (desc : BitVec 1024) (rest : Except Code (List Byte)),
    let t := s.issue c q desc rest
    let d : OpDesc := desc
    t.sched.nextOp = s.sched.nextOp + 1 ∧ (∃ e, NMap.get? t.sched.ops s.sched.nextOp = some e ∧ e.ctx = c ∧ e.queue = q ∧ e.desc = desc ∧
      e.phase = .issued ∧ e.gen = (s.ctx c).gen ∧
      ((∃ b, NMap.get? s.ctxs.streams d.stream = some b ∧ b.ctx ≠ c) → e.code = cStreamOwner) ∧
      ((∀ b, NMap.get? s.ctxs.streams d.stream = some b → b.ctx = c) → (∃ l, rest = .ok l) → e.code = cOk)) ∧
    (∀ j, j ≠ s.sched.nextOp → NMap.get? t.sched.ops j = NMap.get? s.sched.ops j) ∧
    (t.ctx c).qhead = updAt (s.ctx c).qhead q (fun h => (h + 1) % 2 ^ 32) ∧ (∀ j, j ≠ c → t.ctx j = s.ctx j) ∧
    (NMap.get? t.ctxs.streams d.stream).isSome = true ∧ t.memsys = s.memsys ∧ t.runs = s.runs

/-- Starting, waiting and completing (R178, R189, R196, R241, R244): an operator that passes check 16 starts on the lowest cores that can take it,
unless an earlier one can start or none can take it; one that fails it ends with its code; a stack operator whose pages are away asks for them and
waits; one that has waited 100 µs reserves a run of cores that meets no reservation, or waits for one; a finished one completes T_op after its
start. Where the spec leaves room, it says what the model chose (log entries 2, 20, 60). -/
def Obligations.OperatorsStartAndComplete : Prop :=
  (∀ (s : State) (op : Nat) (e : OpEntry), NMap.get? s.settle.sched.ops op = some e → s.settle.unblocked op e = true →
    (e.d.cls ≠ 9 → s.settle.startCode e = cOk) →
    let u := if e.d.cls = 8 ∧ s.settle.pagesReady e = false then s.settle.wantPages e else s.settle
    ((e.d.cls = 8 → u.pagesReady e = true) → (∀ f ∈ u.earlier op, u.startable f.1 f.2 = false) →
      (∀ p, u.place op e = some p → exec (.operatorStart op) s = .next (u.startOn op e p.1 p.2).reserveWaiting) ∧
      (u.place op e = none → exec (.operatorStart op) s = .next u)) ∧
    ((e.d.cls = 8 → u.pagesReady e = true) → (∃ f ∈ u.earlier op, u.startable f.1 f.2 = true) → exec (.operatorStart op) s = .next u) ∧
    (e.d.cls = 8 → u.pagesReady e = false →
      exec (.operatorStart op) s = .next (u.updOp op (fun e => { e with waitFrom := some (e.waitFrom.getD u.now) })))) ∧
  (∀ (s : State) (op : Nat) (e : OpEntry), NMap.get? s.settle.sched.ops op = some e → s.settle.unblocked op e = true → e.d.cls ≠ 9 →
    s.settle.startCode e ≠ cOk → exec (.operatorStart op) s = .next ((s.settle.endOp op (s.settle.startCode e)).settle)) ∧
  (∀ (s : State) (op : Nat) (e : OpEntry), NMap.get? s.sched.ops op = some e → e.phase = .finished →
    exec (.operatorComplete op) s = .next ((((((s.advanceTo (e.startedAt + e.cycles)).makeChecks op e).endOp op e.code)).turnDone e).settle)) ∧
  (∀ (s : State) (op : Nat) (e : OpEntry), NMap.get? s.sched.ops op = some e → s.mayReserve op e = true →
    let u := s.advanceTo (e.readyAt.getD s.now + 100 * Config.usCycles)
    (∀ r, u.runFor op e = some r → exec (.schedReserve op) s = .next { u with sched := { u.sched with reservations := u.sched.reservations ++ [r] } }) ∧
    (u.runFor op e = none → exec (.schedReserve op) s = .next (u.updOp op (fun e => { e with wantsRun := true })))) ∧
  (∀ (s : State) (op : Nat) (e : OpEntry) (r : Reservation), s.runFor op e = some r →
    r.op = op ∧ r.first + r.count ≤ 800 ∧ r.count = s.coreNeed (s.asPlaced e) ∧
    ∀ q ∈ s.sched.reservations, r.first + r.count ≤ q.first ∨ q.first + q.count ≤ r.first)

/-- A started operator (R196, R244): its entry is started at this moment on its cores, its reservation is gone, and memory and time stay. Where the
spec leaves room, it says what the model chose (log entry 20). -/
def Obligations.StartTakesCores : Prop :=
  ∀ (s : State) (op first n : Nat) (e : OpEntry),
    ∃ f, NMap.get? (s.startOn op e first n).sched.ops op = some f ∧ f.phase = .started ∧ f.startedAt = s.now ∧ f.coreFirst = first ∧ f.coreCount = n ∧
      f.ctx = e.ctx ∧ (∀ r ∈ (s.startOn op e first n).sched.reservations, r.op ≠ op) ∧ (s.startOn op e first n).memsys = s.memsys ∧
      (s.startOn op e first n).now = s.now

/-- The gatherer and the activation stack's transfers (R176, R177, R180, R246, R250): a pass closes with 1,024 rows, or with 256 on an idle array,
or with any where the deadline D is 0, and at the deadline of its oldest row; an operator that waited for room goes on in issue order, its wait
counted; a page that was written back leaves tile memory; a page that was fetched is resident, and one whose host window failed is spilled again; a
late reply is dropped. Where the spec leaves room, it says what the model chose (log entries 27, 29, 58, 61). -/
def Obligations.GathererAndStackTransfers : Prop :=
  (∀ (s : State) (g : Nat) (q : GatherQ) (idle : Bool), NMap.get? s.sched.gather g = some q →
    (1024 ≤ q.rows.length ∨ (idle = true ∧ 256 ≤ q.rows.length) ∨ (idle = true ∧ 0 < q.rows.length ∧ s.gatherD = 0)) →
    Gives (.gatherPassClose g idle) s (fun t => (q.rows.length ≤ 1024 → NMap.get? t.sched.gather g = none) ∧
      (1024 < q.rows.length → (NMap.get? t.sched.gather g).map GatherQ.rows = some (q.rows.drop 1024)) ∧ t.memsys = s.memsys ∧ t.sched.ops = s.sched.ops)) ∧
  (∀ (s : State) (g : Nat) (q : GatherQ) (r : GRow) (rs : List GRow), NMap.get? s.sched.gather g = some q → q.rows = r :: rs → s.gatherD ≠ 0 →
    exec (.gatherDeadline g) s = .next ((s.advanceTo (r.at_ + s.gatherD)).closePass g q true)) ∧
  (∀ (s : State) (op : Nat) (e : OpEntry), NMap.get? s.sched.ops op = some e → e.overflowWait = true → s.gatherRoom e = true →
    (∀ f ∈ s.earlier op, f.2.overflowWait = false) →
    exec (.gathererOverflowDrain op) s = .next ((({ s with ctxs := { s.ctxs with ctr := { s.ctxs.ctr with
      gathererOverflowStall := sat64 (s.ctxs.ctr.gathererOverflowStall + e.waited s.now) } } } : State).updOp op
        (fun e => { e.endWait s.now with overflowWait := false, waitFrom := none })).issueReads op)) ∧
  (∀ (s : State) (c page : Nat) (p : StackPage), NMap.get? (s.stackOf c).pages page = some p → p.state = .spilling →
    (s.pageReplyLate c page p .resident = none →
      exec (.stackSpillAck c page) s = .next ((((s.writeBack c page).pageOut c page).refetch).countPageWaits)) ∧
    (∀ t, s.pageReplyLate c page p .resident = some t → exec (.stackSpillAck c page) s = .next t)) ∧
  (∀ (s : State) (c page : Nat) (p : StackPage) (reply : HostReply), NMap.get? (s.stackOf c).pages page = some p → p.state = .fetching →
    let place := fun (o : Nat) => ((s.ctx c).backing o).map (fun b => ((s.ctx c).region b.1).base + b.2)
    (∀ t, s.pageReplyLate c page p .spilled = some t → exec (.stackFetchDone c page reply) s = .next t) ∧
    (s.pageReplyLate c page p .spilled = none →
      (∀ o ∈ (s.stackOf c).pagePieces page, ∀ a, place o = some a →
        (isHost a = true → (∃ bs, reply = .data bs) ∧ (s.hostRoute a).isOk = true) ∧ (isHost a = false → s.memsys.mem.badIn a 4096 = [])) →
      Gives (.stackFetchDone c page reply) s (fun t => NMap.get? (t.stackOf c).pages page = some { p with state := .resident } ∧
        (t.stackOf c).frames = (s.stackOf c).frames ∧ t.memsys = s.memsys)) ∧
    (s.pageReplyLate c page p .spilled = none →
      (∃ o ∈ (s.stackOf c).pagePieces page, ∃ a, place o = some a ∧ isHost a = true) → (∀ bs, reply ≠ .data bs) →
      exec (.stackFetchDone c page reply) s = .next (s.setStack c { s.stackOf c with
        pages := NMap.set (s.stackOf c).pages page { p with state := .spilled } })))

/-- Duplicate checks and captures (R335, R339 to R346): a check task waits for its checker core; equal values mark the original core's last check; a
difference is recorded, flags the step or the group, and strikes the core the arbiter disagrees with, or stops the module where it disagrees with
both. A capture that is due is attributed by Table 12.9, its flash copy made if it was not, and its slot is free. Where the spec leaves room, it
says what the model chose (log entries 31, 45, 59). -/
def Obligations.ChecksAndCapturesAreAttributed : Prop :=
  (∀ (s : State) (n : Nat) (k : CheckTask) (v : CheckResult), NMap.get? s.sched.checks n = some k →
    (∃ e ∈ s.sched.ops, e.2.runsOn (checkerOf k.core) = true) → exec (.checkTask n v) s = .next s) ∧
  (∀ (s : State) (n : Nat) (k : CheckTask) (v : CheckResult), NMap.get? s.sched.checks n = some k →
    (∀ e ∈ s.sched.ops, e.2.runsOn (checkerOf k.core) = false) → (v = .equal ∨ ∃ arb, v = .differ 0 arb) →
    exec (.checkTask n v) s = .next ((({ s with sched := { s.sched with checks := NMap.erase s.sched.checks n } } : State).updCore k.core
      (fun c => { c with lastCheck := some k.step })).settle)) ∧
  (∀ (s : State) (n : Nat) (k : CheckTask) (x : DWord) (arb : Nat), NMap.get? s.sched.checks n = some k →
    (∀ e ∈ s.sched.ops, e.2.runsOn (checkerOf k.core) = false) → x ≠ 0 →
    let u : State := { s with sched := { s.sched with checks := NMap.erase s.sched.checks n } }
    let last := ((s.core k.core).lastCheck.getD noStep) % 2 ^ 40
    let w : Who := ⟨true, k.d.opcode, k.ctx, k.d.opSeq.toNat, k.slot, true, k.step, k.attempt⟩
    let v := u.record (uidCore (s.phys k.core) 1 0) cDuplicateMismatch 2
      (k.core + checkerOf k.core * 2 ^ 10 + bit k.update * 2 ^ 20 + last * 2 ^ 24 + x.toNat * 2 ^ 64) w
    let f := if k.update then v.updRun k.slot (fun r => { r with replicaMismatch := true }) else v.fault k.slot
    (arb ≤ 1 → exec (.checkTask n (.differ x arb)) s = .next (((f.record
        (uidCore (f.phys (if arb = 0 then checkerOf k.core else k.core)) 1 0) cAttributionResult 0
        (v.lastSeq.toNat + 1 * 2 ^ 64 + (if arb = 0 then checkerOf k.core else k.core) * 2 ^ 67) w).strike
        (if arb = 0 then checkerOf k.core else k.core) 2 v.lastSeq.toNat (some k.slot)).settle)) ∧
    (1 < arb → exec (.checkTask n (.differ x arb)) s = .next ((f.record (uidCore (f.phys k.core) 1 0) cAttributionResult 4
        (v.lastSeq.toNat + 3 * 2 ^ 64 + 0x3FF * 2 ^ 67) w).settle))) ∧
  (∀ (s : State) (i own : Nat) (other : Bool) (k : Capture), NMap.get? s.sched.captures i = some k → s.captureDue k = true →
    let f : State := if k.flushed then s else { s with flash := { s.flash with
      captures := NMap.set s.flash.captures s.flash.captureNext { k with flushed := true }, captureNext := (s.flash.captureNext + 1) % 1024 } }
    let u : State := { f with sched := { f.sched with captures := NMap.erase f.sched.captures i }, free := f.free + 1 }
    let run := if k.inStep then some k.runSlot else none
    (s.captureOutcome own other = 0 → exec (.captureAttribution i own other) s =
      .next ((u.record k.unit cAttributionResult 0 (k.recSeq + 0x3FF * 2 ^ 67)).transient k.core k.recSeq run)) ∧
    (s.captureOutcome own other = 1 → exec (.captureAttribution i own other) s =
      .next ((u.record k.unit cAttributionResult 0 (k.recSeq + 2 ^ 64 + k.core * 2 ^ 67)).strike k.core 1 k.recSeq run)) ∧
    (s.captureOutcome own other = 2 → exec (.captureAttribution i own other) s =
      .next (u.record k.unit cAttributionResult 4 (k.recSeq + 2 * 2 ^ 64 + 0x3FF * 2 ^ 67)).boundaryStop) ∧
    s.captureOutcome own other ≤ 2 ∧ (0 < own → s.captureOutcome own other = if other then 2 else 1) ∧
    (own = 0 → other = false → s.captureOutcome own other = 0))

/-- Retirement (R104, R105, R346): between steps, with nothing on it, a core due for it is replaced by the lowest spare of its partition and stays
out until the spare's staging is loaded; its counters are cleared, and a context whose page on it has an uncorrectable word loses its stack. Without
a spare the partition's exhaustion is recorded, unless that was done when the core became due, and the module stops. Where the spec leaves room, it
says what the model chose (log entry 45). -/
def Obligations.CoresRetire : Prop :=
  (∀ (s : State) (c : Nat) (d : DueCore) (bad : List StackPageRef), s.cores.due.find? (fun d => d.core == c) = some d → s.openSteps = [] →
    s.sched.captures = [] → (∀ e ∈ s.sched.ops, e.2.runsOn c = false) → s.sched.checks = [] →
    (∀ q, s.cores.spares.find? (fun p => p / 52 == s.phys c / 52) = some q →
      Gives (.coreRetire c bad) s (fun t => t.phys c = q ∧ q ∉ t.cores.spares ∧ c ∈ t.cores.reloading ∧ (∀ d ∈ t.cores.due, d.core ≠ c) ∧
        NMap.get? t.vec c = none ∧ s.phys c ∈ t.store.retired ∧ (t.core c).ctr = {} ∧
        ∀ b ∈ bad, (b.ctx, b.page) ∈ s.pagesOn c → (t.stackOf b.ctx).frames = [])) ∧
    (s.cores.spares.find? (fun p => p / 52 == s.phys c / 52) = none →
      let u : State := { s with cores := { s.cores with due := s.cores.due.filter (fun d => d.core != c) } }
      exec (.coreRetire c bad) s = .next (if d.told then u else u.record (uidCore (s.phys c) 0 0) cPartitionSparesExhausted 4 0).boundaryStop)) ∧
  (∀ (s : State) (c : Nat), s.cores.reloading.contains c = true →
    exec (.retireReloadDone c) s = .next ({ s with cores := { s.cores with reloading := s.cores.reloading.filter (· != c) } } : State).settle)

/-- Hangs and timeouts (R351 to R356): a watchdog that fires suspects the contexts on the hung cores; a hang in a turn is the culprit's; a hang of
the culprit's operator off its suspected cores is external; cores that still show an operator 100 µs after the resets get an engine reset; suspects
that issue nothing for 1 s leave; a wait and a staging have their 10 ms. Where the spec leaves room, it says what the model chose (log entries 2,
45). -/
def Obligations.HangsAreContained : Prop :=
  (∀ (s : State) (op : Nat) (e : OpEntry) (hung : List Nat), NMap.get? s.sched.ops op = some e →
    (e.phase = .started ∨ (e.phase = .finished ∧ s.watchBound e < e.cycles)) → e.d.cls ≠ 0x0A →
    let u := s.advanceTo (s.watchAt e)
    let q := s.sched.quarantine
    (e.turn = false → ¬ (q.culprit = some e.ctx ∧ e.d.opcode = q.culpritOpcode.toNat ∧ q.cores ≠ []) →
      exec (.watchdogFire op hung) s = .next (u.suspectHang e (dedup (hung.filter (fun c => e.runsOn c && s.mirrored c))))) ∧
    (e.turn = false → q.culprit = some e.ctx → e.d.opcode = q.culpritOpcode.toNat → q.cores ≠ [] →
      Gives (.watchdogFire op hung) s (fun t => t.sched.quarantine = {})) ∧
    (e.turn = true → Gives (.watchdogFire op hung) s (fun t => t.sched.quarantine.culprit = some e.ctx ∧
      t.sched.quarantine.culpritOpcode = BitVec.ofNat 16 e.d.opcode))) ∧
  (∀ (s : State) (busy : List Nat), s.sched.quarantine.hung ≠ [] →
    (∀ c ∈ s.sched.quarantine.suspects, (s.ctx c).state ≠ .resetting) →
    let last := s.sched.quarantine.suspects.foldl (fun m c => max m (s.ctx c).resetAt) s.sched.quarantine.since
    let u := s.advanceTo (last + 100 * Config.usCycles)
    exec (.hungCoreCheck busy) s = .next (({ u with sched := { s.sched with quarantine := { s.sched.quarantine with hung := [] } } } : State).resetEngines
      (s.sched.quarantine.hung.filter (fun c => busy.contains c && s.mirrored c)))) ∧
  (∀ (s : State) (c : Nat), s.sched.quarantine.suspects.contains c = true →
    exec (.suspectIdleExpire c) s = .next ((s.advanceTo (max s.sched.quarantine.since (s.ctx c).issuedAt + Config.sCycles)).dropSuspect c false)) ∧
  (∀ (s : State) (op t0 : Nat) (e : OpEntry), NMap.get? s.sched.ops op = some e → e.waitStart = some t0 → e.unexcluded = false →
    Gives (.waitExclusionExpire op) s (fun t => NMap.get? t.sched.ops op = some { e with unexcluded := true } ∧
      t.now = max s.now (t0 + 10 * Config.msCycles) ∧ t.memsys = s.memsys)) ∧
  (∀ (s : State) (op t0 : Nat) (e : OpEntry), NMap.get? s.sched.ops op = some e → e.stagedAt = some t0 → e.phase = .checked → s.stagedAll e = false →
    (s.ctx e.ctx).state = .open_ →
    Gives (.stagingTimeout op) s (fun t => (t.ctx e.ctx).state = .resetting ∧ t0 + 10 * Config.msCycles ≤ t.now))

/-! ### Contexts and host ports (files 07, 09, 17) -/

/-- Doorbells (R234, R236, R237, R240, R250): a queue's tail, the ring's tail or the halt of a stream changes, for an OPEN context with the right
tag, and a context that is not cached is to be loaded; a tail that lies behind or too far ahead changes nothing else. With a wrong tag only the
count of late replies changes, and a RESETTING context holds the doorbell. Where the spec leaves room, it says what the model chose (log entry 40). -/
def Obligations.DoorbellsTakeEffect : Prop :=
  ∀ (s : State) (port : Nat) (gen : Byte) (p : BitVec 128),
    let c := fld p 0 20
    let x := s.ctx c
    let k := fld p 32 3
    let v := fld p 64 32
    let loads (y : Ctx) : Prop := y.loading = (x.loading || !x.cached)
    let others (t : State) : Prop := (∀ d, d ≠ c → t.ctx d = s.ctx d) ∧ t.memsys = s.memsys ∧ t.sched = s.sched ∧ t.runs = s.runs
    (s.doorbellOk port gen p [0, 1, 2, 3] = true → x.state = .open_ → gen = x.gen → x.qen k = true → idxBehind (nth x.qtail k 0) v = false →
      idxAhead (nth x.qhead k 0) v ≤ 2 ^ x.qlog2 k →
      Gives (.doorbellQueueTail port gen p) s (fun t => (t.ctx c).qtail = updAt x.qtail k (fun _ => v) ∧ (t.ctx c).qhead = x.qhead ∧
        (t.ctx c).notifyPort = port ∧ loads (t.ctx c) ∧ t.ctxs.streams = s.ctxs.streams ∧ others t)) ∧
    (s.doorbellOk port gen p [0, 1, 2, 3] = true → x.state = .open_ → gen = x.gen →
      x.qen k = false ∨ idxBehind (nth x.qtail k 0) v = true ∨ 2 ^ x.qlog2 k < idxAhead (nth x.qhead k 0) v →
      Gives (.doorbellQueueTail port gen p) s (fun t => (t.ctx c).qtail = x.qtail ∧ (t.ctx c).qhead = x.qhead ∧
        (t.ctx c).loading = (x.loading || (x.qen k && !x.cached)) ∧ t.ctxs.streams = s.ctxs.streams ∧ others t)) ∧
    (s.doorbellOk port gen p [4] = true → x.state = .open_ → gen = x.gen → idxBehind x.crTail v = false → idxAhead x.crTail v ≤ x.ringUsed →
      Gives (.doorbellRingTail port gen p) s (fun t => (t.ctx c).crTail = v ∧ (t.ctx c).notifyPort = port ∧ loads (t.ctx c) ∧
        (x.crBuffer = [] → (t.ctx c).crHead = x.crHead ∧ t.ctxs.streams = s.ctxs.streams ∧ others t))) ∧
    (∀ b, s.doorbellOk port gen p [5] = true → x.state = .open_ → gen = x.gen → NMap.get? s.ctxs.streams (fld p 96 18) = some b → b.halted = true →
      b.ctx = c → (s.runOf c).openStep = none →
      Gives (.doorbellResumeStream port gen p) s (fun t => NMap.get? t.ctxs.streams (fld p 96 18) = some { b with halted := false } ∧
        (∀ j, j ≠ fld p 96 18 → NMap.get? t.ctxs.streams j = NMap.get? s.ctxs.streams j) ∧ loads (t.ctx c) ∧ others t)) ∧
    (∀ i ks, (i, ks) ∈ [(Instr.doorbellQueueTail port gen p, [0, 1, 2, 3]), (.doorbellRingTail port gen p, [4]), (.doorbellResumeStream port gen p, [5])] →
      s.doorbellOk port gen p ks = true → x.state = .open_ ∨ x.state = .resetting →
      (gen ≠ x.gen → Gives i s (fun t => t.ctx c = { x with lateDrops := sat32 (x.lateDrops + 1) } ∧ others t)) ∧
      (gen = x.gen → x.state = .resetting →
        Gives i s (fun t => t.ctx c = { x with heldDoorbells := x.heldDoorbells ++ [⟨port, p⟩] } ∧ others t)))

/-- The life of a context (R232, R251 to R253): `ctx_command` opens a FREE one, resets an OPEN one, releases an OPEN or HALTED one; a reset ends its
operators, cuts its stack and advances its tag; the ends of a reset and of a release leave it OPEN and FREE, and apply what was held. Where the spec
leaves room, it says what the model chose (log entries 37, 40). -/
def Obligations.ContextsChangeState : Prop :=
  (∀ (s : State) (q : Req) (v : BitVec 32), let c := cmdCtx v; let u := s.forWrite q
    Writes s q 0x7100 2 4 → s.released = true → fld v 24 8 = 0 →
    (cmdKind v = 1 → lcState s.fuses.shadow = 2 → (s.ctx c).state = .free →
      Gives (.contextOpen q v) s (fun t => t.ctx c = { s.ctx c with state := .open_ } ∧ (∀ d, d ≠ c → t.ctx d = s.ctx d) ∧ t.memsys = s.memsys)) ∧
    (cmdKind v = 2 → (s.ctx c).state = .open_ → exec (.contextReset (.request q v)) s = .next ((u.resetCtx c).answered q 2 0x7100 2)) ∧
    (cmdKind v = 3 → (s.ctx c).state = .open_ ∨ (s.ctx c).state = .halted →
      exec (.contextRelease q v) s = .next ((u.releaseCtx c).answered q 2 0x7100 2)) ∧
    (cmdKind v = 3 → (s.ctx c).state = .resetting → (s.ctx c).pend = none →
      Gives (.contextRelease q v) s (fun t => t.ctx c = { s.ctx c with pend := some .release })) ∧
    (cmdKind v = 1 → lcState s.fuses.shadow = 2 → (s.ctx c).state = .releasing → (s.ctx c).pend = none →
      Gives (.contextOpen q v) s (fun t => t.ctx c = { s.ctx c with pend := some .open_ }))) ∧
  (∀ (s : State) (c : Nat), (s.ctx c).state = .open_ → exec (.contextReset (.device c)) s = .next (s.resetCtx c)) ∧
  (∀ (x : Ctx) (now : Nat), ((∀ t, x.tagAt = some t → t + tagGap ≤ now) → (x.advanceTag now).gen = x.gen + 1 ∧ (x.advanceTag now).tagAt = some now) ∧
    (∀ t, x.tagAt = some t → now < t + tagGap → x.advanceTag now = { x with tagDue := true })) ∧
  (∀ (s : State) (c : Nat), s.opsOf c = [] →
    let x := s.ctx c
    ((s.resetCtx c).ctx c).state = .resetting ∧ ((s.resetCtx c).ctx c).gen = (x.advanceTag s.now).gen ∧ (s.resetCtx c).sched = s.sched ∧
    (s.resetCtx c).memsys = s.memsys ∧ (s.resetCtx c).stackOf c = (s.stackOf c).cut (s.stackOf c).floor ∧
    (∀ k b, NMap.get? (s.resetCtx c).ctxs.streams k = some b → b.ctx = c → b.halted = true) ∧
    (s.sched.quarantine.suspects.contains c = false →
      ((s.releaseCtx c).ctx c).state = .releasing ∧ ((s.releaseCtx c).ctx c).gen = (x.advanceTag s.now).gen ∧ ((s.releaseCtx c).ctx c).cached = false ∧
      (s.releaseCtx c).memsys.keys = NMap.erase s.memsys.keys x.keySlot ∧ (s.releaseCtx c).memsys.mem = s.memsys.mem ∧
      (s.releaseCtx c).stackOf c = {} ∧ (∀ k b, NMap.get? (s.releaseCtx c).ctxs.streams k = some b → b.ctx ≠ c))) ∧
  (∀ (s : State) (c : Nat), (s.ctx c).state = .resetting → (s.ctx c).heldDoorbells = [] → (s.ctx c).pend = none → (s.ctx c).tagDue = false →
    Gives (.contextResetDone c) s (fun t => t.ctx c = { s.ctx c with state := .open_, resetAt := s.now } ∧ (∀ d, d ≠ c → t.ctx d = s.ctx d) ∧
      t.memsys = s.memsys ∧ t.ctxs.streams = s.ctxs.streams)) ∧
  (∀ (s : State) (c : Nat), (s.ctx c).state = .releasing →
    Gives (.contextReleaseDone c) s (fun t => (t.ctx c).state = (if (s.ctx c).pend = some .open_ then .open_ else .free) ∧
      (t.ctx c).desc = (s.ctx c).desc ∧ (t.ctx c).gen = (if (s.ctx c).tagDue then (s.ctx c).gen + 1 else (s.ctx c).gen) ∧ (t.ctx c).loaded = false ∧ (t.ctx c).regions = ({} : Ctx).regions ∧
      (∀ d, d ≠ c → t.ctx d = s.ctx d) ∧ t.memsys = s.memsys))

/-- Loading, the context table and sealing (R157, R163 to R166, R231 to R234): the checks pass and the context holds its regions and grants, or one
fails, or its descriptor or grants meet an uncorrectable line, and it is HALTED; a full context cache evicts the context issued to least recently;
whole descriptors are written for FREE contexts only; a sealed region is read-only and its granules shared. Where the spec leaves room, it says what
the model chose (log entries 7, 40). -/
def Obligations.ContextsAreLoaded : Prop :=
  (∀ (s : State) (c : Nat) (bs : List Byte) (p : Nat × Nat), let x := s.ctx c
    let halted (t : State) : Prop := t.ctx c = { x with state := .halted, loading := false } ∧ t.memsys.mem = s.memsys.mem ∧ t.memsys.grants = s.memsys.grants
    x.state = .open_ → x.loading = true → s.cacheFull = false →
    (s.entryBad c ≠ [] → Gives (.contextLoad c (.data bs)) s halted) ∧
    (s.entryBad c = [] → x.reservedZero = false ∨ fld x.desc 0 20 ≠ c ∨ isHost x.rtAddr = false ∨ x.rtAddr % 1024 ≠ 0 →
      Gives (.contextLoad c (.data bs)) s (fun t => halted t ∧ t.vigil.nextSeq = (s.vigil.nextSeq + 1) % 2 ^ 64)) ∧
    (s.entryBad c = [] → x.reservedZero = true → fld x.desc 0 20 = c → isHost x.rtAddr = true → x.rtAddr % 1024 = 0 → s.hostRoute x.rtAddr = .ok p →
      let read : List RegionE := (List.range 64).map (fun i => BitVec.ofNat 128 (leAt bs (16 * i) 16))
      let rs := if x.loaded then x.sealed read else read
      (s.grantsBad rs ≠ [] → Gives (.contextLoad c (.data bs)) s halted) ∧
      (s.grantsBad rs = [] → s.loadCode c rs = cOk → Gives (.contextLoad c (.data bs)) s (fun t =>
        t.ctx c = { x with regions := rs, loaded := true, cached := true, loading := false } ∧ t.memsys = (if x.loaded then s.keepGrants c x.regions rs else s.takeGrants c rs).memsys ∧
        t.memsys.mem = s.memsys.mem ∧ (∀ d, d ≠ c → t.ctx d = s.ctx d))) ∧
      (s.grantsBad rs = [] → s.loadCode c rs ≠ cOk → Gives (.contextLoad c (.data bs)) s (fun t =>
        halted t ∧ t.vigil.nextSeq = (s.vigil.nextSeq + 1) % 2 ^ 64)) ∧
      Gives (.contextLoad c .timeout) s halted)) ∧
  (∀ (s : State) (c : Nat) (r : HostReply), s.cacheFull = true → (s.ctx c).state = .open_ → (s.ctx c).loading = true →
    (s.evictable = [] → exec (.contextLoad c r) s = .next s) ∧
    (s.evictable ≠ [] → ∃ d ∈ s.evictable, (∀ k ∈ s.evictable, (s.ctx d).lastIssued ≤ (s.ctx k).lastIssued) ∧
      let u := s.updCtx d (fun x => { x with cached := false })
      (d ≠ c → u.cacheFull = false → exec (.contextLoad c r) s = exec (.contextLoad c r) u))) ∧
  (∀ (s : State) (q : Req) (sha : BitVec 512) (tr : Transfer), Ends s q 0x7100 1 sha tr → s.released = true → tr.offset = 0 → tr.got.length = 128 →
    let w := BitVec.ofNat 1024 (leAt tr.got 0 128)
    (s.ctx 0).state = .free → (∀ f ∈ roFields, fld w f.1 f.2 = fld (s.ctxWord 0) f.1 f.2) →
    Gives (.contextTableWrite q sha) s (fun t => t.ctx 0 = { s.ctx 0 with desc := roFields.foldl (fun w f => setFld w f.1 f.2 0) w } ∧
      (∀ d, d ≠ 0 → t.ctx d = s.ctx d) ∧ t.memsys = s.memsys)) ∧
  (∀ (s : State) (q : Req) (v : BitVec 32), let c := fld v 0 20; let r := fld v 20 6; let e := (s.ctx c).region r
    Writes s q 0x7100 5 4 → s.released = true → (s.ctx c).state = .open_ → (s.ctx c).loaded = true → e.valid = true → e.stk = false →
    e.w = true →
    Gives (.regionSeal q v) s (fun t => (t.ctx c).regions = updAt (s.ctx c).regions r (fun e => setFld e 113 1 0) ∧
      t.memsys.grants = e.granules.foldl (fun g n => NMap.set g n (.shared 1)) s.memsys.grants ∧ t.memsys.mem = s.memsys.mem))

/-- Host ports and stale cells (R250, R264, R446, R447, R453, R454): capacities and counts of LINK packets, COMPLETIONs for READs, their expiry,
GUARDED. Where the spec leaves room, it says what the model chose (log entries 2, 7, 22). -/
def Obligations.HostPortsCarryReads : Prop :=
  (∀ (s : State) (n : Nat) (p : Packet), (s.link (.host n)).live = true → p.cls = 0 →
    let k := s.link (.host n)
    let w (c : Nat) : Nat := leAt p.data (4 * (c - 1)) 4
    (∀ c, 1 ≤ c → c < 8 → (k.linkWord c (w c)).2.2 = false) →
    Gives (.yalvoLink n p) s (fun t => (t.link (.host n)).gotLink = true ∧
      (∀ c, 1 ≤ c → c < 8 → hostMin c ≠ 0 → nth (t.link (.host n)).backUnits c 0 = w c ∧
        nth (t.link (.host n)).capUnits c 0 = if nth k.capUnits c 0 = 0 then w c else nth k.capUnits c 0) ∧
      (t.link (.host n)).txq = k.txq ∧ (t.link (.host n)).ctr = k.ctr ∧ t.memsys = s.memsys ∧ t.sched = s.sched)) ∧
  (∀ (s : State) (n : Nat), (s.link (.host n)).live = true →
    Gives (.yalvoLinkSend n) s (fun t => ∃ i, (t.link (.host n)).txq = (s.link (.host n)).txq ++ [i] ∧ i.lane = 0 ∧ i.data.length = 32 ∧
      leAt i.data 12 4 = (2048 + nth (s.link (.host n)).freedUnits 4 0) % 2 ^ 32 ∧
      leAt i.data 20 4 = (512 + nth (s.link (.host n)).freedUnits 6 0) % 2 ^ 32 ∧
      (t.link (.host n)).returned = (s.link (.host n)).freedUnits ∧ t.memsys = s.memsys)) ∧
  (∀ (s : State) (n : Nat) (p : Packet) (r : HostRead) (id : Nat) (e : OpEntry), s.hostUp n = true → p.cls = 3 → s.readOf n p.tag = some r →
    let u := (s.takePacket n p).dropRead n p.tag
    (r.requester = .op id → NMap.get? s.sched.ops id = some e → p.gen = e.gen.toNat →
      (p.cstatus = 0 → p.bytes_ = r.bytes →
        exec (.completion n p) s = .next (({ u with sched := { u.sched with ops := NMap.set s.sched.ops id { e with
          staged := putCells e.staged r.addr (fitBytes r.bytes p.data) } } } : State).issueReads id)) ∧
      (p.cstatus = 0 → p.bytes_ ≠ r.bytes → exec (.completion n p) s = .next ((s.takePacket n p).violation (.host n) 7)) ∧
      (p.cstatus ≠ 0 → exec (.completion n p) s = .next (u.endOp id cHostCompletionError))) ∧
    (r.requester = .op id → NMap.get? s.sched.ops id = some e → p.gen ≠ e.gen.toNat → exec (.completion n p) s = .next ((s.takePacket n p).lateDrop e.ctx)) ∧
    (∀ c, r.requester = .dropped c → exec (.completion n p) s = .next (if r.gen = (s.ctx c).gen then u.wantLoad c else u.lateDrop c)) ∧
    (r.requester = .expired → Gives (.completion n p) s (fun t => t.sched = s.sched ∧ (t.link (.host n)).ctr =
      { (s.link (.host n)).ctr with lateCompletions := sat32 ((s.link (.host n)).ctr.lateCompletions + 1) }))) ∧
  (∀ (s : State) (n tag id : Nat) (r : HostRead), s.readOf n tag = some r → r.requester = .op id →
    let u := (s.advanceTo (r.at_ + 10 * Config.msCycles)).countHost n (fun t => { t with requestExpired := sat32 (t.requestExpired + 1) })
    exec (.hostReadTimeout n tag) s = .next (({ u with sched := { u.sched with
      reads := u.sched.reads.map (fun q => if q.port == n && q.tag == tag then { q with requester := .expired } else q) } } : State).endOp id cHostReadTimeout)) ∧
  (∀ (s : State) (n tag id : Nat) (r : HostRead), s.readOf n tag = some r → r.requester = .op id → NMap.get? s.sched.ops id = none →
    Gives (.hostReadTimeout n tag) s (fun t => r.at_ + 10 * Config.msCycles ≤ t.now ∧
      (∀ q ∈ t.sched.reads, q.port = n → q.tag = tag → q.requester = .expired) ∧
      (t.link (.host n)).ctr.requestExpired = sat32 ((s.link (.host n)).ctr.requestExpired + 1))) ∧
  (∀ (s : State) (n tag : Nat) (i : LinkItem), (s.link (.host n)).txq.find? (fun i => i.lane == 2 && fld i.hdr 16 12 == tag) = some i →
    Gives (.requestExpire n tag) s (fun t => (t.link (.host n)).txq = (s.link (.host n)).txq.erase i ∧ i.at_ + 10 * Config.msCycles ≤ t.now ∧
      (t.link (.host n)).ctr.requestExpired = sat32 ((s.link (.host n)).ctr.requestExpired + 1) ∧ t.memsys = s.memsys)) ∧
  (∀ (s : State) (n : Nat), (s.link (.host n)).state = .up → s.guardDue (.host n) = true → (∀ r ∈ s.sched.reads, r.port ≠ n) →
    Gives (.hostPortGuarded n) s (fun t => (t.link (.host n)).state = .guarded ∧ t.vigil.nextSeq = (s.vigil.nextSeq + 1) % 2 ^ 64 ∧
      t.memsys = s.memsys ∧ t.runs = s.runs)) ∧
  (∀ (s : State) (l : LinkRef) (i : LinkItem), (∀ n, l ≠ .host n) → (s.link l).rx = [] → i ∈ (s.link l).txq → 1 ≤ i.lane → i.lane ≤ 3 → s.sched.ops = [] →
    (∀ x ∈ s.exch, x.closes = []) →
    let late (t : State) (j : LinkItem) : Bool := decide (1 ≤ j.lane) && decide (j.lane ≤ 3) && decide (j.at_ + cellAge < t.now)
    Gives (.staleCellExpire l) s (fun t => t.now ≤ max s.now (i.at_ + cellAge + 1) ∧ (∃ j ∈ (s.link l).txq, late t j = true) ∧
      (t.link l).txq = (s.link l).txq.filter (fun j => !late t j) ∧ (t.link l).ctr.staleCells =
        sat64 ((s.link l).ctr.staleCells + ((s.link l).txq.filter (late t)).length) ∧ t.memsys = s.memsys ∧ t.exch = s.exch))

/-! ### The field network and the object dictionary (files 16, 18) -/

/-- Datagrams, GUARDED, neighbours and requesters (R428, R429, R431, R435): a violation is counted and answered, a READ is served, 64 violations
within 1 ms guard the network until 10 s pass without one or an Operator clears it over Yalvo. Where the spec leaves room, it says what the model
chose (log entries 2, 37). -/
def Obligations.FieldNetworkAnswers : Prop :=
  (∀ (s : State) (a : BitVec 128) (port : BitVec 16) (bytes : List Byte) (ans : Option Code), let w := Requester.field a port
    s.answers w = true → messageFault bytes = some ans →
    (s.vigil.fieldState = 1 → exec (.fieldDatagram w bytes) s = .next s) ∧
    (s.vigil.fieldState ≠ 1 → Gives (.fieldDatagram w bytes) s (fun t => t.vigil.fieldViolations = min (s.vigil.fieldViolations + 1) (2 ^ 32 - 1) ∧
      t.vigil.out = s.vigil.out ++ (match ans with
        | none => []
        | some c => [.response w (faultResponse bytes c)]) ∧ t.vigil.requesters = s.vigil.requesters ∧ t.memsys = s.memsys ∧ t.runs = s.runs))) ∧
  (∀ (s : State) (q : Req) (bytes : List Byte) (i sub : Nat), messageFault bytes = none → leAt bytes 1 1 = 1 → q.seq = BitVec.ofNat 16 (leAt bytes 2 2) →
    i = leAt bytes 4 2 → sub = leAt bytes 6 1 → ¬(i = 0x1200 ∧ sub = 3) → bytes.drop 16 = [] → Fresh s q 1 i sub →
    let v := (s.opened q).readObj q.who i sub
    exec (.fieldDatagram q.who bytes) s = .next ((s.opened q).respond q.who (answerOf q 1 i sub v.1 v.2))) ∧
  (∀ s : State, s.vigil.fieldState = 0 → 64 ≤ (recent s.now Config.msCycles s.vigil.fieldViolStamps).length →
    Gives .fieldGuarded s (fun t => t.vigil.fieldState = 1 ∧ t.vigil.nextSeq = (s.vigil.nextSeq + 1) % 2 ^ 64 ∧ t.memsys = s.memsys)) ∧
  (∀ s : State, s.vigil.fieldState = 1 → Gives .fieldGuardExpire s (fun t => t.vigil.fieldState = 0 ∧ t.vigil.fieldViolStamps = [] ∧
    s.vigil.fieldViolStamps.getLastD 0 + 10 * Config.sCycles ≤ t.now)) ∧
  (∀ (s : State) (q : Req) (port : Nat), q.who = .yalvo port → Writes s q 0x1100 6 1 → s.vigil.fieldState = 1 →
    Gives (.fieldStateClear q 0) s (fun t => t.vigil.fieldState = 0 ∧ t.vigil.fieldViolStamps = [])) ∧
  (∀ (s : State) (src : BitVec 128), s.answers (.field 0 0) = true →
    exec (.neighbourDiscovery (.neighbourSolicitation src s.linkLocal)) s =
      .next { s with vigil := { s.vigil with out := s.vigil.out ++ [.neighbourAdvert src s.linkLocal] } }) ∧
  (∀ s : State, s.answers (.field 0 0) = true → Gives (.duplicateAddressDetection true) s (fun t => t.vigil.fieldState = 2 ∧
    t.vigil.nextSeq = (s.vigil.nextSeq + 1) % 2 ^ 64)) ∧
  (∀ (s : State) (w : Requester), (∃ x ∈ s.vigil.requesters, x.who = w) →
    Gives (.requesterEvict w) s (fun t => t.vigil.requesters = s.vigil.requesters.filter (fun x => x.who != w) ∧
      (s.reqOf w).lastUse + 60 * Config.sCycles ≤ t.now))

/-- The dictionary's gate (R432): a `sequence` whose response is kept gets that response again and nothing is executed; one that waits gets nothing;
with 8 outstanding a further request is BUSY; any other request is executed once, and its response joins the requester's last 32. -/
def Obligations.RepeatedRequestsAreNotExecuted : Prop :=
  ∀ (s : State) (q : Req) (op i sub : Nat) (act : State → State × Code × List Byte), s.answers q.who = true →
    let x := (s.opened q).reqOf q.who
    (∀ r, x.kept.find? (fun r => r.seq == q.seq) = some r → s.dict q op i sub act = ((s.opened q).sendResponse q.who r, cBusy)) ∧
    (x.kept.find? (fun r => r.seq == q.seq) = none → q.seq ∈ x.deferred → s.dict q op i sub act = (s.opened q, cBusy)) ∧
    (x.kept.find? (fun r => r.seq == q.seq) = none → q.seq ∉ x.deferred → 8 ≤ x.deferred.length →
      s.dict q op i sub act = ((s.opened q).respond q.who (answerOf q op i sub cBusy []), cBusy)) ∧
    (Fresh s q op i sub → let r := act (s.opened q)
      (s.dict q op i sub act).2 = r.2.1 ∧ ((s.dict q op i sub act).1.reqOf q.who).kept =
        ((r.1.reqOf q.who).kept ++ [answerOf q op i sub r.2.1 r.2.2]).drop ((r.1.reqOf q.who).kept.length - 31))

/-- Transfers, nonces and tokens (R433, R434): BEGIN opens a transfer, segments append in order, CANCEL and 10 s of silence abandon it; a read
issues a nonce, an accepted token an elevation for its object, and 10 s end an elevation. Where the spec leaves room, it says what the model chose
(log entries 2, 8, 37). -/
def Obligations.TransfersAndTokens : Prop :=
  (∀ (s : State) (q : Req) (index : BitVec 16) (sub : Byte) (offset total : Nat) (o : ObjInfo), let i := index.toNat; let k := sub.toNat; let u := s.opened q
    Fresh s q 4 i k → objInfo i k = some o → o.wr = true → o.domain = true → u.mayWrite q.who i k o.level = true → offset + total ≤ o.size →
    offset % o.granule = 0 → total % o.granule = 0 → (∀ r ∈ u.vigil.requesters, r.who ≠ q.who → r.transfer = none) →
    (runScoped i = true → (u.selected q.who).isSome = true) → 0 < total →
    Gives (.domainBegin q index sub offset total) s (fun t => (t.reqOf q.who).transfer =
      some ⟨index, sub, (u.reqOf q.who).runSelect.toNat, offset, total, [], none, s.now⟩ ∧ (i ≠ 0x1300 → t.flash = s.flash) ∧
      (i = 0x1300 → (t.flash.slot s.inactiveSlot).status = 3) ∧ t.memsys = s.memsys ∧ t.runs = s.runs)) ∧
  (∀ (s : State) (q : Req) (index : BitVec 16) (sub : Byte) (offset : Nat) (bytes : List Byte) (tr : Transfer), Fresh s q 5 index.toNat sub.toNat →
    ((s.opened q).reqOf q.who).transfer = some tr → tr.index = index → tr.sub = sub →
    (offset = tr.offset + tr.got.length → bytes ≠ [] → bytes.length ≤ 1396 → tr.got.length + bytes.length ≤ tr.total →
      Gives (.domainSeg q index sub offset bytes) s (fun t => (t.reqOf q.who).transfer =
        some { tr with got := tr.got ++ bytes, lastOffset := some offset, touchedAt := s.now } ∧ t.flash = s.flash ∧ t.runs = s.runs)) ∧
    (offset ≠ tr.offset + tr.got.length → Gives (.domainSeg q index sub offset bytes) s (fun t => (t.reqOf q.who).transfer =
      some { tr with touchedAt := s.now })) ∧
    (Fresh s q 7 index.toNat sub.toNat → Gives (.domainCancel q index sub) s (fun t => (t.reqOf q.who).transfer = none ∧
      (t.reqOf q.who).elevation = none ∧ t.flash = s.flash))) ∧
  (∀ (s : State) (w : Requester) (tr : Transfer), (s.reqOf w).transfer = some tr → Gives (.domainTimeout w) s (fun t =>
    (t.reqOf w).transfer = none ∧ tr.touchedAt + 10 * Config.sCycles ≤ t.now)) ∧
  (∀ (s : State) (q : Req), Fresh s q 3 0x1200 3 → Gives (.nonceRead q) s (fun t =>
    (t.reqOf q.who).nonce = some ⟨Config.freeNonce s.free, s.now, false⟩ ∧ t.free = s.free + 1)) ∧
  (∀ (s : State) (q : Req) (token : List Byte), Fresh s q 8 0 0 → let u := s.opened q
    (u.tokenCode (u.reqOf q.who) token = cOk → Gives (.auth q token) s (fun t => (t.reqOf q.who).elevation =
      some ⟨leAt token 3 1, BitVec.ofNat 16 (leAt token 4 2), BitVec.ofNat 8 (leAt token 6 1), s.now, false⟩ ∧
      (∀ n, (t.reqOf q.who).nonce = some n → n.used = true))) ∧
    (u.tokenCode (u.reqOf q.who) token ≠ cOk → Gives (.auth q token) s (fun t => (t.reqOf q.who).elevation = (u.reqOf q.who).elevation ∧
      (∀ n, (t.reqOf q.who).nonce = some n → n.used = true) ∧ t.vigil.nextSeq = (s.vigil.nextSeq + 1) % 2 ^ 64))) ∧
  (∀ (s : State) (w : Requester) (e : Elevation), (s.reqOf w).elevation = some e → e.inTransfer = false →
    Gives (.elevationLapse w) s (fun t => (t.reqOf w).elevation = none ∧ e.grantedAt + 10 * Config.sCycles ≤ t.now))

/-- Writes of objects and tables (R28 to R31, R270, R316, R336, R426, R437, R438, R450, R452, R475, R500): what passes its object's checks is
stored, appended, opened or closed, without its reserved bits (R6); a group table with an entry that does not pass stays as it is. Where the spec
leaves room, it says what the model chose (log entries 19, 34, 37, 42, 47). -/
def Obligations.ObjectsAndRunsAreWritten : Prop :=
  (∀ (s : State) (q : Req) (index : BitVec 16) (sub : Byte) (bytes : List Byte), ownRow index.toNat sub.toNat = false →
    Writes s q index.toNat sub.toNat bytes.length →
    let r := (s.forWrite q).writePlain q.who index.toNat sub.toNat (leNat bytes)
    exec (.objectWrite q index sub (.value bytes)) s = .next (r.1.respond q.who (answerOf q 2 index.toNat sub.toNat r.2 []))) ∧
  (∀ (s : State) (q : Req) (v : BitVec 16), Writes s q 0x2000 3 2 → 400 ≤ v.toNat → v.toNat + 40 ≤ s.store.tempStop.toNat → v.toNat ≤ 880 →
    Gives (.objectWrite q 0x2000 3 (.value (leBytes 2 v.toNat))) s (fun t => t.store = { s.store with tempWarn := v })) ∧
  (∀ (s : State) (q : Req) (sha : BitVec 512) (tr : Transfer),
    let u := s.forEnd q
    let es := entriesOf
    let slot := tr.runSlot
    (Ends s q 0x7200 3 sha tr → Gives (.objectWrite q 0x7200 3 (.domainEnd sha)) s (fun t =>
      t.links.podRoutes = setEntries s.links.podRoutes (unreserved routeFields (es 8 tr)) ∧ t.runs = s.runs)) ∧
    (Ends s q 0x7000 2 sha tr → (∀ e ∈ es 16 tr, u.groupOk (BitVec.ofNat 128 e.2) = true) → Gives (.groupTableWrite q sha) s (fun t =>
      t.links.groups = setEntries s.links.groups (es 16 tr) ∧ t.runs = s.runs ∧ t.memsys = s.memsys)) ∧
    (Ends s q 0x7000 2 sha tr → (∃ e ∈ es 16 tr, u.groupOk (BitVec.ofNat 128 e.2) = false) → Gives (.groupTableWrite q sha) s (fun t =>
      t.links.groups = s.links.groups ∧ t.memsys = s.memsys)) ∧
    (Ends s q 0x7002 2 sha tr → (∀ e ∈ es 8 tr, ¬(bitsOf e.2 63 1 = 1 ∧ (s.groupE (bitsOf e.2 32 16)).valid = true ∧
      (s.groupE (bitsOf e.2 32 16)).size = 1)) → Gives (.replicaTableWrite q sha) s (fun t =>
      t.run slot = { s.run slot with replicaTable := setEntries (s.run slot).replicaTable (unreserved [(0, 48), (63, 1)] (es 8 tr)) } ∧ t.memsys = s.memsys)) ∧
    (Ends s q 0x7002 5 sha tr → let r : Run := { s.run slot with bankPairs := setEntries (s.run slot).bankPairs (unreserved [(0, 32), (63, 1)] (es 8 tr)) }
      let size (c k : Nat) : Nat := if ((s.ctx c).region k).valid then ((s.ctx c).region k).size else 0
      (∀ e ∈ es 8 tr, let p : BankPair := BitVec.ofNat 64 e.2
        (p.valid = true → (r.pairsOf p.ctx).length ≤ 32 ∧ size p.ctx p.set0 = size p.ctx p.set1)) →
      Gives (.bankPairsWrite q sha) s (fun t => t.run slot = r ∧ t.memsys = s.memsys)) ∧
    (Ends s q 0x7002 6 sha tr → (s.run slot).openStep = none →
      (∀ e ∈ es 128 tr, ({ s.run slot with stateTensors := setEntries (s.run slot).stateTensors (es 128 tr) } : Run).stateOk (BitVec.ofNat 1024 e.2) = true) →
      Gives (.stateTensorsWrite q sha) s (fun t =>
      t.run slot = { s.run slot with stateTensors := setEntries (s.run slot).stateTensors (es 128 tr) } ∧ t.memsys = s.memsys)) ∧
    (Ends s q 0x5130 0x28 sha tr → (∀ e ∈ es 8 tr, bitsOf e.2 58 5 = 0 ∧ bitsOf e.2 0 12 = 0 ∧ bitsOf e.2 0 56 + 2 ^ 37 ≤ 2 ^ 56 ∧
      (s.windowUsed e.1 = true → flag (NMap.getD s.links.windows e.1 0) 63 = true → (NMap.getD s.links.windows e.1 0).toNat = e.2)) → Gives (.hostWindowsWrite q sha) s (fun t => t.links.windows = setEntries s.links.windows (es 8 tr) ∧ t.runs = s.runs)) ∧
    (Ends s q 0x5130 0x29 sha tr → (∀ e ∈ es 16 tr, (bitsOf e.2 63 1 = 1 →
      isHost (bitsOf e.2 0 48) = true ∧ bitsOf e.2 0 12 = 0 ∧ 4 ≤ bitsOf e.2 48 5 ∧ bitsOf e.2 48 5 ≤ 20)) → Gives (.recordRingsWrite q sha) s (fun t =>
      t.links.rings = setEntries s.links.rings ((unreserved [(0, 53), (63, 1)] (es 16 tr)).map (fun e => (e.1, e.2 + fld (NMap.getD s.links.rings e.1 0) 64 64 * 2 ^ 64))))) ∧
    (Ends s q 0x7001 5 sha tr → let bs := fitBytes tr.offset (((s.run slot).refAlmanac).getD []) ++ tr.got
      almFraming bs = true → Gives (.refAlmanac q sha) s (fun t => t.run slot = { s.run slot with refAlmanac := some bs })) ∧
    (Ends s q 0x7003 4 sha tr → (s.run slot).isOpen = true → (s.run slot).openStep = none → ∀ es, almEntries 3 (tr.got.length / 16 + 1) tr.got = some es →
      (∀ e ∈ es, if e.etype = 3 then (s.run slot).lastCommitted < e.estep else e.estep = (s.run slot).lastCommitted) →
      exec (.almanacAppend q sha) s = .next ((u.almAppend slot tr.got).answered q 6 0x7003 4)) ∧
    (Ends s q 0x7001 1 sha tr → u.openCode slot (BitVec.ofNat 1024 (leNat tr.got)) = cOk → Gives (.runOpen q sha) s (fun t =>
      (t.run slot).state = .open_ ∧ (t.run slot).rec_ = BitVec.ofNat 1024 (leNat tr.got) ∧
      (t.run slot).lastCommitted = fld (BitVec.ofNat 1024 (leNat tr.got)) 296 40 ∧ (t.run slot).openStep = none ∧ t.memsys = s.memsys))) ∧
  (∀ (s : State) (q : Req) (slot : Nat), (s.forWrite q).selected q.who = some slot → (s.run slot).isOpen = true →
    (Writes s q 0x7001 2 1 → (s.run slot).openStep = none → Gives (.runClose q 1) s (fun t => (t.run slot).state = .closed ∧ (t.run slot).refAlmanac = none ∧
      (t.run slot).almWindow = [] ∧ (t.run slot).lineageCert ≠ [] ∧ (∀ j, j ≠ slot → t.run j = s.run j) ∧ t.memsys = s.memsys)) ∧
    (Writes s q 0x7003 1 1 → ((s.run slot).openStep.isSome = true → Gives (.lineageRequest q 1) s (fun t =>
        t.run slot = { s.run slot with lineageHeld := true })) ∧
      ((s.run slot).openStep = none → exec (.lineageRequest q 1) s = .next (((s.forWrite q).issueCert slot false).answered q 2 0x7003 1))))

/-- Life cycle, keys, attestation, images (R405, R414, R439, R468 to R481): each transition burns its fuses and starts a chip reset; the fleet key
is burnt once; slot keys are installed together and cleared singly; a nonce yields a report; images go to the slot that does not run. Where the spec
leaves room, it says what the model chose (log entries 6, 8, 15, 37). -/
def Obligations.LifeCycleKeysAndImages : Prop :=
  (∀ (s : State) (q : Req) (lvl : Nat), let lc := lcState s.fuses.shadow; let may := s.mayWrite q.who 0x1200 2 lvl = true
    Writes s q 0x1200 2 1 → s.released = true → (∀ e ∈ s.ctxs.tab, e.2.state = .free) → s.dump.wanted = none →
    let reset (lo w k : Nat) (t : State) : Prop := t.fuses.bits = setFld s.fuses.bits lo w (2 ^ k - 1) ∧ t.boot.stage = .boxwood ∧ t.boot.chipResetting = true ∧ t.memsys = {}
    let cnt := (thermometer s.fuses.shadow 328 32).getD 0
    (lc = 0 → lvl = 3 → may → s.certOk = true → Gives (.lcToProvisioned q) s (reset 320 3 1)) ∧
    (lc = 1 → lvl = 2 → may → fld s.fuses.shadow 2120 512 ≠ 0 → Gives (.lcToFleet q) s (reset 320 3 2)) ∧
    (lc = 3 → lvl = 3 → may → Gives (.lcToFleet q) s (reset 328 32 (cnt + 1))) ∧
    (lc = 2 → lvl = 3 → may → cnt ≠ 32 → Gives (.lcToService q) s (reset 328 32 (cnt + 1))) ∧
    (lc ≠ 4 → lvl = 2 → may → Gives (.lcToRetired q) s (reset 320 3 3))) ∧
  (∀ (s : State) (q : Req) (sha : BitVec 512) (tr : Transfer), let u := s.forEnd q
    (Ends s q 0x1200 7 sha tr → (pointOf tr.got).isSome = true → fld s.fuses.bits 2120 512 = 0 → Gives (.fleetKey q sha) s (fun t =>
      t.fuses.bits = setFld s.fuses.bits 2120 512 (fuseDigest (sha512 tr.got)) ∧
      t.fuses.shadow = setFld s.fuses.shadow 2120 512 (fuseDigest (sha512 tr.got)) ∧ t.memsys = s.memsys)) ∧
    (Ends s q 0x1200 8 sha tr → s.boot.keysDerived = true → ∀ l, u.keyRecords (tr.offset / 256 + 1) (chunks 256 4096 tr.got) = .ok l →
      Gives (.keySlotWrite q sha) s (fun t => t.memsys.keys = l.foldl (fun m e => NMap.set m e.1 e.2) s.memsys.keys ∧ t.memsys.mem = s.memsys.mem)) ∧
    (Ends s q 0x1200 4 sha tr → lcState s.fuses.shadow ≠ 0 → lcState s.fuses.shadow ≠ 4 → s.released = true → Gives (.attestNonce q sha) s (fun t =>
      (t.reqOf q.who).report = some (u.reportBody tr.got ++ signBytes s.free (s.scalar infoAttest) (u.reportBody tr.got)) ∧
      (t.reqOf q.who).attestNonce = tr.got ∧ t.boot.reportSeq = s.boot.reportSeq + 1)) ∧
    (∀ i c fw k, (i, c, fw, k) ∈ [(Instr.fwImage q sha true, Instr.fwImage q sha false, true, 6), (.configImage q sha true, .configImage q sha false, false, 7)] →
      Ends s q 0x1300 k sha tr → s.released = true →
      let n := s.inactiveSlot
      let f := s.flash.slot n
      let img := overlay (if fw then f.firmware else f.config) tr.offset tr.got
      Gives c s (fun t => (t.flash.slot n).status = 2 ∧ t.flash.slot (1 - n) = s.flash.slot (1 - n)) ∧
      (imageCode s.fuses.shadow (if fw then 0 else 1) (if fw then fwMax else cfgMax) img = cOk →
        Gives i s (fun t => (t.flash.slot n).firmware = (if fw then img else f.firmware) ∧ (t.flash.slot n).config = (if fw then f.config else img) ∧
          (t.flash.slot n).status = (if (fw || f.fwDone) && (!fw || f.cfgDone) then 1 else 3) ∧ t.flash.slot (1 - n) = s.flash.slot (1 - n))))) ∧
  (∀ (s : State) (q : Req) (v : BitVec 16), Writes s q 0x1200 9 2 → v ≠ 0 → v.toNat < 4096 → s.slotInUse v.toNat = false →
    Gives (.keySlotClear q v) s (fun t => NMap.get? t.memsys.keys v.toNat = none ∧
      (∀ j, j ≠ v.toNat → NMap.get? t.memsys.keys j = NMap.get? s.memsys.keys j) ∧ t.memsys.mem = s.memsys.mem))

/-! ### Operators' bodies (file 08) -/

/-- The operators whose result depends on their tensors alone (R93, R146, R199 to R221): a started one whose body meets no fault and whose writes
find their routes stores the result of its body, and its entry holds the completion record's values. Where the spec leaves room, it says what the
model chose (log entries 9, 28, 39, 54, 55, 56). -/
def Obligations.BodiesStoreTheirResults : Prop :=
  ∀ (s : State) (op : Nat) (env : OpEnv) (e : OpEntry) i oc mk, (i, oc, mk) ∈
    [(Instr.matmul op env, 0x0100, arrBody), (.matmulDx op env, 0x0101, arrBody), (.matmulDw op env, 0x0102, arrBody),
     (.batchedMatmul op env, 0x0103, arrBody), (.convFwd op env, 0x0108, arrBody), (.convDx op env, 0x0109, arrBody),
     (.convDw op env, 0x010A, arrBody), (.attnFwd op env, 0x0200, attnFwdBody), (.attnBwd op env, 0x0201, attnBwdBody),
     (.customKernel op env, 0x0300, customBody), (.addTensors op env, 0x0301, libBody), (.mulTensors op env, 0x0302, libBody),
     (.axpby op env, 0x0303, libBody), (.act op env, 0x0304, libBody), (.actBwd op env, 0x0305, libBody), (.rmsnorm op env, 0x0400, rowBody),
     (.rmsnormBwd op env, 0x0401, rowBody), (.layernorm op env, 0x0402, rowBody), (.layernormBwd op env, 0x0403, rowBody),
     (.softmax op env, 0x0404, rowBody), (.softmaxBwd op env, 0x0405, rowBody), (.reduceSum op env, 0x0406, reduceSumBody),
     (.reduceMax op env, 0x0407, rowBody), (.argmax op env, 0x0408, rowBody), (.topk op env, 0x0409, rowBody),
     (.adamw op env, 0x0500, adamBody), (.convert op env, 0x0600, cvtBody), (.quantXb16 op env, 0x0601, cvtBody),
     (.pairToWorking op env, 0x0602, cvtBody), (.pairFrom op env, 0x0603, cvtBody), (.copyTensor op env, 0x0700, copyBody),
     (.gatherRows op env, 0x0701, gatherBody), (.scatterRows op env, 0x0702, scatterBody), (.scatterAddRows op env, 0x0703, scatterAddBody),
     (.permute op env, 0x0704, permuteBody), (.transpose op env, 0x0705, transposeBody)] →
    s.bodyDue op oc = some e → Clean s e env (mk (s.mathCtx e)) →
    (∀ u, s.planeWrites e.ctx (mk (s.mathCtx e)).writes = .ok u → Gives i s (Stored s op e env (mk (s.mathCtx e)))) ∧
    (∀ c, s.planeWrites e.ctx (mk (s.mathCtx e)).writes = .error c → exec i s = .next (((s.addFixed e env).unbindVec op).endOp op c))

/-- The operators of the activation stack, the scale operators (the first event sends the estimates' maximum, the group's maximum yields the record;
a replay takes the recorded one), the known-answer run (R21, R85, R97, R98, R171 to R179, R213, R229, R348). Where the spec leaves room, it says
what the model chose (log entries 9, 25, 27, 39, 48, 49, 50). -/
def Obligations.StackScaleAndKnownAnswerRun : Prop :=
  (∀ (s : State) (op : Nat) (env : OpEnv) (e : OpEntry), Clean s e env {} → s.stackCode e = cOk →
    let k := s.stackOf e.ctx
    (s.bodyDue op 0x0800 = some e → Gives (.pushFrame op env) s (fun t => ∃ f, (t.stackOf e.ctx).frames = f :: k.frames ∧ f.mark = false ∧
      f.off = k.top ∧ f.bytes = (nth e.ts 0 0 : TDesc).payload ∧ f.len = frameLen f.bytes ∧ f.shape = (nth e.ts 0 0 : TDesc).dims ∧
      f.step = s.frameStep e.ctx ∧ (t.stackOf e.ctx).floor = k.floor ∧ t.memsys.mem = s.memsys.mem)) ∧
    (s.bodyDue op 0x0803 = some e → Gives (.markFrame op env) s (fun t => ∃ f, (t.stackOf e.ctx).frames = f :: k.frames ∧ f.mark = true ∧ f.bytes = 0 ∧
      f.len = 4096 ∧ f.off = k.top ∧ (t.stackOf e.ctx).floor = k.floor ∧ t.memsys.mem = s.memsys.mem)) ∧
    (∀ n f u, s.popFrame e = some (n, f) → Clean s e env (s.popMk e (s.mathCtx e)) → s.planeWrites e.ctx (s.popMk e (s.mathCtx e)).writes = .ok u →
      (s.bodyDue op 0x0801 = some e → Gives (.popFrame op env) s (fun t => (t.stackOf e.ctx).frames = k.frames.drop (n + 1) ∧
        t.memsys.mem = u.memsys.mem)) ∧
      (s.bodyDue op 0x0802 = some e → Gives (.peekFrame op env) s (fun t => t.stackOf e.ctx = k ∧ Stored s op e env (s.popMk e (s.mathCtx e)) t)))) ∧
  (∀ (s : State) (op : Nat) (env : OpEnv) (e : OpEntry) i oc est, (i, oc, est) ∈ [(Instr.scaleCalibrate op env, 0x040B, calibLnew),
      (.scaleUpdate op env, 0x0501, updateLnew)] → s.bodyDue op oc = some e → s.recordedScale e = none → e.lnew = [] →
    let l := est (s.mathCtx e)
    let v := s.updOp op (fun e => { e with lnew := l })
    let u := v.contribute { v.runKey (v.ctx e.ctx).runSlot 3 (BitVec.ofNat 32 (nth e.ts e.d.nIn 0 : TDesc).tid) with group := e.scaleGroup }
      [BitVec.ofInt 64 (l.foldl max noObs + 2 ^ 15)]
    ∀ f, u.bodyDue op oc = some f → f.scaleMax = none → exec i s = .next u) ∧
  (∀ (s : State) (op : Nat) (env : OpEnv) (e : OpEntry) (q : ScaleRec), s.bodyDue op 0x040B = some e → s.recordedScale e = some q →
    let mk := fun (x : MathCtx) => scaleLoad x (q.header, q.codes) (s.shardFirst e q.codes.length (x.out 0).count)
    Clean s e env (mk (s.mathCtx e)) → ∀ u, s.planeWrites e.ctx (mk (s.mathCtx e)).writes = .ok u →
      Gives (.scaleCalibrate op env) s (Stored s op e env (mk (s.mathCtx e)))) ∧
  (∀ (s : State) (op : Nat) (env : OpEnv) (e : OpEntry) (m : Int), e.lnew ≠ [] → e.scaleMax = some m → let mk := fun x => scaleFinish x e.lnew m
    (s.bodyDue op 0x040B = some e → s.recordedScale e = none → Clean s e env (mk (s.mathCtx e)) → ∀ u, s.planeWrites e.ctx (mk (s.mathCtx e)).writes = .ok u →
      Gives (.scaleCalibrate op env) s (Stored s op e env (mk (s.mathCtx e)))) ∧
    (s.bodyDue op 0x0501 = some e → exec (.scaleUpdate op env) s = .next ((s.mirrorMax e m).finishBody op e env mk))) ∧
  (∀ (s : State) (op : Nat) (e : OpEntry) (r : KatRun) (rest : List KatRun), let env := katEnv (r :: rest)
    s.bodyDue op 0x0B00 = some e → Clean s e env {} →
    (r.pass = true → Gives (.knownAnswer op (r :: rest)) s
      (Stored s op e env { stat := { katPass := true }, tBody := s.tBody e })) ∧
    (r.pass = false → ∀ r2 l, rest = r2 :: l → exec (.knownAnswer op (r :: rest)) s =
      .next (((s.katRecord e 0 r).katSecond e r2).finishBody op e env (fun _ => { stat := { katPass := false }, tBody := s.tBody e }))))

/-- The exchange operators (R276, R283 to R294): the first event begins the instance's sends; with the instance complete the operator stores the
result of its opcode; a failing access ends it. Where the spec leaves room, it says what the model chose (log entries 9, 18, 39, 43, 57). -/
def Obligations.ExchangeOperatorsRun : Prop :=
  ∀ (s : State) (op : Nat) (env : OpEnv) (e : OpEntry) (x : ExInst), ∀ i oc, (i, oc) ∈
    [(Instr.allreduceXb op env, 0x0900), (.reduceScatterXb op env, 0x0901), (.allgather op env, 0x0902), (.dispatch op env, 0x0903),
     (.combine op env, 0x0904), (.rankOrderReduce op env, 0x0905), (.sendTensor op env, 0x0906), (.recvTensor op env, 0x0907),
     (.g128Exchange op env, 0x0908)] →
    s.bodyDue op oc = some e →
    (∀ c, env.accessFault = some c → exec i s = .next (((s.addFixed e env).unbindVec op).endOp op c).settle) ∧
    (env.accessFault = none → s.instOf op = some x →
      let p := if x.begun then (s, x) else s.exBegin e x
      let u := (p.1.setInst p.2).exAfter p.2
      (∀ f y, u.bodyDue op oc = some f → u.instOf op = some y → y.complete = false → exec i s = .next u.settle) ∧
      (∀ f y, u.bodyDue op oc = some f → u.instOf op = some y → y.complete = true →
        let r : State := { u with ctxs := { u.ctxs with ctr := { u.ctxs.ctr with expertSpillRows := sat64 (u.ctxs.ctr.expertSpillRows + u.spilled f y) } } }
        let b := r.exBody f y (r.mathCtx f)
        Clean r f env b → ∀ v, r.planeWrites f.ctx b.writes = .ok v → ∃ t, exec i s = .next t.settle ∧ Stored r op f env b t))

/-! ### The vector engine (file 06) -/

/-- Integer lane operations act on 32-bit two's-complement values and wrap modulo 2^32; VSEL, VPERM and VBCAST move bit patterns unchanged (R129).
Masked and tail lanes and every other register keep what they hold (R130), and no status bit but `perm_oob` changes (R131, R133). -/
def Obligations.IntegerLanesWrapAndMovesKeepBits : Prop :=
  ∀ (s : State) (core : Nat) (d a b : BitVec 5) (mk : BitVec 3), Engine s core →
    let c := s.vcore core
    let x (i : Nat) : Word := c.lane a.toNat i
    let y (i : Nat) : Word := c.lane b.toNat i
    let gives (i : Instr) (f : Nat → Word) : Prop := Gives i s (fun t => LaneWrite s core d.toNat mk.toNat f t ∧ (t.vcore core).stat = c.stat ∧
      (t.vcore core).faultIndex = none)
    gives (.viadd core d a b mk) (fun i => BitVec.ofInt 32 ((x i).toInt + (y i).toInt)) ∧
    gives (.visub core d a b mk) (fun i => BitVec.ofInt 32 ((x i).toInt - (y i).toInt)) ∧
    gives (.vimul core d a b mk) (fun i => BitVec.ofInt 32 ((x i).toInt * (y i).toInt)) ∧
    gives (.vimin core d a b mk) (fun i => BitVec.ofInt 32 (min (x i).toInt (y i).toInt)) ∧
    gives (.vimax core d a b mk) (fun i => BitVec.ofInt 32 (max (x i).toInt (y i).toInt)) ∧
    gives (.vand core d a b mk) (fun i => x i &&& y i) ∧ gives (.vor core d a b mk) (fun i => x i ||| y i) ∧
    gives (.vxor core d a b mk) (fun i => x i ^^^ y i) ∧
    gives (.vshl core d a b mk) (fun i => BitVec.ofInt 32 ((x i).toInt * 2 ^ b.toNat)) ∧
    gives (.vshrl core d a b mk) (fun i => BitVec.ofNat 32 ((x i).toNat / 2 ^ b.toNat)) ∧
    gives (.vshra core d a b mk) (fun i => BitVec.ofInt 32 ((x i).toInt / 2 ^ b.toNat)) ∧
    (∀ imm, gives (.vbcasti core d imm mk) (fun _ => imm)) ∧ gives (.viota core d mk) (fun i => BitVec.ofNat 32 ((c.sreg 2).toNat + i)) ∧
    (∀ k : BitVec 4, gives (.vbcast core d k mk) (fun _ => (c.sreg k.toNat).setWidth 32)) ∧
    Gives (.vsel core d a b mk) s (fun t => LaneWrite s core d.toNat 0 (fun i => if c.mbit mk.toNat i then x i else y i) t ∧ (t.vcore core).stat = c.stat) ∧
    Gives (.vperm core d a b mk) s (fun t => LaneWrite s core d.toNat mk.toNat (fun i => if (y i).toNat < c.vl then x (y i).toNat else 0) t ∧
      (t.vcore core).stat = { c.stat with permOob := c.stat.permOob || (c.activeLanes mk.toNat).any (fun i => decide (c.vl ≤ (y i).toNat)) })

/-- Floating-point lane operations (R128, R132, R134, R142): the active lanes take the operation's word, and its events enter the status;
conversions. Where the spec leaves room, it says what the model chose (log entry 13). -/
def Obligations.FloatLanesAndConversions : Prop :=
  ∀ (s : State) (core : Nat) (d a b e : BitVec 5) (mk : BitVec 3), Engine s core →
    let c := s.vcore core
    let x (i : Nat) : Word := c.lane a.toNat i
    let y (i : Nat) : Word := c.lane b.toNat i
    let z (i : Nat) : Word := c.lane e.toNat i
    (∀ i f, (i, f) ∈ [(Instr.vadd core d a b mk, add32), (.vsub core d a b mk, sub32), (.vmul core d a b mk, mul32), (.vdiv core d a b mk, div32)] →
      Gives i s (FloatWrite s core d.toNat mk.toNat (fun i => f (x i) (y i)))) ∧
    (∀ i f, (i, f) ∈ [(Instr.vfma core d a b e mk, fma32), (.vfms core d a b e mk, fms32), (.vfnma core d a b e mk, fnma32)] →
      Gives i s (FloatWrite s core d.toNat mk.toNat (fun i => f (x i) (y i) (z i)))) ∧
    (∀ i f, (i, f) ∈ [(Instr.vsqrt core d a mk, sqrt32), (.vexp core d a mk, exp32), (.vlog core d a mk, log32), (.vrsqrt core d a mk, rsqrt32),
        (.vtanh core d a mk, tanh32), (.verf core d a mk, erf32), (.vsigm core d a mk, sigm32)] →
      Gives i s (FloatWrite s core d.toNat mk.toNat (fun i => f (x i)))) ∧
    (∀ i f, (i, f) ∈ [(Instr.vmin core d a b mk, min32), (.vmax core d a b mk, max32), (.vcpysgn core d a b mk, cpysgn32)] →
      Gives i s (fun t => LaneWrite s core d.toNat mk.toNat (fun i => f (x i) (y i)) t ∧ (t.vcore core).stat = c.stat)) ∧
    (∀ i f, (i, f) ∈ [(Instr.vabs core d a mk, abs32), (.vneg core d a mk, neg32), (.vcvtif core d a mk, cvtIF), (.vcvtuf core d a mk, cvtUF)] →
      Gives i s (fun t => LaneWrite s core d.toNat mk.toNat (fun i => f (x i)) t ∧ (t.vcore core).stat = c.stat)) ∧
    (∀ tz, Gives (.vcvtfi core d a tz mk) s (fun t => LaneWrite s core d.toNat mk.toNat (fun i => BitVec.ofNat 32 (cvtFI tz (x i)).code) t ∧
      (t.vcore core).stat = c.stat.cvt (((c.activeLanes mk.toNat).map (fun i => cvtFI tz (x i))).any (·.sat))
        (((c.activeLanes mk.toNat).map (fun i => cvtFI tz (x i))).any (·.nonfin)))) ∧
    (∀ (w : Word), (val32 w).isNan = true → abs32 w = 0x7FC00000 ∧ neg32 w = 0x7FC00000 ∧ (∀ v, min32 w v = 0x7FC00000 ∧ max32 v w = 0x7FC00000 ∧
      (add32 w v).1 = 0x7FC00000 ∧ (mul32 v w).1 = 0x7FC00000))

/-- Scalars, `vl`, masks, accumulators and ports (R127, R130, R131, R136 to R139, R142, R144, R145, R149): s0 to s10 and m0 are not written, `vl` is
at most 2,048, a table index out of range stops the chunk at its least element, a store writes its operator's output. Where the spec leaves room, it
says what the model chose (log entries 9, 12, 46, 53). -/
def Obligations.ScalarsMasksReductionsPorts : Prop :=
  ∀ (s : State) (core : Nat), Engine s core →
    let c := s.vcore core
    (∀ (d a b : BitVec 4) (imm : BitVec 32),
      let gives (i : Instr) (w : DWord) (n : Nat) : Prop := Gives i s (fun t => OnlyEngine s core t ∧ t.vcore core = { c with vl := n, s := (t.vcore core).s } ∧
        (∀ r : Nat, r < 16 → (t.vcore core).sreg r = if r = d.toNat ∧ 11 ≤ r then w else c.sreg r))
      (c.op = none ∨ c.passes = [] ∨ a ≠ 1 →
        gives (.setvl core d a) (BitVec.ofNat 64 (min (c.sreg a.toNat).toNat 2048)) (min (c.sreg a.toNat).toNat 2048)) ∧
      (∀ m el rest, c.passes = (m, el) :: rest → c.op.isSome = true → m < 2 ^ 64 → el < 2 ^ 64 → c.wipe = [] → c.s.length = 16 →
        Gives (.setvl core d 1) s (fun t => OnlyEngine s core t ∧ (t.vcore core).vl = min m 2048 ∧ (t.vcore core).passes = rest ∧ (t.vcore core).v = c.v ∧
          (∀ r : Nat, r < 16 → (t.vcore core).sreg r = if r = d.toNat ∧ 11 ≤ r then BitVec.ofNat 64 (min m 2048) else if r = 1 then BitVec.ofNat 64 m
            else if r = 2 then BitVec.ofNat 64 el else c.sreg r))) ∧
      gives (.sli core d imm) (imm.signExtend 64) c.vl ∧ gives (.sadd core d a b) (c.sreg a.toNat + c.sreg b.toNat) c.vl ∧
      gives (.ssub core d a b) (c.sreg a.toNat - c.sreg b.toNat) c.vl ∧
      gives (.sminu core d a b) (if (c.sreg a.toNat).toNat ≤ (c.sreg b.toNat).toNat then c.sreg a.toNat else c.sreg b.toNat) c.vl) ∧
    (∀ (d p q mk : BitVec 3) (a b : BitVec 5) (pred : BitVec 3),
      let gives (i : Instr) (f : Nat → Bool) : Prop := Gives i s (fun t => OnlyEngine s core t ∧ t.vcore core = { c with m := (t.vcore core).m } ∧
        (∀ i, (t.vcore core).mbit 0 i = true) ∧ (∀ r i, r ≠ d.toNat → (t.vcore core).mbit r i = c.mbit r i) ∧
        (d ≠ 0 → ∀ i, (t.vcore core).mbit d.toNat i = f i))
      let low (f : Nat → Bool) (i : Nat) : Bool := if i < c.vl then f i else c.mbit d.toNat i
      gives (.vcmp core d a b pred mk) (fun i => if c.active mk.toNat i then cmp32 pred.toNat (c.lane a.toNat i) (c.lane b.toNat i) else c.mbit d.toNat i) ∧
      gives (.mand core d p q) (low (fun i => c.mbit p.toNat i && c.mbit q.toNat i)) ∧
      gives (.mor core d p q) (low (fun i => c.mbit p.toNat i || c.mbit q.toNat i)) ∧
      gives (.mxor core d p q) (low (fun i => c.mbit p.toNat i != c.mbit q.toNat i)) ∧ gives (.mnot core d p) (low (fun i => !c.mbit p.toNat i))) ∧
    (∀ (a b : BitVec 5) (acc : BitVec 2) (mk : BitVec 3),
      let gives (i : Instr) (e : VCore) : Prop := Gives i s (fun t => OnlyEngine s core t ∧ t.vcore core = e ∧ e.v = c.v ∧ e.m = c.m ∧ e.s = c.s ∧
        e.vl = c.vl ∧ (∀ k, k ≠ acc.toNat → nth e.acc k {} = nth c.acc k {}))
      gives (.rsum core a acc mk) (c.rsum acc.toNat mk.toNat (fun i => val32 (c.lane a.toNat i))) ∧
      gives (.rsump core a b acc mk) (c.rsum acc.toNat mk.toNat (fun i => Val.mul (val32 (c.lane a.toNat i)) (val32 (c.lane b.toNat i)))) ∧
      gives (.rmax core a acc mk) (c.rminmax acc.toNat mk.toNat a.toNat .max) ∧ gives (.rmin core a acc mk) (c.rminmax acc.toNat mk.toNat a.toNat .min) ∧
      gives (.rargmax core a acc mk) (c.rminmax acc.toNat mk.toNat a.toNat .argmax)) ∧
    (∀ (e : OpEntry) (d a : BitVec 5) (port mk : BitVec 3) (p : BitVec 6) (acc : BitVec 2) (part : Bool) (elem : BitVec 16), s.vecOp core = some e →
      let v := kenvOf (s.mathCtx e)
      let ix (i : Nat) : Nat := (c.lane a.toNat i).toNat
      Gives (.vld core d port mk) s (fun t =>
        LaneWrite s core d.toNat mk.toNat (fun i => BitVec.ofNat 32 (v.inEl port.toNat ((c.sreg 2).toNat + i)).code) t) ∧
      Gives (.vldx core d a port mk) s (fun t =>
        LaneWrite s core d.toNat mk.toNat (fun i => if ix i < v.inLen port.toNat then BitVec.ofNat 32 (v.inEl port.toNat (ix i)).code else c.lane d.toNat i) t ∧
        (t.vcore core).faultIndex = ((c.activeLanes mk.toNat).filter (fun i => decide (v.inLen port.toNat ≤ ix i))).head?.map (fun i => (c.sreg 2).toNat + i)) ∧
      (∀ w u, w = streamWrites (s.mathCtx e) port.toNat (fun q => 0x40 + q)
          (s.keptAt c.op port.toNat ++ (c.vst a.toNat mk.toNat).map (fun x => ⟨port.toNat, p.toNat, x.1, x.2⟩)) → s.planeWrites e.ctx w.1 = .ok u →
        Gives (.vst core a port p mk) s (fun t => t.memsys = u.memsys ∧ t.vcore core = { c with stat := c.stat.or w.2, kept := (t.vcore core).kept } ∧
          (isBlock32 ((s.mathCtx e).out port.toNat).fmt = false → t.keptAt c.op port.toNat = []) ∧ t.ctxs = s.ctxs ∧ t.runs = s.runs)) ∧
      (∀ (v : VI) w u, v = ⟨0x88, 0, 0, 0, 0, 0, 0, acc.toNat + bit part * 2 ^ 3 + port.toNat * 2 ^ 4 + p.toNat * 2 ^ 8 + elem.toNat * 2 ^ 16⟩ →
        w = rstoreWrite (s.mathCtx e) v (s.combinedAcc c.op) → s.planeWrites e.ctx w.1 = .ok u →
        Gives (.rstore core acc part port p elem) s (fun t => (rstoreUndef (s.mathCtx e) [v] = [] → t.memsys = u.memsys) ∧
          t.vcore core = { c with stat := c.stat.or w.2 } ∧ t.ctxs = s.ctxs)))

/-! ### Identifiers and the invariant -/

/-- Physical core p, for p from 0 to 831, lies in partition p div 52 and has index p mod 52 within it; these are the partition and the
physical-index field of its UnitID (R102), and the sub-unit and the instance stand beside them. -/
def Obligations.UnitIdsNamePhysicalCores : Prop :=
  ∀ p sub inst : Nat, p < 832 → sub < 256 → inst < 256 →
    p / 52 < 16 ∧ p = 52 * (p / 52) + p % 52 ∧ fld (uidCore p sub inst) 24 4 = p / 52 ∧ fld (uidCore p sub inst) 16 8 = p % 52 ∧
    fld (uidCore p sub inst) 8 8 = sub ∧ fld (uidCore p sub inst) 0 8 = inst ∧ fld (uidCore p sub inst) 28 4 = 0

/-- Every step, whichever of the 292 commands stands in front and also with an empty queue, keeps the invariant: memory stays in its canonical form,
and every vector engine keeps its registers and a `vl` of at most 2,048. -/
def Obligations.EveryStepKeepsTheInvariant : Prop := ∀ s t : State, Inv s → step s = .next t → Inv t
end

