-- ==== Sys2Proof/Laws/State.lean ====
section
/-! SUPPORT. What the updates of the state leave alone: one lemma for each field an update does not write. -/

namespace Sys2Proof.Machine

@[simp] theorem State.advance_pending (s : State) (n : Nat) : (s.advance n).pending = s.pending := rfl
@[simp] theorem State.advance_free (s : State) (n : Nat) : (s.advance n).free = s.free := rfl
@[simp] theorem State.advance_pins (s : State) (n : Nat) : (s.advance n).pins = s.pins := rfl
@[simp] theorem State.advance_boot (s : State) (n : Nat) : (s.advance n).boot = s.boot := rfl
@[simp] theorem State.advance_fuses (s : State) (n : Nat) : (s.advance n).fuses = s.fuses := rfl
@[simp] theorem State.advance_flash (s : State) (n : Nat) : (s.advance n).flash = s.flash := rfl
@[simp] theorem State.advance_vigil (s : State) (n : Nat) : (s.advance n).vigil = s.vigil := rfl
@[simp] theorem State.advance_cores (s : State) (n : Nat) : (s.advance n).cores = s.cores := rfl
@[simp] theorem State.advance_vec (s : State) (n : Nat) : (s.advance n).vec = s.vec := rfl
@[simp] theorem State.advance_memsys (s : State) (n : Nat) : (s.advance n).memsys = s.memsys := rfl
@[simp] theorem State.advance_ctxs (s : State) (n : Nat) : (s.advance n).ctxs = s.ctxs := rfl
@[simp] theorem State.advance_sched (s : State) (n : Nat) : (s.advance n).sched = s.sched := rfl
@[simp] theorem State.advance_links (s : State) (n : Nat) : (s.advance n).links = s.links := rfl
@[simp] theorem State.advance_exch (s : State) (n : Nat) : (s.advance n).exch = s.exch := rfl
@[simp] theorem State.advance_ctrl (s : State) (n : Nat) : (s.advance n).ctrl = s.ctrl := rfl
@[simp] theorem State.advance_runs (s : State) (n : Nat) : (s.advance n).runs = s.runs := rfl
@[simp] theorem State.advance_recov (s : State) (n : Nat) : (s.advance n).recov = s.recov := rfl
@[simp] theorem State.advance_twin (s : State) (n : Nat) : (s.advance n).twin = s.twin := rfl
@[simp] theorem State.advance_dump (s : State) (n : Nat) : (s.advance n).dump = s.dump := rfl
@[simp] theorem State.advance_run_ (s : State) (n : Nat) (jj : Nat) : (s.advance n).run jj = s.run jj := by simp [State.run]
@[simp] theorem State.advance_ctx_ (s : State) (n : Nat) (jj : Nat) : (s.advance n).ctx jj = s.ctx jj := by simp [State.ctx]
@[simp] theorem State.advance_core_ (s : State) (n : Nat) (jj : Nat) : (s.advance n).core jj = s.core jj := by simp [State.core]
@[simp] theorem State.advance_stackOf_ (s : State) (n : Nat) (jj : Nat) : (s.advance n).stackOf jj = s.stackOf jj := by simp [State.stackOf]
@[simp] theorem State.advance_store_ (s : State) (n : Nat) : (s.advance n).store = s.store := by simp [State.store]
@[simp] theorem State.advance_released_ (s : State) (n : Nat) : (s.advance n).released = s.released := by simp [State.released]
@[simp] theorem State.advance_link_ (s : State) (n : Nat) (y : LinkRef) : (s.advance n).link y = s.link y := by cases y <;> simp [State.link]
@[simp] theorem State.advance_openRuns_ (s : State) (n : Nat) : (s.advance n).openRuns = s.openRuns := by simp [State.openRuns]

@[simp] theorem State.advanceTo_pending (s : State) (n : Nat) : (s.advanceTo n).pending = s.pending := rfl
@[simp] theorem State.advanceTo_free (s : State) (n : Nat) : (s.advanceTo n).free = s.free := rfl
@[simp] theorem State.advanceTo_pins (s : State) (n : Nat) : (s.advanceTo n).pins = s.pins := rfl
@[simp] theorem State.advanceTo_boot (s : State) (n : Nat) : (s.advanceTo n).boot = s.boot := rfl
@[simp] theorem State.advanceTo_fuses (s : State) (n : Nat) : (s.advanceTo n).fuses = s.fuses := rfl
@[simp] theorem State.advanceTo_flash (s : State) (n : Nat) : (s.advanceTo n).flash = s.flash := rfl
@[simp] theorem State.advanceTo_vigil (s : State) (n : Nat) : (s.advanceTo n).vigil = s.vigil := rfl
@[simp] theorem State.advanceTo_cores (s : State) (n : Nat) : (s.advanceTo n).cores = s.cores := rfl
@[simp] theorem State.advanceTo_vec (s : State) (n : Nat) : (s.advanceTo n).vec = s.vec := rfl
@[simp] theorem State.advanceTo_memsys (s : State) (n : Nat) : (s.advanceTo n).memsys = s.memsys := rfl
@[simp] theorem State.advanceTo_ctxs (s : State) (n : Nat) : (s.advanceTo n).ctxs = s.ctxs := rfl
@[simp] theorem State.advanceTo_sched (s : State) (n : Nat) : (s.advanceTo n).sched = s.sched := rfl
@[simp] theorem State.advanceTo_links (s : State) (n : Nat) : (s.advanceTo n).links = s.links := rfl
@[simp] theorem State.advanceTo_exch (s : State) (n : Nat) : (s.advanceTo n).exch = s.exch := rfl
@[simp] theorem State.advanceTo_ctrl (s : State) (n : Nat) : (s.advanceTo n).ctrl = s.ctrl := rfl
@[simp] theorem State.advanceTo_runs (s : State) (n : Nat) : (s.advanceTo n).runs = s.runs := rfl
@[simp] theorem State.advanceTo_recov (s : State) (n : Nat) : (s.advanceTo n).recov = s.recov := rfl
@[simp] theorem State.advanceTo_twin (s : State) (n : Nat) : (s.advanceTo n).twin = s.twin := rfl
@[simp] theorem State.advanceTo_dump (s : State) (n : Nat) : (s.advanceTo n).dump = s.dump := rfl
@[simp] theorem State.advanceTo_run_ (s : State) (n : Nat) (jj : Nat) : (s.advanceTo n).run jj = s.run jj := by simp [State.run]
@[simp] theorem State.advanceTo_ctx_ (s : State) (n : Nat) (jj : Nat) : (s.advanceTo n).ctx jj = s.ctx jj := by simp [State.ctx]
@[simp] theorem State.advanceTo_core_ (s : State) (n : Nat) (jj : Nat) : (s.advanceTo n).core jj = s.core jj := by simp [State.core]
@[simp] theorem State.advanceTo_stackOf_ (s : State) (n : Nat) (jj : Nat) : (s.advanceTo n).stackOf jj = s.stackOf jj := by simp [State.stackOf]
@[simp] theorem State.advanceTo_store_ (s : State) (n : Nat) : (s.advanceTo n).store = s.store := by simp [State.store]
@[simp] theorem State.advanceTo_released_ (s : State) (n : Nat) : (s.advanceTo n).released = s.released := by simp [State.released]
@[simp] theorem State.advanceTo_link_ (s : State) (n : Nat) (y : LinkRef) : (s.advanceTo n).link y = s.link y := by cases y <;> simp [State.link]
@[simp] theorem State.advanceTo_openRuns_ (s : State) (n : Nat) : (s.advanceTo n).openRuns = s.openRuns := by simp [State.openRuns]

@[simp] theorem State.setRun_pending (s : State) (k : Nat) (r : Run) : (s.setRun k r).pending = s.pending := rfl
@[simp] theorem State.setRun_free (s : State) (k : Nat) (r : Run) : (s.setRun k r).free = s.free := rfl
@[simp] theorem State.setRun_now (s : State) (k : Nat) (r : Run) : (s.setRun k r).now = s.now := rfl
@[simp] theorem State.setRun_pins (s : State) (k : Nat) (r : Run) : (s.setRun k r).pins = s.pins := rfl
@[simp] theorem State.setRun_clk (s : State) (k : Nat) (r : Run) : (s.setRun k r).clk = s.clk := rfl
@[simp] theorem State.setRun_boot (s : State) (k : Nat) (r : Run) : (s.setRun k r).boot = s.boot := rfl
@[simp] theorem State.setRun_fuses (s : State) (k : Nat) (r : Run) : (s.setRun k r).fuses = s.fuses := rfl
@[simp] theorem State.setRun_flash (s : State) (k : Nat) (r : Run) : (s.setRun k r).flash = s.flash := rfl
@[simp] theorem State.setRun_vigil (s : State) (k : Nat) (r : Run) : (s.setRun k r).vigil = s.vigil := rfl
@[simp] theorem State.setRun_cores (s : State) (k : Nat) (r : Run) : (s.setRun k r).cores = s.cores := rfl
@[simp] theorem State.setRun_vec (s : State) (k : Nat) (r : Run) : (s.setRun k r).vec = s.vec := rfl
@[simp] theorem State.setRun_memsys (s : State) (k : Nat) (r : Run) : (s.setRun k r).memsys = s.memsys := rfl
@[simp] theorem State.setRun_ctxs (s : State) (k : Nat) (r : Run) : (s.setRun k r).ctxs = s.ctxs := rfl
@[simp] theorem State.setRun_sched (s : State) (k : Nat) (r : Run) : (s.setRun k r).sched = s.sched := rfl
@[simp] theorem State.setRun_links (s : State) (k : Nat) (r : Run) : (s.setRun k r).links = s.links := rfl
@[simp] theorem State.setRun_exch (s : State) (k : Nat) (r : Run) : (s.setRun k r).exch = s.exch := rfl
@[simp] theorem State.setRun_ctrl (s : State) (k : Nat) (r : Run) : (s.setRun k r).ctrl = s.ctrl := rfl
@[simp] theorem State.setRun_recov (s : State) (k : Nat) (r : Run) : (s.setRun k r).recov = s.recov := rfl
@[simp] theorem State.setRun_twin (s : State) (k : Nat) (r : Run) : (s.setRun k r).twin = s.twin := rfl
@[simp] theorem State.setRun_dump (s : State) (k : Nat) (r : Run) : (s.setRun k r).dump = s.dump := rfl
@[simp] theorem State.setRun_ctx_ (s : State) (k : Nat) (r : Run) (jj : Nat) : (s.setRun k r).ctx jj = s.ctx jj := by simp [State.ctx]
@[simp] theorem State.setRun_core_ (s : State) (k : Nat) (r : Run) (jj : Nat) : (s.setRun k r).core jj = s.core jj := by simp [State.core]
@[simp] theorem State.setRun_stackOf_ (s : State) (k : Nat) (r : Run) (jj : Nat) : (s.setRun k r).stackOf jj = s.stackOf jj := by simp [State.stackOf]
@[simp] theorem State.setRun_store_ (s : State) (k : Nat) (r : Run) : (s.setRun k r).store = s.store := by simp [State.store]
@[simp] theorem State.setRun_released_ (s : State) (k : Nat) (r : Run) : (s.setRun k r).released = s.released := by simp [State.released]
@[simp] theorem State.setRun_reqOf_ (s : State) (k : Nat) (r : Run) (z : Requester) : (s.setRun k r).reqOf z = s.reqOf z := by simp [State.reqOf]
@[simp] theorem State.setRun_link_ (s : State) (k : Nat) (r : Run) (y : LinkRef) : (s.setRun k r).link y = s.link y := by cases y <;> simp [State.link]

@[simp] theorem State.updRun_pending (s : State) (k : Nat) (f : Run → Run) : (s.updRun k f).pending = s.pending := rfl
@[simp] theorem State.updRun_free (s : State) (k : Nat) (f : Run → Run) : (s.updRun k f).free = s.free := rfl
@[simp] theorem State.updRun_now (s : State) (k : Nat) (f : Run → Run) : (s.updRun k f).now = s.now := rfl
@[simp] theorem State.updRun_pins (s : State) (k : Nat) (f : Run → Run) : (s.updRun k f).pins = s.pins := rfl
@[simp] theorem State.updRun_clk (s : State) (k : Nat) (f : Run → Run) : (s.updRun k f).clk = s.clk := rfl
@[simp] theorem State.updRun_boot (s : State) (k : Nat) (f : Run → Run) : (s.updRun k f).boot = s.boot := rfl
@[simp] theorem State.updRun_fuses (s : State) (k : Nat) (f : Run → Run) : (s.updRun k f).fuses = s.fuses := rfl
@[simp] theorem State.updRun_flash (s : State) (k : Nat) (f : Run → Run) : (s.updRun k f).flash = s.flash := rfl
@[simp] theorem State.updRun_vigil (s : State) (k : Nat) (f : Run → Run) : (s.updRun k f).vigil = s.vigil := rfl
@[simp] theorem State.updRun_cores (s : State) (k : Nat) (f : Run → Run) : (s.updRun k f).cores = s.cores := rfl
@[simp] theorem State.updRun_vec (s : State) (k : Nat) (f : Run → Run) : (s.updRun k f).vec = s.vec := rfl
@[simp] theorem State.updRun_memsys (s : State) (k : Nat) (f : Run → Run) : (s.updRun k f).memsys = s.memsys := rfl
@[simp] theorem State.updRun_ctxs (s : State) (k : Nat) (f : Run → Run) : (s.updRun k f).ctxs = s.ctxs := rfl
@[simp] theorem State.updRun_sched (s : State) (k : Nat) (f : Run → Run) : (s.updRun k f).sched = s.sched := rfl
@[simp] theorem State.updRun_links (s : State) (k : Nat) (f : Run → Run) : (s.updRun k f).links = s.links := rfl
@[simp] theorem State.updRun_exch (s : State) (k : Nat) (f : Run → Run) : (s.updRun k f).exch = s.exch := rfl
@[simp] theorem State.updRun_ctrl (s : State) (k : Nat) (f : Run → Run) : (s.updRun k f).ctrl = s.ctrl := rfl
@[simp] theorem State.updRun_recov (s : State) (k : Nat) (f : Run → Run) : (s.updRun k f).recov = s.recov := rfl
@[simp] theorem State.updRun_twin (s : State) (k : Nat) (f : Run → Run) : (s.updRun k f).twin = s.twin := rfl
@[simp] theorem State.updRun_dump (s : State) (k : Nat) (f : Run → Run) : (s.updRun k f).dump = s.dump := rfl
@[simp] theorem State.updRun_ctx_ (s : State) (k : Nat) (f : Run → Run) (jj : Nat) : (s.updRun k f).ctx jj = s.ctx jj := by simp [State.ctx]
@[simp] theorem State.updRun_core_ (s : State) (k : Nat) (f : Run → Run) (jj : Nat) : (s.updRun k f).core jj = s.core jj := by simp [State.core]
@[simp] theorem State.updRun_stackOf_ (s : State) (k : Nat) (f : Run → Run) (jj : Nat) : (s.updRun k f).stackOf jj = s.stackOf jj := by simp [State.stackOf]
@[simp] theorem State.updRun_store_ (s : State) (k : Nat) (f : Run → Run) : (s.updRun k f).store = s.store := by simp [State.store]
@[simp] theorem State.updRun_released_ (s : State) (k : Nat) (f : Run → Run) : (s.updRun k f).released = s.released := by simp [State.released]
@[simp] theorem State.updRun_reqOf_ (s : State) (k : Nat) (f : Run → Run) (z : Requester) : (s.updRun k f).reqOf z = s.reqOf z := by simp [State.reqOf]
@[simp] theorem State.updRun_link_ (s : State) (k : Nat) (f : Run → Run) (y : LinkRef) : (s.updRun k f).link y = s.link y := by cases y <;> simp [State.link]

@[simp] theorem State.fault_pending (s : State) (k : Nat) : (s.fault k).pending = s.pending := by unfold State.fault; split <;> rfl
@[simp] theorem State.fault_free (s : State) (k : Nat) : (s.fault k).free = s.free := by unfold State.fault; split <;> rfl
@[simp] theorem State.fault_now (s : State) (k : Nat) : (s.fault k).now = s.now := by unfold State.fault; split <;> rfl
@[simp] theorem State.fault_pins (s : State) (k : Nat) : (s.fault k).pins = s.pins := by unfold State.fault; split <;> rfl
@[simp] theorem State.fault_clk (s : State) (k : Nat) : (s.fault k).clk = s.clk := by unfold State.fault; split <;> rfl
@[simp] theorem State.fault_boot (s : State) (k : Nat) : (s.fault k).boot = s.boot := by unfold State.fault; split <;> rfl
@[simp] theorem State.fault_fuses (s : State) (k : Nat) : (s.fault k).fuses = s.fuses := by unfold State.fault; split <;> rfl
@[simp] theorem State.fault_flash (s : State) (k : Nat) : (s.fault k).flash = s.flash := by unfold State.fault; split <;> rfl
@[simp] theorem State.fault_vigil (s : State) (k : Nat) : (s.fault k).vigil = s.vigil := by unfold State.fault; split <;> rfl
@[simp] theorem State.fault_cores (s : State) (k : Nat) : (s.fault k).cores = s.cores := by unfold State.fault; split <;> rfl
@[simp] theorem State.fault_vec (s : State) (k : Nat) : (s.fault k).vec = s.vec := by unfold State.fault; split <;> rfl
@[simp] theorem State.fault_memsys (s : State) (k : Nat) : (s.fault k).memsys = s.memsys := by unfold State.fault; split <;> rfl
@[simp] theorem State.fault_ctxs (s : State) (k : Nat) : (s.fault k).ctxs = s.ctxs := by unfold State.fault; split <;> rfl
@[simp] theorem State.fault_sched (s : State) (k : Nat) : (s.fault k).sched = s.sched := by unfold State.fault; split <;> rfl
@[simp] theorem State.fault_links (s : State) (k : Nat) : (s.fault k).links = s.links := by unfold State.fault; split <;> rfl
@[simp] theorem State.fault_exch (s : State) (k : Nat) : (s.fault k).exch = s.exch := by unfold State.fault; split <;> rfl
@[simp] theorem State.fault_ctrl (s : State) (k : Nat) : (s.fault k).ctrl = s.ctrl := by unfold State.fault; split <;> rfl
@[simp] theorem State.fault_recov (s : State) (k : Nat) : (s.fault k).recov = s.recov := by unfold State.fault; split <;> rfl
@[simp] theorem State.fault_twin (s : State) (k : Nat) : (s.fault k).twin = s.twin := by unfold State.fault; split <;> rfl
@[simp] theorem State.fault_dump (s : State) (k : Nat) : (s.fault k).dump = s.dump := by unfold State.fault; split <;> rfl
@[simp] theorem State.fault_ctx_ (s : State) (k : Nat) (jj : Nat) : (s.fault k).ctx jj = s.ctx jj := by simp [State.ctx]
@[simp] theorem State.fault_core_ (s : State) (k : Nat) (jj : Nat) : (s.fault k).core jj = s.core jj := by simp [State.core]
@[simp] theorem State.fault_stackOf_ (s : State) (k : Nat) (jj : Nat) : (s.fault k).stackOf jj = s.stackOf jj := by simp [State.stackOf]
@[simp] theorem State.fault_store_ (s : State) (k : Nat) : (s.fault k).store = s.store := by simp [State.store]
@[simp] theorem State.fault_released_ (s : State) (k : Nat) : (s.fault k).released = s.released := by simp [State.released]
@[simp] theorem State.fault_reqOf_ (s : State) (k : Nat) (z : Requester) : (s.fault k).reqOf z = s.reqOf z := by simp [State.reqOf]
@[simp] theorem State.fault_link_ (s : State) (k : Nat) (y : LinkRef) : (s.fault k).link y = s.link y := by cases y <;> simp [State.link]

@[simp] theorem State.faultAll_pending (s : State) : (s.faultAll).pending = s.pending := rfl
@[simp] theorem State.faultAll_free (s : State) : (s.faultAll).free = s.free := rfl
@[simp] theorem State.faultAll_now (s : State) : (s.faultAll).now = s.now := rfl
@[simp] theorem State.faultAll_pins (s : State) : (s.faultAll).pins = s.pins := rfl
@[simp] theorem State.faultAll_clk (s : State) : (s.faultAll).clk = s.clk := rfl
@[simp] theorem State.faultAll_boot (s : State) : (s.faultAll).boot = s.boot := rfl
@[simp] theorem State.faultAll_fuses (s : State) : (s.faultAll).fuses = s.fuses := rfl
@[simp] theorem State.faultAll_flash (s : State) : (s.faultAll).flash = s.flash := rfl
@[simp] theorem State.faultAll_vigil (s : State) : (s.faultAll).vigil = s.vigil := rfl
@[simp] theorem State.faultAll_cores (s : State) : (s.faultAll).cores = s.cores := rfl
@[simp] theorem State.faultAll_vec (s : State) : (s.faultAll).vec = s.vec := rfl
@[simp] theorem State.faultAll_memsys (s : State) : (s.faultAll).memsys = s.memsys := rfl
@[simp] theorem State.faultAll_ctxs (s : State) : (s.faultAll).ctxs = s.ctxs := rfl
@[simp] theorem State.faultAll_sched (s : State) : (s.faultAll).sched = s.sched := rfl
@[simp] theorem State.faultAll_links (s : State) : (s.faultAll).links = s.links := rfl
@[simp] theorem State.faultAll_exch (s : State) : (s.faultAll).exch = s.exch := rfl
@[simp] theorem State.faultAll_ctrl (s : State) : (s.faultAll).ctrl = s.ctrl := rfl
@[simp] theorem State.faultAll_recov (s : State) : (s.faultAll).recov = s.recov := rfl
@[simp] theorem State.faultAll_twin (s : State) : (s.faultAll).twin = s.twin := rfl
@[simp] theorem State.faultAll_dump (s : State) : (s.faultAll).dump = s.dump := rfl
@[simp] theorem State.faultAll_ctx_ (s : State) (jj : Nat) : (s.faultAll).ctx jj = s.ctx jj := by simp [State.ctx]
@[simp] theorem State.faultAll_core_ (s : State) (jj : Nat) : (s.faultAll).core jj = s.core jj := by simp [State.core]
@[simp] theorem State.faultAll_stackOf_ (s : State) (jj : Nat) : (s.faultAll).stackOf jj = s.stackOf jj := by simp [State.stackOf]
@[simp] theorem State.faultAll_store_ (s : State) : (s.faultAll).store = s.store := by simp [State.store]
@[simp] theorem State.faultAll_released_ (s : State) : (s.faultAll).released = s.released := by simp [State.released]
@[simp] theorem State.faultAll_reqOf_ (s : State) (z : Requester) : (s.faultAll).reqOf z = s.reqOf z := by simp [State.reqOf]
@[simp] theorem State.faultAll_link_ (s : State) (y : LinkRef) : (s.faultAll).link y = s.link y := by cases y <;> simp [State.link]

@[simp] theorem State.setLink_pending (s : State) (l : LinkRef) (k : Link) : (s.setLink l k).pending = s.pending := by cases l <;> rfl
@[simp] theorem State.setLink_free (s : State) (l : LinkRef) (k : Link) : (s.setLink l k).free = s.free := by cases l <;> rfl
@[simp] theorem State.setLink_now (s : State) (l : LinkRef) (k : Link) : (s.setLink l k).now = s.now := by cases l <;> rfl
@[simp] theorem State.setLink_pins (s : State) (l : LinkRef) (k : Link) : (s.setLink l k).pins = s.pins := by cases l <;> rfl
@[simp] theorem State.setLink_clk (s : State) (l : LinkRef) (k : Link) : (s.setLink l k).clk = s.clk := by cases l <;> rfl
@[simp] theorem State.setLink_boot (s : State) (l : LinkRef) (k : Link) : (s.setLink l k).boot = s.boot := by cases l <;> rfl
@[simp] theorem State.setLink_fuses (s : State) (l : LinkRef) (k : Link) : (s.setLink l k).fuses = s.fuses := by cases l <;> rfl
@[simp] theorem State.setLink_flash (s : State) (l : LinkRef) (k : Link) : (s.setLink l k).flash = s.flash := by cases l <;> rfl
@[simp] theorem State.setLink_vigil (s : State) (l : LinkRef) (k : Link) : (s.setLink l k).vigil = s.vigil := by cases l <;> rfl
@[simp] theorem State.setLink_cores (s : State) (l : LinkRef) (k : Link) : (s.setLink l k).cores = s.cores := by cases l <;> rfl
@[simp] theorem State.setLink_vec (s : State) (l : LinkRef) (k : Link) : (s.setLink l k).vec = s.vec := by cases l <;> rfl
@[simp] theorem State.setLink_memsys (s : State) (l : LinkRef) (k : Link) : (s.setLink l k).memsys = s.memsys := by cases l <;> rfl
@[simp] theorem State.setLink_ctxs (s : State) (l : LinkRef) (k : Link) : (s.setLink l k).ctxs = s.ctxs := by cases l <;> rfl
@[simp] theorem State.setLink_sched (s : State) (l : LinkRef) (k : Link) : (s.setLink l k).sched = s.sched := by cases l <;> rfl
@[simp] theorem State.setLink_exch (s : State) (l : LinkRef) (k : Link) : (s.setLink l k).exch = s.exch := by cases l <;> rfl
@[simp] theorem State.setLink_ctrl (s : State) (l : LinkRef) (k : Link) : (s.setLink l k).ctrl = s.ctrl := by cases l <;> rfl
@[simp] theorem State.setLink_runs (s : State) (l : LinkRef) (k : Link) : (s.setLink l k).runs = s.runs := by cases l <;> rfl
@[simp] theorem State.setLink_recov (s : State) (l : LinkRef) (k : Link) : (s.setLink l k).recov = s.recov := by cases l <;> rfl
@[simp] theorem State.setLink_twin (s : State) (l : LinkRef) (k : Link) : (s.setLink l k).twin = s.twin := by cases l <;> rfl
@[simp] theorem State.setLink_dump (s : State) (l : LinkRef) (k : Link) : (s.setLink l k).dump = s.dump := by cases l <;> rfl
@[simp] theorem State.setLink_run_ (s : State) (l : LinkRef) (k : Link) (jj : Nat) : (s.setLink l k).run jj = s.run jj := by simp [State.run]
@[simp] theorem State.setLink_ctx_ (s : State) (l : LinkRef) (k : Link) (jj : Nat) : (s.setLink l k).ctx jj = s.ctx jj := by simp [State.ctx]
@[simp] theorem State.setLink_core_ (s : State) (l : LinkRef) (k : Link) (jj : Nat) : (s.setLink l k).core jj = s.core jj := by simp [State.core]
@[simp] theorem State.setLink_stackOf_ (s : State) (l : LinkRef) (k : Link) (jj : Nat) : (s.setLink l k).stackOf jj = s.stackOf jj := by simp [State.stackOf]
@[simp] theorem State.setLink_store_ (s : State) (l : LinkRef) (k : Link) : (s.setLink l k).store = s.store := by simp [State.store]
@[simp] theorem State.setLink_released_ (s : State) (l : LinkRef) (k : Link) : (s.setLink l k).released = s.released := by simp [State.released]
@[simp] theorem State.setLink_reqOf_ (s : State) (l : LinkRef) (k : Link) (z : Requester) : (s.setLink l k).reqOf z = s.reqOf z := by simp [State.reqOf]
@[simp] theorem State.setLink_openRuns_ (s : State) (l : LinkRef) (k : Link) : (s.setLink l k).openRuns = s.openRuns := by simp [State.openRuns]

@[simp] theorem State.updLink_pending (s : State) (l : LinkRef) (f : Link → Link) : (s.updLink l f).pending = s.pending := by cases l <;> rfl
@[simp] theorem State.updLink_free (s : State) (l : LinkRef) (f : Link → Link) : (s.updLink l f).free = s.free := by cases l <;> rfl
@[simp] theorem State.updLink_now (s : State) (l : LinkRef) (f : Link → Link) : (s.updLink l f).now = s.now := by cases l <;> rfl
@[simp] theorem State.updLink_pins (s : State) (l : LinkRef) (f : Link → Link) : (s.updLink l f).pins = s.pins := by cases l <;> rfl
@[simp] theorem State.updLink_clk (s : State) (l : LinkRef) (f : Link → Link) : (s.updLink l f).clk = s.clk := by cases l <;> rfl
@[simp] theorem State.updLink_boot (s : State) (l : LinkRef) (f : Link → Link) : (s.updLink l f).boot = s.boot := by cases l <;> rfl
@[simp] theorem State.updLink_fuses (s : State) (l : LinkRef) (f : Link → Link) : (s.updLink l f).fuses = s.fuses := by cases l <;> rfl
@[simp] theorem State.updLink_flash (s : State) (l : LinkRef) (f : Link → Link) : (s.updLink l f).flash = s.flash := by cases l <;> rfl
@[simp] theorem State.updLink_vigil (s : State) (l : LinkRef) (f : Link → Link) : (s.updLink l f).vigil = s.vigil := by cases l <;> rfl
@[simp] theorem State.updLink_cores (s : State) (l : LinkRef) (f : Link → Link) : (s.updLink l f).cores = s.cores := by cases l <;> rfl
@[simp] theorem State.updLink_vec (s : State) (l : LinkRef) (f : Link → Link) : (s.updLink l f).vec = s.vec := by cases l <;> rfl
@[simp] theorem State.updLink_memsys (s : State) (l : LinkRef) (f : Link → Link) : (s.updLink l f).memsys = s.memsys := by cases l <;> rfl
@[simp] theorem State.updLink_ctxs (s : State) (l : LinkRef) (f : Link → Link) : (s.updLink l f).ctxs = s.ctxs := by cases l <;> rfl
@[simp] theorem State.updLink_sched (s : State) (l : LinkRef) (f : Link → Link) : (s.updLink l f).sched = s.sched := by cases l <;> rfl
@[simp] theorem State.updLink_exch (s : State) (l : LinkRef) (f : Link → Link) : (s.updLink l f).exch = s.exch := by cases l <;> rfl
@[simp] theorem State.updLink_ctrl (s : State) (l : LinkRef) (f : Link → Link) : (s.updLink l f).ctrl = s.ctrl := by cases l <;> rfl
@[simp] theorem State.updLink_runs (s : State) (l : LinkRef) (f : Link → Link) : (s.updLink l f).runs = s.runs := by cases l <;> rfl
@[simp] theorem State.updLink_recov (s : State) (l : LinkRef) (f : Link → Link) : (s.updLink l f).recov = s.recov := by cases l <;> rfl
@[simp] theorem State.updLink_twin (s : State) (l : LinkRef) (f : Link → Link) : (s.updLink l f).twin = s.twin := by cases l <;> rfl
@[simp] theorem State.updLink_dump (s : State) (l : LinkRef) (f : Link → Link) : (s.updLink l f).dump = s.dump := by cases l <;> rfl
@[simp] theorem State.updLink_run_ (s : State) (l : LinkRef) (f : Link → Link) (jj : Nat) : (s.updLink l f).run jj = s.run jj := by simp [State.run]
@[simp] theorem State.updLink_ctx_ (s : State) (l : LinkRef) (f : Link → Link) (jj : Nat) : (s.updLink l f).ctx jj = s.ctx jj := by simp [State.ctx]
@[simp] theorem State.updLink_core_ (s : State) (l : LinkRef) (f : Link → Link) (jj : Nat) : (s.updLink l f).core jj = s.core jj := by simp [State.core]
@[simp] theorem State.updLink_stackOf_ (s : State) (l : LinkRef) (f : Link → Link) (jj : Nat) : (s.updLink l f).stackOf jj = s.stackOf jj := by simp [State.stackOf]
@[simp] theorem State.updLink_store_ (s : State) (l : LinkRef) (f : Link → Link) : (s.updLink l f).store = s.store := by simp [State.store]
@[simp] theorem State.updLink_released_ (s : State) (l : LinkRef) (f : Link → Link) : (s.updLink l f).released = s.released := by simp [State.released]
@[simp] theorem State.updLink_reqOf_ (s : State) (l : LinkRef) (f : Link → Link) (z : Requester) : (s.updLink l f).reqOf z = s.reqOf z := by simp [State.reqOf]
@[simp] theorem State.updLink_openRuns_ (s : State) (l : LinkRef) (f : Link → Link) : (s.updLink l f).openRuns = s.openRuns := by simp [State.openRuns]

@[simp] theorem State.hostSend_pending (s : State) (n c : Nat) (h : Header) (d : List Byte) : (s.hostSend n c h d).pending = s.pending := rfl
@[simp] theorem State.hostSend_free (s : State) (n c : Nat) (h : Header) (d : List Byte) : (s.hostSend n c h d).free = s.free := rfl
@[simp] theorem State.hostSend_now (s : State) (n c : Nat) (h : Header) (d : List Byte) : (s.hostSend n c h d).now = s.now := rfl
@[simp] theorem State.hostSend_pins (s : State) (n c : Nat) (h : Header) (d : List Byte) : (s.hostSend n c h d).pins = s.pins := rfl
@[simp] theorem State.hostSend_clk (s : State) (n c : Nat) (h : Header) (d : List Byte) : (s.hostSend n c h d).clk = s.clk := rfl
@[simp] theorem State.hostSend_boot (s : State) (n c : Nat) (h : Header) (d : List Byte) : (s.hostSend n c h d).boot = s.boot := rfl
@[simp] theorem State.hostSend_fuses (s : State) (n c : Nat) (h : Header) (d : List Byte) : (s.hostSend n c h d).fuses = s.fuses := rfl
@[simp] theorem State.hostSend_flash (s : State) (n c : Nat) (h : Header) (d : List Byte) : (s.hostSend n c h d).flash = s.flash := rfl
@[simp] theorem State.hostSend_vigil (s : State) (n c : Nat) (h : Header) (d : List Byte) : (s.hostSend n c h d).vigil = s.vigil := rfl
@[simp] theorem State.hostSend_cores (s : State) (n c : Nat) (h : Header) (d : List Byte) : (s.hostSend n c h d).cores = s.cores := rfl
@[simp] theorem State.hostSend_vec (s : State) (n c : Nat) (h : Header) (d : List Byte) : (s.hostSend n c h d).vec = s.vec := rfl
@[simp] theorem State.hostSend_memsys (s : State) (n c : Nat) (h : Header) (d : List Byte) : (s.hostSend n c h d).memsys = s.memsys := rfl
@[simp] theorem State.hostSend_ctxs (s : State) (n c : Nat) (h : Header) (d : List Byte) : (s.hostSend n c h d).ctxs = s.ctxs := rfl
@[simp] theorem State.hostSend_sched (s : State) (n c : Nat) (h : Header) (d : List Byte) : (s.hostSend n c h d).sched = s.sched := rfl
@[simp] theorem State.hostSend_exch (s : State) (n c : Nat) (h : Header) (d : List Byte) : (s.hostSend n c h d).exch = s.exch := rfl
@[simp] theorem State.hostSend_ctrl (s : State) (n c : Nat) (h : Header) (d : List Byte) : (s.hostSend n c h d).ctrl = s.ctrl := rfl
@[simp] theorem State.hostSend_runs (s : State) (n c : Nat) (h : Header) (d : List Byte) : (s.hostSend n c h d).runs = s.runs := rfl
@[simp] theorem State.hostSend_recov (s : State) (n c : Nat) (h : Header) (d : List Byte) : (s.hostSend n c h d).recov = s.recov := rfl
@[simp] theorem State.hostSend_twin (s : State) (n c : Nat) (h : Header) (d : List Byte) : (s.hostSend n c h d).twin = s.twin := rfl
@[simp] theorem State.hostSend_dump (s : State) (n c : Nat) (h : Header) (d : List Byte) : (s.hostSend n c h d).dump = s.dump := rfl
@[simp] theorem State.hostSend_run_ (s : State) (n c : Nat) (h : Header) (d : List Byte) (jj : Nat) : (s.hostSend n c h d).run jj = s.run jj := by simp [State.run]
@[simp] theorem State.hostSend_ctx_ (s : State) (n c : Nat) (h : Header) (d : List Byte) (jj : Nat) : (s.hostSend n c h d).ctx jj = s.ctx jj := by simp [State.ctx]
@[simp] theorem State.hostSend_core_ (s : State) (n c : Nat) (h : Header) (d : List Byte) (jj : Nat) : (s.hostSend n c h d).core jj = s.core jj := by simp [State.core]
@[simp] theorem State.hostSend_stackOf_ (s : State) (n c : Nat) (h : Header) (d : List Byte) (jj : Nat) : (s.hostSend n c h d).stackOf jj = s.stackOf jj := by simp [State.stackOf]
@[simp] theorem State.hostSend_store_ (s : State) (n c : Nat) (h : Header) (d : List Byte) : (s.hostSend n c h d).store = s.store := by simp [State.store]
@[simp] theorem State.hostSend_released_ (s : State) (n c : Nat) (h : Header) (d : List Byte) : (s.hostSend n c h d).released = s.released := by simp [State.released]
@[simp] theorem State.hostSend_reqOf_ (s : State) (n c : Nat) (h : Header) (d : List Byte) (z : Requester) : (s.hostSend n c h d).reqOf z = s.reqOf z := by simp [State.reqOf]
@[simp] theorem State.hostSend_openRuns_ (s : State) (n c : Nat) (h : Header) (d : List Byte) : (s.hostSend n c h d).openRuns = s.openRuns := by simp [State.openRuns]

@[simp] theorem State.noticeDropped_pending (s : State) (n : Nat) : (s.noticeDropped n).pending = s.pending := rfl
@[simp] theorem State.noticeDropped_free (s : State) (n : Nat) : (s.noticeDropped n).free = s.free := rfl
@[simp] theorem State.noticeDropped_now (s : State) (n : Nat) : (s.noticeDropped n).now = s.now := rfl
@[simp] theorem State.noticeDropped_pins (s : State) (n : Nat) : (s.noticeDropped n).pins = s.pins := rfl
@[simp] theorem State.noticeDropped_clk (s : State) (n : Nat) : (s.noticeDropped n).clk = s.clk := rfl
@[simp] theorem State.noticeDropped_boot (s : State) (n : Nat) : (s.noticeDropped n).boot = s.boot := rfl
@[simp] theorem State.noticeDropped_fuses (s : State) (n : Nat) : (s.noticeDropped n).fuses = s.fuses := rfl
@[simp] theorem State.noticeDropped_flash (s : State) (n : Nat) : (s.noticeDropped n).flash = s.flash := rfl
@[simp] theorem State.noticeDropped_vigil (s : State) (n : Nat) : (s.noticeDropped n).vigil = s.vigil := rfl
@[simp] theorem State.noticeDropped_cores (s : State) (n : Nat) : (s.noticeDropped n).cores = s.cores := rfl
@[simp] theorem State.noticeDropped_vec (s : State) (n : Nat) : (s.noticeDropped n).vec = s.vec := rfl
@[simp] theorem State.noticeDropped_memsys (s : State) (n : Nat) : (s.noticeDropped n).memsys = s.memsys := rfl
@[simp] theorem State.noticeDropped_ctxs (s : State) (n : Nat) : (s.noticeDropped n).ctxs = s.ctxs := rfl
@[simp] theorem State.noticeDropped_sched (s : State) (n : Nat) : (s.noticeDropped n).sched = s.sched := rfl
@[simp] theorem State.noticeDropped_exch (s : State) (n : Nat) : (s.noticeDropped n).exch = s.exch := rfl
@[simp] theorem State.noticeDropped_ctrl (s : State) (n : Nat) : (s.noticeDropped n).ctrl = s.ctrl := rfl
@[simp] theorem State.noticeDropped_runs (s : State) (n : Nat) : (s.noticeDropped n).runs = s.runs := rfl
@[simp] theorem State.noticeDropped_recov (s : State) (n : Nat) : (s.noticeDropped n).recov = s.recov := rfl
@[simp] theorem State.noticeDropped_twin (s : State) (n : Nat) : (s.noticeDropped n).twin = s.twin := rfl
@[simp] theorem State.noticeDropped_dump (s : State) (n : Nat) : (s.noticeDropped n).dump = s.dump := rfl
@[simp] theorem State.noticeDropped_run_ (s : State) (n : Nat) (jj : Nat) : (s.noticeDropped n).run jj = s.run jj := by simp [State.run]
@[simp] theorem State.noticeDropped_ctx_ (s : State) (n : Nat) (jj : Nat) : (s.noticeDropped n).ctx jj = s.ctx jj := by simp [State.ctx]
@[simp] theorem State.noticeDropped_core_ (s : State) (n : Nat) (jj : Nat) : (s.noticeDropped n).core jj = s.core jj := by simp [State.core]
@[simp] theorem State.noticeDropped_stackOf_ (s : State) (n : Nat) (jj : Nat) : (s.noticeDropped n).stackOf jj = s.stackOf jj := by simp [State.stackOf]
@[simp] theorem State.noticeDropped_store_ (s : State) (n : Nat) : (s.noticeDropped n).store = s.store := by simp [State.store]
@[simp] theorem State.noticeDropped_released_ (s : State) (n : Nat) : (s.noticeDropped n).released = s.released := by simp [State.released]
@[simp] theorem State.noticeDropped_reqOf_ (s : State) (n : Nat) (z : Requester) : (s.noticeDropped n).reqOf z = s.reqOf z := by simp [State.reqOf]
@[simp] theorem State.noticeDropped_openRuns_ (s : State) (n : Nat) : (s.noticeDropped n).openRuns = s.openRuns := by simp [State.openRuns]

@[simp] theorem State.noticeOn_pending (s : State) (n c : Nat) (h : Header) (d : List Byte) : (s.noticeOn n c h d).pending = s.pending := by unfold State.noticeOn; split <;> rfl
@[simp] theorem State.noticeOn_free (s : State) (n c : Nat) (h : Header) (d : List Byte) : (s.noticeOn n c h d).free = s.free := by unfold State.noticeOn; split <;> rfl
@[simp] theorem State.noticeOn_now (s : State) (n c : Nat) (h : Header) (d : List Byte) : (s.noticeOn n c h d).now = s.now := by unfold State.noticeOn; split <;> rfl
@[simp] theorem State.noticeOn_pins (s : State) (n c : Nat) (h : Header) (d : List Byte) : (s.noticeOn n c h d).pins = s.pins := by unfold State.noticeOn; split <;> rfl
@[simp] theorem State.noticeOn_clk (s : State) (n c : Nat) (h : Header) (d : List Byte) : (s.noticeOn n c h d).clk = s.clk := by unfold State.noticeOn; split <;> rfl
@[simp] theorem State.noticeOn_boot (s : State) (n c : Nat) (h : Header) (d : List Byte) : (s.noticeOn n c h d).boot = s.boot := by unfold State.noticeOn; split <;> rfl
@[simp] theorem State.noticeOn_fuses (s : State) (n c : Nat) (h : Header) (d : List Byte) : (s.noticeOn n c h d).fuses = s.fuses := by unfold State.noticeOn; split <;> rfl
@[simp] theorem State.noticeOn_flash (s : State) (n c : Nat) (h : Header) (d : List Byte) : (s.noticeOn n c h d).flash = s.flash := by unfold State.noticeOn; split <;> rfl
@[simp] theorem State.noticeOn_vigil (s : State) (n c : Nat) (h : Header) (d : List Byte) : (s.noticeOn n c h d).vigil = s.vigil := by unfold State.noticeOn; split <;> rfl
@[simp] theorem State.noticeOn_cores (s : State) (n c : Nat) (h : Header) (d : List Byte) : (s.noticeOn n c h d).cores = s.cores := by unfold State.noticeOn; split <;> rfl
@[simp] theorem State.noticeOn_vec (s : State) (n c : Nat) (h : Header) (d : List Byte) : (s.noticeOn n c h d).vec = s.vec := by unfold State.noticeOn; split <;> rfl
@[simp] theorem State.noticeOn_memsys (s : State) (n c : Nat) (h : Header) (d : List Byte) : (s.noticeOn n c h d).memsys = s.memsys := by unfold State.noticeOn; split <;> rfl
@[simp] theorem State.noticeOn_ctxs (s : State) (n c : Nat) (h : Header) (d : List Byte) : (s.noticeOn n c h d).ctxs = s.ctxs := by unfold State.noticeOn; split <;> rfl
@[simp] theorem State.noticeOn_sched (s : State) (n c : Nat) (h : Header) (d : List Byte) : (s.noticeOn n c h d).sched = s.sched := by unfold State.noticeOn; split <;> rfl
@[simp] theorem State.noticeOn_exch (s : State) (n c : Nat) (h : Header) (d : List Byte) : (s.noticeOn n c h d).exch = s.exch := by unfold State.noticeOn; split <;> rfl
@[simp] theorem State.noticeOn_ctrl (s : State) (n c : Nat) (h : Header) (d : List Byte) : (s.noticeOn n c h d).ctrl = s.ctrl := by unfold State.noticeOn; split <;> rfl
@[simp] theorem State.noticeOn_runs (s : State) (n c : Nat) (h : Header) (d : List Byte) : (s.noticeOn n c h d).runs = s.runs := by unfold State.noticeOn; split <;> rfl
@[simp] theorem State.noticeOn_recov (s : State) (n c : Nat) (h : Header) (d : List Byte) : (s.noticeOn n c h d).recov = s.recov := by unfold State.noticeOn; split <;> rfl
@[simp] theorem State.noticeOn_twin (s : State) (n c : Nat) (h : Header) (d : List Byte) : (s.noticeOn n c h d).twin = s.twin := by unfold State.noticeOn; split <;> rfl
@[simp] theorem State.noticeOn_dump (s : State) (n c : Nat) (h : Header) (d : List Byte) : (s.noticeOn n c h d).dump = s.dump := by unfold State.noticeOn; split <;> rfl
@[simp] theorem State.noticeOn_run_ (s : State) (n c : Nat) (h : Header) (d : List Byte) (jj : Nat) : (s.noticeOn n c h d).run jj = s.run jj := by simp [State.run]
@[simp] theorem State.noticeOn_ctx_ (s : State) (n c : Nat) (h : Header) (d : List Byte) (jj : Nat) : (s.noticeOn n c h d).ctx jj = s.ctx jj := by simp [State.ctx]
@[simp] theorem State.noticeOn_core_ (s : State) (n c : Nat) (h : Header) (d : List Byte) (jj : Nat) : (s.noticeOn n c h d).core jj = s.core jj := by simp [State.core]
@[simp] theorem State.noticeOn_stackOf_ (s : State) (n c : Nat) (h : Header) (d : List Byte) (jj : Nat) : (s.noticeOn n c h d).stackOf jj = s.stackOf jj := by simp [State.stackOf]
@[simp] theorem State.noticeOn_store_ (s : State) (n c : Nat) (h : Header) (d : List Byte) : (s.noticeOn n c h d).store = s.store := by simp [State.store]
@[simp] theorem State.noticeOn_released_ (s : State) (n c : Nat) (h : Header) (d : List Byte) : (s.noticeOn n c h d).released = s.released := by simp [State.released]
@[simp] theorem State.noticeOn_reqOf_ (s : State) (n c : Nat) (h : Header) (d : List Byte) (z : Requester) : (s.noticeOn n c h d).reqOf z = s.reqOf z := by simp [State.reqOf]
@[simp] theorem State.noticeOn_openRuns_ (s : State) (n c : Nat) (h : Header) (d : List Byte) : (s.noticeOn n c h d).openRuns = s.openRuns := by simp [State.openRuns]

@[simp] theorem State.notice_pending (s : State) (p : Nat) (c : Code) (x : Nat) : (s.notice p c x).pending = s.pending := by simp [State.notice]
@[simp] theorem State.notice_free (s : State) (p : Nat) (c : Code) (x : Nat) : (s.notice p c x).free = s.free := by simp [State.notice]
@[simp] theorem State.notice_now (s : State) (p : Nat) (c : Code) (x : Nat) : (s.notice p c x).now = s.now := by simp [State.notice]
@[simp] theorem State.notice_pins (s : State) (p : Nat) (c : Code) (x : Nat) : (s.notice p c x).pins = s.pins := by simp [State.notice]
@[simp] theorem State.notice_clk (s : State) (p : Nat) (c : Code) (x : Nat) : (s.notice p c x).clk = s.clk := by simp [State.notice]
@[simp] theorem State.notice_boot (s : State) (p : Nat) (c : Code) (x : Nat) : (s.notice p c x).boot = s.boot := by simp [State.notice]
@[simp] theorem State.notice_fuses (s : State) (p : Nat) (c : Code) (x : Nat) : (s.notice p c x).fuses = s.fuses := by simp [State.notice]
@[simp] theorem State.notice_flash (s : State) (p : Nat) (c : Code) (x : Nat) : (s.notice p c x).flash = s.flash := by simp [State.notice]
@[simp] theorem State.notice_vigil (s : State) (p : Nat) (c : Code) (x : Nat) : (s.notice p c x).vigil = s.vigil := by simp [State.notice]
@[simp] theorem State.notice_cores (s : State) (p : Nat) (c : Code) (x : Nat) : (s.notice p c x).cores = s.cores := by simp [State.notice]
@[simp] theorem State.notice_vec (s : State) (p : Nat) (c : Code) (x : Nat) : (s.notice p c x).vec = s.vec := by simp [State.notice]
@[simp] theorem State.notice_memsys (s : State) (p : Nat) (c : Code) (x : Nat) : (s.notice p c x).memsys = s.memsys := by simp [State.notice]
@[simp] theorem State.notice_ctxs (s : State) (p : Nat) (c : Code) (x : Nat) : (s.notice p c x).ctxs = s.ctxs := by simp [State.notice]
@[simp] theorem State.notice_sched (s : State) (p : Nat) (c : Code) (x : Nat) : (s.notice p c x).sched = s.sched := by simp [State.notice]
@[simp] theorem State.notice_exch (s : State) (p : Nat) (c : Code) (x : Nat) : (s.notice p c x).exch = s.exch := by simp [State.notice]
@[simp] theorem State.notice_ctrl (s : State) (p : Nat) (c : Code) (x : Nat) : (s.notice p c x).ctrl = s.ctrl := by simp [State.notice]
@[simp] theorem State.notice_runs (s : State) (p : Nat) (c : Code) (x : Nat) : (s.notice p c x).runs = s.runs := by simp [State.notice]
@[simp] theorem State.notice_recov (s : State) (p : Nat) (c : Code) (x : Nat) : (s.notice p c x).recov = s.recov := by simp [State.notice]
@[simp] theorem State.notice_twin (s : State) (p : Nat) (c : Code) (x : Nat) : (s.notice p c x).twin = s.twin := by simp [State.notice]
@[simp] theorem State.notice_dump (s : State) (p : Nat) (c : Code) (x : Nat) : (s.notice p c x).dump = s.dump := by simp [State.notice]
@[simp] theorem State.notice_run_ (s : State) (p : Nat) (c : Code) (x : Nat) (jj : Nat) : (s.notice p c x).run jj = s.run jj := by simp [State.run]
@[simp] theorem State.notice_ctx_ (s : State) (p : Nat) (c : Code) (x : Nat) (jj : Nat) : (s.notice p c x).ctx jj = s.ctx jj := by simp [State.ctx]
@[simp] theorem State.notice_core_ (s : State) (p : Nat) (c : Code) (x : Nat) (jj : Nat) : (s.notice p c x).core jj = s.core jj := by simp [State.core]
@[simp] theorem State.notice_stackOf_ (s : State) (p : Nat) (c : Code) (x : Nat) (jj : Nat) : (s.notice p c x).stackOf jj = s.stackOf jj := by simp [State.stackOf]
@[simp] theorem State.notice_store_ (s : State) (p : Nat) (c : Code) (x : Nat) : (s.notice p c x).store = s.store := by simp [State.store]
@[simp] theorem State.notice_released_ (s : State) (p : Nat) (c : Code) (x : Nat) : (s.notice p c x).released = s.released := by simp [State.released]
@[simp] theorem State.notice_reqOf_ (s : State) (p : Nat) (c : Code) (x : Nat) (z : Requester) : (s.notice p c x).reqOf z = s.reqOf z := by simp [State.reqOf]
@[simp] theorem State.notice_openRuns_ (s : State) (p : Nat) (c : Code) (x : Nat) : (s.notice p c x).openRuns = s.openRuns := by simp [State.openRuns]

@[simp] theorem State.noticeAll_pending (s : State) (c : Nat) (h : Header) (d : List Byte) : (s.noticeAll c h d).pending = s.pending := by unfold State.noticeAll; dsimp only; (repeat' split) <;> simp
@[simp] theorem State.noticeAll_free (s : State) (c : Nat) (h : Header) (d : List Byte) : (s.noticeAll c h d).free = s.free := by unfold State.noticeAll; dsimp only; (repeat' split) <;> simp
@[simp] theorem State.noticeAll_now (s : State) (c : Nat) (h : Header) (d : List Byte) : (s.noticeAll c h d).now = s.now := by unfold State.noticeAll; dsimp only; (repeat' split) <;> simp
@[simp] theorem State.noticeAll_pins (s : State) (c : Nat) (h : Header) (d : List Byte) : (s.noticeAll c h d).pins = s.pins := by unfold State.noticeAll; dsimp only; (repeat' split) <;> simp
@[simp] theorem State.noticeAll_clk (s : State) (c : Nat) (h : Header) (d : List Byte) : (s.noticeAll c h d).clk = s.clk := by unfold State.noticeAll; dsimp only; (repeat' split) <;> simp
@[simp] theorem State.noticeAll_boot (s : State) (c : Nat) (h : Header) (d : List Byte) : (s.noticeAll c h d).boot = s.boot := by unfold State.noticeAll; dsimp only; (repeat' split) <;> simp
@[simp] theorem State.noticeAll_fuses (s : State) (c : Nat) (h : Header) (d : List Byte) : (s.noticeAll c h d).fuses = s.fuses := by unfold State.noticeAll; dsimp only; (repeat' split) <;> simp
@[simp] theorem State.noticeAll_flash (s : State) (c : Nat) (h : Header) (d : List Byte) : (s.noticeAll c h d).flash = s.flash := by unfold State.noticeAll; dsimp only; (repeat' split) <;> simp
@[simp] theorem State.noticeAll_vigil (s : State) (c : Nat) (h : Header) (d : List Byte) : (s.noticeAll c h d).vigil = s.vigil := by unfold State.noticeAll; dsimp only; (repeat' split) <;> simp
@[simp] theorem State.noticeAll_cores (s : State) (c : Nat) (h : Header) (d : List Byte) : (s.noticeAll c h d).cores = s.cores := by unfold State.noticeAll; dsimp only; (repeat' split) <;> simp
@[simp] theorem State.noticeAll_vec (s : State) (c : Nat) (h : Header) (d : List Byte) : (s.noticeAll c h d).vec = s.vec := by unfold State.noticeAll; dsimp only; (repeat' split) <;> simp
@[simp] theorem State.noticeAll_memsys (s : State) (c : Nat) (h : Header) (d : List Byte) : (s.noticeAll c h d).memsys = s.memsys := by unfold State.noticeAll; dsimp only; (repeat' split) <;> simp
@[simp] theorem State.noticeAll_ctxs (s : State) (c : Nat) (h : Header) (d : List Byte) : (s.noticeAll c h d).ctxs = s.ctxs := by unfold State.noticeAll; dsimp only; (repeat' split) <;> simp
@[simp] theorem State.noticeAll_sched (s : State) (c : Nat) (h : Header) (d : List Byte) : (s.noticeAll c h d).sched = s.sched := by unfold State.noticeAll; dsimp only; (repeat' split) <;> simp
@[simp] theorem State.noticeAll_exch (s : State) (c : Nat) (h : Header) (d : List Byte) : (s.noticeAll c h d).exch = s.exch := by unfold State.noticeAll; dsimp only; (repeat' split) <;> simp
@[simp] theorem State.noticeAll_ctrl (s : State) (c : Nat) (h : Header) (d : List Byte) : (s.noticeAll c h d).ctrl = s.ctrl := by unfold State.noticeAll; dsimp only; (repeat' split) <;> simp
@[simp] theorem State.noticeAll_runs (s : State) (c : Nat) (h : Header) (d : List Byte) : (s.noticeAll c h d).runs = s.runs := by unfold State.noticeAll; dsimp only; (repeat' split) <;> simp
@[simp] theorem State.noticeAll_recov (s : State) (c : Nat) (h : Header) (d : List Byte) : (s.noticeAll c h d).recov = s.recov := by unfold State.noticeAll; dsimp only; (repeat' split) <;> simp
@[simp] theorem State.noticeAll_twin (s : State) (c : Nat) (h : Header) (d : List Byte) : (s.noticeAll c h d).twin = s.twin := by unfold State.noticeAll; dsimp only; (repeat' split) <;> simp
@[simp] theorem State.noticeAll_dump (s : State) (c : Nat) (h : Header) (d : List Byte) : (s.noticeAll c h d).dump = s.dump := by unfold State.noticeAll; dsimp only; (repeat' split) <;> simp
@[simp] theorem State.noticeAll_run_ (s : State) (c : Nat) (h : Header) (d : List Byte) (jj : Nat) : (s.noticeAll c h d).run jj = s.run jj := by simp [State.run]
@[simp] theorem State.noticeAll_ctx_ (s : State) (c : Nat) (h : Header) (d : List Byte) (jj : Nat) : (s.noticeAll c h d).ctx jj = s.ctx jj := by simp [State.ctx]
@[simp] theorem State.noticeAll_core_ (s : State) (c : Nat) (h : Header) (d : List Byte) (jj : Nat) : (s.noticeAll c h d).core jj = s.core jj := by simp [State.core]
@[simp] theorem State.noticeAll_stackOf_ (s : State) (c : Nat) (h : Header) (d : List Byte) (jj : Nat) : (s.noticeAll c h d).stackOf jj = s.stackOf jj := by simp [State.stackOf]
@[simp] theorem State.noticeAll_store_ (s : State) (c : Nat) (h : Header) (d : List Byte) : (s.noticeAll c h d).store = s.store := by simp [State.store]
@[simp] theorem State.noticeAll_released_ (s : State) (c : Nat) (h : Header) (d : List Byte) : (s.noticeAll c h d).released = s.released := by simp [State.released]
@[simp] theorem State.noticeAll_reqOf_ (s : State) (c : Nat) (h : Header) (d : List Byte) (z : Requester) : (s.noticeAll c h d).reqOf z = s.reqOf z := by simp [State.reqOf]
@[simp] theorem State.noticeAll_openRuns_ (s : State) (c : Nat) (h : Header) (d : List Byte) : (s.noticeAll c h d).openRuns = s.openRuns := by simp [State.openRuns]

@[simp] theorem State.record_pending (s : State) (u : BitVec 32) (c : Code) (v d : Nat) (w : Who) : (s.record u c v d w).pending = s.pending := by unfold State.record; dsimp only; split <;> simp
@[simp] theorem State.record_free (s : State) (u : BitVec 32) (c : Code) (v d : Nat) (w : Who) : (s.record u c v d w).free = s.free := by unfold State.record; dsimp only; split <;> simp
@[simp] theorem State.record_now (s : State) (u : BitVec 32) (c : Code) (v d : Nat) (w : Who) : (s.record u c v d w).now = s.now := by unfold State.record; dsimp only; split <;> simp
@[simp] theorem State.record_pins (s : State) (u : BitVec 32) (c : Code) (v d : Nat) (w : Who) : (s.record u c v d w).pins = s.pins := by unfold State.record; dsimp only; split <;> simp
@[simp] theorem State.record_clk (s : State) (u : BitVec 32) (c : Code) (v d : Nat) (w : Who) : (s.record u c v d w).clk = s.clk := by unfold State.record; dsimp only; split <;> simp
@[simp] theorem State.record_boot (s : State) (u : BitVec 32) (c : Code) (v d : Nat) (w : Who) : (s.record u c v d w).boot = s.boot := by unfold State.record; dsimp only; split <;> simp
@[simp] theorem State.record_fuses (s : State) (u : BitVec 32) (c : Code) (v d : Nat) (w : Who) : (s.record u c v d w).fuses = s.fuses := by unfold State.record; dsimp only; split <;> simp
@[simp] theorem State.record_flash (s : State) (u : BitVec 32) (c : Code) (v d : Nat) (w : Who) : (s.record u c v d w).flash = s.flash := by unfold State.record; dsimp only; split <;> simp
@[simp] theorem State.record_cores (s : State) (u : BitVec 32) (c : Code) (v d : Nat) (w : Who) : (s.record u c v d w).cores = s.cores := by unfold State.record; dsimp only; split <;> simp
@[simp] theorem State.record_vec (s : State) (u : BitVec 32) (c : Code) (v d : Nat) (w : Who) : (s.record u c v d w).vec = s.vec := by unfold State.record; dsimp only; split <;> simp
@[simp] theorem State.record_memsys (s : State) (u : BitVec 32) (c : Code) (v d : Nat) (w : Who) : (s.record u c v d w).memsys = s.memsys := by unfold State.record; dsimp only; split <;> simp
@[simp] theorem State.record_ctxs (s : State) (u : BitVec 32) (c : Code) (v d : Nat) (w : Who) : (s.record u c v d w).ctxs = s.ctxs := by unfold State.record; dsimp only; split <;> simp
@[simp] theorem State.record_sched (s : State) (u : BitVec 32) (c : Code) (v d : Nat) (w : Who) : (s.record u c v d w).sched = s.sched := by unfold State.record; dsimp only; split <;> simp
@[simp] theorem State.record_exch (s : State) (u : BitVec 32) (c : Code) (v d : Nat) (w : Who) : (s.record u c v d w).exch = s.exch := by unfold State.record; dsimp only; split <;> simp
@[simp] theorem State.record_ctrl (s : State) (u : BitVec 32) (c : Code) (v d : Nat) (w : Who) : (s.record u c v d w).ctrl = s.ctrl := by unfold State.record; dsimp only; split <;> simp
@[simp] theorem State.record_runs (s : State) (u : BitVec 32) (c : Code) (v d : Nat) (w : Who) : (s.record u c v d w).runs = s.runs := by unfold State.record; dsimp only; split <;> simp
@[simp] theorem State.record_recov (s : State) (u : BitVec 32) (c : Code) (v d : Nat) (w : Who) : (s.record u c v d w).recov = s.recov := by unfold State.record; dsimp only; split <;> simp
@[simp] theorem State.record_twin (s : State) (u : BitVec 32) (c : Code) (v d : Nat) (w : Who) : (s.record u c v d w).twin = s.twin := by unfold State.record; dsimp only; split <;> simp
@[simp] theorem State.record_dump (s : State) (u : BitVec 32) (c : Code) (v d : Nat) (w : Who) : (s.record u c v d w).dump = s.dump := by unfold State.record; dsimp only; split <;> simp
@[simp] theorem State.record_run_ (s : State) (u : BitVec 32) (c : Code) (v d : Nat) (w : Who) (jj : Nat) : (s.record u c v d w).run jj = s.run jj := by simp [State.run]
@[simp] theorem State.record_ctx_ (s : State) (u : BitVec 32) (c : Code) (v d : Nat) (w : Who) (jj : Nat) : (s.record u c v d w).ctx jj = s.ctx jj := by simp [State.ctx]
@[simp] theorem State.record_core_ (s : State) (u : BitVec 32) (c : Code) (v d : Nat) (w : Who) (jj : Nat) : (s.record u c v d w).core jj = s.core jj := by simp [State.core]
@[simp] theorem State.record_stackOf_ (s : State) (u : BitVec 32) (c : Code) (v d : Nat) (w : Who) (jj : Nat) : (s.record u c v d w).stackOf jj = s.stackOf jj := by simp [State.stackOf]
@[simp] theorem State.record_store_ (s : State) (u : BitVec 32) (c : Code) (v d : Nat) (w : Who) : (s.record u c v d w).store = s.store := by simp [State.store]
@[simp] theorem State.record_released_ (s : State) (u : BitVec 32) (c : Code) (v d : Nat) (w : Who) : (s.record u c v d w).released = s.released := by simp [State.released]
@[simp] theorem State.record_openRuns_ (s : State) (u : BitVec 32) (c : Code) (v d : Nat) (w : Who) : (s.record u c v d w).openRuns = s.openRuns := by simp [State.openRuns]

@[simp] theorem State.cellOut_pending (s : State) (l : LinkRef) (c : Cell) : (s.cellOut l c).pending = s.pending := by simp [State.cellOut]
@[simp] theorem State.cellOut_free (s : State) (l : LinkRef) (c : Cell) : (s.cellOut l c).free = s.free := by simp [State.cellOut]
@[simp] theorem State.cellOut_now (s : State) (l : LinkRef) (c : Cell) : (s.cellOut l c).now = s.now := by simp [State.cellOut]
@[simp] theorem State.cellOut_pins (s : State) (l : LinkRef) (c : Cell) : (s.cellOut l c).pins = s.pins := by simp [State.cellOut]
@[simp] theorem State.cellOut_clk (s : State) (l : LinkRef) (c : Cell) : (s.cellOut l c).clk = s.clk := by simp [State.cellOut]
@[simp] theorem State.cellOut_boot (s : State) (l : LinkRef) (c : Cell) : (s.cellOut l c).boot = s.boot := by simp [State.cellOut]
@[simp] theorem State.cellOut_fuses (s : State) (l : LinkRef) (c : Cell) : (s.cellOut l c).fuses = s.fuses := by simp [State.cellOut]
@[simp] theorem State.cellOut_flash (s : State) (l : LinkRef) (c : Cell) : (s.cellOut l c).flash = s.flash := by simp [State.cellOut]
@[simp] theorem State.cellOut_vigil (s : State) (l : LinkRef) (c : Cell) : (s.cellOut l c).vigil = s.vigil := by simp [State.cellOut]
@[simp] theorem State.cellOut_cores (s : State) (l : LinkRef) (c : Cell) : (s.cellOut l c).cores = s.cores := by simp [State.cellOut]
@[simp] theorem State.cellOut_vec (s : State) (l : LinkRef) (c : Cell) : (s.cellOut l c).vec = s.vec := by simp [State.cellOut]
@[simp] theorem State.cellOut_memsys (s : State) (l : LinkRef) (c : Cell) : (s.cellOut l c).memsys = s.memsys := by simp [State.cellOut]
@[simp] theorem State.cellOut_ctxs (s : State) (l : LinkRef) (c : Cell) : (s.cellOut l c).ctxs = s.ctxs := by simp [State.cellOut]
@[simp] theorem State.cellOut_sched (s : State) (l : LinkRef) (c : Cell) : (s.cellOut l c).sched = s.sched := by simp [State.cellOut]
@[simp] theorem State.cellOut_exch (s : State) (l : LinkRef) (c : Cell) : (s.cellOut l c).exch = s.exch := by simp [State.cellOut]
@[simp] theorem State.cellOut_ctrl (s : State) (l : LinkRef) (c : Cell) : (s.cellOut l c).ctrl = s.ctrl := by simp [State.cellOut]
@[simp] theorem State.cellOut_runs (s : State) (l : LinkRef) (c : Cell) : (s.cellOut l c).runs = s.runs := by simp [State.cellOut]
@[simp] theorem State.cellOut_recov (s : State) (l : LinkRef) (c : Cell) : (s.cellOut l c).recov = s.recov := by simp [State.cellOut]
@[simp] theorem State.cellOut_twin (s : State) (l : LinkRef) (c : Cell) : (s.cellOut l c).twin = s.twin := by simp [State.cellOut]
@[simp] theorem State.cellOut_dump (s : State) (l : LinkRef) (c : Cell) : (s.cellOut l c).dump = s.dump := by simp [State.cellOut]
@[simp] theorem State.cellOut_run_ (s : State) (l : LinkRef) (c : Cell) (jj : Nat) : (s.cellOut l c).run jj = s.run jj := by simp [State.run]
@[simp] theorem State.cellOut_ctx_ (s : State) (l : LinkRef) (c : Cell) (jj : Nat) : (s.cellOut l c).ctx jj = s.ctx jj := by simp [State.ctx]
@[simp] theorem State.cellOut_core_ (s : State) (l : LinkRef) (c : Cell) (jj : Nat) : (s.cellOut l c).core jj = s.core jj := by simp [State.core]
@[simp] theorem State.cellOut_stackOf_ (s : State) (l : LinkRef) (c : Cell) (jj : Nat) : (s.cellOut l c).stackOf jj = s.stackOf jj := by simp [State.stackOf]
@[simp] theorem State.cellOut_store_ (s : State) (l : LinkRef) (c : Cell) : (s.cellOut l c).store = s.store := by simp [State.store]
@[simp] theorem State.cellOut_released_ (s : State) (l : LinkRef) (c : Cell) : (s.cellOut l c).released = s.released := by simp [State.released]
@[simp] theorem State.cellOut_reqOf_ (s : State) (l : LinkRef) (c : Cell) (z : Requester) : (s.cellOut l c).reqOf z = s.reqOf z := by simp [State.reqOf]
@[simp] theorem State.cellOut_openRuns_ (s : State) (l : LinkRef) (c : Cell) : (s.cellOut l c).openRuns = s.openRuns := by simp [State.openRuns]

@[simp] theorem State.setCtx_pending (s : State) (c : Nat) (x : Ctx) : (s.setCtx c x).pending = s.pending := rfl
@[simp] theorem State.setCtx_free (s : State) (c : Nat) (x : Ctx) : (s.setCtx c x).free = s.free := rfl
@[simp] theorem State.setCtx_now (s : State) (c : Nat) (x : Ctx) : (s.setCtx c x).now = s.now := rfl
@[simp] theorem State.setCtx_pins (s : State) (c : Nat) (x : Ctx) : (s.setCtx c x).pins = s.pins := rfl
@[simp] theorem State.setCtx_clk (s : State) (c : Nat) (x : Ctx) : (s.setCtx c x).clk = s.clk := rfl
@[simp] theorem State.setCtx_boot (s : State) (c : Nat) (x : Ctx) : (s.setCtx c x).boot = s.boot := rfl
@[simp] theorem State.setCtx_fuses (s : State) (c : Nat) (x : Ctx) : (s.setCtx c x).fuses = s.fuses := rfl
@[simp] theorem State.setCtx_flash (s : State) (c : Nat) (x : Ctx) : (s.setCtx c x).flash = s.flash := rfl
@[simp] theorem State.setCtx_vigil (s : State) (c : Nat) (x : Ctx) : (s.setCtx c x).vigil = s.vigil := rfl
@[simp] theorem State.setCtx_cores (s : State) (c : Nat) (x : Ctx) : (s.setCtx c x).cores = s.cores := rfl
@[simp] theorem State.setCtx_vec (s : State) (c : Nat) (x : Ctx) : (s.setCtx c x).vec = s.vec := rfl
@[simp] theorem State.setCtx_memsys (s : State) (c : Nat) (x : Ctx) : (s.setCtx c x).memsys = s.memsys := rfl
@[simp] theorem State.setCtx_sched (s : State) (c : Nat) (x : Ctx) : (s.setCtx c x).sched = s.sched := rfl
@[simp] theorem State.setCtx_links (s : State) (c : Nat) (x : Ctx) : (s.setCtx c x).links = s.links := rfl
@[simp] theorem State.setCtx_exch (s : State) (c : Nat) (x : Ctx) : (s.setCtx c x).exch = s.exch := rfl
@[simp] theorem State.setCtx_ctrl (s : State) (c : Nat) (x : Ctx) : (s.setCtx c x).ctrl = s.ctrl := rfl
@[simp] theorem State.setCtx_runs (s : State) (c : Nat) (x : Ctx) : (s.setCtx c x).runs = s.runs := rfl
@[simp] theorem State.setCtx_recov (s : State) (c : Nat) (x : Ctx) : (s.setCtx c x).recov = s.recov := rfl
@[simp] theorem State.setCtx_twin (s : State) (c : Nat) (x : Ctx) : (s.setCtx c x).twin = s.twin := rfl
@[simp] theorem State.setCtx_dump (s : State) (c : Nat) (x : Ctx) : (s.setCtx c x).dump = s.dump := rfl
@[simp] theorem State.setCtx_run_ (s : State) (c : Nat) (x : Ctx) (jj : Nat) : (s.setCtx c x).run jj = s.run jj := by simp [State.run]
@[simp] theorem State.setCtx_core_ (s : State) (c : Nat) (x : Ctx) (jj : Nat) : (s.setCtx c x).core jj = s.core jj := by simp [State.core]
@[simp] theorem State.setCtx_store_ (s : State) (c : Nat) (x : Ctx) : (s.setCtx c x).store = s.store := by simp [State.store]
@[simp] theorem State.setCtx_released_ (s : State) (c : Nat) (x : Ctx) : (s.setCtx c x).released = s.released := by simp [State.released]
@[simp] theorem State.setCtx_reqOf_ (s : State) (c : Nat) (x : Ctx) (z : Requester) : (s.setCtx c x).reqOf z = s.reqOf z := by simp [State.reqOf]
@[simp] theorem State.setCtx_link_ (s : State) (c : Nat) (x : Ctx) (y : LinkRef) : (s.setCtx c x).link y = s.link y := by cases y <;> simp [State.link]
@[simp] theorem State.setCtx_openRuns_ (s : State) (c : Nat) (x : Ctx) : (s.setCtx c x).openRuns = s.openRuns := by simp [State.openRuns]

@[simp] theorem State.updCtx_pending (s : State) (c : Nat) (f : Ctx → Ctx) : (s.updCtx c f).pending = s.pending := rfl
@[simp] theorem State.updCtx_free (s : State) (c : Nat) (f : Ctx → Ctx) : (s.updCtx c f).free = s.free := rfl
@[simp] theorem State.updCtx_now (s : State) (c : Nat) (f : Ctx → Ctx) : (s.updCtx c f).now = s.now := rfl
@[simp] theorem State.updCtx_pins (s : State) (c : Nat) (f : Ctx → Ctx) : (s.updCtx c f).pins = s.pins := rfl
@[simp] theorem State.updCtx_clk (s : State) (c : Nat) (f : Ctx → Ctx) : (s.updCtx c f).clk = s.clk := rfl
@[simp] theorem State.updCtx_boot (s : State) (c : Nat) (f : Ctx → Ctx) : (s.updCtx c f).boot = s.boot := rfl
@[simp] theorem State.updCtx_fuses (s : State) (c : Nat) (f : Ctx → Ctx) : (s.updCtx c f).fuses = s.fuses := rfl
@[simp] theorem State.updCtx_flash (s : State) (c : Nat) (f : Ctx → Ctx) : (s.updCtx c f).flash = s.flash := rfl
@[simp] theorem State.updCtx_vigil (s : State) (c : Nat) (f : Ctx → Ctx) : (s.updCtx c f).vigil = s.vigil := rfl
@[simp] theorem State.updCtx_cores (s : State) (c : Nat) (f : Ctx → Ctx) : (s.updCtx c f).cores = s.cores := rfl
@[simp] theorem State.updCtx_vec (s : State) (c : Nat) (f : Ctx → Ctx) : (s.updCtx c f).vec = s.vec := rfl
@[simp] theorem State.updCtx_memsys (s : State) (c : Nat) (f : Ctx → Ctx) : (s.updCtx c f).memsys = s.memsys := rfl
@[simp] theorem State.updCtx_sched (s : State) (c : Nat) (f : Ctx → Ctx) : (s.updCtx c f).sched = s.sched := rfl
@[simp] theorem State.updCtx_links (s : State) (c : Nat) (f : Ctx → Ctx) : (s.updCtx c f).links = s.links := rfl
@[simp] theorem State.updCtx_exch (s : State) (c : Nat) (f : Ctx → Ctx) : (s.updCtx c f).exch = s.exch := rfl
@[simp] theorem State.updCtx_ctrl (s : State) (c : Nat) (f : Ctx → Ctx) : (s.updCtx c f).ctrl = s.ctrl := rfl
@[simp] theorem State.updCtx_runs (s : State) (c : Nat) (f : Ctx → Ctx) : (s.updCtx c f).runs = s.runs := rfl
@[simp] theorem State.updCtx_recov (s : State) (c : Nat) (f : Ctx → Ctx) : (s.updCtx c f).recov = s.recov := rfl
@[simp] theorem State.updCtx_twin (s : State) (c : Nat) (f : Ctx → Ctx) : (s.updCtx c f).twin = s.twin := rfl
@[simp] theorem State.updCtx_dump (s : State) (c : Nat) (f : Ctx → Ctx) : (s.updCtx c f).dump = s.dump := rfl
@[simp] theorem State.updCtx_run_ (s : State) (c : Nat) (f : Ctx → Ctx) (jj : Nat) : (s.updCtx c f).run jj = s.run jj := by simp [State.run]
@[simp] theorem State.updCtx_core_ (s : State) (c : Nat) (f : Ctx → Ctx) (jj : Nat) : (s.updCtx c f).core jj = s.core jj := by simp [State.core]
@[simp] theorem State.updCtx_store_ (s : State) (c : Nat) (f : Ctx → Ctx) : (s.updCtx c f).store = s.store := by simp [State.store]
@[simp] theorem State.updCtx_released_ (s : State) (c : Nat) (f : Ctx → Ctx) : (s.updCtx c f).released = s.released := by simp [State.released]
@[simp] theorem State.updCtx_reqOf_ (s : State) (c : Nat) (f : Ctx → Ctx) (z : Requester) : (s.updCtx c f).reqOf z = s.reqOf z := by simp [State.reqOf]
@[simp] theorem State.updCtx_link_ (s : State) (c : Nat) (f : Ctx → Ctx) (y : LinkRef) : (s.updCtx c f).link y = s.link y := by cases y <;> simp [State.link]
@[simp] theorem State.updCtx_openRuns_ (s : State) (c : Nat) (f : Ctx → Ctx) : (s.updCtx c f).openRuns = s.openRuns := by simp [State.openRuns]

@[simp] theorem State.setStack_pending (s : State) (c : Nat) (k : Stack) : (s.setStack c k).pending = s.pending := rfl
@[simp] theorem State.setStack_free (s : State) (c : Nat) (k : Stack) : (s.setStack c k).free = s.free := rfl
@[simp] theorem State.setStack_now (s : State) (c : Nat) (k : Stack) : (s.setStack c k).now = s.now := rfl
@[simp] theorem State.setStack_pins (s : State) (c : Nat) (k : Stack) : (s.setStack c k).pins = s.pins := rfl
@[simp] theorem State.setStack_clk (s : State) (c : Nat) (k : Stack) : (s.setStack c k).clk = s.clk := rfl
@[simp] theorem State.setStack_boot (s : State) (c : Nat) (k : Stack) : (s.setStack c k).boot = s.boot := rfl
@[simp] theorem State.setStack_fuses (s : State) (c : Nat) (k : Stack) : (s.setStack c k).fuses = s.fuses := rfl
@[simp] theorem State.setStack_flash (s : State) (c : Nat) (k : Stack) : (s.setStack c k).flash = s.flash := rfl
@[simp] theorem State.setStack_vigil (s : State) (c : Nat) (k : Stack) : (s.setStack c k).vigil = s.vigil := rfl
@[simp] theorem State.setStack_cores (s : State) (c : Nat) (k : Stack) : (s.setStack c k).cores = s.cores := rfl
@[simp] theorem State.setStack_vec (s : State) (c : Nat) (k : Stack) : (s.setStack c k).vec = s.vec := rfl
@[simp] theorem State.setStack_memsys (s : State) (c : Nat) (k : Stack) : (s.setStack c k).memsys = s.memsys := rfl
@[simp] theorem State.setStack_sched (s : State) (c : Nat) (k : Stack) : (s.setStack c k).sched = s.sched := rfl
@[simp] theorem State.setStack_links (s : State) (c : Nat) (k : Stack) : (s.setStack c k).links = s.links := rfl
@[simp] theorem State.setStack_exch (s : State) (c : Nat) (k : Stack) : (s.setStack c k).exch = s.exch := rfl
@[simp] theorem State.setStack_ctrl (s : State) (c : Nat) (k : Stack) : (s.setStack c k).ctrl = s.ctrl := rfl
@[simp] theorem State.setStack_runs (s : State) (c : Nat) (k : Stack) : (s.setStack c k).runs = s.runs := rfl
@[simp] theorem State.setStack_recov (s : State) (c : Nat) (k : Stack) : (s.setStack c k).recov = s.recov := rfl
@[simp] theorem State.setStack_twin (s : State) (c : Nat) (k : Stack) : (s.setStack c k).twin = s.twin := rfl
@[simp] theorem State.setStack_dump (s : State) (c : Nat) (k : Stack) : (s.setStack c k).dump = s.dump := rfl
@[simp] theorem State.setStack_run_ (s : State) (c : Nat) (k : Stack) (jj : Nat) : (s.setStack c k).run jj = s.run jj := by simp [State.run]
@[simp] theorem State.setStack_core_ (s : State) (c : Nat) (k : Stack) (jj : Nat) : (s.setStack c k).core jj = s.core jj := by simp [State.core]
@[simp] theorem State.setStack_store_ (s : State) (c : Nat) (k : Stack) : (s.setStack c k).store = s.store := by simp [State.store]
@[simp] theorem State.setStack_released_ (s : State) (c : Nat) (k : Stack) : (s.setStack c k).released = s.released := by simp [State.released]
@[simp] theorem State.setStack_reqOf_ (s : State) (c : Nat) (k : Stack) (z : Requester) : (s.setStack c k).reqOf z = s.reqOf z := by simp [State.reqOf]
@[simp] theorem State.setStack_link_ (s : State) (c : Nat) (k : Stack) (y : LinkRef) : (s.setStack c k).link y = s.link y := by cases y <;> simp [State.link]
@[simp] theorem State.setStack_openRuns_ (s : State) (c : Nat) (k : Stack) : (s.setStack c k).openRuns = s.openRuns := by simp [State.openRuns]

@[simp] theorem State.haltStreams_pending (s : State) (c : Nat) (h : Bool) : (s.haltStreams c h).pending = s.pending := rfl
@[simp] theorem State.haltStreams_free (s : State) (c : Nat) (h : Bool) : (s.haltStreams c h).free = s.free := rfl
@[simp] theorem State.haltStreams_now (s : State) (c : Nat) (h : Bool) : (s.haltStreams c h).now = s.now := rfl
@[simp] theorem State.haltStreams_pins (s : State) (c : Nat) (h : Bool) : (s.haltStreams c h).pins = s.pins := rfl
@[simp] theorem State.haltStreams_clk (s : State) (c : Nat) (h : Bool) : (s.haltStreams c h).clk = s.clk := rfl
@[simp] theorem State.haltStreams_boot (s : State) (c : Nat) (h : Bool) : (s.haltStreams c h).boot = s.boot := rfl
@[simp] theorem State.haltStreams_fuses (s : State) (c : Nat) (h : Bool) : (s.haltStreams c h).fuses = s.fuses := rfl
@[simp] theorem State.haltStreams_flash (s : State) (c : Nat) (h : Bool) : (s.haltStreams c h).flash = s.flash := rfl
@[simp] theorem State.haltStreams_vigil (s : State) (c : Nat) (h : Bool) : (s.haltStreams c h).vigil = s.vigil := rfl
@[simp] theorem State.haltStreams_cores (s : State) (c : Nat) (h : Bool) : (s.haltStreams c h).cores = s.cores := rfl
@[simp] theorem State.haltStreams_vec (s : State) (c : Nat) (h : Bool) : (s.haltStreams c h).vec = s.vec := rfl
@[simp] theorem State.haltStreams_memsys (s : State) (c : Nat) (h : Bool) : (s.haltStreams c h).memsys = s.memsys := rfl
@[simp] theorem State.haltStreams_sched (s : State) (c : Nat) (h : Bool) : (s.haltStreams c h).sched = s.sched := rfl
@[simp] theorem State.haltStreams_links (s : State) (c : Nat) (h : Bool) : (s.haltStreams c h).links = s.links := rfl
@[simp] theorem State.haltStreams_exch (s : State) (c : Nat) (h : Bool) : (s.haltStreams c h).exch = s.exch := rfl
@[simp] theorem State.haltStreams_ctrl (s : State) (c : Nat) (h : Bool) : (s.haltStreams c h).ctrl = s.ctrl := rfl
@[simp] theorem State.haltStreams_runs (s : State) (c : Nat) (h : Bool) : (s.haltStreams c h).runs = s.runs := rfl
@[simp] theorem State.haltStreams_recov (s : State) (c : Nat) (h : Bool) : (s.haltStreams c h).recov = s.recov := rfl
@[simp] theorem State.haltStreams_twin (s : State) (c : Nat) (h : Bool) : (s.haltStreams c h).twin = s.twin := rfl
@[simp] theorem State.haltStreams_dump (s : State) (c : Nat) (h : Bool) : (s.haltStreams c h).dump = s.dump := rfl
@[simp] theorem State.haltStreams_run_ (s : State) (c : Nat) (h : Bool) (jj : Nat) : (s.haltStreams c h).run jj = s.run jj := by simp [State.run]
@[simp] theorem State.haltStreams_core_ (s : State) (c : Nat) (h : Bool) (jj : Nat) : (s.haltStreams c h).core jj = s.core jj := by simp [State.core]
@[simp] theorem State.haltStreams_store_ (s : State) (c : Nat) (h : Bool) : (s.haltStreams c h).store = s.store := by simp [State.store]
@[simp] theorem State.haltStreams_released_ (s : State) (c : Nat) (h : Bool) : (s.haltStreams c h).released = s.released := by simp [State.released]
@[simp] theorem State.haltStreams_reqOf_ (s : State) (c : Nat) (h : Bool) (z : Requester) : (s.haltStreams c h).reqOf z = s.reqOf z := by simp [State.reqOf]
@[simp] theorem State.haltStreams_link_ (s : State) (c : Nat) (h : Bool) (y : LinkRef) : (s.haltStreams c h).link y = s.link y := by cases y <;> simp [State.link]
@[simp] theorem State.haltStreams_openRuns_ (s : State) (c : Nat) (h : Bool) : (s.haltStreams c h).openRuns = s.openRuns := by simp [State.openRuns]

@[simp] theorem State.updCore_pending (s : State) (c : Nat) (f : CoreRec → CoreRec) : (s.updCore c f).pending = s.pending := rfl
@[simp] theorem State.updCore_free (s : State) (c : Nat) (f : CoreRec → CoreRec) : (s.updCore c f).free = s.free := rfl
@[simp] theorem State.updCore_now (s : State) (c : Nat) (f : CoreRec → CoreRec) : (s.updCore c f).now = s.now := rfl
@[simp] theorem State.updCore_pins (s : State) (c : Nat) (f : CoreRec → CoreRec) : (s.updCore c f).pins = s.pins := rfl
@[simp] theorem State.updCore_clk (s : State) (c : Nat) (f : CoreRec → CoreRec) : (s.updCore c f).clk = s.clk := rfl
@[simp] theorem State.updCore_boot (s : State) (c : Nat) (f : CoreRec → CoreRec) : (s.updCore c f).boot = s.boot := rfl
@[simp] theorem State.updCore_fuses (s : State) (c : Nat) (f : CoreRec → CoreRec) : (s.updCore c f).fuses = s.fuses := rfl
@[simp] theorem State.updCore_flash (s : State) (c : Nat) (f : CoreRec → CoreRec) : (s.updCore c f).flash = s.flash := rfl
@[simp] theorem State.updCore_vigil (s : State) (c : Nat) (f : CoreRec → CoreRec) : (s.updCore c f).vigil = s.vigil := rfl
@[simp] theorem State.updCore_vec (s : State) (c : Nat) (f : CoreRec → CoreRec) : (s.updCore c f).vec = s.vec := rfl
@[simp] theorem State.updCore_memsys (s : State) (c : Nat) (f : CoreRec → CoreRec) : (s.updCore c f).memsys = s.memsys := rfl
@[simp] theorem State.updCore_ctxs (s : State) (c : Nat) (f : CoreRec → CoreRec) : (s.updCore c f).ctxs = s.ctxs := rfl
@[simp] theorem State.updCore_sched (s : State) (c : Nat) (f : CoreRec → CoreRec) : (s.updCore c f).sched = s.sched := rfl
@[simp] theorem State.updCore_links (s : State) (c : Nat) (f : CoreRec → CoreRec) : (s.updCore c f).links = s.links := rfl
@[simp] theorem State.updCore_exch (s : State) (c : Nat) (f : CoreRec → CoreRec) : (s.updCore c f).exch = s.exch := rfl
@[simp] theorem State.updCore_ctrl (s : State) (c : Nat) (f : CoreRec → CoreRec) : (s.updCore c f).ctrl = s.ctrl := rfl
@[simp] theorem State.updCore_runs (s : State) (c : Nat) (f : CoreRec → CoreRec) : (s.updCore c f).runs = s.runs := rfl
@[simp] theorem State.updCore_recov (s : State) (c : Nat) (f : CoreRec → CoreRec) : (s.updCore c f).recov = s.recov := rfl
@[simp] theorem State.updCore_twin (s : State) (c : Nat) (f : CoreRec → CoreRec) : (s.updCore c f).twin = s.twin := rfl
@[simp] theorem State.updCore_dump (s : State) (c : Nat) (f : CoreRec → CoreRec) : (s.updCore c f).dump = s.dump := rfl
@[simp] theorem State.updCore_run_ (s : State) (c : Nat) (f : CoreRec → CoreRec) (jj : Nat) : (s.updCore c f).run jj = s.run jj := by simp [State.run]
@[simp] theorem State.updCore_ctx_ (s : State) (c : Nat) (f : CoreRec → CoreRec) (jj : Nat) : (s.updCore c f).ctx jj = s.ctx jj := by simp [State.ctx]
@[simp] theorem State.updCore_stackOf_ (s : State) (c : Nat) (f : CoreRec → CoreRec) (jj : Nat) : (s.updCore c f).stackOf jj = s.stackOf jj := by simp [State.stackOf]
@[simp] theorem State.updCore_store_ (s : State) (c : Nat) (f : CoreRec → CoreRec) : (s.updCore c f).store = s.store := by simp [State.store]
@[simp] theorem State.updCore_released_ (s : State) (c : Nat) (f : CoreRec → CoreRec) : (s.updCore c f).released = s.released := by simp [State.released]
@[simp] theorem State.updCore_reqOf_ (s : State) (c : Nat) (f : CoreRec → CoreRec) (z : Requester) : (s.updCore c f).reqOf z = s.reqOf z := by simp [State.reqOf]
@[simp] theorem State.updCore_link_ (s : State) (c : Nat) (f : CoreRec → CoreRec) (y : LinkRef) : (s.updCore c f).link y = s.link y := by cases y <;> simp [State.link]
@[simp] theorem State.updCore_openRuns_ (s : State) (c : Nat) (f : CoreRec → CoreRec) : (s.updCore c f).openRuns = s.openRuns := by simp [State.openRuns]

@[simp] theorem State.memWrite_pending (s : State) (k : KeyId) (a : Nat) (bs : List Byte) : (s.memWrite k a bs).pending = s.pending := rfl
@[simp] theorem State.memWrite_now (s : State) (k : KeyId) (a : Nat) (bs : List Byte) : (s.memWrite k a bs).now = s.now := rfl
@[simp] theorem State.memWrite_pins (s : State) (k : KeyId) (a : Nat) (bs : List Byte) : (s.memWrite k a bs).pins = s.pins := rfl
@[simp] theorem State.memWrite_clk (s : State) (k : KeyId) (a : Nat) (bs : List Byte) : (s.memWrite k a bs).clk = s.clk := rfl
@[simp] theorem State.memWrite_boot (s : State) (k : KeyId) (a : Nat) (bs : List Byte) : (s.memWrite k a bs).boot = s.boot := rfl
@[simp] theorem State.memWrite_fuses (s : State) (k : KeyId) (a : Nat) (bs : List Byte) : (s.memWrite k a bs).fuses = s.fuses := rfl
@[simp] theorem State.memWrite_flash (s : State) (k : KeyId) (a : Nat) (bs : List Byte) : (s.memWrite k a bs).flash = s.flash := rfl
@[simp] theorem State.memWrite_vigil (s : State) (k : KeyId) (a : Nat) (bs : List Byte) : (s.memWrite k a bs).vigil = s.vigil := rfl
@[simp] theorem State.memWrite_cores (s : State) (k : KeyId) (a : Nat) (bs : List Byte) : (s.memWrite k a bs).cores = s.cores := rfl
@[simp] theorem State.memWrite_vec (s : State) (k : KeyId) (a : Nat) (bs : List Byte) : (s.memWrite k a bs).vec = s.vec := rfl
@[simp] theorem State.memWrite_ctxs (s : State) (k : KeyId) (a : Nat) (bs : List Byte) : (s.memWrite k a bs).ctxs = s.ctxs := rfl
@[simp] theorem State.memWrite_sched (s : State) (k : KeyId) (a : Nat) (bs : List Byte) : (s.memWrite k a bs).sched = s.sched := rfl
@[simp] theorem State.memWrite_links (s : State) (k : KeyId) (a : Nat) (bs : List Byte) : (s.memWrite k a bs).links = s.links := rfl
@[simp] theorem State.memWrite_exch (s : State) (k : KeyId) (a : Nat) (bs : List Byte) : (s.memWrite k a bs).exch = s.exch := rfl
@[simp] theorem State.memWrite_ctrl (s : State) (k : KeyId) (a : Nat) (bs : List Byte) : (s.memWrite k a bs).ctrl = s.ctrl := rfl
@[simp] theorem State.memWrite_runs (s : State) (k : KeyId) (a : Nat) (bs : List Byte) : (s.memWrite k a bs).runs = s.runs := rfl
@[simp] theorem State.memWrite_recov (s : State) (k : KeyId) (a : Nat) (bs : List Byte) : (s.memWrite k a bs).recov = s.recov := rfl
@[simp] theorem State.memWrite_twin (s : State) (k : KeyId) (a : Nat) (bs : List Byte) : (s.memWrite k a bs).twin = s.twin := rfl
@[simp] theorem State.memWrite_dump (s : State) (k : KeyId) (a : Nat) (bs : List Byte) : (s.memWrite k a bs).dump = s.dump := rfl
@[simp] theorem State.memWrite_run_ (s : State) (k : KeyId) (a : Nat) (bs : List Byte) (jj : Nat) : (s.memWrite k a bs).run jj = s.run jj := by simp [State.run]
@[simp] theorem State.memWrite_ctx_ (s : State) (k : KeyId) (a : Nat) (bs : List Byte) (jj : Nat) : (s.memWrite k a bs).ctx jj = s.ctx jj := by simp [State.ctx]
@[simp] theorem State.memWrite_core_ (s : State) (k : KeyId) (a : Nat) (bs : List Byte) (jj : Nat) : (s.memWrite k a bs).core jj = s.core jj := by simp [State.core]
@[simp] theorem State.memWrite_stackOf_ (s : State) (k : KeyId) (a : Nat) (bs : List Byte) (jj : Nat) : (s.memWrite k a bs).stackOf jj = s.stackOf jj := by simp [State.stackOf]
@[simp] theorem State.memWrite_store_ (s : State) (k : KeyId) (a : Nat) (bs : List Byte) : (s.memWrite k a bs).store = s.store := by simp [State.store]
@[simp] theorem State.memWrite_released_ (s : State) (k : KeyId) (a : Nat) (bs : List Byte) : (s.memWrite k a bs).released = s.released := by simp [State.released]
@[simp] theorem State.memWrite_reqOf_ (s : State) (k : KeyId) (a : Nat) (bs : List Byte) (z : Requester) : (s.memWrite k a bs).reqOf z = s.reqOf z := by simp [State.reqOf]
@[simp] theorem State.memWrite_link_ (s : State) (k : KeyId) (a : Nat) (bs : List Byte) (y : LinkRef) : (s.memWrite k a bs).link y = s.link y := by cases y <;> simp [State.link]
@[simp] theorem State.memWrite_openRuns_ (s : State) (k : KeyId) (a : Nat) (bs : List Byte) : (s.memWrite k a bs).openRuns = s.openRuns := by simp [State.openRuns]

@[simp] theorem State.dropOp_pending (s : State) (id : Nat) : (s.dropOp id).pending = s.pending := rfl
@[simp] theorem State.dropOp_free (s : State) (id : Nat) : (s.dropOp id).free = s.free := rfl
@[simp] theorem State.dropOp_now (s : State) (id : Nat) : (s.dropOp id).now = s.now := rfl
@[simp] theorem State.dropOp_pins (s : State) (id : Nat) : (s.dropOp id).pins = s.pins := rfl
@[simp] theorem State.dropOp_clk (s : State) (id : Nat) : (s.dropOp id).clk = s.clk := rfl
@[simp] theorem State.dropOp_boot (s : State) (id : Nat) : (s.dropOp id).boot = s.boot := rfl
@[simp] theorem State.dropOp_fuses (s : State) (id : Nat) : (s.dropOp id).fuses = s.fuses := rfl
@[simp] theorem State.dropOp_flash (s : State) (id : Nat) : (s.dropOp id).flash = s.flash := rfl
@[simp] theorem State.dropOp_vigil (s : State) (id : Nat) : (s.dropOp id).vigil = s.vigil := rfl
@[simp] theorem State.dropOp_cores (s : State) (id : Nat) : (s.dropOp id).cores = s.cores := rfl
@[simp] theorem State.dropOp_vec (s : State) (id : Nat) : (s.dropOp id).vec = s.vec := rfl
@[simp] theorem State.dropOp_memsys (s : State) (id : Nat) : (s.dropOp id).memsys = s.memsys := rfl
@[simp] theorem State.dropOp_ctxs (s : State) (id : Nat) : (s.dropOp id).ctxs = s.ctxs := rfl
@[simp] theorem State.dropOp_links (s : State) (id : Nat) : (s.dropOp id).links = s.links := rfl
@[simp] theorem State.dropOp_ctrl (s : State) (id : Nat) : (s.dropOp id).ctrl = s.ctrl := rfl
@[simp] theorem State.dropOp_runs (s : State) (id : Nat) : (s.dropOp id).runs = s.runs := rfl
@[simp] theorem State.dropOp_recov (s : State) (id : Nat) : (s.dropOp id).recov = s.recov := rfl
@[simp] theorem State.dropOp_twin (s : State) (id : Nat) : (s.dropOp id).twin = s.twin := rfl
@[simp] theorem State.dropOp_dump (s : State) (id : Nat) : (s.dropOp id).dump = s.dump := rfl
@[simp] theorem State.dropOp_run_ (s : State) (id : Nat) (jj : Nat) : (s.dropOp id).run jj = s.run jj := by simp [State.run]
@[simp] theorem State.dropOp_ctx_ (s : State) (id : Nat) (jj : Nat) : (s.dropOp id).ctx jj = s.ctx jj := by simp [State.ctx]
@[simp] theorem State.dropOp_core_ (s : State) (id : Nat) (jj : Nat) : (s.dropOp id).core jj = s.core jj := by simp [State.core]
@[simp] theorem State.dropOp_stackOf_ (s : State) (id : Nat) (jj : Nat) : (s.dropOp id).stackOf jj = s.stackOf jj := by simp [State.stackOf]
@[simp] theorem State.dropOp_store_ (s : State) (id : Nat) : (s.dropOp id).store = s.store := by simp [State.store]
@[simp] theorem State.dropOp_released_ (s : State) (id : Nat) : (s.dropOp id).released = s.released := by simp [State.released]
@[simp] theorem State.dropOp_reqOf_ (s : State) (id : Nat) (z : Requester) : (s.dropOp id).reqOf z = s.reqOf z := by simp [State.reqOf]
@[simp] theorem State.dropOp_link_ (s : State) (id : Nat) (y : LinkRef) : (s.dropOp id).link y = s.link y := by cases y <;> simp [State.link]
@[simp] theorem State.dropOp_openRuns_ (s : State) (id : Nat) : (s.dropOp id).openRuns = s.openRuns := by simp [State.openRuns]

@[simp] theorem State.setStore_pending (s : State) (v : Store) : (s.setStore v).pending = s.pending := rfl
@[simp] theorem State.setStore_free (s : State) (v : Store) : (s.setStore v).free = s.free := rfl
@[simp] theorem State.setStore_now (s : State) (v : Store) : (s.setStore v).now = s.now := rfl
@[simp] theorem State.setStore_pins (s : State) (v : Store) : (s.setStore v).pins = s.pins := rfl
@[simp] theorem State.setStore_clk (s : State) (v : Store) : (s.setStore v).clk = s.clk := rfl
@[simp] theorem State.setStore_boot (s : State) (v : Store) : (s.setStore v).boot = s.boot := rfl
@[simp] theorem State.setStore_fuses (s : State) (v : Store) : (s.setStore v).fuses = s.fuses := rfl
@[simp] theorem State.setStore_vigil (s : State) (v : Store) : (s.setStore v).vigil = s.vigil := rfl
@[simp] theorem State.setStore_cores (s : State) (v : Store) : (s.setStore v).cores = s.cores := rfl
@[simp] theorem State.setStore_vec (s : State) (v : Store) : (s.setStore v).vec = s.vec := rfl
@[simp] theorem State.setStore_memsys (s : State) (v : Store) : (s.setStore v).memsys = s.memsys := rfl
@[simp] theorem State.setStore_ctxs (s : State) (v : Store) : (s.setStore v).ctxs = s.ctxs := rfl
@[simp] theorem State.setStore_sched (s : State) (v : Store) : (s.setStore v).sched = s.sched := rfl
@[simp] theorem State.setStore_links (s : State) (v : Store) : (s.setStore v).links = s.links := rfl
@[simp] theorem State.setStore_exch (s : State) (v : Store) : (s.setStore v).exch = s.exch := rfl
@[simp] theorem State.setStore_ctrl (s : State) (v : Store) : (s.setStore v).ctrl = s.ctrl := rfl
@[simp] theorem State.setStore_runs (s : State) (v : Store) : (s.setStore v).runs = s.runs := rfl
@[simp] theorem State.setStore_recov (s : State) (v : Store) : (s.setStore v).recov = s.recov := rfl
@[simp] theorem State.setStore_twin (s : State) (v : Store) : (s.setStore v).twin = s.twin := rfl
@[simp] theorem State.setStore_dump (s : State) (v : Store) : (s.setStore v).dump = s.dump := rfl
@[simp] theorem State.setStore_run_ (s : State) (v : Store) (jj : Nat) : (s.setStore v).run jj = s.run jj := by simp [State.run]
@[simp] theorem State.setStore_ctx_ (s : State) (v : Store) (jj : Nat) : (s.setStore v).ctx jj = s.ctx jj := by simp [State.ctx]
@[simp] theorem State.setStore_core_ (s : State) (v : Store) (jj : Nat) : (s.setStore v).core jj = s.core jj := by simp [State.core]
@[simp] theorem State.setStore_stackOf_ (s : State) (v : Store) (jj : Nat) : (s.setStore v).stackOf jj = s.stackOf jj := by simp [State.stackOf]
@[simp] theorem State.setStore_released_ (s : State) (v : Store) : (s.setStore v).released = s.released := by simp [State.released]
@[simp] theorem State.setStore_reqOf_ (s : State) (v : Store) (z : Requester) : (s.setStore v).reqOf z = s.reqOf z := by simp [State.reqOf]
@[simp] theorem State.setStore_link_ (s : State) (v : Store) (y : LinkRef) : (s.setStore v).link y = s.link y := by cases y <;> simp [State.link]
@[simp] theorem State.setStore_openRuns_ (s : State) (v : Store) : (s.setStore v).openRuns = s.openRuns := by simp [State.openRuns]

@[simp] theorem State.setReq_pending (s : State) (r : ReqState) : (s.setReq r).pending = s.pending := rfl
@[simp] theorem State.setReq_free (s : State) (r : ReqState) : (s.setReq r).free = s.free := rfl
@[simp] theorem State.setReq_now (s : State) (r : ReqState) : (s.setReq r).now = s.now := rfl
@[simp] theorem State.setReq_pins (s : State) (r : ReqState) : (s.setReq r).pins = s.pins := rfl
@[simp] theorem State.setReq_clk (s : State) (r : ReqState) : (s.setReq r).clk = s.clk := rfl
@[simp] theorem State.setReq_boot (s : State) (r : ReqState) : (s.setReq r).boot = s.boot := rfl
@[simp] theorem State.setReq_fuses (s : State) (r : ReqState) : (s.setReq r).fuses = s.fuses := rfl
@[simp] theorem State.setReq_flash (s : State) (r : ReqState) : (s.setReq r).flash = s.flash := rfl
@[simp] theorem State.setReq_cores (s : State) (r : ReqState) : (s.setReq r).cores = s.cores := rfl
@[simp] theorem State.setReq_vec (s : State) (r : ReqState) : (s.setReq r).vec = s.vec := rfl
@[simp] theorem State.setReq_memsys (s : State) (r : ReqState) : (s.setReq r).memsys = s.memsys := rfl
@[simp] theorem State.setReq_ctxs (s : State) (r : ReqState) : (s.setReq r).ctxs = s.ctxs := rfl
@[simp] theorem State.setReq_sched (s : State) (r : ReqState) : (s.setReq r).sched = s.sched := rfl
@[simp] theorem State.setReq_links (s : State) (r : ReqState) : (s.setReq r).links = s.links := rfl
@[simp] theorem State.setReq_exch (s : State) (r : ReqState) : (s.setReq r).exch = s.exch := rfl
@[simp] theorem State.setReq_ctrl (s : State) (r : ReqState) : (s.setReq r).ctrl = s.ctrl := rfl
@[simp] theorem State.setReq_runs (s : State) (r : ReqState) : (s.setReq r).runs = s.runs := rfl
@[simp] theorem State.setReq_recov (s : State) (r : ReqState) : (s.setReq r).recov = s.recov := rfl
@[simp] theorem State.setReq_twin (s : State) (r : ReqState) : (s.setReq r).twin = s.twin := rfl
@[simp] theorem State.setReq_dump (s : State) (r : ReqState) : (s.setReq r).dump = s.dump := rfl
@[simp] theorem State.setReq_run_ (s : State) (r : ReqState) (jj : Nat) : (s.setReq r).run jj = s.run jj := by simp [State.run]
@[simp] theorem State.setReq_ctx_ (s : State) (r : ReqState) (jj : Nat) : (s.setReq r).ctx jj = s.ctx jj := by simp [State.ctx]
@[simp] theorem State.setReq_core_ (s : State) (r : ReqState) (jj : Nat) : (s.setReq r).core jj = s.core jj := by simp [State.core]
@[simp] theorem State.setReq_stackOf_ (s : State) (r : ReqState) (jj : Nat) : (s.setReq r).stackOf jj = s.stackOf jj := by simp [State.stackOf]
@[simp] theorem State.setReq_store_ (s : State) (r : ReqState) : (s.setReq r).store = s.store := by simp [State.store]
@[simp] theorem State.setReq_released_ (s : State) (r : ReqState) : (s.setReq r).released = s.released := by simp [State.released]
@[simp] theorem State.setReq_link_ (s : State) (r : ReqState) (y : LinkRef) : (s.setReq r).link y = s.link y := by cases y <;> simp [State.link]
@[simp] theorem State.setReq_openRuns_ (s : State) (r : ReqState) : (s.setReq r).openRuns = s.openRuns := by simp [State.openRuns]

@[simp] theorem State.updReq_pending (s : State) (w : Requester) (f : ReqState → ReqState) : (s.updReq w f).pending = s.pending := rfl
@[simp] theorem State.updReq_free (s : State) (w : Requester) (f : ReqState → ReqState) : (s.updReq w f).free = s.free := rfl
@[simp] theorem State.updReq_now (s : State) (w : Requester) (f : ReqState → ReqState) : (s.updReq w f).now = s.now := rfl
@[simp] theorem State.updReq_pins (s : State) (w : Requester) (f : ReqState → ReqState) : (s.updReq w f).pins = s.pins := rfl
@[simp] theorem State.updReq_clk (s : State) (w : Requester) (f : ReqState → ReqState) : (s.updReq w f).clk = s.clk := rfl
@[simp] theorem State.updReq_boot (s : State) (w : Requester) (f : ReqState → ReqState) : (s.updReq w f).boot = s.boot := rfl
@[simp] theorem State.updReq_fuses (s : State) (w : Requester) (f : ReqState → ReqState) : (s.updReq w f).fuses = s.fuses := rfl
@[simp] theorem State.updReq_flash (s : State) (w : Requester) (f : ReqState → ReqState) : (s.updReq w f).flash = s.flash := rfl
@[simp] theorem State.updReq_cores (s : State) (w : Requester) (f : ReqState → ReqState) : (s.updReq w f).cores = s.cores := rfl
@[simp] theorem State.updReq_vec (s : State) (w : Requester) (f : ReqState → ReqState) : (s.updReq w f).vec = s.vec := rfl
@[simp] theorem State.updReq_memsys (s : State) (w : Requester) (f : ReqState → ReqState) : (s.updReq w f).memsys = s.memsys := rfl
@[simp] theorem State.updReq_ctxs (s : State) (w : Requester) (f : ReqState → ReqState) : (s.updReq w f).ctxs = s.ctxs := rfl
@[simp] theorem State.updReq_sched (s : State) (w : Requester) (f : ReqState → ReqState) : (s.updReq w f).sched = s.sched := rfl
@[simp] theorem State.updReq_links (s : State) (w : Requester) (f : ReqState → ReqState) : (s.updReq w f).links = s.links := rfl
@[simp] theorem State.updReq_exch (s : State) (w : Requester) (f : ReqState → ReqState) : (s.updReq w f).exch = s.exch := rfl
@[simp] theorem State.updReq_ctrl (s : State) (w : Requester) (f : ReqState → ReqState) : (s.updReq w f).ctrl = s.ctrl := rfl
@[simp] theorem State.updReq_runs (s : State) (w : Requester) (f : ReqState → ReqState) : (s.updReq w f).runs = s.runs := rfl
@[simp] theorem State.updReq_recov (s : State) (w : Requester) (f : ReqState → ReqState) : (s.updReq w f).recov = s.recov := rfl
@[simp] theorem State.updReq_twin (s : State) (w : Requester) (f : ReqState → ReqState) : (s.updReq w f).twin = s.twin := rfl
@[simp] theorem State.updReq_dump (s : State) (w : Requester) (f : ReqState → ReqState) : (s.updReq w f).dump = s.dump := rfl
@[simp] theorem State.updReq_run_ (s : State) (w : Requester) (f : ReqState → ReqState) (jj : Nat) : (s.updReq w f).run jj = s.run jj := by simp [State.run]
@[simp] theorem State.updReq_ctx_ (s : State) (w : Requester) (f : ReqState → ReqState) (jj : Nat) : (s.updReq w f).ctx jj = s.ctx jj := by simp [State.ctx]
@[simp] theorem State.updReq_core_ (s : State) (w : Requester) (f : ReqState → ReqState) (jj : Nat) : (s.updReq w f).core jj = s.core jj := by simp [State.core]
@[simp] theorem State.updReq_stackOf_ (s : State) (w : Requester) (f : ReqState → ReqState) (jj : Nat) : (s.updReq w f).stackOf jj = s.stackOf jj := by simp [State.stackOf]
@[simp] theorem State.updReq_store_ (s : State) (w : Requester) (f : ReqState → ReqState) : (s.updReq w f).store = s.store := by simp [State.store]
@[simp] theorem State.updReq_released_ (s : State) (w : Requester) (f : ReqState → ReqState) : (s.updReq w f).released = s.released := by simp [State.released]
@[simp] theorem State.updReq_link_ (s : State) (w : Requester) (f : ReqState → ReqState) (y : LinkRef) : (s.updReq w f).link y = s.link y := by cases y <;> simp [State.link]
@[simp] theorem State.updReq_openRuns_ (s : State) (w : Requester) (f : ReqState → ReqState) : (s.updReq w f).openRuns = s.openRuns := by simp [State.openRuns]

@[simp] theorem State.touch_pending (s : State) (w : Requester) : (s.touch w).pending = s.pending := rfl
@[simp] theorem State.touch_free (s : State) (w : Requester) : (s.touch w).free = s.free := rfl
@[simp] theorem State.touch_now (s : State) (w : Requester) : (s.touch w).now = s.now := rfl
@[simp] theorem State.touch_pins (s : State) (w : Requester) : (s.touch w).pins = s.pins := rfl
@[simp] theorem State.touch_clk (s : State) (w : Requester) : (s.touch w).clk = s.clk := rfl
@[simp] theorem State.touch_boot (s : State) (w : Requester) : (s.touch w).boot = s.boot := rfl
@[simp] theorem State.touch_fuses (s : State) (w : Requester) : (s.touch w).fuses = s.fuses := rfl
@[simp] theorem State.touch_flash (s : State) (w : Requester) : (s.touch w).flash = s.flash := rfl
@[simp] theorem State.touch_cores (s : State) (w : Requester) : (s.touch w).cores = s.cores := rfl
@[simp] theorem State.touch_vec (s : State) (w : Requester) : (s.touch w).vec = s.vec := rfl
@[simp] theorem State.touch_memsys (s : State) (w : Requester) : (s.touch w).memsys = s.memsys := rfl
@[simp] theorem State.touch_ctxs (s : State) (w : Requester) : (s.touch w).ctxs = s.ctxs := rfl
@[simp] theorem State.touch_sched (s : State) (w : Requester) : (s.touch w).sched = s.sched := rfl
@[simp] theorem State.touch_links (s : State) (w : Requester) : (s.touch w).links = s.links := rfl
@[simp] theorem State.touch_exch (s : State) (w : Requester) : (s.touch w).exch = s.exch := rfl
@[simp] theorem State.touch_ctrl (s : State) (w : Requester) : (s.touch w).ctrl = s.ctrl := rfl
@[simp] theorem State.touch_runs (s : State) (w : Requester) : (s.touch w).runs = s.runs := rfl
@[simp] theorem State.touch_recov (s : State) (w : Requester) : (s.touch w).recov = s.recov := rfl
@[simp] theorem State.touch_twin (s : State) (w : Requester) : (s.touch w).twin = s.twin := rfl
@[simp] theorem State.touch_dump (s : State) (w : Requester) : (s.touch w).dump = s.dump := rfl
@[simp] theorem State.touch_run_ (s : State) (w : Requester) (jj : Nat) : (s.touch w).run jj = s.run jj := by simp [State.run]
@[simp] theorem State.touch_ctx_ (s : State) (w : Requester) (jj : Nat) : (s.touch w).ctx jj = s.ctx jj := by simp [State.ctx]
@[simp] theorem State.touch_core_ (s : State) (w : Requester) (jj : Nat) : (s.touch w).core jj = s.core jj := by simp [State.core]
@[simp] theorem State.touch_stackOf_ (s : State) (w : Requester) (jj : Nat) : (s.touch w).stackOf jj = s.stackOf jj := by simp [State.stackOf]
@[simp] theorem State.touch_store_ (s : State) (w : Requester) : (s.touch w).store = s.store := by simp [State.store]
@[simp] theorem State.touch_released_ (s : State) (w : Requester) : (s.touch w).released = s.released := by simp [State.released]
@[simp] theorem State.touch_link_ (s : State) (w : Requester) (y : LinkRef) : (s.touch w).link y = s.link y := by cases y <;> simp [State.link]
@[simp] theorem State.touch_openRuns_ (s : State) (w : Requester) : (s.touch w).openRuns = s.openRuns := by simp [State.openRuns]

@[simp] theorem State.endElevation_pending (s : State) (w : Requester) : (s.endElevation w).pending = s.pending := rfl
@[simp] theorem State.endElevation_free (s : State) (w : Requester) : (s.endElevation w).free = s.free := rfl
@[simp] theorem State.endElevation_now (s : State) (w : Requester) : (s.endElevation w).now = s.now := rfl
@[simp] theorem State.endElevation_pins (s : State) (w : Requester) : (s.endElevation w).pins = s.pins := rfl
@[simp] theorem State.endElevation_clk (s : State) (w : Requester) : (s.endElevation w).clk = s.clk := rfl
@[simp] theorem State.endElevation_boot (s : State) (w : Requester) : (s.endElevation w).boot = s.boot := rfl
@[simp] theorem State.endElevation_fuses (s : State) (w : Requester) : (s.endElevation w).fuses = s.fuses := rfl
@[simp] theorem State.endElevation_flash (s : State) (w : Requester) : (s.endElevation w).flash = s.flash := rfl
@[simp] theorem State.endElevation_cores (s : State) (w : Requester) : (s.endElevation w).cores = s.cores := rfl
@[simp] theorem State.endElevation_vec (s : State) (w : Requester) : (s.endElevation w).vec = s.vec := rfl
@[simp] theorem State.endElevation_memsys (s : State) (w : Requester) : (s.endElevation w).memsys = s.memsys := rfl
@[simp] theorem State.endElevation_ctxs (s : State) (w : Requester) : (s.endElevation w).ctxs = s.ctxs := rfl
@[simp] theorem State.endElevation_sched (s : State) (w : Requester) : (s.endElevation w).sched = s.sched := rfl
@[simp] theorem State.endElevation_links (s : State) (w : Requester) : (s.endElevation w).links = s.links := rfl
@[simp] theorem State.endElevation_exch (s : State) (w : Requester) : (s.endElevation w).exch = s.exch := rfl
@[simp] theorem State.endElevation_ctrl (s : State) (w : Requester) : (s.endElevation w).ctrl = s.ctrl := rfl
@[simp] theorem State.endElevation_runs (s : State) (w : Requester) : (s.endElevation w).runs = s.runs := rfl
@[simp] theorem State.endElevation_recov (s : State) (w : Requester) : (s.endElevation w).recov = s.recov := rfl
@[simp] theorem State.endElevation_twin (s : State) (w : Requester) : (s.endElevation w).twin = s.twin := rfl
@[simp] theorem State.endElevation_dump (s : State) (w : Requester) : (s.endElevation w).dump = s.dump := rfl
@[simp] theorem State.endElevation_run_ (s : State) (w : Requester) (jj : Nat) : (s.endElevation w).run jj = s.run jj := by simp [State.run]
@[simp] theorem State.endElevation_ctx_ (s : State) (w : Requester) (jj : Nat) : (s.endElevation w).ctx jj = s.ctx jj := by simp [State.ctx]
@[simp] theorem State.endElevation_core_ (s : State) (w : Requester) (jj : Nat) : (s.endElevation w).core jj = s.core jj := by simp [State.core]
@[simp] theorem State.endElevation_stackOf_ (s : State) (w : Requester) (jj : Nat) : (s.endElevation w).stackOf jj = s.stackOf jj := by simp [State.stackOf]
@[simp] theorem State.endElevation_store_ (s : State) (w : Requester) : (s.endElevation w).store = s.store := by simp [State.store]
@[simp] theorem State.endElevation_released_ (s : State) (w : Requester) : (s.endElevation w).released = s.released := by simp [State.released]
@[simp] theorem State.endElevation_link_ (s : State) (w : Requester) (y : LinkRef) : (s.endElevation w).link y = s.link y := by cases y <;> simp [State.link]
@[simp] theorem State.endElevation_openRuns_ (s : State) (w : Requester) : (s.endElevation w).openRuns = s.openRuns := by simp [State.openRuns]

@[simp] theorem State.takeDict_pending (s : State) (w : Requester) : (s.takeDict w).pending = s.pending := by cases w <;> simp [State.takeDict]
@[simp] theorem State.takeDict_free (s : State) (w : Requester) : (s.takeDict w).free = s.free := by cases w <;> simp [State.takeDict]
@[simp] theorem State.takeDict_now (s : State) (w : Requester) : (s.takeDict w).now = s.now := by cases w <;> simp [State.takeDict]
@[simp] theorem State.takeDict_pins (s : State) (w : Requester) : (s.takeDict w).pins = s.pins := by cases w <;> simp [State.takeDict]
@[simp] theorem State.takeDict_clk (s : State) (w : Requester) : (s.takeDict w).clk = s.clk := by cases w <;> simp [State.takeDict]
@[simp] theorem State.takeDict_boot (s : State) (w : Requester) : (s.takeDict w).boot = s.boot := by cases w <;> simp [State.takeDict]
@[simp] theorem State.takeDict_fuses (s : State) (w : Requester) : (s.takeDict w).fuses = s.fuses := by cases w <;> simp [State.takeDict]
@[simp] theorem State.takeDict_flash (s : State) (w : Requester) : (s.takeDict w).flash = s.flash := by cases w <;> simp [State.takeDict]
@[simp] theorem State.takeDict_vigil (s : State) (w : Requester) : (s.takeDict w).vigil = s.vigil := by cases w <;> simp [State.takeDict]
@[simp] theorem State.takeDict_cores (s : State) (w : Requester) : (s.takeDict w).cores = s.cores := by cases w <;> simp [State.takeDict]
@[simp] theorem State.takeDict_vec (s : State) (w : Requester) : (s.takeDict w).vec = s.vec := by cases w <;> simp [State.takeDict]
@[simp] theorem State.takeDict_memsys (s : State) (w : Requester) : (s.takeDict w).memsys = s.memsys := by cases w <;> simp [State.takeDict]
@[simp] theorem State.takeDict_ctxs (s : State) (w : Requester) : (s.takeDict w).ctxs = s.ctxs := by cases w <;> simp [State.takeDict]
@[simp] theorem State.takeDict_sched (s : State) (w : Requester) : (s.takeDict w).sched = s.sched := by cases w <;> simp [State.takeDict]
@[simp] theorem State.takeDict_exch (s : State) (w : Requester) : (s.takeDict w).exch = s.exch := by cases w <;> simp [State.takeDict]
@[simp] theorem State.takeDict_ctrl (s : State) (w : Requester) : (s.takeDict w).ctrl = s.ctrl := by cases w <;> simp [State.takeDict]
@[simp] theorem State.takeDict_runs (s : State) (w : Requester) : (s.takeDict w).runs = s.runs := by cases w <;> simp [State.takeDict]
@[simp] theorem State.takeDict_recov (s : State) (w : Requester) : (s.takeDict w).recov = s.recov := by cases w <;> simp [State.takeDict]
@[simp] theorem State.takeDict_twin (s : State) (w : Requester) : (s.takeDict w).twin = s.twin := by cases w <;> simp [State.takeDict]
@[simp] theorem State.takeDict_dump (s : State) (w : Requester) : (s.takeDict w).dump = s.dump := by cases w <;> simp [State.takeDict]
@[simp] theorem State.takeDict_run_ (s : State) (w : Requester) (jj : Nat) : (s.takeDict w).run jj = s.run jj := by simp [State.run]
@[simp] theorem State.takeDict_ctx_ (s : State) (w : Requester) (jj : Nat) : (s.takeDict w).ctx jj = s.ctx jj := by simp [State.ctx]
@[simp] theorem State.takeDict_core_ (s : State) (w : Requester) (jj : Nat) : (s.takeDict w).core jj = s.core jj := by simp [State.core]
@[simp] theorem State.takeDict_stackOf_ (s : State) (w : Requester) (jj : Nat) : (s.takeDict w).stackOf jj = s.stackOf jj := by simp [State.stackOf]
@[simp] theorem State.takeDict_store_ (s : State) (w : Requester) : (s.takeDict w).store = s.store := by simp [State.store]
@[simp] theorem State.takeDict_released_ (s : State) (w : Requester) : (s.takeDict w).released = s.released := by simp [State.released]
@[simp] theorem State.takeDict_reqOf_ (s : State) (w : Requester) (z : Requester) : (s.takeDict w).reqOf z = s.reqOf z := by simp [State.reqOf]
@[simp] theorem State.takeDict_openRuns_ (s : State) (w : Requester) : (s.takeDict w).openRuns = s.openRuns := by simp [State.openRuns]

@[simp] theorem State.sendResponse_pending (s : State) (w : Requester) (r : Response) : (s.sendResponse w r).pending = s.pending := by cases w <;> simp [State.sendResponse]
@[simp] theorem State.sendResponse_free (s : State) (w : Requester) (r : Response) : (s.sendResponse w r).free = s.free := by cases w <;> simp [State.sendResponse]
@[simp] theorem State.sendResponse_now (s : State) (w : Requester) (r : Response) : (s.sendResponse w r).now = s.now := by cases w <;> simp [State.sendResponse]
@[simp] theorem State.sendResponse_pins (s : State) (w : Requester) (r : Response) : (s.sendResponse w r).pins = s.pins := by cases w <;> simp [State.sendResponse]
@[simp] theorem State.sendResponse_clk (s : State) (w : Requester) (r : Response) : (s.sendResponse w r).clk = s.clk := by cases w <;> simp [State.sendResponse]
@[simp] theorem State.sendResponse_boot (s : State) (w : Requester) (r : Response) : (s.sendResponse w r).boot = s.boot := by cases w <;> simp [State.sendResponse]
@[simp] theorem State.sendResponse_fuses (s : State) (w : Requester) (r : Response) : (s.sendResponse w r).fuses = s.fuses := by cases w <;> simp [State.sendResponse]
@[simp] theorem State.sendResponse_flash (s : State) (w : Requester) (r : Response) : (s.sendResponse w r).flash = s.flash := by cases w <;> simp [State.sendResponse]
@[simp] theorem State.sendResponse_cores (s : State) (w : Requester) (r : Response) : (s.sendResponse w r).cores = s.cores := by cases w <;> simp [State.sendResponse]
@[simp] theorem State.sendResponse_vec (s : State) (w : Requester) (r : Response) : (s.sendResponse w r).vec = s.vec := by cases w <;> simp [State.sendResponse]
@[simp] theorem State.sendResponse_memsys (s : State) (w : Requester) (r : Response) : (s.sendResponse w r).memsys = s.memsys := by cases w <;> simp [State.sendResponse]
@[simp] theorem State.sendResponse_ctxs (s : State) (w : Requester) (r : Response) : (s.sendResponse w r).ctxs = s.ctxs := by cases w <;> simp [State.sendResponse]
@[simp] theorem State.sendResponse_sched (s : State) (w : Requester) (r : Response) : (s.sendResponse w r).sched = s.sched := by cases w <;> simp [State.sendResponse]
@[simp] theorem State.sendResponse_exch (s : State) (w : Requester) (r : Response) : (s.sendResponse w r).exch = s.exch := by cases w <;> simp [State.sendResponse]
@[simp] theorem State.sendResponse_ctrl (s : State) (w : Requester) (r : Response) : (s.sendResponse w r).ctrl = s.ctrl := by cases w <;> simp [State.sendResponse]
@[simp] theorem State.sendResponse_runs (s : State) (w : Requester) (r : Response) : (s.sendResponse w r).runs = s.runs := by cases w <;> simp [State.sendResponse]
@[simp] theorem State.sendResponse_recov (s : State) (w : Requester) (r : Response) : (s.sendResponse w r).recov = s.recov := by cases w <;> simp [State.sendResponse]
@[simp] theorem State.sendResponse_twin (s : State) (w : Requester) (r : Response) : (s.sendResponse w r).twin = s.twin := by cases w <;> simp [State.sendResponse]
@[simp] theorem State.sendResponse_dump (s : State) (w : Requester) (r : Response) : (s.sendResponse w r).dump = s.dump := by cases w <;> simp [State.sendResponse]
@[simp] theorem State.sendResponse_run_ (s : State) (w : Requester) (r : Response) (jj : Nat) : (s.sendResponse w r).run jj = s.run jj := by simp [State.run]
@[simp] theorem State.sendResponse_ctx_ (s : State) (w : Requester) (r : Response) (jj : Nat) : (s.sendResponse w r).ctx jj = s.ctx jj := by simp [State.ctx]
@[simp] theorem State.sendResponse_core_ (s : State) (w : Requester) (r : Response) (jj : Nat) : (s.sendResponse w r).core jj = s.core jj := by simp [State.core]
@[simp] theorem State.sendResponse_stackOf_ (s : State) (w : Requester) (r : Response) (jj : Nat) : (s.sendResponse w r).stackOf jj = s.stackOf jj := by simp [State.stackOf]
@[simp] theorem State.sendResponse_store_ (s : State) (w : Requester) (r : Response) : (s.sendResponse w r).store = s.store := by simp [State.store]
@[simp] theorem State.sendResponse_released_ (s : State) (w : Requester) (r : Response) : (s.sendResponse w r).released = s.released := by simp [State.released]
@[simp] theorem State.sendResponse_openRuns_ (s : State) (w : Requester) (r : Response) : (s.sendResponse w r).openRuns = s.openRuns := by simp [State.openRuns]

@[simp] theorem State.respond_pending (s : State) (w : Requester) (r : Response) : (s.respond w r).pending = s.pending := by simp [State.respond]
@[simp] theorem State.respond_free (s : State) (w : Requester) (r : Response) : (s.respond w r).free = s.free := by simp [State.respond]
@[simp] theorem State.respond_now (s : State) (w : Requester) (r : Response) : (s.respond w r).now = s.now := by simp [State.respond]
@[simp] theorem State.respond_pins (s : State) (w : Requester) (r : Response) : (s.respond w r).pins = s.pins := by simp [State.respond]
@[simp] theorem State.respond_clk (s : State) (w : Requester) (r : Response) : (s.respond w r).clk = s.clk := by simp [State.respond]
@[simp] theorem State.respond_boot (s : State) (w : Requester) (r : Response) : (s.respond w r).boot = s.boot := by simp [State.respond]
@[simp] theorem State.respond_fuses (s : State) (w : Requester) (r : Response) : (s.respond w r).fuses = s.fuses := by simp [State.respond]
@[simp] theorem State.respond_flash (s : State) (w : Requester) (r : Response) : (s.respond w r).flash = s.flash := by simp [State.respond]
@[simp] theorem State.respond_cores (s : State) (w : Requester) (r : Response) : (s.respond w r).cores = s.cores := by simp [State.respond]
@[simp] theorem State.respond_vec (s : State) (w : Requester) (r : Response) : (s.respond w r).vec = s.vec := by simp [State.respond]
@[simp] theorem State.respond_memsys (s : State) (w : Requester) (r : Response) : (s.respond w r).memsys = s.memsys := by simp [State.respond]
@[simp] theorem State.respond_ctxs (s : State) (w : Requester) (r : Response) : (s.respond w r).ctxs = s.ctxs := by simp [State.respond]
@[simp] theorem State.respond_sched (s : State) (w : Requester) (r : Response) : (s.respond w r).sched = s.sched := by simp [State.respond]
@[simp] theorem State.respond_exch (s : State) (w : Requester) (r : Response) : (s.respond w r).exch = s.exch := by simp [State.respond]
@[simp] theorem State.respond_ctrl (s : State) (w : Requester) (r : Response) : (s.respond w r).ctrl = s.ctrl := by simp [State.respond]
@[simp] theorem State.respond_runs (s : State) (w : Requester) (r : Response) : (s.respond w r).runs = s.runs := by simp [State.respond]
@[simp] theorem State.respond_recov (s : State) (w : Requester) (r : Response) : (s.respond w r).recov = s.recov := by simp [State.respond]
@[simp] theorem State.respond_twin (s : State) (w : Requester) (r : Response) : (s.respond w r).twin = s.twin := by simp [State.respond]
@[simp] theorem State.respond_dump (s : State) (w : Requester) (r : Response) : (s.respond w r).dump = s.dump := by simp [State.respond]
@[simp] theorem State.respond_run_ (s : State) (w : Requester) (r : Response) (jj : Nat) : (s.respond w r).run jj = s.run jj := by simp [State.run]
@[simp] theorem State.respond_ctx_ (s : State) (w : Requester) (r : Response) (jj : Nat) : (s.respond w r).ctx jj = s.ctx jj := by simp [State.ctx]
@[simp] theorem State.respond_core_ (s : State) (w : Requester) (r : Response) (jj : Nat) : (s.respond w r).core jj = s.core jj := by simp [State.core]
@[simp] theorem State.respond_stackOf_ (s : State) (w : Requester) (r : Response) (jj : Nat) : (s.respond w r).stackOf jj = s.stackOf jj := by simp [State.stackOf]
@[simp] theorem State.respond_store_ (s : State) (w : Requester) (r : Response) : (s.respond w r).store = s.store := by simp [State.store]
@[simp] theorem State.respond_released_ (s : State) (w : Requester) (r : Response) : (s.respond w r).released = s.released := by simp [State.released]
@[simp] theorem State.respond_openRuns_ (s : State) (w : Requester) (r : Response) : (s.respond w r).openRuns = s.openRuns := by simp [State.openRuns]

end Sys2Proof.Machine
end

