-- ==== Sys2Proof/Laws/Tables.lean ====
section
/-! SUPPORT. Tables with rising keys, and what the tables of the state hold after an update. -/

namespace Sys2Proof.Machine

theorem NMap.get?_set_same {α : Type} (m : NMap α) (k : Nat) (v : α) : NMap.get? (NMap.set m k v) k = some v := by
  induction m with
  | nil => simp [NMap.set, NMap.get?]
  | cons e r ih =>
    obtain ⟨j, w⟩ := e
    simp only [NMap.set]
    split
    · simp [NMap.get?]
    · split
      · simp [NMap.get?]
      · rename_i h
        simp [NMap.get?, h, ih]

theorem NMap.get?_set_other {α : Type} (m : NMap α) (k j : Nat) (v : α) (h : j ≠ k) : NMap.get? (NMap.set m k v) j = NMap.get? m j := by
  induction m with
  | nil => simp [NMap.set, NMap.get?, Ne.symm h]
  | cons e r ih =>
    obtain ⟨i, w⟩ := e
    simp only [NMap.set]
    split
    · simp [NMap.get?, Ne.symm h]
    · split
      · rename_i hi
        subst hi
        simp [NMap.get?, Ne.symm h]
      · simp only [NMap.get?, ih]

@[simp] theorem NMap.getD_set_same {α : Type} (m : NMap α) (k : Nat) (v d : α) : NMap.getD (NMap.set m k v) k d = v := by
  simp [NMap.getD, NMap.get?_set_same]

theorem NMap.getD_set_other {α : Type} (m : NMap α) (k j : Nat) (v d : α) (h : j ≠ k) : NMap.getD (NMap.set m k v) j d = NMap.getD m j d := by
  simp [NMap.getD, NMap.get?_set_other m k j v h]

@[simp] theorem State.link_setLink_same (s : State) (l : LinkRef) (k : Link) : (s.setLink l k).link l = k := by
  cases l <;> simp [State.setLink, State.link]

theorem State.link_setLink_other (s : State) (l m : LinkRef) (k : Link) (h : m ≠ l) : (s.setLink l k).link m = s.link m := by
  cases l <;> cases m <;> simp_all [State.setLink, State.link, NMap.getD_set_other]

@[simp] theorem State.link_updLink_same (s : State) (l : LinkRef) (f : Link → Link) : (s.updLink l f).link l = f (s.link l) := by
  simp [State.updLink]

theorem State.link_updLink_other (s : State) (l m : LinkRef) (f : Link → Link) (h : m ≠ l) : (s.updLink l f).link m = s.link m := by
  simp [State.updLink, State.link_setLink_other _ _ _ _ h]

@[simp] theorem State.run_updRun_same (s : State) (k : Nat) (f : Run → Run) : (s.updRun k f).run k = f (s.run k) := by
  simp [State.updRun, State.setRun, State.run]

theorem State.run_updRun_other (s : State) (k j : Nat) (f : Run → Run) (h : j ≠ k) : (s.updRun k f).run j = s.run j := by
  simp [State.updRun, State.setRun, State.run, NMap.getD_set_other _ _ _ _ _ h]

@[simp] theorem State.ctx_updCtx_same (s : State) (c : Nat) (f : Ctx → Ctx) : (s.updCtx c f).ctx c = f (s.ctx c) := by
  simp [State.updCtx, State.setCtx, State.ctx]

theorem State.ctx_updCtx_other (s : State) (c j : Nat) (f : Ctx → Ctx) (h : j ≠ c) : (s.updCtx c f).ctx j = s.ctx j := by
  simp [State.updCtx, State.setCtx, State.ctx, NMap.getD_set_other _ _ _ _ _ h]

@[simp] theorem State.stackOf_setStack_same (s : State) (c : Nat) (k : Stack) : (s.setStack c k).stackOf c = k := by
  simp [State.setStack, State.stackOf]

@[simp] theorem State.core_updCore_same (s : State) (c : Nat) (f : CoreRec → CoreRec) : (s.updCore c f).core c = f (s.core c) := by
  simp [State.updCore, State.core, NMap.upd]

theorem State.core_updCore_other (s : State) (c j : Nat) (f : CoreRec → CoreRec) (h : j ≠ c) : (s.updCore c f).core j = s.core j := by
  simp [State.updCore, State.core, NMap.upd, NMap.getD_set_other _ _ _ _ _ h]

@[simp] theorem State.now_advanceTo (s : State) (t : Nat) : (s.advanceTo t).now = max s.now t := by
  simp only [State.advanceTo, State.advance]
  omega

end Sys2Proof.Machine
end

