-- ==== Sys2Proof/Laws/Bodies.lean ====
section
/-! SUPPORT. What the end of a body that meets no fault does (R68, R196): its writes and its entry's values; the other operators and the contexts stay. -/

namespace Sys2Proof.Machine

/-- `t` differs from `s` in what plane writes, counters, digests and records touch. -/
structure BodyKept (s t : State) : Prop where
  sched : t.sched = s.sched
  ctxs : t.ctxs = s.ctxs
  now : t.now = s.now
  boot : t.boot = s.boot
  fuses : t.fuses = s.fuses
  flash : t.flash = s.flash
  keys : t.memsys.keys = s.memsys.keys
  grants : t.memsys.grants = s.memsys.grants

theorem BodyKept.refl (s : State) : BodyKept s s := ⟨rfl, rfl, rfl, rfl, rfl, rfl, rfl, rfl⟩

theorem BodyKept.trans {s t u : State} (a : BodyKept s t) (b : BodyKept t u) : BodyKept s u :=
  ⟨b.sched.trans a.sched, b.ctxs.trans a.ctxs, b.now.trans a.now, b.boot.trans a.boot, b.fuses.trans a.fuses, b.flash.trans a.flash,
    b.keys.trans a.keys, b.grants.trans a.grants⟩

theorem kept_ite {s a b : State} (c : Prop) [Decidable c] (h : BodyKept s a) (g : BodyKept s b) : BodyKept s (if c then a else b) := by
  split
  · exact h
  · exact g

theorem memsys_ite {s a b : State} (c : Prop) [Decidable c] (h : a.memsys = s.memsys) (g : b.memsys = s.memsys) :
    (if c then a else b).memsys = s.memsys := by
  split
  · exact h
  · exact g

theorem BodyKept.foldl {β : Type} (f : State → β → State) (h : ∀ s b, BodyKept s (f s b)) (l : List β) (s : State) : BodyKept s (l.foldl f s) := by
  induction l generalizing s with
  | nil => exact .refl s
  | cons b r ih => exact (h s b).trans (ih _)

theorem foldl_mem {β : Type} (f : State → β → State) (h : ∀ s b, (f s b).memsys.mem = s.memsys.mem) (l : List β) (s : State) :
    (l.foldl f s).memsys.mem = s.memsys.mem := by
  induction l generalizing s with
  | nil => rfl
  | cons b r ih => exact (ih _).trans (h s b)

theorem kept_planeWrite (s t : State) (c : Nat) (w : PlaneW) (h : s.planeWrite c w = .ok t) : BodyKept s t := by
  unfold State.planeWrite at h
  dsimp only at h
  split at h
  · cases h; exact .refl s
  · split at h
    · unfold State.hostWrite at h
      split at h
      · cases h
      · cases h
        exact BodyKept.foldl _ (fun s b => ⟨by simp, by simp, by simp, by simp, by simp, by simp, by simp, by simp⟩) _ _
    · split at h <;> cases h
      · exact ⟨rfl, rfl, rfl, rfl, rfl, rfl, rfl, rfl⟩
      · exact ⟨rfl, rfl, rfl, rfl, rfl, rfl, rfl, rfl⟩

theorem kept_planeWrites (s t : State) (c : Nat) (ws : List PlaneW) (h : s.planeWrites c ws = .ok t) : BodyKept s t := by
  induction ws generalizing s with
  | nil => simp only [State.planeWrites, Except.ok.injEq] at h; subst h; exact .refl s
  | cons w r ih =>
    simp only [State.planeWrites] at h
    split at h
    · cases h
    · rename_i u hu
      exact (kept_planeWrite s u c w hu).trans (ih u h)

theorem kept_record (s : State) (u : BitVec 32) (c : Code) (v d : Nat) (w : Who) : BodyKept s (s.record u c v d w) :=
  ⟨by simp, by simp, by simp, by simp, by simp, by simp, by simp, by simp⟩

theorem kept_updRun (s : State) (k : Nat) (f : Run → Run) : BodyKept s (s.updRun k f) := ⟨rfl, rfl, rfl, rfl, rfl, rfl, rfl, rfl⟩

theorem kept_forgetPlane (s : State) (c : Nat) (p : Nat × Nat × Nat) : BodyKept s (s.forgetPlane c p) := by
  unfold State.forgetPlane
  dsimp only
  split
  · exact .refl s
  · split
    · exact .refl s
    · exact ⟨rfl, rfl, rfl, rfl, rfl, rfl, rfl, rfl⟩

theorem kept_forgetOutputs (s : State) (e : OpEntry) : BodyKept s (s.forgetOutputs e) := BodyKept.foldl _ (fun s p => kept_forgetPlane s _ p) _ _

theorem kept_touchBanks (s : State) (e : OpEntry) : BodyKept s (s.touchBanks e) := by
  unfold State.touchBanks
  dsimp only
  split
  · exact kept_updRun _ _ _
  · exact .refl s

theorem kept_addDeltas (s : State) (n : Nat) (l : List CoreDelta) : BodyKept s (s.addDeltas n l) := by
  unfold State.addDeltas
  refine BodyKept.foldl _ ?_ _ _
  intro s d
  exact ⟨rfl, rfl, rfl, rfl, rfl, rfl, rfl, rfl⟩

theorem kept_addDigests (s : State) (k : Nat) (e : OpEntry) (l : List DigBlock) : BodyKept s (s.addDigests k e l) := by
  unfold State.addDigests
  split
  · exact .refl s
  · exact BodyKept.foldl _ (fun s b => kept_updRun _ _ _) _ _

theorem kept_addCounts (s : State) (k : Nat) (e : OpEntry) (b : Body) : BodyKept s (s.addCounts k e b) := by
  unfold State.addCounts
  split
  · exact .refl s
  · dsimp only
    exact kept_ite _ ((kept_updRun _ _ _).trans (kept_record _ _ _ _ _ _)) (kept_updRun _ _ _)

theorem touchBanks_mem (s : State) (e : OpEntry) : (s.touchBanks e).memsys = s.memsys := by
  unfold State.touchBanks
  dsimp only
  split <;> rfl

theorem addDeltas_mem (s : State) (n : Nat) (l : List CoreDelta) : (s.addDeltas n l).memsys.mem = s.memsys.mem := by
  unfold State.addDeltas
  refine foldl_mem _ ?_ _ _
  intro s d
  rfl

theorem addDigests_mem (s : State) (k : Nat) (e : OpEntry) (l : List DigBlock) : (s.addDigests k e l).memsys.mem = s.memsys.mem := by
  unfold State.addDigests
  split
  · rfl
  · refine foldl_mem _ ?_ _ _
    intro s d
    rfl

theorem addCounts_mem (s : State) (k : Nat) (e : OpEntry) (b : Body) : (s.addCounts k e b).memsys = s.memsys := by
  unfold State.addCounts
  split
  · rfl
  · dsimp only
    exact memsys_ite _ (by simp) rfl

theorem kept_addFixed (s : State) (e : OpEntry) (env : OpEnv) : BodyKept s (s.addFixed e env) := ⟨rfl, rfl, rfl, rfl, rfl, rfl, rfl, rfl⟩

theorem kept_keepArrays (s : State) (e : OpEntry) (x : MathCtx) : BodyKept s (s.keepArrays e x) := ⟨rfl, rfl, rfl, rfl, rfl, rfl, rfl, rfl⟩

/-- Errors that lose no line change nothing. -/
theorem State.loseLines_none (s : State) (l : List LineError) (h : (l.filter (fun x => lineLost x.line x.symbols)).isEmpty = true) : s.loseLines l = s := by
  unfold State.loseLines
  dsimp only
  rw [if_pos h]

/-- A due operator's entry. -/
theorem State.bodyDue_get (s : State) (id oc : Nat) (e : OpEntry) (h : s.bodyDue id oc = some e) :
    NMap.get? s.sched.ops id = some e ∧ e.phase = .started ∧ e.d.opcode = oc := by
  unfold State.bodyDue at h
  split at h
  · rename_i f hf
    split at h
    · rename_i hc
      cases h
      simp only [Bool.and_eq_true, beq_iff_eq] at hc
      exact ⟨hf, hc.1.1, hc.1.2⟩
    · cases h
  · cases h

/-- A body whose writes fail to find a route ends its operator with that code. -/
theorem finishBody_error (s : State) (id : Nat) (e : OpEntry) (env : OpEnv) (mk : MathCtx → Body) (c : Code) (h : Clean s e env (mk (s.mathCtx e)))
    (hw : s.planeWrites e.ctx (mk (s.mathCtx e)).writes = .error c) : s.finishBody id e env mk = ((s.addFixed e env).unbindVec id).endOp id c := by
  obtain ⟨h1, hl, h2, h3, h4, h5⟩ := h
  simp only [State.finishBody, h1, s.loseLines_none _ hl, h2, h3, h4, h5, List.foldl_nil, List.isEmpty_nil, Bool.not_true, Bool.or_false, Bool.false_and, Bool.false_eq_true, if_true,
    if_false]
  rw [hw]

/-- A body that meets no fault stores its result. -/
theorem finishBody_stored (s u : State) (id : Nat) (e : OpEntry) (env : OpEnv) (mk : MathCtx → Body) (h : Clean s e env (mk (s.mathCtx e)))
    (hg : NMap.get? s.sched.ops id = some e) (hw : s.planeWrites e.ctx (mk (s.mathCtx e)).writes = .ok u) :
    Stored s id e env (mk (s.mathCtx e)) (s.finishBody id e env mk) := by
  obtain ⟨h1, hl, h2, h3, h4, h5⟩ := h
  have hk := kept_planeWrites s u e.ctx _ hw
  simp only [State.finishBody, h1, s.loseLines_none _ hl, h2, h3, h4, h5, List.foldl_nil, List.isEmpty_nil, Bool.not_true, Bool.or_false, Bool.false_and, Bool.false_eq_true, if_true,
    if_false, Bool.false_or]
  rw [hw]
  dsimp only
  generalize mk (s.mathCtx e) = b at *
  have k1 := (kept_touchBanks u e).trans (BodyKept.foldl (fun (s : State) p => s.forgetPlane e.ctx p) (fun s p => kept_forgetPlane s _ p) b.undef _)
  have m1 : b.undef = [] → (b.undef.foldl (fun (s : State) p => s.forgetPlane e.ctx p) (u.touchBanks e)).memsys.mem = u.memsys.mem := by
    intro hu; rw [hu, List.foldl_nil, touchBanks_mem]
  generalize b.undef.foldl (fun (s : State) p => s.forgetPlane e.ctx p) (u.touchBanks e) = v at k1 m1 ⊢
  have k2 : BodyKept v (if b.undefinedOut = true then v.forgetOutputs e else v) := by
    split
    · exact kept_forgetOutputs v e
    · exact .refl v
  have m2 : b.undefinedOut = false → (if b.undefinedOut = true then v.forgetOutputs e else v).memsys.mem = v.memsys.mem := by
    intro hu; rw [hu]; rfl
  generalize (if b.undefinedOut = true then v.forgetOutputs e else v) = w at k2 m2 ⊢
  have k3 := ((kept_addFixed w e env).trans (kept_keepArrays _ e (s.mathCtx e))).trans (kept_addDeltas ((w.addFixed e env).keepArrays e (s.mathCtx e)) e.coreFirst (e.ownDeltas b.deltas))
  have m3 : (((w.addFixed e env).keepArrays e (s.mathCtx e)).addDeltas e.coreFirst (e.ownDeltas b.deltas)).memsys.mem = w.memsys.mem := addDeltas_mem _ e.coreFirst _
  generalize ((w.addFixed e env).keepArrays e (s.mathCtx e)).addDeltas e.coreFirst (e.ownDeltas b.deltas) = x at k3 m3 ⊢
  have k4 : BodyKept x (if b.code = cOk then (x.addCounts (s.ctx e.ctx).runSlot e b).addDigests (s.ctx e.ctx).runSlot e b.digs else x) := by
    split
    · exact (kept_addCounts _ _ _ _).trans (kept_addDigests _ _ _ _)
    · exact .refl x
  have m4 : (if b.code = cOk then (x.addCounts (s.ctx e.ctx).runSlot e b).addDigests (s.ctx e.ctx).runSlot e b.digs else x).memsys.mem = x.memsys.mem := by
    split
    · rw [addDigests_mem, addCounts_mem]
    · rfl
  generalize (if b.code = cOk then (x.addCounts (s.ctx e.ctx).runSlot e b).addDigests (s.ctx e.ctx).runSlot e b.digs else x) = y at k4 m4 ⊢
  have k := ((((hk.trans k1).trans k2).trans k3).trans k4)
  have hy : NMap.get? y.sched.ops id = some e := by rw [k.sched]; exact hg
  refine ⟨⟨u, hw, ?_⟩, ⟨{ e with
      phase := .finished, code := b.code, stat := e.stat.or b.stat, flushed := b.flushed, clamped := b.clamped, cycles := y.opCycles e b.tBody env.stall
      chunks := s.chunksFor e (s.mathCtx e) b, detail := BitVec.ofNat 64 b.detail }, ?_, rfl, rfl, rfl, rfl, rfl, rfl, rfl, rfl, ?_⟩, ?_, ?_, ?_, ?_, ?_, ?_, ?_, ?_⟩
  · intro hu ho
    have : y.memsys.mem = u.memsys.mem := by rw [m4, m3, m2 ho, m1 hu]
    simpa [State.unbindVec, State.updOp, hy] using this
  · simp [State.unbindVec, State.updOp, hy, NMap.get?_set_same]
  · intro hgth; simp [State.opCycles, hgth]
  · intro j hj
    rw [← k.sched]
    simp [State.unbindVec, State.updOp, hy, NMap.get?_set_other _ _ _ _ hj]
  · simp [State.unbindVec, State.updOp, hy, k.ctxs]
  · simp [State.unbindVec, State.updOp, hy, k.now]
  · simp [State.unbindVec, State.updOp, hy, k.boot]
  · simp [State.unbindVec, State.updOp, hy, k.fuses]
  · simp [State.unbindVec, State.updOp, hy, k.flash]
  · simp [State.unbindVec, State.updOp, hy, k.keys]
  · simp [State.unbindVec, State.updOp, hy, k.grants]

end Sys2Proof.Machine
end

