-- ==== Sys2Proof/Laws/Curve.lean ====
section
/-! SUPPORT. Multiples of P-521 points in Jacobian coordinates, equal to those of the model, so that a test can check a signature quickly. -/

namespace Sys2Proof.Laws

open Sys2Proof Sys2Proof.Machine

theorem p521_prime : Nat.Prime p521 :=
  have h : Nat.Prime (mersenne 521) := lucas_lehmer_sufficiency _ (by norm_num) (by norm_num)
  h

theorem powModGo_eq (m : Nat) (f : Nat) : ∀ a k acc : Nat, k < 2 ^ f → acc % m = acc → powModGo m f a k acc = acc * a ^ k % m := by
  induction f with
  | zero =>
    intro a k acc hk h
    obtain rfl : k = 0 := by omega
    simp [powModGo, h]
  | succ f ih =>
    intro a k acc hk hacc
    rw [powModGo, ih _ _ _ (by omega)]
    · have hk2 : k = 2 * (k / 2) + k % 2 := by omega
      rcases Nat.mod_two_eq_zero_or_one k with h | h
      · rw [if_neg (by omega)]
        conv_rhs => rw [hk2, h, Nat.add_zero, pow_mul, sq]
        rw [Nat.mul_mod, ← Nat.pow_mod, ← Nat.mul_mod]
      · rw [if_pos h]
        conv_rhs => rw [hk2, h, pow_add, pow_mul, sq, pow_one]
        rw [Nat.mul_mod, Nat.mod_mod, ← Nat.pow_mod, ← Nat.mul_mod]
        ring_nf
    · split
      · exact Nat.mod_mod _ _
      · exact hacc

section
variable {p : Nat} [hp : Fact p.Prime]

theorem zmod_mod {a b : Nat} (h : (a : ZMod p) = b) : a % p = b % p := (ZMod.natCast_eq_natCast_iff' _ _ _).1 h

theorem mod_zero_cast (a : Nat) : a % p = 0 ↔ (a : ZMod p) = 0 := by rw [← Nat.dvd_iff_mod_eq_zero, ZMod.natCast_eq_zero_iff]

theorem cast_sub (a b : Nat) : ((subMod a b p : Nat) : ZMod p) = a - b := by
  unfold subMod
  have hb : b % p ≤ p := (Nat.mod_lt _ hp.out.pos).le
  rw [ZMod.natCast_mod]
  push_cast [hb]
  simp [sub_eq_add_neg]

theorem cast_inv {a : Nat} (hb : p < 2 ^ 522) (h : (a : ZMod p) ≠ 0) : ((invMod a p : Nat) : ZMod p) = (a : ZMod p)⁻¹ := by
  unfold invMod powMod
  have h2 := hp.out.two_le
  rw [powModGo_eq _ _ _ _ _ (by omega) (Nat.mod_mod _ _), ZMod.natCast_mod]
  push_cast
  rw [ZMod.natCast_mod, ZMod.natCast_mod]
  apply eq_inv_of_mul_eq_one_left
  have e : p - 1 = (p - 2) + 1 := by omega
  have := ZMod.pow_card_sub_one_eq_one h
  rw [e, pow_succ] at this
  simpa using this

/-- The model's addition with the modulus as a parameter. -/
def affAdd (p : Nat) : Pt → Pt → Pt
  | none, q => q
  | q, none => q
  | some (x1, y1), some (x2, y2) =>
    if x1 = x2 && (y1 + y2) % p = 0 then none
    else
      let l := if x1 = x2 then subMod (3 * x1 * x1) 3 p * invMod (2 * y1) p % p
        else subMod y2 y1 p * invMod (subMod x2 x1 p) p % p
      let x := subMod (subMod (l * l) x1 p) x2 p
      some (x, subMod (l * subMod x1 x p) y1 p)

/-- A point in Jacobian coordinates; one with third coordinate 0 says nothing. -/
abbrev Jac := Option (Nat × Nat × Nat)

/-- `j` stands for the affine point `q`. -/
def Jac.Rep (p : Nat) (j : Jac) (q : Pt) : Prop := match j with
  | none => q = none
  | some (x, y, z) => (z : ZMod p) = 0 ∨ ∃ a b, q = some (a, b) ∧ (a : ZMod p) * z ^ 2 = x ∧ (b : ZMod p) * z ^ 3 = y ∧ a < p ∧ b < p

def jacDbl (p : Nat) : Jac → Jac
  | none => none
  | some (x, y, z) =>
    if 2 * y % p = 0 then (if z % p = 0 then some (0, 0, 0) else none)
    else
      let m := subMod (3 * x * x) (3 * (z * z % p) * (z * z % p)) p
      let y2 := y * y % p
      let s := 4 * x * y2 % p
      let x3 := subMod (m * m) (2 * s) p
      some (x3, subMod (m * subMod s x3 p) (8 * y2 * y2) p, 2 * y * z % p)

def jacAdd (p : Nat) : Jac → Jac → Jac
  | none, q => q
  | q, none => q
  | some (x1, y1, z1), some (x2, y2, z2) =>
    if z1 % p = 0 ∨ z2 % p = 0 then some (0, 0, 0)
    else
      let u1 := x1 * (z2 * z2 % p) % p
      let u2 := x2 * (z1 * z1 % p) % p
      let s1 := y1 * (z2 * z2 % p * z2 % p) % p
      let s2 := y2 * (z1 * z1 % p * z1 % p) % p
      if u1 = u2 then (if (s1 + s2) % p = 0 then none else some (0, 0, 0))
      else
        let h := subMod u2 u1 p
        let r := subMod s2 s1 p
        let h2 := h * h % p
        let h3 := h2 * h % p
        let v := u1 * h2 % p
        let x3 := subMod (subMod (r * r) h3 p) (2 * v) p
        some (x3, subMod (r * subMod v x3 p) (s1 * h3) p, h * (z1 * z2 % p) % p)

theorem rep_dbl (hb : p < 2 ^ 522) (h20 : (2 : ZMod p) ≠ 0) {j : Jac} {q : Pt} (h : Jac.Rep p j q) : Jac.Rep p (jacDbl p j) (affAdd p q q) := by
  match j, h with
  | none, h => cases h; rfl
  | some (x, y, z), .inl hz =>
    simp only [jacDbl]
    split
    · rw [if_pos ((mod_zero_cast z).2 hz)]; exact .inl (by simp)
    · exact .inl (by rw [ZMod.natCast_mod]; push_cast; rw [hz, mul_zero])
  | some (x, y, z), .inr ⟨a, b, hq, hx, hy, ha, hbl⟩ =>
    subst hq
    by_cases hz : (z : ZMod p) = 0
    · simp only [jacDbl]
      split
      · rw [if_pos ((mod_zero_cast z).2 hz)]; exact .inl (by simp)
      · exact .inl (by rw [ZMod.natCast_mod]; push_cast; rw [hz, mul_zero])
    have hz' : ¬ z % p = 0 := by rwa [mod_zero_cast]
    by_cases hy0 : 2 * y % p = 0
    · have : (b : ZMod p) = 0 := by
        rw [mod_zero_cast] at hy0; push_cast at hy0
        have := (mul_eq_zero.1 hy0).resolve_left h20
        rw [← hy] at this
        exact (mul_eq_zero.1 this).resolve_right (pow_ne_zero _ hz)
      have hbb : (b + b) % p = 0 := by rw [mod_zero_cast]; push_cast; rw [this, add_zero]
      simp only [jacDbl, affAdd]
      rw [if_pos hy0, if_neg hz', if_pos (by simp [hbb])]
      rfl
    have hy2 : (2 : ZMod p) * y ≠ 0 := by rw [mod_zero_cast] at hy0; push_cast at hy0; exact hy0
    have hb0 : (b : ZMod p) ≠ 0 := by
      intro e; rw [← hy, e] at hy2; simp at hy2
    have hbb : ¬ (b + b) % p = 0 := by rw [mod_zero_cast]; push_cast; rw [← two_mul]; exact mul_ne_zero h20 hb0
    have hi : ((invMod (2 * b) p : Nat) : ZMod p) = ((2 : ZMod p) * b)⁻¹ := by
      have := cast_inv (a := 2 * b) hb (by push_cast; exact mul_ne_zero h20 hb0)
      rw [this]; push_cast; rfl
    have sl : ∀ m n : Nat, subMod m n p < p := fun m n => Nat.mod_lt _ hp.out.pos
    simp only [jacDbl, affAdd]
    rw [if_neg hy0, if_neg (by simp [hbb])]
    refine .inr ⟨_, _, rfl, ?_, ?_, sl _ _, sl _ _⟩
    · simp only [cast_sub, ZMod.natCast_mod, Nat.cast_mul, hi, Nat.cast_ofNat, if_true]
      rw [← hx, ← hy]
      field_simp
      ring
    · simp only [cast_sub, ZMod.natCast_mod, Nat.cast_mul, hi, Nat.cast_ofNat, if_true]
      rw [← hx, ← hy]
      field_simp
      ring

theorem rep_add (hb : p < 2 ^ 522) {j k : Jac} {q r : Pt} (h : Jac.Rep p j q) (h' : Jac.Rep p k r) : Jac.Rep p (jacAdd p j k) (affAdd p q r) := by
  match j, k, h, h' with
  | none, k, h, h' => cases h; exact h'
  | some (x, y, z), none, h, h' =>
    cases h'
    cases q with
    | none => exact h
    | some _ => exact h
  | some (x1, y1, z1), some (x2, y2, z2), h, h' =>
    simp only [jacAdd]
    split
    · exact .inl (by simp)
    rename_i hz
    simp only [mod_zero_cast, not_or] at hz
    obtain ⟨hz1, hz2⟩ := hz
    obtain ⟨a, b, rfl, hx, hy, ha, hbl⟩ := h.resolve_left hz1
    obtain ⟨c, d, rfl, hx', hy', hc, hd⟩ := h'.resolve_left hz2
    have hu : (x1 * (z2 * z2 % p) % p = x2 * (z1 * z1 % p) % p) ↔ a = c := by
      have e : (x1 * (z2 * z2 % p) % p = x2 * (z1 * z1 % p) % p) ↔ ((a : ZMod p) = c) := by
        rw [← ZMod.natCast_eq_natCast_iff']
        push_cast [ZMod.natCast_mod]
        rw [← hx, ← hx']
        constructor
        · intro e
          have : ((a : ZMod p) - c) * (z1 ^ 2 * z2 ^ 2) = 0 := by linear_combination e
          exact sub_eq_zero.1 ((mul_eq_zero.1 this).resolve_right (mul_ne_zero (pow_ne_zero _ hz1) (pow_ne_zero _ hz2)))
        · intro e; rw [e]; ring
      rw [e, ZMod.natCast_eq_natCast_iff', Nat.mod_eq_of_lt ha, Nat.mod_eq_of_lt hc]
    have sl : ∀ m n : Nat, subMod m n p < p := fun m n => Nat.mod_lt _ hp.out.pos
    split
    · rename_i e
      split
      · rename_i es
        have hs : (b + d) % p = 0 := by
          rw [mod_zero_cast] at es ⊢
          push_cast [ZMod.natCast_mod] at es ⊢
          rw [← hy, ← hy'] at es
          have : ((b : ZMod p) + d) * (z1 ^ 3 * z2 ^ 3) = 0 := by linear_combination es
          exact (mul_eq_zero.1 this).resolve_right (mul_ne_zero (pow_ne_zero _ hz1) (pow_ne_zero _ hz2))
        show affAdd p _ _ = none
        simp only [affAdd]
        rw [if_pos (by simp [hu.1 e, hs])]
      · exact .inl (by simp)
    · rename_i e
      have ne : ¬ a = c := fun x => e (hu.2 x)
      have hca : (c : ZMod p) - a ≠ 0 := by
        intro x; apply ne
        have := zmod_mod (sub_eq_zero.1 x)
        rw [Nat.mod_eq_of_lt ha, Nat.mod_eq_of_lt hc] at this
        exact this.symm
      have hi : ((invMod (subMod c a p) p : Nat) : ZMod p) = ((c : ZMod p) - a)⁻¹ := by
        have := cast_inv (a := subMod c a p) hb (by rw [cast_sub]; exact hca)
        rw [this, cast_sub]
      simp only [affAdd]
      rw [if_neg (by simp [ne])]
      refine .inr ⟨_, _, rfl, ?_, ?_, sl _ _, sl _ _⟩
      · rw [if_neg ne]
        simp only [cast_sub, ZMod.natCast_mod, Nat.cast_mul, hi, Nat.cast_ofNat]
        rw [← hx, ← hy, ← hx', ← hy']
        field_simp
        ring
      · rw [if_neg ne]
        simp only [cast_sub, ZMod.natCast_mod, Nat.cast_mul, hi, Nat.cast_ofNat]
        rw [← hx, ← hy, ← hx', ← hy']
        field_simp
        ring

/-- Double and add, by the recursor itself, which the kernel evaluates fastest. -/
def jacMulGo (p f : Nat) : Nat → Jac → Jac → Jac :=
  Nat.rec (motive := fun _ => Nat → Jac → Jac → Jac) (fun _ _ acc => acc)
    (fun _ ih k q acc => ih (k / 2) (jacDbl p q) (if k % 2 = 1 then jacAdd p acc q else acc)) f

theorem affAdd_eq (q r : Pt) : ptAdd q r = affAdd p521 q r := by
  cases q <;> cases r <;> rfl

theorem rep_mul (e : p521 = p) (hb : p < 2 ^ 522) (h2 : (2 : ZMod p) ≠ 0) (f : Nat) : ∀ (k : Nat) (q acc : Pt) (j a : Jac), Jac.Rep p j q → Jac.Rep p a acc →
    Jac.Rep p (jacMulGo p f k j a) (ptMulGo f k q acc) := by
  induction f with
  | zero => intro k q acc j a _ h; exact h
  | succ f ih =>
    intro k q acc j a hq ha
    show Jac.Rep p (jacMulGo p f (k / 2) (jacDbl p j) (if k % 2 = 1 then jacAdd p a j else a)) _
    simp only [ptMulGo, affAdd_eq, e]
    refine ih _ _ _ _ _ (rep_dbl hb h2 hq) ?_
    split
    · exact rep_add hb ha hq
    · exact ha

theorem ptMul_gen (e : p521 = p) (h2 : 2 < p) (hb : p < 2 ^ 522) {k qx qy x y z a b : Nat} (hq : qx < p) (hq' : qy < p)
    (h : jacMulGo p 522 k (some (qx, qy, 1)) none = some (x, y, z)) (hz : ¬ z % p = 0) (hx : a * (z * z) % p = x % p)
    (hy : b * (z * z * z) % p = y % p) (ha : a < p) (hb' : b < p) : ptMul k (some (qx, qy)) = some (a, b) := by
  have h20 : (2 : ZMod p) ≠ 0 := by
    have : ((2 : Nat) : ZMod p) ≠ 0 := by rw [Ne, ← mod_zero_cast, Nat.mod_eq_of_lt h2]; decide
    exact_mod_cast this
  have r := rep_mul e hb h20 522 k (some (qx, qy)) none (some (qx, qy, 1)) none (.inr ⟨qx, qy, rfl, by simp, by simp, hq, hq'⟩) rfl
  rw [h] at r
  rw [mod_zero_cast] at hz
  obtain ⟨c, d, hcd, hc, hd, hcp, hdp⟩ := r.resolve_left hz
  have e1 : (c : ZMod p) = a := by
    have : ((a * (z * z) : Nat) : ZMod p) = x := (ZMod.natCast_eq_natCast_iff' _ _ _).2 hx
    push_cast at this
    rw [← hc, ← sq] at this
    exact (mul_right_cancel₀ (pow_ne_zero 2 hz) this).symm
  have e2 : (d : ZMod p) = b := by
    have : ((b * (z * z * z) : Nat) : ZMod p) = y := (ZMod.natCast_eq_natCast_iff' _ _ _).2 hy
    push_cast at this
    rw [← hd, ← sq, ← pow_succ] at this
    exact (mul_right_cancel₀ (pow_ne_zero 3 hz) this).symm
  have f1 := zmod_mod e1
  have f2 := zmod_mod e2
  rw [Nat.mod_eq_of_lt hcp, Nat.mod_eq_of_lt ha] at f1
  rw [Nat.mod_eq_of_lt hdp, Nat.mod_eq_of_lt hb'] at f2
  unfold ptMul
  rw [hcd, f1, f2]
end

theorem p521_lt : p521 < 2 ^ 522 := Nat.lt_of_le_of_lt (Nat.sub_le _ _) (Nat.pow_lt_pow_right (by decide) (by decide))

theorem two_lt : 2 < p521 := by
  have h : ∀ n : Nat, 2 ≤ n → 2 < 2 ^ n - 1 := fun n hn => by
    have : 2 ^ 2 ≤ 2 ^ n := Nat.pow_le_pow_right (by decide) hn
    omega
  exact h 521 (by decide)

/-- Is `(a, b)` the multiple `k` of `(qx, qy)`, as Jacobian coordinates tell? -/
def mulOk (k qx qy a b : Nat) : Bool := match jacMulGo p521 522 k (some (qx, qy, 1)) none with
  | none => false
  | some (x, y, z) => qx < p521 && qy < p521 && a < p521 && b < p521 && z % p521 != 0 && a * (z * z) % p521 == x % p521 &&
      b * (z * z * z) % p521 == y % p521

theorem ptMul_of {k qx qy a b : Nat} (h : mulOk k qx qy a b = true) : ptMul k (some (qx, qy)) = some (a, b) := by
  have := Fact.mk p521_prime
  unfold mulOk at h
  split at h
  · cases h
  · rename_i x y z e
    simp only [Bool.and_eq_true, decide_eq_true_eq, bne_iff_ne, ne_eq, beq_iff_eq] at h
    obtain ⟨⟨⟨⟨⟨⟨h1, h2⟩, h3⟩, h4⟩, h5⟩, h6⟩, h7⟩ := h
    exact ptMul_gen rfl two_lt p521_lt h1 h2 e h5 h6 h7 h3 h4

end Sys2Proof.Laws
end

