-- ==== Sys2Proof/Laws/Dict.lean ====
section
/-! SUPPORT. What a dictionary request does once it is executed (R428, R431, R433). -/

namespace Sys2Proof.Machine

/-- A fresh request runs its action on the opened state and is answered. -/
theorem dict_of_fresh (s : State) (q : Req) (op i sub : Nat) (act : State → State × Code × List Byte) (h : Fresh s q op i sub) :
    s.dict q op i sub act =
      ((act (s.opened q)).1.respond q.who (answerOf q op i sub (act (s.opened q)).2.1 (act (s.opened q)).2.2), (act (s.opened q)).2.1) := by
  obtain ⟨h1, h2, h3, h4, h5⟩ := h
  have hk : ((s.opened q).reqOf q.who).kept.find? (fun r => r.seq == q.seq) = none := by
    rw [List.find?_eq_none]
    intro r hr
    simpa using h2 r hr
  have hd : ((s.opened q).reqOf q.who).deferred.contains q.seq = false := by simpa using h3
  have h4' : ¬ 8 ≤ ((s.opened q).reqOf q.who).deferred.length := by omega
  simp only [State.dict, State.dictOpt, h1]
  simp only [State.opened] at *
  simp only [Bool.not_true, Bool.false_eq_true, if_false, hk, hd, h4', h5]
  rfl

/-- A WRITE that reaches its object. -/
theorem dictWrite_of_writes (s : State) (q : Req) (i sub : Nat) (bs : List Byte) (act : State → State × Code) (h : Writes s q i sub bs.length) :
    s.dictWrite q i sub bs act =
      ((act (s.forWrite q)).1.respond q.who (answerOf q 2 i sub (act (s.forWrite q)).2 []), (act (s.forWrite q)).2) := by
  obtain ⟨hf, o, ho, hw, hd, hm, hl⟩ := h
  have hlen : (o.str && decide (64 < bs.length) || !o.str && bs.length != o.size) = false := by
    cases hs : o.str <;> simp [hs] at hl ⊢
    · exact hl
    · exact hl
  rw [State.dictWrite, dict_of_fresh s q 2 i sub _ hf]
  simp only [ho, hw, hd, hm, hlen, Bool.not_true, Bool.false_eq_true, if_false]
  rfl

/-- A DOMAIN_END that reaches its object. -/
theorem dictEnd_of_ends (s : State) (q : Req) (i sub : Nat) (sha : Digest) (t : Transfer) (act : State → Transfer → State × Code)
    (h : Ends s q i sub sha t) :
    s.dictEnd q i sub sha act =
      ((act (s.forEnd q) t).1.respond q.who (answerOf q 6 i sub (act (s.forEnd q) t).2 []), (act (s.forEnd q) t).2) := by
  obtain ⟨hf, ht, hi, hs, hm, hl, hsha⟩ := h
  rw [State.dictEnd, dict_of_fresh s q 6 i sub _ hf]
  simp only [ht, hi, hs, hm, hl, hsha, bne_self_eq_false, Bool.or_self, Bool.not_true, Bool.false_eq_true, if_false]
  rfl

/-! ### Requesters -/

theorem State.reqOf_who (s : State) (w : Requester) : (s.reqOf w).who = w := by
  unfold State.reqOf
  cases h : s.vigil.requesters.find? (fun r => r.who == w) with
  | none => rfl
  | some r => simpa using List.find?_some h

theorem State.reqOf_setReq (s : State) (r : ReqState) : (s.setReq r).reqOf r.who = r := by
  unfold State.setReq State.reqOf
  dsimp only
  split
  · rename_i h
    have : (s.vigil.requesters.map (fun x => if x.who == r.who then r else x)).find? (fun x => x.who == r.who) = some r := by
      generalize s.vigil.requesters = l at h ⊢
      induction l with
      | nil => simp at h
      | cons y ys ih =>
        by_cases hy : y.who = r.who
        · simp [hy]
        · simp only [List.any_cons, Bool.or_eq_true, beq_iff_eq, hy, false_or] at h
          have hb : (y.who == r.who) = false := by simpa using hy
          rw [List.map_cons, hb, if_neg (by simp), List.find?_cons_of_neg (by simp [hb]), ih h]
    rw [this]
    rfl
  · rename_i h
    have hn : ∀ x ∈ evictOldest s.vigil.requesters, ¬ (x.who == r.who) = true := by
      have hs : ∀ x ∈ evictOldest s.vigil.requesters, x ∈ s.vigil.requesters := by
        unfold evictOldest
        dsimp only
        intro x hx
        split at hx
        · exact hx
        · split at hx
          · exact List.mem_of_mem_eraseIdx hx
          · exact hx
      intro x hx hw
      exact h (List.any_eq_true.mpr ⟨x, hs x hx, hw⟩)
    simp [List.find?_append, List.find?_eq_none.mpr hn]

/-- After a change of a requester's entry that keeps its name, the entry reads as changed. -/
theorem State.reqOf_updReq (s : State) (w : Requester) (f : ReqState → ReqState) (h : ∀ x, (f x).who = x.who) : (s.updReq w f).reqOf w = f (s.reqOf w) := by
  have := s.reqOf_setReq (f (s.reqOf w))
  rw [h, s.reqOf_who] at this
  exact this

/-- A state with the same requesters and clock has the same entries. -/
theorem State.reqOf_congr {s t : State} (h : t.vigil.requesters = s.vigil.requesters) (hn : t.now = s.now) (w : Requester) : t.reqOf w = s.reqOf w := by
  simp [State.reqOf, h, hn]

theorem State.sendResponse_requesters (s : State) (w : Requester) (r : Response) : (s.sendResponse w r).vigil.requesters = s.vigil.requesters := by
  cases w <;> simp [State.sendResponse]

/-- An answered requester's entry differs in its kept responses only. -/
theorem State.reqOf_respond (s : State) (w : Requester) (r : Response) :
    (s.respond w r).reqOf w = { s.reqOf w with kept := ((s.reqOf w).kept ++ [r]).drop ((s.reqOf w).kept.length + 1 - 32) } := by
  unfold State.respond
  rw [State.reqOf_updReq _ _ (fun x => { x with kept := (x.kept ++ [r]).drop (x.kept.length + 1 - 32) }) (fun _ => rfl), State.reqOf_congr (State.sendResponse_requesters s w r) (by cases w <;> simp [State.sendResponse])]

/-- Opening a request notes its requester's last use and nothing else of its entry. -/
theorem State.reqOf_opened (s : State) (q : Req) : (s.opened q).reqOf q.who = { s.reqOf q.who with lastUse := s.now } := by
  have h : (s.takeDict q.who).reqOf q.who = s.reqOf q.who := State.reqOf_congr (by simp) (by simp) _
  have g := State.reqOf_setReq (s.takeDict q.who) { (s.takeDict q.who).reqOf q.who with lastUse := (s.takeDict q.who).now }
  have w : (s.takeDict q.who).now = s.now := by simp
  rw [h, w] at g
  have e : ({ s.reqOf q.who with lastUse := s.now } : ReqState).who = q.who := s.reqOf_who q.who
  rw [e] at g
  unfold State.opened State.touch
  rw [h, w]
  exact g

end Sys2Proof.Machine
end

