-- ==== Sys2Proof/Laws/Memory.lean ====
section
/-! SUPPORT. LPDDR5X contents: every operation keeps the canonical form; what a read gives after a write. -/

namespace Sys2Proof.Machine

theorem rising_iff (l : List Nat) : rising l = true ↔ l.Pairwise (· < ·) := by
  induction l with
  | nil => simp [rising]
  | cons a r ih =>
    cases r with
    | nil => simp [rising]
    | cons b r =>
      rw [rising, Bool.and_eq_true, ih, decide_eq_true_eq, List.pairwise_cons (l := b :: r)]
      constructor
      · rintro ⟨h, g⟩
        refine ⟨fun x hx => ?_, g⟩
        rcases List.mem_cons.1 hx with rfl | hx
        · exact h
        · exact lt_trans h ((List.pairwise_cons.1 g).1 x hx)
      · rintro ⟨h, g⟩
        exact ⟨h b (by simp), g⟩

theorem insertRising_mem (l : List Nat) (a x : Nat) : x ∈ insertRising l a ↔ x = a ∨ x ∈ l := by
  induction l with
  | nil => simp [insertRising]
  | cons b r ih =>
    simp only [insertRising]
    split
    · simp
    · split
      · rename_i h; subst h; simp
      · simp only [List.mem_cons, ih]; tauto

theorem insertRising_pairwise (l : List Nat) (a : Nat) (h : l.Pairwise (· < ·)) : (insertRising l a).Pairwise (· < ·) := by
  induction l with
  | nil => simp [insertRising]
  | cons b r ih =>
    obtain ⟨h1, h2⟩ := List.pairwise_cons.1 h
    simp only [insertRising]
    split
    · rename_i hab
      refine List.pairwise_cons.2 ⟨fun x hx => ?_, h⟩
      rcases List.mem_cons.1 hx with rfl | hx
      · exact hab
      · exact lt_trans hab (h1 x hx)
    · split
      · exact h
      · refine List.pairwise_cons.2 ⟨fun x hx => ?_, ih h2⟩
        rcases (insertRising_mem _ _ _).1 hx with rfl | hx
        · omega
        · exact h1 x hx

theorem cellPut_keys (l : List Host.Cell) (a : Nat) (v : Byte) : (cellPut l a v).map Prod.fst = insertRising (l.map Prod.fst) a := by
  induction l with
  | nil => rfl
  | cons c r ih =>
    obtain ⟨b, w⟩ := c
    simp only [cellPut, List.map_cons, insertRising]
    split
    · rfl
    · by_cases h : b = a
      · subst h; simp
      · have h' : a ≠ b := fun e => h e.symm
        simp [h, h', ih]

theorem cellPut_mem (l : List Host.Cell) (a : Nat) (v : Byte) (c : Host.Cell) (h : c ∈ cellPut l a v) : c = (a, v) ∨ c ∈ l := by
  induction l with
  | nil => simpa [cellPut] using h
  | cons e r ih =>
    obtain ⟨b, w⟩ := e
    simp only [cellPut] at h
    split at h
    · simpa using h
    · split at h
      · rcases List.mem_cons.1 h with h | h
        · exact .inl h
        · exact .inr (List.mem_cons_of_mem _ h)
      · rcases List.mem_cons.1 h with h | h
        · exact .inr (by simp [h])
        · rcases ih h with h | h
          · exact .inl h
          · exact .inr (List.mem_cons_of_mem _ h)

theorem tagPut_lines (l : List LineTag) (t : LineTag) : (tagPut l t).map LineTag.line = insertRising (l.map LineTag.line) t.line := by
  induction l with
  | nil => rfl
  | cons u r ih =>
    simp only [tagPut, List.map_cons, insertRising]
    split
    · rfl
    · by_cases h : u.line = t.line
      · simp [h]
      · have h' : t.line ≠ u.line := fun e => h e.symm
        simp [h, h', ih]

theorem tagPut_find (l : List LineTag) (t : LineTag) (n : Nat) :
    (tagPut l t).find? (fun u => u.line == n) = if t.line = n then some t else l.find? (fun u => u.line == n) := by
  induction l with
  | nil => by_cases h : t.line = n <;> simp [tagPut, h]
  | cons u r ih =>
    simp only [tagPut]
    split
    · by_cases h : t.line = n <;> simp [h]
    · split
      · rename_i h; by_cases g : t.line = n <;> simp [g, h]
      · rename_i h
        by_cases g : t.line = n
        · have : u.line ≠ n := fun e => h (e.trans g.symm)
          simp [g, this, ih]
        · by_cases k : u.line = n <;> simp [g, k, ih]

/-- The canonical form as a proposition. -/
theorem Mem.wf_iff (m : Mem) : m.wf = true ↔ (m.cells.map Prod.fst).Pairwise (· < ·) ∧ (m.tags.map LineTag.line).Pairwise (· < ·) ∧
    m.bad.Pairwise (· < ·) ∧ ∀ c ∈ m.cells, c.2 = 0 → (m.tagOf (c.1 / 256)).isSome = true := by
  simp only [Mem.wf, Bool.and_eq_true, rising_iff, List.all_eq_true, Bool.or_eq_true, bne_iff_ne, and_assoc]
  refine and_congr_right fun _ => and_congr_right fun _ => and_congr_right fun _ => forall₂_congr fun c _ => ?_
  tauto

theorem Mem.empty_wf : ({} : Mem).wf = true := rfl

theorem map_filter_pairwise {α : Type} (f : α → Nat) (l : List α) (p : α → Bool) (h : (l.map f).Pairwise (· < ·)) :
    ((l.filter p).map f).Pairwise (· < ·) := h.sublist ((List.filter_sublist).map f)

/-- A line under a new tag, without its old cells. -/
theorem Mem.retag_wf (m : Mem) (t : LineTag) (h : m.wf = true) :
    ({ m with cells := m.cells.filter (fun c => c.1 / 256 != t.line), tags := tagPut m.tags t } : Mem).wf = true := by
  obtain ⟨h1, h2, h3, h4⟩ := (Mem.wf_iff m).1 h
  refine (Mem.wf_iff _).2 ⟨map_filter_pairwise _ _ _ h1, ?_, h3, fun c hc h0 => ?_⟩
  · rw [tagPut_lines]; exact insertRising_pairwise _ _ h2
  · obtain ⟨hc, hl⟩ := List.mem_filter.1 hc
    have hl : c.1 / 256 ≠ t.line := by simpa using hl
    have := h4 c hc h0
    simp only [Mem.tagOf, tagPut_find, if_neg hl.symm] at this ⊢
    exact this

theorem Mem.take_wf (m : Mem) (k : KeyId) (ep line : Nat) (h : m.wf = true) : (m.take k ep line).wf = true := by
  unfold Mem.take
  split
  · exact h
  · exact m.retag_wf ⟨line, k, ep⟩ h

theorem Mem.put_wf (m : Mem) (a : Nat) (v : Byte) (h : m.wf = true) : (m.put a v).wf = true := by
  obtain ⟨h1, h2, h3, h4⟩ := (Mem.wf_iff m).1 h
  unfold Mem.put
  split
  · exact (Mem.wf_iff _).2 ⟨map_filter_pairwise _ _ _ h1, h2, h3, fun c hc h0 => h4 c (List.mem_filter.1 hc).1 h0⟩
  · rename_i hz
    refine (Mem.wf_iff _).2 ⟨?_, h2, h3, fun c hc h0 => ?_⟩
    · rw [cellPut_keys]; exact insertRising_pairwise _ _ h1
    · rcases cellPut_mem _ _ _ _ hc with rfl | hc
      · simp only at h0
        subst h0
        simp only [Bool.and_eq_true, decide_eq_true_eq, true_and, Option.isNone_iff_eq_none] at hz
        exact Option.isSome_iff_ne_none.2 hz
      · exact h4 c hc h0

theorem Mem.writeByte_wf (k : KeyId) (ep : Nat) (m : Mem) (c : Host.Cell) (h : m.wf = true) : (Mem.writeByte k ep m c).wf = true :=
  Mem.put_wf _ _ _ (Mem.take_wf _ _ _ _ h)

theorem foldl_keeps {α β : Type} (P : α → Prop) (f : α → β → α) (hf : ∀ a b, P a → P (f a b)) (l : List β) (a : α) (h : P a) : P (l.foldl f a) := by
  induction l generalizing a with
  | nil => exact h
  | cons b r ih => exact ih _ (hf _ _ h)

/-- A write keeps the canonical form. -/
theorem Mem.write_wf (m : Mem) (k : KeyId) (ep a : Nat) (bs : List Byte) (h : m.wf = true) : (m.write k ep a bs).wf = true := by
  obtain ⟨h1, h2, h3, h4⟩ := (Mem.wf_iff m).1 h
  exact foldl_keeps (fun m : Mem => m.wf = true) _ (fun a b ha => Mem.writeByte_wf _ _ _ _ ha) _ _
    ((Mem.wf_iff _).2 ⟨h1, h2, h3.sublist List.filter_sublist, h4⟩)

theorem cellPuts_keys (cs : List Host.Cell) (l : List Host.Cell) (h : (l.map Prod.fst).Pairwise (· < ·)) :
    ((cs.foldl (fun cs c => cellPut cs c.1 c.2) l).map Prod.fst).Pairwise (· < ·) :=
  foldl_keeps (fun l : List Host.Cell => (l.map Prod.fst).Pairwise (· < ·)) _
    (fun l c hl => by rw [cellPut_keys]; exact insertRising_pairwise _ _ hl) _ _ h

theorem cellPuts_mem (cs : List Host.Cell) (l : List Host.Cell) (c : Host.Cell) (h : c ∈ cs.foldl (fun cs c => cellPut cs c.1 c.2) l) : c ∈ cs ∨ c ∈ l := by
  induction cs generalizing l with
  | nil => exact .inr h
  | cons e r ih =>
    rcases ih _ h with h | h
    · exact .inl (List.mem_cons_of_mem _ h)
    · rcases cellPut_mem _ _ _ _ h with rfl | h
      · exact .inl (by simp)
      · exact .inr h

/-- Forgetting a range keeps the canonical form. -/
theorem Mem.forget_wf (m : Mem) (k : KeyId) (ep a len : Nat) (h : m.wf = true) : (m.forget k ep a len).wf = true := by
  refine foldl_keeps (fun m : Mem => m.wf = true) _ (fun m line hm => ?_) _ _ h
  obtain ⟨h1, h2, h3, h4⟩ := (Mem.wf_iff _).1 (m.retag_wf ⟨line, k, ep⟩ hm)
  refine (Mem.wf_iff _).2 ⟨cellPuts_keys _ _ h1, h2, h3, fun c hc h0 => ?_⟩
  rcases cellPuts_mem _ _ _ hc with hc | hc
  · have : c.1 / 256 = line := by
      by_cases hk : m.keyOf line = k
      · simp only [hk, if_true] at hc
        obtain ⟨b, hb, rfl⟩ := List.mem_map.1 hc
        obtain ⟨i, hi, rfl⟩ := List.mem_map.1 (List.mem_filter.1 hb).1
        have := List.mem_range.1 hi
        show (i + 256 * line) / 256 = line
        omega
      · simp [hk] at hc
    simp [Mem.tagOf, tagPut_find, this]
  · exact h4 c hc h0

theorem Mem.markBad_wf (m : Mem) (line : Nat) (h : m.wf = true) : (m.markBad line).wf = true := by
  obtain ⟨h1, h2, h3, h4⟩ := (Mem.wf_iff m).1 h
  exact (Mem.wf_iff _).2 ⟨h1, h2, insertRising_pairwise _ _ h3, h4⟩

theorem find_filter_other (l : List LineTag) (line n : Nat) (h : n ≠ line) :
    (l.filter (fun t => t.line != line)).find? (fun u => u.line == n) = l.find? (fun u => u.line == n) := by
  induction l with
  | nil => rfl
  | cons t r ih =>
    by_cases e : t.line = line
    · have : t.line ≠ n := fun g => h (g.symm.trans e)
      simp [e, ih, Ne.symm h]
    · by_cases g : t.line = n
      · simp [g, h]
      · simp [e, ih, g]

/-- A zeroed line keeps the canonical form. -/
theorem Mem.zeroLine_wf (m : Mem) (line : Nat) (h : m.wf = true) : (m.zeroLine line).wf = true := by
  obtain ⟨h1, h2, h3, h4⟩ := (Mem.wf_iff m).1 h
  refine (Mem.wf_iff _).2 ⟨map_filter_pairwise _ _ _ h1, map_filter_pairwise _ _ _ h2, h3.sublist List.filter_sublist, fun c hc h0 => ?_⟩
  obtain ⟨hc, hl⟩ := List.mem_filter.1 hc
  have hl : c.1 / 256 ≠ line := by simpa using hl
  have := h4 c hc h0
  simp only [Mem.tagOf, Mem.zeroLine, find_filter_other _ _ _ hl] at this ⊢
  exact this

/-- Contents that are lost keep the canonical form. -/
theorem Mem.lose_wf (m : Mem) (ep line : Nat) (h : m.wf = true) : (m.lose ep line).wf = true := Mem.forget_wf m _ ep _ _ h

/-! ### Reads after writes -/

theorem cellGet_put_same (l : List Host.Cell) (a : Nat) (v : Byte) : cellGet (cellPut l a v) a = some v := by
  induction l with
  | nil => simp [cellPut, cellGet]
  | cons c r ih =>
    obtain ⟨b, w⟩ := c
    simp only [cellPut]
    split
    · simp [cellGet]
    · split
      · simp [cellGet]
      · rename_i h1 h2; simp [cellGet, h1, h2, ih]

theorem cellGet_put_other (l : List Host.Cell) (a b : Nat) (v : Byte) (h : b ≠ a) (hl : (l.map Prod.fst).Pairwise (· < ·)) :
    cellGet (cellPut l a v) b = cellGet l b := by
  induction l with
  | nil =>
    simp only [cellPut, cellGet, if_neg (Ne.symm h)]
    split <;> rfl
  | cons c r ih =>
    obtain ⟨x, w⟩ := c
    obtain ⟨h1, h2⟩ := List.pairwise_cons.1 hl
    simp only [cellPut]
    split
    · rename_i hax
      simp only [cellGet, if_neg (Ne.symm h)]
      split
      · rw [if_neg (by omega), if_pos (by omega)]
      · rfl
    · split
      · rename_i hx; subst hx
        simp only [cellGet, if_neg (Ne.symm h)]
      · simp only [cellGet, ih h2]

end Sys2Proof.Machine
end

