-- ==== Sys2Proof/Laws/Records.lean ====
section
/-! SUPPORT. What an error record, a notice and a dictionary response do to a link: only a host port's transmit queue and its count of dropped notices. -/

namespace Sys2Proof.Machine

/-- The link `a` differs from `b` in nothing but its transmit queue and its count of dropped notices. -/
def Link.SameButQueue (a b : Link) : Prop := ∃ q n, a = { b with txq := q, ctr := { b.ctr with noticesDropped := n } }

theorem Link.SameButQueue.refl (a : Link) : a.SameButQueue a := ⟨a.txq, a.ctr.noticesDropped, rfl⟩

theorem Link.SameButQueue.trans {a b c : Link} (h : a.SameButQueue b) (g : b.SameButQueue c) : a.SameButQueue c := by
  obtain ⟨q, n, rfl⟩ := h
  obtain ⟨r, m, rfl⟩ := g
  exact ⟨q, n, rfl⟩

theorem State.link_upd_host (s : State) (n : Nat) (f : Link → Link) (l : LinkRef) (h : ∀ k : Link, (f k).SameButQueue k) :
    ((s.updLink (.host n) f).link l).SameButQueue (s.link l) := by
  by_cases e : l = .host n
  · subst e; simpa using h _
  · rw [State.link_updLink_other _ _ _ _ e]; exact .refl _

theorem State.noticeOn_link (s : State) (n c : Nat) (h : Header) (d : List Byte) (l : LinkRef) :
    ((s.noticeOn n c h d).link l).SameButQueue (s.link l) := by
  unfold State.noticeOn
  split
  · exact s.link_upd_host n _ l (fun k => ⟨_, k.ctr.noticesDropped, rfl⟩)
  · exact s.link_upd_host n _ l (fun k => ⟨k.txq, _, rfl⟩)

theorem State.notice_link (s : State) (p : Nat) (c : Code) (x : Nat) (l : LinkRef) : ((s.notice p c x).link l).SameButQueue (s.link l) :=
  s.noticeOn_link _ _ _ _ l

theorem State.noticeAll_link (s : State) (c : Nat) (h : Header) (d : List Byte) (l : LinkRef) :
    ((s.noticeAll c h d).link l).SameButQueue (s.link l) := by
  unfold State.noticeAll
  split
  · exact .trans (State.link_upd_host _ _ _ l (fun k => ⟨k.txq, _, rfl⟩)) (State.link_upd_host _ _ _ l (fun k => ⟨k.txq, _, rfl⟩))
  · dsimp only
    split <;> split
    · exact (State.noticeOn_link _ _ _ _ _ l).trans (State.noticeOn_link _ _ _ _ _ l)
    · exact State.noticeOn_link _ _ _ _ _ l
    · exact State.noticeOn_link _ _ _ _ _ l
    · exact .refl _

/-- A record leaves every link as it is but for what it queues on host ports. -/
theorem State.record_link (s : State) (u : BitVec 32) (c : Code) (v d : Nat) (w : Who) (l : LinkRef) :
    ((s.record u c v d w).link l).SameButQueue (s.link l) := by
  unfold State.record
  dsimp only
  split
  · exact (State.noticeAll_link _ _ _ _ l).trans (by cases l <;> exact .refl _)
  · cases l <;> exact .refl _

/-- A record below severity 2 leaves the links as they are. -/
theorem State.record_links_low (s : State) (u : BitVec 32) (c : Code) (v d : Nat) (w : Who) (h : v < 2) : (s.record u c v d w).links = s.links := by
  unfold State.record
  dsimp only
  rw [if_neg (by omega)]

@[simp] theorem bufferRecord_nextSeq (v : Vigil) (r : ErrorRecord) : (bufferRecord v r).nextSeq = v.nextSeq := by
  unfold bufferRecord
  dsimp only
  (repeat' split) <;> rfl

/-- Every record takes the next sequence number. -/
@[simp] theorem State.record_nextSeq (s : State) (u : BitVec 32) (c : Code) (v d : Nat) (w : Who) :
    (s.record u c v d w).vigil.nextSeq = (s.vigil.nextSeq + 1) % 2 ^ 64 := by
  unfold State.record
  dsimp only
  split <;> simp

theorem State.sendResponse_link (s : State) (w : Requester) (r : Response) (l : LinkRef) : ((s.sendResponse w r).link l).SameButQueue (s.link l) := by
  cases w with
  | field a u => cases l <;> exact .refl _
  | yalvo n => exact State.link_upd_host _ n _ l (fun k => ⟨_, k.ctr.noticesDropped, rfl⟩)

@[simp] theorem State.link_fabric_noticeAll (s : State) (c : Nat) (h : Header) (d : List Byte) (n : Nat) :
    (s.noticeAll c h d).link (.fabric n) = s.link (.fabric n) := by
  unfold State.noticeAll State.noticeOn State.hostSend State.noticeDropped
  dsimp only
  (repeat' split) <;> simp [State.link_updLink_other]

@[simp] theorem State.link_fabric_record (s : State) (u : BitVec 32) (c : Code) (v d : Nat) (w : Who) (n : Nat) :
    (s.record u c v d w).link (.fabric n) = s.link (.fabric n) := by
  unfold State.record
  dsimp only
  split <;> simp <;> rfl

@[simp] theorem State.link_bridge_noticeAll (s : State) (c : Nat) (h : Header) (d : List Byte) :
    (s.noticeAll c h d).link .bridge = s.link .bridge := by
  unfold State.noticeAll State.noticeOn State.hostSend State.noticeDropped
  dsimp only
  (repeat' split) <;> simp [State.link_updLink_other]

@[simp] theorem State.link_bridge_record (s : State) (u : BitVec 32) (c : Code) (v d : Nat) (w : Who) :
    (s.record u c v d w).link .bridge = s.link .bridge := by
  unfold State.record
  dsimp only
  split <;> simp <;> rfl

end Sys2Proof.Machine
end

