-- ==== Sys2Proof/Laws/Ending.lean ====
section
/-! SUPPORT. What ending an operator, its completion record, its notices and a dictionary response can change: queues of host links, memory in its
canonical form, contexts, runs, the scheduler, the counters of cores and the log; nothing of the pins, the clocks, the start-up, the flash, what
else the cores hold or the control network. -/

namespace Sys2Proof.Machine

/-- `t` follows `s` by ends of operators, records and responses. -/
structure Ended (s t : State) : Prop where
  pending : t.pending = s.pending
  now : t.now = s.now
  pins : t.pins = s.pins
  clk : t.clk = s.clk
  boot : t.boot = s.boot
  fuses : t.fuses = s.fuses
  flash : t.flash = s.flash
  cores : t.cores = { s.cores with recs := t.cores.recs }
  vec : t.vec = s.vec
  ctrl : t.ctrl = s.ctrl
  recov : t.recov = s.recov
  twin : t.twin = s.twin
  dump : t.dump = s.dump
  link : ∀ l, (t.link l).SameButQueue (s.link l)
  rankTable : t.links.rankTable = s.links.rankTable
  mem : s.memsys.mem.wf = true → t.memsys.mem.wf = true
  grants : t.memsys.grants = s.memsys.grants
  keys : t.memsys.keys = s.memsys.keys

theorem Ended.refl (s : State) : Ended s s :=
  ⟨rfl, rfl, rfl, rfl, rfl, rfl, rfl, rfl, rfl, rfl, rfl, rfl, rfl, fun _ => .refl _, rfl, id, rfl, rfl⟩

theorem Ended.trans {s t u : State} (a : Ended s t) (b : Ended t u) : Ended s u :=
  ⟨b.pending.trans a.pending, b.now.trans a.now, b.pins.trans a.pins, b.clk.trans a.clk, b.boot.trans a.boot, b.fuses.trans a.fuses,
    b.flash.trans a.flash, (by have h := b.cores; rw [a.cores] at h; exact h), b.vec.trans a.vec, b.ctrl.trans a.ctrl, b.recov.trans a.recov, b.twin.trans a.twin,
    b.dump.trans a.dump, fun l => (b.link l).trans (a.link l), b.rankTable.trans a.rankTable, b.mem ∘ a.mem, b.grants.trans a.grants,
    b.keys.trans a.keys⟩

theorem Ended.foldl {β : Type} (f : State → β → State) (h : ∀ s b, Ended s (f s b)) (l : List β) (s : State) : Ended s (l.foldl f s) := by
  induction l generalizing s with
  | nil => exact .refl s
  | cons b r ih => exact (h s b).trans (ih _)

theorem ended_hostSend (s : State) (n c : Nat) (h : Header) (d : List Byte) : Ended s (s.hostSend n c h d) := by
  refine ⟨rfl, rfl, rfl, rfl, rfl, rfl, rfl, rfl, rfl, rfl, rfl, rfl, rfl, fun l => ?_, rfl, id, rfl, rfl⟩
  exact State.link_upd_host s n _ l (fun k => ⟨_, k.ctr.noticesDropped, rfl⟩)

theorem ended_noticeDropped (s : State) (n : Nat) : Ended s (s.noticeDropped n) := by
  refine ⟨rfl, rfl, rfl, rfl, rfl, rfl, rfl, rfl, rfl, rfl, rfl, rfl, rfl, fun l => ?_, rfl, id, rfl, rfl⟩
  exact State.link_upd_host s n _ l (fun k => ⟨k.txq, _, rfl⟩)

theorem ended_noticeOn (s : State) (n c : Nat) (h : Header) (d : List Byte) : Ended s (s.noticeOn n c h d) := by
  unfold State.noticeOn
  split
  · exact ended_hostSend s n c h d
  · exact ended_noticeDropped s n

theorem ended_notice (s : State) (p : Nat) (c : Code) (x : Nat) : Ended s (s.notice p c x) := ended_noticeOn _ _ _ _ _

theorem ended_noticeAll (s : State) (c : Nat) (h : Header) (d : List Byte) : Ended s (s.noticeAll c h d) := by
  unfold State.noticeAll
  split
  · exact (ended_noticeDropped _ _).trans (ended_noticeDropped _ _)
  · dsimp only
    split <;> split
    · exact (ended_noticeOn _ _ _ _ _).trans (ended_noticeOn _ _ _ _ _)
    · exact ended_noticeOn _ _ _ _ _
    · exact ended_noticeOn _ _ _ _ _
    · exact .refl _

theorem ended_vigil (s : State) (v : Vigil) : Ended s { s with vigil := v } :=
  ⟨rfl, rfl, rfl, rfl, rfl, rfl, rfl, rfl, rfl, rfl, rfl, rfl, rfl, fun l => by cases l <;> exact .refl _, rfl, id, rfl, rfl⟩

theorem ended_ctxs (s : State) (v : Ctxs) : Ended s { s with ctxs := v } :=
  ⟨rfl, rfl, rfl, rfl, rfl, rfl, rfl, rfl, rfl, rfl, rfl, rfl, rfl, fun l => by cases l <;> exact .refl _, rfl, id, rfl, rfl⟩

theorem ended_runs (s : State) (v : NMap Run) : Ended s { s with runs := v } :=
  ⟨rfl, rfl, rfl, rfl, rfl, rfl, rfl, rfl, rfl, rfl, rfl, rfl, rfl, fun l => by cases l <;> exact .refl _, rfl, id, rfl, rfl⟩

theorem ended_record (s : State) (u : BitVec 32) (c : Code) (v d : Nat) (w : Who) : Ended s (s.record u c v d w) := by
  unfold State.record
  dsimp only
  split
  · exact (ended_vigil s _).trans (ended_noticeAll _ _ _ _)
  · exact ended_vigil s _

theorem ended_fault (s : State) (k : Nat) : Ended s (s.fault k) := by
  unfold State.fault
  split
  · exact .refl s
  · exact ended_runs s _

theorem ended_memWrite (s : State) (k : KeyId) (a : Nat) (bs : List Byte) : Ended s (s.memWrite k a bs) :=
  ⟨rfl, rfl, rfl, rfl, rfl, rfl, rfl, rfl, rfl, rfl, rfl, rfl, rfl, fun l => by cases l <;> exact .refl _, rfl, Mem.write_wf _ _ _ _ _, rfl, rfl⟩

theorem ended_hostWrite (s t : State) (c g a : Nat) (bs : List Byte) (h : s.hostWrite c g a bs = .ok t) : Ended s t := by
  unfold State.hostWrite at h
  split at h
  · cases h
  · cases h
    exact Ended.foldl _ (fun s b => ended_hostSend _ _ _ _ _) _ _

theorem ended_planeWrite (s t : State) (c : Nat) (w : PlaneW) (h : s.planeWrite c w = .ok t) : Ended s t := by
  unfold State.planeWrite at h
  dsimp only at h
  split at h
  · cases h; exact .refl s
  · split at h
    · exact ended_hostWrite _ _ _ _ _ _ h
    · split at h <;> cases h
      · exact ⟨rfl, rfl, rfl, rfl, rfl, rfl, rfl, rfl, rfl, rfl, rfl, rfl, rfl, fun l => by cases l <;> exact .refl _, rfl, id, rfl, rfl⟩
      · exact ended_memWrite _ _ _ _

/-- Writing the planes of a body changes memory and the host ports' queues. -/
theorem ended_planeWrites (s t : State) (c : Nat) (ws : List PlaneW) (h : s.planeWrites c ws = .ok t) : Ended s t := by
  induction ws generalizing s with
  | nil => simp only [State.planeWrites, Except.ok.injEq] at h; subst h; exact .refl s
  | cons w r ih =>
    simp only [State.planeWrites] at h
    split at h
    · cases h
    · rename_i s' hs
      exact (ended_planeWrite _ _ _ _ hs).trans (ih _ h)

theorem ended_updCtx (s : State) (c : Nat) (f : Ctx → Ctx) : Ended s (s.updCtx c f) := ended_ctxs s _
theorem ended_setCtx (s : State) (c : Nat) (x : Ctx) : Ended s (s.setCtx c x) := ended_ctxs s _
theorem ended_updRun (s : State) (k : Nat) (f : Run → Run) : Ended s (s.updRun k f) := ended_runs s _

theorem ended_lineBad (s : State) (l : Nat) (w : Who) : Ended s (s.lineBad l w) := by
  unfold State.lineBad
  exact Ended.trans (t := s.updMemCtr (ctrlOf (256 * l)) (fun k => { k with uncorrectable := sat32 (k.uncorrectable + 1) }))
    ⟨rfl, rfl, rfl, rfl, rfl, rfl, rfl, rfl, rfl, rfl, rfl, rfl, rfl, fun l => by cases l <;> exact .refl _, rfl, id, rfl, rfl⟩ (ended_record _ _ _ _ _ _)

/-- What a write that met uncorrectable lines leaves (R157). -/
theorem ended_foundBad (s : State) (l : List Nat) (k : Nat) : Ended s (s.foundBad l k) := by
  unfold State.foundBad
  split
  · exact .refl s
  · exact (Ended.foldl _ (fun s b => ended_lineBad s b _) _ _).trans (ended_fault _ _)

theorem ended_ringWrite (s : State) (c : Nat) (r : CompRec) : Ended s (s.ringWrite c r) := by
  unfold State.ringWrite
  dsimp only
  split
  · rename_i s' hs
    split
    · exact (ended_planeWrite _ _ _ _ hs).trans ((ended_foundBad _ _ _).trans ((ended_updCtx _ _ _).trans (ended_notice _ _ _ _)))
    · exact (ended_planeWrite _ _ _ _ hs).trans ((ended_foundBad _ _ _).trans (ended_updCtx _ _ _))
  · exact (ended_record _ _ _ _ _ _).trans (ended_fault _ _)

theorem ended_ringDrain (n : Nat) (s : State) (c : Nat) : Ended s (s.ringDrain c n) := by
  induction n generalizing s with
  | zero => exact .refl s
  | succ k ih =>
    simp only [State.ringDrain]
    split
    · exact .refl s
    · split
      · exact ((ended_setCtx _ _ _).trans (ended_ringWrite _ _ _)).trans (ih _)
      · exact .refl s

theorem ended_putRecord (s : State) (c : Nat) (r : CompRec) : Ended s (s.putRecord c r) := (ended_updCtx _ _ _).trans (ended_ringDrain _ _ _)

theorem ended_complete (s : State) (e : OpEntry) : Ended s (s.complete e) := by
  unfold State.complete
  dsimp only
  have h1 : Ended s (if (s.ctx e.ctx).state == .releasing then s else s.putRecord e.ctx e.comp) := by
    split
    · exact .refl s
    · exact ended_putRecord _ _ _
  generalize (if (s.ctx e.ctx).state == .releasing then s else s.putRecord e.ctx e.comp) = s' at h1 ⊢
  split
  · exact h1
  · refine h1.trans ((ended_updCtx s' e.ctx (fun x => { x with faultCount := min (x.faultCount + 1) (2 ^ 32 - 1) })).trans ?_)
    generalize s'.updCtx e.ctx (fun x => { x with faultCount := min (x.faultCount + 1) (2 ^ 32 - 1) }) = s''
    split
    · exact (ended_ctxs s'' _).trans (ended_fault _ _)
    · exact ended_fault _ _

theorem ended_sched (s : State) (v : Sched) (x : List ExInst) : Ended s { s with sched := v, exch := x } :=
  ⟨rfl, rfl, rfl, rfl, rfl, rfl, rfl, rfl, rfl, rfl, rfl, rfl, rfl, fun l => by cases l <;> exact .refl _, rfl, id, rfl, rfl⟩

theorem ended_dropOp (s : State) (id : Nat) : Ended s (s.dropOp id) := ended_sched s _ _

theorem ended_forgetPlane (s : State) (c : Nat) (p : Nat × Nat × Nat) : Ended s (s.forgetPlane c p) := by
  unfold State.forgetPlane
  dsimp only
  split
  · exact .refl s
  · split
    · exact .refl s
    · exact ⟨rfl, rfl, rfl, rfl, rfl, rfl, rfl, rfl, rfl, rfl, rfl, rfl, rfl, fun l => by cases l <;> exact .refl _, rfl, Mem.forget_wf _ _ _ _ _, rfl, rfl⟩

theorem ended_forgetOutputs (s : State) (e : OpEntry) : Ended s (s.forgetOutputs e) := Ended.foldl _ (fun s p => ended_forgetPlane s _ p) _ _

/-- Ending an operator. -/
theorem ended_endOp (s : State) (id : Nat) (c : Code) : Ended s (s.endOp id c) := by
  unfold State.endOp
  split
  · exact .refl s
  · dsimp only
    split
    · exact (ended_forgetOutputs _ _).trans ((ended_dropOp _ _).trans (ended_complete _ _))
    · exact (ended_dropOp _ _).trans (ended_complete _ _)

theorem ended_endOps (s : State) (ids : List Nat) (c : Code) : Ended s (ids.foldl (fun s id => s.endOp id c) s) :=
  Ended.foldl _ (fun s id => ended_endOp s id c) _ _

theorem ended_cutPasses (s : State) (e : OpEntry) : Ended s (s.cutPasses e) := by
  unfold State.cutPasses
  split
  · exact .refl s
  · exact ⟨rfl, rfl, rfl, rfl, rfl, rfl, rfl, rfl, rfl, rfl, rfl, rfl, rfl, fun l => by cases l <;> exact .refl _, rfl, id, rfl, rfl⟩

theorem ended_cutOp (s : State) (e : OpEntry) : Ended s (s.cutOp e) := by
  unfold State.cutOp
  split
  · exact (ended_forgetOutputs _ _).trans (ended_cutPasses _ _)
  · exact ended_cutPasses _ _

theorem ended_cutOps (s : State) (ids : List Nat) (c : Code) :
    Ended s (ids.foldl (fun s id => (match NMap.get? s.sched.ops id with
      | some e => s.cutOp e
      | none => s).endOp id c) s) :=
  Ended.foldl _ (fun s id => by
    split
    · exact (ended_cutOp _ _).trans (ended_endOp _ _ _)
    · exact ended_endOp _ _ _) _ _

theorem Ended.updCtx {s t : State} {c : Nat} {f : Ctx → Ctx} (h : Ended s t) : Ended s (t.updCtx c f) := h.trans (ended_updCtx _ _ _)
theorem Ended.updRun {s t : State} {c : Nat} {f : Run → Run} (h : Ended s t) : Ended s (t.updRun c f) := h.trans (ended_updRun _ _ _)
theorem Ended.fault {s t : State} {k : Nat} (h : Ended s t) : Ended s (t.fault k) := h.trans (ended_fault _ _)
theorem Ended.record {s t : State} {u : BitVec 32} {c : Code} {v d : Nat} {w : Who} (h : Ended s t) : Ended s (t.record u c v d w) :=
  h.trans (ended_record _ _ _ _ _ _)
theorem Ended.ofCtxs {s t : State} {v : Ctxs} (h : Ended s t) : Ended s { t with ctxs := v } := h.trans (ended_ctxs _ _)
theorem Ended.haltStreams {s t : State} {c : Nat} {b : Bool} (h : Ended s t) : Ended s (t.haltStreams c b) := h.trans (ended_ctxs _ _)
theorem Ended.setStack {s t : State} {c : Nat} {k : Stack} (h : Ended s t) : Ended s (t.setStack c k) := h.trans (ended_ctxs _ _)
theorem Ended.endOp {s t : State} {id : Nat} {c : Code} (h : Ended s t) : Ended s (t.endOp id c) := h.trans (ended_endOp _ _ _)
theorem Ended.endOps {s t : State} {l : List Nat} {c : Code} (h : Ended s t) : Ended s (l.foldl (fun s id => s.endOp id c) t) :=
  h.trans (ended_endOps _ _ _)
theorem Ended.complete {s t : State} {e : OpEntry} (h : Ended s t) : Ended s (t.complete e) := h.trans (ended_complete _ _)
theorem Ended.dropOp {s t : State} {id : Nat} (h : Ended s t) : Ended s (t.dropOp id) := h.trans (ended_dropOp _ _)

/-- A context reset. -/
theorem ended_resetCtx (s : State) (c : Nat) : Ended s (s.resetCtx c) :=
  ((((((Ended.refl s).updCtx).trans (ended_cutOps _ _ _)).updCtx).haltStreams).setStack).fault

theorem ended_resetCtxs (s : State) (cs : List Nat) : Ended s (s.resetCtxs cs) :=
  Ended.foldl _ (fun s c => by split; exacts [ended_resetCtx s c, .refl s]) _ _

end Sys2Proof.Machine
end

