-- ==== Sys2Proof/WellFormed.lean ====
section
/-! DEFINITION. Which commands are well formed: the operands lie in the ranges the spec gives their fields and numbers. -/

namespace Sys2Proof

/-- Ports of the module: 32 fabric ports (R254), two host ports (R442), one bridge (R455). -/
def LinkRef.wf : LinkRef → Bool
  | .fabric n => decide (n < 32)
  | .host n => decide (n < 2)
  | .bridge => true

/-- A cell's payload is whole units of 32 bytes, at most 16 (R260), and the header's `len` counts them. -/
def Cell.wf (c : Cell) : Bool :=
  decide (c.payload.length = 32 * ((c.hdr >>> 96).toNat % 32)) && decide (c.payload.length ≤ 512)

/-- A packet carries at most 4,096 bytes (R444). -/
def Packet.wf (p : Packet) : Bool := decide (p.data.length ≤ 4096)

/-- A block's cell stream is at most 1,280 bytes (R256). -/
def Block.wf (b : Block) : Bool := decide (b.stream.length ≤ 1280)

/-- A requester on Yalvo names one of the two host ports (R428). -/
def Requester.wf : Requester → Bool
  | .field _ _ => true
  | .yalvo p => decide (p < 2)

/-- The header part of a dictionary command is that of a well-formed requester. -/
def Req.wf (q : Req) : Bool := q.who.wf

/-- A reset asked for by a requester names a well-formed requester. -/
def ResetSrc.wf : ResetSrc → Bool
  | .request q _ => q.wf
  | .vigil => true

/-- The same for a context reset, which may also come from the device. -/
def CtxResetSrc.wf : CtxResetSrc → Bool
  | .request q _ => q.wf
  | .device c => decide (c < 1048576)

/-- Contexts, physical cores and partitions lie in their ranges (R231, R102, R1). -/
def ResetScope.wf : ResetScope → Bool
  | .context c => decide (c < 1048576)
  | .engine p => decide (p < 832)
  | .partition p => decide (p < 16)

/-- Units that software can stop lie in their ranges (R361). -/
def StopUnit.wf : StopUnit → Bool
  | .fabric n => decide (n < 32)
  | .host n => decide (n < 2)
  | .bridge => true
  | .mirror => true
  | .core c => decide (c < 800)

/-- A line's errors lie in its 132 stored symbols (R154). -/
def LineError.wf (x : LineError) : Bool := x.symbols.all (fun k => decide (k < 132))

/-- Maintenance names one of the eight controllers (R153) or a line. -/
def MaintWork.wf : MaintWork → Bool
  | .refresh c _ => decide (c < 8)
  | .scrub l k => LineError.wf ⟨l, k⟩
  | .zero _ => true

/-- Hazards name logical cores (R103). -/
def OpEnv.wf (e : OpEnv) : Bool :=
  e.arrayFaults.all (fun f => decide (f.core < 800)) && e.tileFaults.all (fun f => decide (f.core < 800)) && e.tileFixed.all (fun c => decide (c < 800)) &&
    e.lineErrors.all LineError.wf

/-- The check of a command's operands. -/
def Instr.wf : Instr → Bool
  | .pwrEnRise => true
  | .rails _ => true
  | .boxwood => true
  | .bootImage => true
  | .clockAlign _ _ => true
  | .memTrain _ => true
  | .wipe _ => true
  | .selfTest _ => true
  | .linkUp _ => true
  | .enterReleased => true
  | .pwrEnFall => true
  | .inputUndervoltage => true
  | .powerFailFlush _ => true
  | .thermtrip sensor => decide (sensor < 128)
  | .resetNFall _ => true
  | .refclkLost => true
  | .pllLockLost => true
  | .vigilWatchdog => true
  | .vigilSramUncorrectable => true
  | .chipReset q _ => q.wf
  | .partitionReset p src => decide (p < 16) && src.wf
  | .engineReset core src => decide (core < 832) && src.wf
  | .resetEscalate scope => scope.wf
  | .crashDump _ => true
  | .dumpRequest q _ => q.wf
  | .captureFlush slot => decide (slot < 64)
  | .logFlush => true
  | .thermalSample _ => true
  | .voltageSample _ => true
  | .railOutOfRange monitor => decide (monitor < 48)
  | .powerLimit _ => true
  | .regulatorPoll n _ => decide (n < 24)
  | .serviceSecondTick => true
  | .serviceSecondsSave => true
  | .lpddrTempLimit ctrl _ => decide (ctrl < 8)
  | .lpddrMaintSlot work => work.wf
  | .zeroingDone granule => decide (granule < 380928)
  | .tileScrub core _ => decide (core < 800)
  | .unitHeartbeat _ _ => true
  | .unitSilent _ => true
  | .snapshotObject q _ => q.wf
  | .snapshotLatch => true
  | .linkBlock l b => l.wf && b.wf
  | .linkRetrainStart l => l.wf
  | .linkRetrainDone l _ => l.wf
  | .portTrained l => l.wf
  | .portTrainingTimeout l => l.wf
  | .laneFifoSlip l lane => l.wf && decide (lane < 16)
  | .linkCtrlSend l => l.wf
  | .linkCtrl l c => l.wf && c.wf
  | .portGuarded n => decide (n < 32)
  | .staleCellExpire l => l.wf
  | .xb16Block l c => l.wf && c.wf
  | .xp40Seg l c => l.wf && c.wf
  | .g128Seg l c => l.wf && c.wf
  | .rawSeg l c => l.wf && c.wf
  | .closeCell l c => l.wf && c.wf
  | .goCell l c => l.wf && c.wf
  | .dispatchRow l c => l.wf && c.wf
  | .combineRow l c => l.wf && c.wf
  | .bulkSeg l c => l.wf && c.wf
  | .recoveryReq l c => l.wf && c.wf
  | .recoveryData l c => l.wf && c.wf
  | .twinIdent c => c.wf
  | .mirrorData l c => l.wf && c.wf
  | .mirrorAck l c => l.wf && c.wf
  | .ctrlStepBegin l c => l.wf && c.wf
  | .ctrlGroupStart l c => l.wf && c.wf
  | .ctrlScaleMax l c => l.wf && c.wf
  | .ctrlStepCheck l c => l.wf && c.wf
  | .ctrlStepCommit l c => l.wf && c.wf
  | .ctrlVoidRequest l c => l.wf && c.wf
  | .ctrlDecision l c => l.wf && c.wf
  | .ctrlRankMove l c => l.wf && c.wf
  | .ctrlHeartbeat l c => l.wf && c.wf
  | .ctrlCheckpoint l c => l.wf && c.wf
  | .heartbeatSend => true
  | .controlPeerSilent slot _ => decide (slot < 4096)
  | .stragglerDeclare slot _ => decide (slot < 4096)
  | .rootDeclareFailed slot => decide (slot < 4096)
  | .recoveryUpdateReplay => true
  | .compatRestore slot => decide (slot < 4096)
  | .mirrorSeed slot => decide (slot < 4096)
  | .mirrorTask slot => decide (slot < 4096)
  | .twinBridgeLost => true
  | .queueFetch reply => reply.errors.all LineError.wf
  | .operatorStart _ => true
  | .operatorComplete _ => true
  | .schedReserve _ => true
  | .gatherPassClose _ _ => true
  | .gatherDeadline _ => true
  | .gathererOverflowDrain _ => true
  | .stackSpillAck ctx _ => decide (ctx < 1048576)
  | .stackFetchDone ctx _ _ => decide (ctx < 1048576)
  | .checkTask _ _ => true
  | .captureAttribution slot _ _ => decide (slot < 64)
  | .coreRetire core _ => decide (core < 800)
  | .retireReloadDone core => decide (core < 800)
  | .watchdogFire _ _ => true
  | .hungCoreCheck _ => true
  | .suspectIdleExpire ctx => decide (ctx < 1048576)
  | .waitExclusionExpire _ => true
  | .stagingTimeout _ => true
  | .doorbellQueueTail port _ _ => decide (port < 2)
  | .doorbellRingTail port _ _ => decide (port < 2)
  | .doorbellResumeStream port _ _ => decide (port < 2)
  | .contextLoad ctx _ => decide (ctx < 1048576)
  | .contextOpen q _ => q.wf
  | .contextReset src => src.wf
  | .contextRelease q _ => q.wf
  | .contextResetDone ctx => decide (ctx < 1048576)
  | .contextReleaseDone ctx => decide (ctx < 1048576)
  | .contextTableWrite q _ => q.wf
  | .regionSeal q _ => q.wf
  | .yalvoLink port p => decide (port < 2) && p.wf
  | .yalvoLinkSend port => decide (port < 2)
  | .completion port p => decide (port < 2) && p.wf
  | .hostReadTimeout port _ => decide (port < 2)
  | .requestExpire port _ => decide (port < 2)
  | .hostPortGuarded n => decide (n < 2)
  | .fieldDatagram r _ => r.wf
  | .fieldGuarded => true
  | .fieldGuardExpire => true
  | .neighbourDiscovery _ => true
  | .duplicateAddressDetection _ => true
  | .requesterEvict r => r.wf
  | .domainBegin q _ _ _ _ => q.wf
  | .domainSeg q _ _ _ _ => q.wf
  | .domainCancel q _ _ => q.wf
  | .domainTimeout r => r.wf
  | .auth q _ => q.wf
  | .elevationLapse r => r.wf
  | .nonceRead q => q.wf
  | .objectWrite q _ _ _ => q.wf
  | .lcToProvisioned q => q.wf
  | .lcToFleet q => q.wf
  | .lcToService q => q.wf
  | .lcToRetired q => q.wf
  | .fleetKey q _ => q.wf
  | .keySlotWrite q _ => q.wf
  | .keySlotClear q _ => q.wf
  | .attestNonce q _ => q.wf
  | .fwImage q _ _ => q.wf
  | .configImage q _ _ => q.wf
  | .fieldStateClear q _ => q.wf
  | .coreDrainStop q core => q.wf && decide (core < 800)
  | .coreDrainStart q core => q.wf && decide (core < 800)
  | .fabricPortRetrain q n => q.wf && decide (n < 32)
  | .fabricPortDisable q n => q.wf && decide (n < 32)
  | .hostPortRetrain q n => q.wf && decide (n < 2)
  | .hostPortDisable q n => q.wf && decide (n < 2)
  | .bridgeRetrain q => q.wf
  | .bridgeDisable q => q.wf
  | .mirrorStart q => q.wf
  | .mirrorStop q => q.wf
  | .groupTableWrite q _ => q.wf
  | .replicaTableWrite q _ => q.wf
  | .bankPairsWrite q _ => q.wf
  | .stateTensorsWrite q _ => q.wf
  | .hostWindowsWrite q _ => q.wf
  | .recordRingsWrite q _ => q.wf
  | .runOpen q _ => q.wf
  | .runClose q _ => q.wf
  | .refAlmanac q _ => q.wf
  | .almanacAppend q _ => q.wf
  | .rankReady q _ => q.wf
  | .lineageRequest q _ => q.wf
  | .rankMove q _ => q.wf
  | .spareRole q _ => q.wf
  | .matmul _ env => env.wf
  | .matmulDx _ env => env.wf
  | .matmulDw _ env => env.wf
  | .batchedMatmul _ env => env.wf
  | .convFwd _ env => env.wf
  | .convDx _ env => env.wf
  | .convDw _ env => env.wf
  | .attnFwd _ env => env.wf
  | .attnBwd _ env => env.wf
  | .customKernel _ env => env.wf
  | .addTensors _ env => env.wf
  | .mulTensors _ env => env.wf
  | .axpby _ env => env.wf
  | .act _ env => env.wf
  | .actBwd _ env => env.wf
  | .rmsnorm _ env => env.wf
  | .rmsnormBwd _ env => env.wf
  | .layernorm _ env => env.wf
  | .layernormBwd _ env => env.wf
  | .softmax _ env => env.wf
  | .softmaxBwd _ env => env.wf
  | .reduceSum _ env => env.wf
  | .reduceMax _ env => env.wf
  | .argmax _ env => env.wf
  | .topk _ env => env.wf
  | .scaleCalibrate _ env => env.wf
  | .adamw _ env => env.wf
  | .scaleUpdate _ env => env.wf
  | .convert _ env => env.wf
  | .quantXb16 _ env => env.wf
  | .pairToWorking _ env => env.wf
  | .pairFrom _ env => env.wf
  | .copyTensor _ env => env.wf
  | .gatherRows _ env => env.wf
  | .scatterRows _ env => env.wf
  | .scatterAddRows _ env => env.wf
  | .permute _ env => env.wf
  | .transpose _ env => env.wf
  | .pushFrame _ env => env.wf
  | .popFrame _ env => env.wf
  | .peekFrame _ env => env.wf
  | .markFrame _ env => env.wf
  | .allreduceXb _ env => env.wf
  | .reduceScatterXb _ env => env.wf
  | .allgather _ env => env.wf
  | .dispatch _ env => env.wf
  | .combine _ env => env.wf
  | .rankOrderReduce _ env => env.wf
  | .sendTensor _ env => env.wf
  | .recvTensor _ env => env.wf
  | .g128Exchange _ env => env.wf
  | .stepBegin _ => true
  | .stepCheck _ => true
  | .stepCommit _ => true
  | .stepVoid _ => true
  | .snapshot _ => true
  | .checkpoint _ => true
  | .checkpointVerify _ => true
  | .knownAnswer _ runs => runs.all (fun r => r.faults.all (fun f => decide (f.core < 800)))
  | .setvl core _ _ => decide (core < 800)
  | .sli core _ _ => decide (core < 800)
  | .sadd core _ _ _ => decide (core < 800)
  | .ssub core _ _ _ => decide (core < 800)
  | .sminu core _ _ _ => decide (core < 800)
  | .vld core _ _ _ => decide (core < 800)
  | .vldx core _ _ _ _ => decide (core < 800)
  | .vst core _ _ _ _ => decide (core < 800)
  | .vbcast core _ _ _ => decide (core < 800)
  | .vbcasti core _ _ _ => decide (core < 800)
  | .viota core _ _ => decide (core < 800)
  | .vadd core _ _ _ _ => decide (core < 800)
  | .vsub core _ _ _ _ => decide (core < 800)
  | .vmul core _ _ _ _ => decide (core < 800)
  | .vfma core _ _ _ _ _ => decide (core < 800)
  | .vfms core _ _ _ _ _ => decide (core < 800)
  | .vfnma core _ _ _ _ _ => decide (core < 800)
  | .vdiv core _ _ _ _ => decide (core < 800)
  | .vsqrt core _ _ _ => decide (core < 800)
  | .vmin core _ _ _ _ => decide (core < 800)
  | .vmax core _ _ _ _ => decide (core < 800)
  | .vabs core _ _ _ => decide (core < 800)
  | .vneg core _ _ _ => decide (core < 800)
  | .vcpysgn core _ _ _ _ => decide (core < 800)
  | .vexp core _ _ _ => decide (core < 800)
  | .vlog core _ _ _ => decide (core < 800)
  | .vrsqrt core _ _ _ => decide (core < 800)
  | .vtanh core _ _ _ => decide (core < 800)
  | .verf core _ _ _ => decide (core < 800)
  | .vsigm core _ _ _ => decide (core < 800)
  | .viadd core _ _ _ _ => decide (core < 800)
  | .visub core _ _ _ _ => decide (core < 800)
  | .vimul core _ _ _ _ => decide (core < 800)
  | .vand core _ _ _ _ => decide (core < 800)
  | .vor core _ _ _ _ => decide (core < 800)
  | .vxor core _ _ _ _ => decide (core < 800)
  | .vshl core _ _ _ _ => decide (core < 800)
  | .vshrl core _ _ _ _ => decide (core < 800)
  | .vshra core _ _ _ _ => decide (core < 800)
  | .vimin core _ _ _ _ => decide (core < 800)
  | .vimax core _ _ _ _ => decide (core < 800)
  | .vcvtfi core _ _ _ _ => decide (core < 800)
  | .vcvtif core _ _ _ => decide (core < 800)
  | .vcvtuf core _ _ _ => decide (core < 800)
  | .vcmp core _ _ _ _ _ => decide (core < 800)
  | .vsel core _ _ _ _ => decide (core < 800)
  | .mand core _ _ _ => decide (core < 800)
  | .mor core _ _ _ => decide (core < 800)
  | .mxor core _ _ _ => decide (core < 800)
  | .mnot core _ _ => decide (core < 800)
  | .vperm core _ _ _ _ => decide (core < 800)
  | .rsum core _ _ _ => decide (core < 800)
  | .rsump core _ _ _ _ => decide (core < 800)
  | .rmax core _ _ _ => decide (core < 800)
  | .rmin core _ _ _ => decide (core < 800)
  | .rargmax core _ _ _ => decide (core < 800)
  | .rstore core _ _ _ _ _ => decide (core < 800)
  | .attemptReuseWait slot => decide (slot < 4096)
  | .hostPortDisableTimeout n => decide (n < 2)
  | .stopCompletes u => u.wf
  | .resetReturnToService scope => scope.wf
  | .pwrEnLowTimeExpire => true
  | .refclkRestored => true
  | .inputPowerReturn => true

end Sys2Proof
end

