-- ==== Sys2Proof/Tests/Slice0.lean ====
section
/-! SUPPORT. Tests: the checks of WellFormed, worked values of the spec, one step of commands, and for every statement with hypotheses a state and
operands that meet them. -/

namespace Sys2Proof.Tests

open Sys2Proof Sys2Proof.Machine

-- The tests' proofs are evaluations by the kernel: one after the other, they need one thread.
set_option Elab.async false

/-! ### States and requests the tests share -/

/-- A module in RELEASED with its clocks aligned. -/
def wR : State :=
  { pins := { pwrEn := true, pgood := true }, clk := { aligned := true, pllLock := true, alignOk := true, onBypass := false },
    boot := { stage := .released, powered := true } }

/-- A module in a stage of start-up. -/
def wS (g : Stage) : State := { wR with boot := { stage := g, powered := true } }

/-- A request on host port 0. -/
def q1 : Req := ⟨.yalvo 0, 1⟩

/-- `Fresh`, decided. -/
def freshB (s : State) (q : Req) (op i sub : Nat) : Bool :=
  let x := (s.opened q).reqOf q.who
  s.answers q.who && x.kept.all (fun r => r.seq != q.seq) && !(x.deferred.contains q.seq) && decide (x.deferred.length < 8) && (s.opened q).inReach op i sub

theorem fresh_of {s : State} {q : Req} {op i sub : Nat} (h : freshB s q op i sub = true) : Fresh s q op i sub := by
  simp only [freshB, Bool.and_eq_true, List.all_eq_true, bne_iff_ne, ne_eq, Bool.not_eq_true', decide_eq_true_eq] at h
  obtain ⟨⟨⟨⟨a, b⟩, c⟩, d⟩, e⟩ := h
  refine ⟨a, b, ?_, d, e⟩
  simpa using c

/-- `Writes`, decided. -/
def writesB (s : State) (q : Req) (i sub n : Nat) : Bool :=
  freshB s q 2 i sub && (match objInfo i sub with
    | none => false
    | some o => o.wr && !o.domain && (s.opened q).mayWrite q.who i sub o.level && (if o.str then decide (n ≤ 64) else n == o.size))

theorem writes_of {s : State} {q : Req} {i sub n : Nat} (h : writesB s q i sub n = true) : Writes s q i sub n := by
  simp only [writesB, Bool.and_eq_true] at h
  obtain ⟨a, b⟩ := h
  refine ⟨fresh_of a, ?_⟩
  cases ho : objInfo i sub with
  | none => simp [ho] at b
  | some o =>
    simp only [ho, Bool.and_eq_true, Bool.not_eq_true'] at b
    obtain ⟨⟨⟨c, d⟩, e⟩, f⟩ := b
    refine ⟨o, rfl, c, d, e, ?_⟩
    split at f <;> simp_all

/-- `Ends`, decided but for the digest. -/
def endsB (s : State) (q : Req) (i sub : Nat) (t : Transfer) : Bool :=
  freshB s q 6 i sub && ((s.opened q).reqOf q.who).transfer == some t && t.index.toNat == i && t.sub.toNat == sub &&
    (s.opened q).mayWrite q.who i sub ((objInfo i sub).getD { size := 0 }).level && t.got.length == t.total

theorem ends_of {s : State} {q : Req} {i sub : Nat} {t : Transfer} (h : endsB s q i sub t = true) : Ends s q i sub (sha512 t.got) t := by
  simp only [endsB, Bool.and_eq_true, beq_iff_eq] at h
  obtain ⟨⟨⟨⟨⟨a, b⟩, c⟩, d⟩, e⟩, f⟩ := h
  exact ⟨fresh_of a, b, c, d, e, f, rfl⟩

/-! ### Witnesses: the queue, power, resets -/

theorem witness_StepRunsFrontCommand : ∃ (s : State) (c : Instr) (rest : List Instr), s.pending = c :: rest :=
  ⟨{ wR with pending := [.serviceSecondTick] }, .serviceSecondTick, [], rfl⟩

theorem witness_IdleStepPassesOneFrame :
    ∃ s : State, s.pending = [] ∧ s.sched.ops = [] ∧ s.vigil.stopPending = false ∧ s.twin.heldRetrain = false :=
  ⟨wR, rfl, rfl, rfl, rfl⟩

theorem witness_StartUpStagesFollowInOrder :
    (∃ s : State, s.pins.pwrEn = false ∧ s.pins.inputOk = true ∧ s.pins.tripLatch = false ∧
      (∀ t, s.pins.pwrEnFellAt = some t → t + 100 * Config.msCycles ≤ s.now)) ∧
    (∃ s : State, s.boot.powered = true ∧ s.boot.stage = .rails) ∧
    (∃ s : State, s.boot.powered = true ∧ s.boot.stage = .boxwood ∧ s.dump.wanted = none ∧ (thermometer s.fuses.bits 320 3).isSome = true ∧
      fld s.fuses.bits 323 5 = 0 ∧ (thermometer s.fuses.bits 328 32).isSome = true ∧ (thermometer s.fuses.bits 360 64).isSome = true) ∧
    (∃ (s : State) (tries : List AlignTry) (n : Nat), s.boot.powered = true ∧ s.boot.stage = .clockAlign ∧ s.pins.refclk = true ∧
      alignRun 0 tries = (n, true, true)) ∧
    (∃ s : State, s.boot.powered = true ∧ s.boot.stage = .memTrain ∧ s.boot.heldChipReset = false) ∧
    (∃ s : State, s.boot.powered = true ∧ s.boot.stage = .wipe ∧ s.boot.heldChipReset = false) ∧
    (∃ s : State, s.boot.powered = true ∧ s.boot.stage = .selfTest) ∧
    (∃ (s : State) (n : Nat), s.boot.powered = true ∧ s.boot.stage = .linkUp ∧ (s.link (.host 0)).state = .disabled ∧ n < 2) ∧
    (∃ s : State, s.boot.powered = true ∧ s.boot.stage = .linkUp ∧ (s.link (.host 0)).state ≠ .disabled ∧ s.boot.heldChipReset = false) :=
  ⟨⟨{ wR with pins := { pwrEnFellAt := some 0 }, now := 100 * Config.msCycles }, by decide +kernel, by decide +kernel, by decide +kernel, by intro t h; cases h; decide⟩,
    ⟨wS .rails, by decide +kernel, by decide +kernel⟩, ⟨wS .boxwood, by decide +kernel, by decide +kernel, by decide +kernel, by decide +kernel, by decide +kernel, by decide +kernel, by decide +kernel⟩,
    ⟨wS .clockAlign, [⟨true, true⟩], 1, by decide +kernel, by decide +kernel, by decide +kernel, by decide +kernel⟩,
    ⟨wS .memTrain, by decide +kernel, by decide +kernel, by decide +kernel⟩, ⟨wS .wipe, by decide +kernel, by decide +kernel, by decide +kernel⟩, ⟨wS .selfTest, by decide +kernel, by decide +kernel⟩,
    ⟨wS .linkUp, 1, by decide +kernel, by decide +kernel, by decide +kernel, by decide +kernel⟩,
    ⟨(wS .linkUp).updLink (.host 0) (fun k => { k with state := .up }), by decide +kernel, by decide +kernel, by decide +kernel, by decide +kernel⟩⟩

theorem witness_PowerAndPinEvents :
    wR.pins.pwrEn = true ∧
    (let s : State := { wR with pins := { pwrEn := true, inputOk := false } }
     s.pins.inputOk = false ∧ s.pins.pwrEn = true ∧ s.pins.tripLatch = false) ∧
    (State.reset.pins.pgood = false ∧ (wS .boxwood).boot.stage ≠ .rails ∧ ({ wS .boxwood with pins := {} } : State).pins.pgood = false) ∧
    wR.pins.inputOk = true ∧
    (1000 ≤ 1000 ∧ wR.pins.pwrEn = true ∧ wR.boot.powered = true ∧ wR.boot.stage = .released ∧ wR.boot.chipResetting = false ∧
      wR.dump.wanted = none) ∧
    (wR.clk.aligned = true ∧ wR.dump.wanted = none) ∧
    (let s : State := { wR with pins := { pwrEn := true, pwrEnHeld := true, pwrEnFellAt := some 7 } }
     s.pins.pwrEnHeld = true ∧ s.pins.pwrEn = true ∧ s.pins.inputOk = true ∧ s.pins.pwrEnFellAt = some 7) := by decide +kernel

theorem witness_ChipResetReentersStartUp :
    (Writes wR q1 0x1300 9 1 ∧ wR.boot.chipResetting = false ∧ wR.dump.wanted = none ∧ wR.boot.stage = .released ∧ wR.boot.heldChipReset = false) ∧
    (Writes (wS .linkUp) q1 0x1300 9 1 ∧ (wS .linkUp).boot.chipResetting = false ∧ (wS .linkUp).dump.wanted = none ∧
      (wS .linkUp).boot.stage = .linkUp ∧ (wS .linkUp).boot.heldChipReset = false) :=
  ⟨⟨writes_of (by decide +kernel), by decide +kernel⟩, ⟨writes_of (by decide +kernel), by decide +kernel⟩⟩

/-- Logical cores 0 and 799 on physical cores 0 and 831. -/
def wC : State := { wR with cores := { map := [(0, 0), (799, 831)], spares := [51, 50] } }

theorem witness_EngineAndPartitionResets :
    (wC.released = true ∧ wC.logicalOf 831 = some 799 ∧ (wC.core 799).engineResetAt = none) ∧ (wC.released = true ∧ 15 < 16) ∧
    (let s := wC.updCore 799 (fun k => { k with resetting := true, state := .stopping })
     s.logicalOf 831 = some 799 ∧ (s.core 799).resetting = true ∧ s.cores.partResetting.contains (831 / 52) = false) ∧
    (let s : State := { wC with cores := { wC.cores with partResetting := [15] } }
     s.cores.partResetting.contains 15 = true ∧ s.dump.wanted = none) ∧
    (let s := wC.updCore 0 (fun k => { k with state := .stopping })
     (s.core 0).state = .stopping ∧ (s.core 0).resetting = false ∧ s.opsOn [0] = []) := by decide +kernel

/-- A capture of core 0. -/
def wCap : Capture := ⟨3, 0, uidCore 0 1 0, 0, true, 1, 8, ⟨0, 0, 0, 0, false, 1⟩, {}, 0, false⟩

theorem witness_DumpsAndCapturesReachFlash :
    (let s : State := { wR with dump := { wanted := some 2 } }
     s.dump.wanted = some 2 ∧ s.dump.resetAfter = false) ∧
    (Writes wR q1 0x2300 1 1 ∧ wR.dump.wanted = none) ∧
    (let s : State := { wR with sched := { captures := [(63, wCap)] } }
     NMap.get? s.sched.captures 63 = some wCap ∧ wCap.flushed = false) :=
  ⟨by decide +kernel, ⟨writes_of (by decide +kernel), by decide +kernel⟩, by decide +kernel⟩

theorem witness_VigilSamplesAndRecords :
    (wR.boot.powered = true ∧ wR.pins.pgood = true) ∧ (wR.vigilRuns = true ∧ wR.released = true) ∧ ([700#16] : List (BitVec 16)) ≠ [] := by
  decide +kernel

/-- Granules 3 and 380927 (the last of the pool) being zeroed, the first of them from its beginning; line 5 uncorrectable. -/
def wZ : State := { wR with memsys := { grants := [(3, .zeroing), (380927, .zeroing)], mem := { bad := [5] } } }

/-- The last granule with all its lines zeroed. -/
def wZ2 : State := { wR with memsys := { grants := [(380927, .zeroing)], zeroed := [(380927, 8192)] } }

theorem witness_MemoryMaintenance :
    (256 * (lpddrEnd / 256 - 1) < lpddrEnd ∧ lpddrEnd / 256 - 1 ∉ wZ.memsys.mem.bad) ∧
    (256 * 5 < lpddrEnd ∧ 5 ∈ wZ.memsys.mem.bad) ∧ (256 * 6 < lpddrEnd ∧ ([0, 131] : List Nat).Nodup ∧ [0, 131].length = 2 ∧ ([0, 1, 131] : List Nat).Nodup) ∧
    (let line := 3 * 8192
     256 * line < lpddrEnd ∧ wZ.zeroingNext = some (256 * line / granule) ∧
      line = 256 * line / granule * 8192 + NMap.getD wZ.memsys.zeroed (256 * line / granule) 0) ∧
    (wZ2.zeroingNext = some 380927 ∧ NMap.getD wZ2.memsys.zeroed 380927 0 = 8192) ∧
    (let f : TileFind := { addr := 0x1E00000 - 1, find := .corrected, owner := none }
     f.find = .corrected ∧ f.addr < 0x1E00000) ∧
    ({ addr := 0, find := .clean, owner := none } : TileFind).find = .clean ∧ ({ addr := 8, find := .uncorrectable, owner := none } : TileFind).find = .uncorrectable ∧
    (∃ f ∈ [({ addr := 0x1E00000, find := .corrected, owner := none } : TileFind)], 0x1E00000 ≤ f.addr) ∧ lpddrEnd ≤ 256 * (lpddrEnd / 256) := by decide +kernel

theorem witness_HeartbeatsAndSnapshots :
    wR.clk.aligned = true ∧ (wR.released = true ∧ wR.quietUnit 0x20000000 = false ∧ fld (0x20000000 : BitVec 32) 28 4 = 2) ∧
    (Fresh wR q1 2 0x6000 1 ∧ (wR.opened q1).mayWrite q1.who 0x6000 1 1 = true ∧ wR.clk.aligned = true) ∧
    (let s : State := { wR with ctrl := { strobes := [.boundary 8 0] } }
     s.ctrl.strobes = .boundary 8 0 :: []) :=
  ⟨by decide +kernel, by decide +kernel, ⟨fresh_of (by decide +kernel), by decide +kernel⟩, by decide +kernel⟩

/-! ### Witnesses: units, links -/

/-- `wR` with a link changed. -/
def wL (l : LinkRef) (f : Link → Link) : State := wR.updLink l f

/-- A link that is up. -/
def kUp : Link := { state := .up, unit := .running, resync := false }

/-- Run slot 0 open with step 8 open. -/
def wRun : State := { wR with runs := [(0, { state := .open_, lastCommitted := 7, openStep := some 8 })] }

theorem witness_UnitCommandsTakeEffect :
    (Writes wC q1 (0x4000 + 799) 3 1 ∧ wC.released = true ∧ (wC.core 799).resetting = false ∧ (wC.core 799).state = .running) ∧
    (let s := wC.updCore 0 (fun k => { k with state := .stopped })
     Writes s q1 (0x4000 + 0) 3 1 ∧ s.released = true ∧ (s.core 0).resetting = false ∧ (s.core 0).state = .stopped) ∧
    (Writes wR q1 (0x5100 + 31) 3 1 ∧ wR.released = true ∧ (wR.link (.fabric 31)).unit = .stopped) ∧
    (let s := wL (.fabric 31) (fun _ => kUp)
     Writes s q1 (0x5100 + 31) 3 1 ∧ s.released = true ∧ (s.link (.fabric 31)).unit = .running) ∧
    (Writes wR q1 (0x5130 + 1) 2 1 ∧ wR.released = true ∧ ((wR.forWrite q1).link (.host 1)).unit = .stopped) ∧
    (let s := wL (.host 1) (fun _ => kUp)
     Writes s q1 (0x5130 + 1) 2 1 ∧ s.released = true ∧ ((s.forWrite q1).link (.host 1)).unit = .running) ∧
    (let s : State := { wRun with twin := { sense := true } }
     Writes s q1 0x5120 2 1 ∧ s.released = true ∧ s.twin.sense = true ∧ s.openSteps ≠ [] ∧ s.twin.heldRetrain = false) ∧
    (let s : State := { wR with twin := { heldRetrain := true } }
     Writes s q1 0x5120 2 1 ∧ s.twin.heldRetrain = true) ∧
    (let s : State := { wR with twin := { accepted := true } }
     Writes s q1 0x5120 0x26 1 ∧ s.released = true ∧ s.twin.state = .stopped ∧ s.twin.accepted = true) ∧
    (let s : State := { wR with twin := { state := .running } }
     Writes s q1 0x5120 0x26 1 ∧ s.released = true ∧ s.twin.state = .running) ∧
    (let s := wL (.fabric 0) (fun k => { k with unit := .stopping })
     (s.link (.fabric 0)).unit = .stopping ∧ (s.link (.fabric 0)).live = false) ∧
    (let s := wL (.host 0) (fun k => { k with unit := .stopping })
     (s.link (.host 0)).unit = .stopping ∧ (s.link (.host 0)).retry = [] ∧ s.sched.reads = []) ∧
    (let s := wL (.host 0) (fun k => { k with unit := .stopping, disabling := true, retry := [⟨0, [], 1, 0, 0⟩] })
     (s.link (.host 0)).unit = .stopping ∧ (s.link (.host 0)).disabling = true ∧ (s.link (.host 0)).retry ≠ [] ∧ s.sched.reads = []) := by
  refine ⟨⟨writes_of ?_, ?_⟩, ⟨writes_of ?_, ?_⟩, ⟨writes_of ?_, ?_⟩, ⟨writes_of ?_, ?_⟩, ⟨writes_of ?_, ?_⟩, ⟨writes_of ?_, ?_⟩, ⟨writes_of ?_, ?_⟩,
    ⟨writes_of ?_, ?_⟩, ⟨writes_of ?_, ?_⟩, ⟨writes_of ?_, ?_⟩, ?_, ?_, ?_⟩ <;> decide +kernel

/-- A block that decodes, with its header. -/
def wB (seq nocontent : Nat) : Block := ⟨true, setFld (setFld (BitVec.ofNat 40 seq) 33 1 nocontent) 34 6 40, []⟩

theorem witness_LinkBlocksAreNumbered :
    (let s := wL .bridge (fun _ => kUp)
     (s.link .bridge).live = true ∧ (⟨false, 0, []⟩ : Block).decoded = false) ∧
    (let s := wL (.host 1) (fun _ => kUp)
     (s.link (.host 1)).live = true ∧ (wB 0 1).decoded = true ∧ fld (wB 0 1).hdr 34 6 ≤ 40 ∧
      (flag (wB 0 1).hdr 33 = true ∨ fld (wB 0 1).hdr 0 16 ≠ (s.link (.host 1)).rxNext)) ∧
    (let s := wL (.host 1) (fun _ => kUp)
     (s.link (.host 1)).live = true ∧ (wB 65535 0).decoded = true ∧ fld (wB 65535 0).hdr 34 6 ≤ 40 ∧
      (flag (wB 65535 0).hdr 33 = true ∨ fld (wB 65535 0).hdr 0 16 ≠ (s.link (.host 1)).rxNext)) ∧
    (let s := wL (.fabric 31) (fun _ => { kUp with rxNext := 65535 })
     let b := wB 65535 0
     (s.link (.fabric 31)).live = true ∧ b.decoded = true ∧ fld b.hdr 34 6 ≤ 40 ∧ flag b.hdr 33 = false ∧
      fld b.hdr 0 16 = (s.link (.fabric 31)).rxNext ∧ b.stream = [] ∧ (s.link (.fabric 31)).partialCell = [] ∧ (s.link (.fabric 31)).resync = false) ∧
    (((wL (.fabric 0) (fun _ => kUp)).link (.fabric 0)).live = true ∧ 3 < 4) ∧ (((wL (.host 0) (fun _ => kUp)).link (.host 0)).live = true ∧ 7 < 8) ∧
    (((wL .bridge (fun _ => kUp)).link .bridge).live = true ∧ 15 < 16) := by decide +kernel

/-- A cell with the header fields a test names. -/
def wCell (lane kind dst src hops group : Nat) : Cell :=
  ⟨setFld (setFld (setFld (setFld (setFld (setFld (0 : Header) 0 2 lane) 2 6 kind) 8 18 dst) 26 18 src) 101 6 hops) 112 16 group, []⟩

/-- The module at site 1 is rank 5; rank 6 is at site 2, reached on port 3. -/
def wNet : State :=
  { wL (.fabric 3) (fun _ => kUp) with
    flash := { storeA := { gen := 1, values := { ownSite := 1 } } }
    links := { (wL (.fabric 3) (fun _ => kUp)).links with
      rankTable := [(5, 0x80000001), (6, 0x80000002)], slotRoutes := [(2, 0x8000000000000008)] } }

theorem witness_CellsWaitOrTravel :
    ((wCell 1 0x13 5 6 0 0).kind ≠ 1 ∧ wNet.isOwnRank (wCell 1 0x13 5 6 0 0).dst = true) ∧
    (let c := wCell 1 0x13 6 7 62 0xFFFF
     c.kind ≠ 1 ∧ c.kind ≠ 2 ∧ wNet.isOwnRank c.dst = false ∧ c.hops ≠ 63 ∧
      (wNet.updLink (.fabric 0) (fun k => k.free c.lane (1 + c.len))).routeRank (some 0) c = some 3 ∧ 3 ≠ 0) ∧
    (let c := wCell 1 0x13 6 7 63 0xFFFF
     c.kind ≠ 1 ∧ c.kind ≠ 2 ∧ wNet.isOwnRank c.dst = false ∧ c.hops = 63) := by decide +kernel

theorem witness_LinksTrainAndRetrain :
    (let s := wL (.fabric 0) (fun _ => { kUp with retry := [⟨0, [], 8, 1, 0⟩] })
     (s.link (.fabric 0)).live = true ∧ (∃ b ∈ (s.link (.fabric 0)).retry, 8 ≤ b.sends)) ∧
    (let s := wL (.fabric 0) (fun _ => { kUp with retryStamps := List.replicate 256 0 })
     (s.link (.fabric 0)).live = true ∧ 256 ≤ (recent s.now Config.msCycles (s.link (.fabric 0)).retryStamps).length) ∧
    (let s := wL (.fabric 0) (fun _ => { kUp with retry := [⟨0, [], 7, 1, 0⟩], retryStamps := List.replicate 255 0 })
     (s.link (.fabric 0)).live = true ∧ (∀ b ∈ (s.link (.fabric 0)).retry, b.sends < 8) ∧
      (recent s.now Config.msCycles (s.link (.fabric 0)).retryStamps).length < 256) ∧
    (let s := wL .bridge (fun _ => { kUp with state := .training, retraining := true, retrainStamps := [0] })
     (s.link .bridge).state = .training ∧ (s.link .bridge).retraining = true ∧
      (recent s.now (10 * Config.sCycles) (s.link .bridge).retrainStamps).length < 2) ∧
    (let s := wL .bridge (fun _ => { kUp with state := .training, retraining := true, retrainStamps := [0, 0] })
     (s.link .bridge).state = .training ∧ (s.link .bridge).retraining = true ∧
      2 ≤ (recent s.now (10 * Config.sCycles) (s.link .bridge).retrainStamps).length) ∧
    (let s := wL (.host 0) (fun _ => { kUp with state := .training })
     (s.link (.host 0)).state = .training ∧ (s.link (.host 0)).retraining = false) ∧
    (let s := wL (.fabric 31) (fun _ => { kUp with violStamps := List.replicate 64 0 })
     (s.link (.fabric 31)).state = .up ∧ 64 ≤ (recent s.now Config.msCycles (s.link (.fabric 31)).violStamps).length) := by decide +kernel

/-- A LINK_CTRL that returns 5 units of each lane. -/
def wCtl : Cell := ⟨setFld (setFld (setFld (setFld (wCell 0 1 0 0 0 0xFFFF).hdr 128 24 5) 152 24 5) 176 24 5) 200 24 5, []⟩

theorem witness_CreditReturns :
    ((wL (.fabric 0) (fun _ => kUp)).link (.fabric 0)).live = true ∧ ((wL .bridge (fun _ => kUp)).link .bridge).live = true ∧
    (let s := wL (.fabric 0) (fun _ => { kUp with sentUnits := [5, 5, 5, 5, 0, 0, 0, 0] })
     (∀ n, LinkRef.fabric 0 ≠ .host n) ∧ (s.link (.fabric 0)).live = true ∧ wCtl.kind = 1 ∧ cellFault (.fabric 0) wCtl = none ∧
      (∀ i < 4, ((s.link (.fabric 0)).grow i (wCtl.hi (24 * i) 24)).2 = false)) ∧
    (let s := wL (.fabric 0) (fun _ => { kUp with sentUnits := [5, 5, 5, 4, 0, 0, 0, 0] })
     (∀ n, LinkRef.fabric 0 ≠ .host n) ∧ (s.link (.fabric 0)).live = true ∧ wCtl.kind = 1 ∧ cellFault (.fabric 0) wCtl = none ∧
      (∃ i < 4, ((s.link (.fabric 0)).grow i (wCtl.hi (24 * i) 24)).2 = true)) :=
  ⟨by decide +kernel, by decide +kernel, ⟨(by intro n h; cases h), by decide +kernel⟩, ⟨(by intro n h; cases h), by decide +kernel⟩⟩

/-! ### Witnesses: exchange -/

/-- Fields (low bit, length, value) put into a zero word. -/
def wPack {w : Nat} (l : List (Nat × Nat × Nat)) : BitVec w := l.foldl (fun h e => setFld h e.1 e.2.1 e.2.2) 0

/-- An operator's entry: its descriptor's fields and its tensors (format, dimensions 0 and 1), all in region 0. -/
def wOp (opcode : Nat) (fs : List (Nat × Nat × Nat)) (ts : List (Nat × Nat × Nat)) : OpEntry :=
  { ctx := 0, phase := .started, tensors := ts.map (fun t => wPack
      [(32, 8, t.1), (64, 32, t.2.1), (96, 32, t.2.2), (128, 32, 1), (160, 32, 1), (192, 32, 1), (224, 32, 1), (272, 48, 0x10000), (336, 48, 0x20000),
       (400, 48, 0x30000)])
    desc := wPack ((0, 16, opcode) :: fs), coreCount := 1, xseq := 1 }

/-- The module is rank 5 of run 0, whose group 0 holds ranks 5 and 6; step 8 is open, and operator 0 of context 0 runs as instance `x`. -/
def wEx (e : OpEntry) (x : ExInst) : State :=
  { wNet with
    links := { wNet.links with groups := [(0, wPack [(0, 18, 5), (18, 19, 2), (37, 18, 1), (55, 19, 1), (127, 1, 1)])] }
    runs := [(0, { state := .open_, lastCommitted := 7, openStep := some 8 })]
    ctxs := { tab := [(0, { state := .open_, cached := true, loaded := true })] }
    sched := { ops := [(0, e)], nextOp := 1 }, exch := [x] }

/-- An instance of group 0 with its first operator number, begun by this module. -/
def wInst (opcode : BitVec 16) : ExInst := { op := some 0, slot := 0, group := 0, xseq := 1, opcode := opcode, g := 2, me := 0, step := 8, attempt := 0, begun := true }

/-- A cell of rank 6 to rank 5, for step 8 and instance 1 of group 0. -/
def wXc (lane kind len : Nat) (l : List (Nat × Nat × Nat)) : Cell :=
  ⟨wPack ([(0, 2, lane), (2, 6, kind), (8, 18, 5), (26, 18, 6), (48, 40, 8), (96, 5, len), (112, 16, 0), (128, 14, 1)] ++ l), List.replicate (32 * len) 0⟩

theorem ok_of {α β : Type} {r : Except α β} (h : r.toOption.isSome = true) : ∃ y, r = .ok y := by
  cases r with
  | ok y => exact ⟨y, rfl⟩
  | error => simp [Except.toOption] at h

def wE10 : OpEntry := wOp 0x0900 [(168, 4, 1), (172, 3, 1)] [(fmtXB16, 512, 1), (fmtXB16, 512, 1)]
def wE11 : OpEntry := wOp 0x0900 [(168, 4, 1), (172, 3, 1)] [(fmtXP40, 512, 1), (fmtXP40, 512, 1)]
def wE12 : OpEntry := wOp 0x0908 [(168, 4, 1), (172, 3, 1)] [(fmtG128, 64, 1), (fmtG128, 64, 1)]
def wE13 : OpEntry := wOp 0x0905 [(168, 4, 1), (172, 3, 1)] [(fmtB32, 64, 1), (fmtB32, 64, 1)]
/-- The instance at work on block 0, which the module owns. -/
def wX (opcode : BitVec 16) : ExInst := { wInst opcode with blocks := [⟨0, 0, 0, List.replicate 256 0⟩] }

/-- The same with a receive buffer that segments out of turn have filled. -/
def wXr : ExInst := { wX 0x0905 with segs := List.replicate 64 ⟨6, 0, 1, 0, 0, 0, List.replicate 16384 0⟩ }

/-- A cell's instance has a property that is decided. -/
theorem inst_of {r : CellFor} {p : ExInst → Bool} (h : (match r with
    | .inst x => p x
    | _ => false) = true) : ∃ x, r = .inst x ∧ p x = true := by
  cases r <;> simp_all

theorem witness_DataCellsJoinTheirBlocks :
    (let c := wXc 1 0x10 16 []; let s := wEx wE10 (wX 0x0900); let u := s.takeCell (.fabric 3) c; let x := wX 0x0900; let a := (u.exCtx x).inp 0
     s.groupCellFor c = .inst x ∧ s.exHere (.fabric 3) c 0x10 = true ∧ x.opcode = 0x0900 ∧ a.fmt = fmtXB16 ∧ c.hi 32 32 < cdiv a.count 256 ∧
      ownerOf (cdiv a.count 256) x.g (c.hi 32 32) = x.me ∧ (x.peer c.src 0).close = none ∧
      ∃ y, (u.acceptData x 0 c).2.addBlock (BlockAcc.norm16 ⟨c.hi 32 32, BitVec.ofNat 64 (c.hi 64 64), BitVec.ofNat 16 (c.hi 16 16),
        signedsOf 2 256 c.payload⟩) = .ok y) ∧
    (∀ b < 2, let c := wXc 1 0x11 16 [(160, 32, b)]; let s := wEx wE11 (wX 0x0900); let u := s.takeCell (.fabric 3) c; let x := wX 0x0900
      let a := (u.exCtx x).inp 0
      s.groupCellFor c = .inst x ∧ s.exHere (.fabric 3) c 0x11 = true ∧ s.noRoom x c = false ∧ x.opcode = 0x0900 ∧ a.fmt = fmtXP40 ∧
      u.blockPhase x (cdiv a.count 256) (c.hi 32 32) c.src = some b ∧ (x.peer c.src b).close = none ∧
      (∀ e ∈ x.segs, ¬ (e.src = c.src ∧ e.phase = b ∧ e.unit = c.hi 32 32 ∧ e.seg = c.hi 14 2)) ∧
      ((u.acceptData x b c).2.joinSeg c b).toOption.isSome = true) ∧
    (let c := wXc 1 0x12 16 []; let s := wEx wE12 (wX 0x0908); let u := s.takeCell (.fabric 3) c; let x := wX 0x0908; let a := (u.exCtx x).inp 0
     s.groupCellFor c = .inst x ∧ s.exHere (.fabric 3) c 0x12 = true ∧ x.opcode = 0x0908 ∧ longUnit c < cdiv a.count 32 ∧
      ownerOf (cdiv a.count 32) x.g (longUnit c) = x.me ∧ (x.peer c.src 0).close = none) ∧
    (let c := wXc 1 0x13 16 []; let s := wEx wE13 (wX 0x0905); let x := wX 0x0905
     s.groupCellFor c = .inst x ∧ s.exHere (.fabric 3) c 0x13 = true ∧ s.noRoom x c = false ∧ x.opcode = 0x0905 ∧ (x.peer c.src 0).close = none) ∧
    (let c := wXc 1 0x12 16 [(160, 32, 1)]; let s := wEx wE12 (wX 0x0908); let u := s.takeCell (.fabric 3) c; let x := wX 0x0908; let a := (u.exCtx x).inp 0
     s.groupCellFor c = .inst x ∧ s.exHere (.fabric 3) c 0x12 = true ∧ x.opcode = 0x0908 ∧
      u.blockPhase x (cdiv a.count 32) (longUnit c) c.src = some 1 ∧ (x.peer c.src 1).close = none) ∧
    (let c := wXc 1 0x13 16 []; let s := wEx wE13 wXr
     (∃ x, s.groupCellFor c = .inst x ∧ s.noRoom x c = true) ∧ s.exHere (.fabric 3) c 0x13 = true) := by
  refine ⟨?_, by decide +kernel, by decide +kernel, by decide +kernel, by decide +kernel, ⟨inst_of (p := fun x => (wEx wE13 wXr).noRoom x (wXc 1 0x13 16 [])) (by decide +kernel), by decide +kernel⟩⟩
  exact ⟨by decide +kernel, by decide +kernel, by decide +kernel, by decide +kernel, by decide +kernel, by decide +kernel, by decide +kernel,
    ok_of (by decide +kernel)⟩

/-- A DISPATCH of one row of 32 codes to one home, and the COMBINE that brings it back: expert slot 0 is homed in context 0 of rank 5. -/
def wE20 : OpEntry := wOp 0x0903 [(168, 4, 2), (172, 3, 1), (544, 32, 1)] [(fmtU8, 32, 1), (fmtU32, 1, 1), (fmtU8, 32, 1)]
def wE21 : OpEntry := wOp 0x0904 [(168, 4, 5), (172, 3, 1), (544, 32, 1)]
  [(fmtU8, 32, 1), (fmtU32, 2, 1), (fmtU32, 2, 1), (fmtU32, 2, 1), (fmtU32, 2, 1), (fmtU8, 32, 1)]
def wRow (e : OpEntry) (x : ExInst) : State :=
  let s := wEx e x
  { s with runs := [(0, { state := .open_, lastCommitted := 7, openStep := some 8, expertSlots := [(0, wPack [(0, 18, 5), (63, 1, 1)])] })] }

/-- The cell is taken in phase 0, and its effect on the instance succeeds. -/
def takeOk (r : CellFate) (x : ExInst) : Bool := match r with
  | .take 0 f => (f x).toOption.isSome
  | _ => false

theorem take_of {r : CellFate} {x : ExInst} (h : takeOk r x = true) : ∃ f y, r = .take 0 f ∧ f x = .ok y := by
  unfold takeOk at h
  split at h
  · exact ⟨_, (ok_of h).choose, rfl, (ok_of h).choose_spec⟩
  · cases h

theorem witness_RowsClosesAndGoReachTheirInstance :
    (let c := wXc 2 0x20 1 []; let x := wInst 0x0903; let s := wRow wE20 x
     s.groupCellFor c = .inst x ∧ (x.peer c.src 0).close = none ∧ s.exHere (.fabric 3) c 0x20 = true ∧
      (∃ f y, (s.takeCell (.fabric 3) c).rowFate c 0x0903 x ((s.takeCell (.fabric 3) c).exCtx x) = .take 0 f ∧
        f ((s.takeCell (.fabric 3) c).acceptData x 0 c).2 = .ok y)) ∧
    (let c := wXc 2 0x21 1 []; let x := wInst 0x0904; let s := wRow wE21 x
     s.groupCellFor c = .inst x ∧ (x.peer c.src 0).close = none ∧ s.exHere (.fabric 3) c 0x21 = true ∧
      (∃ f y, (s.takeCell (.fabric 3) c).rowFate c 0x0904 x ((s.takeCell (.fabric 3) c).exCtx x) = .take 0 f ∧
        f ((s.takeCell (.fabric 3) c).acceptData x 0 c).2 = .ok y)) ∧
    (let c := wXc 3 0x30 1 [(112, 16, noGroup)]
     let x : ExInst := { op := some 0, slot := 0, group := noGroup, xseq := 1, opcode := 0x0907, g := 2, me := 6, step := 8, attempt := 0, begun := true }
     let s := wEx (wOp 0x0907 [] []) x
     s.exHere (.fabric 3) c 0x30 = true ∧ s.recvCellFor c (c.hi 16 16) = .inst x ∧ (x.peer c.src 0).close = none) ∧
    (let c := wXc 1 0x18 0 [(160, 32, 1)]; let x := wX 0x0900; let s := wEx wE10 x
     s.cellHere (.fabric 3) c = true ∧ c.kind = 0x18 ∧ c.group ≠ noGroup ∧ c.lane ≠ 3 ∧ s.isOwnRank c.dst = true ∧
      s.groupCellFor c = .inst x ∧ c.lane = x.lane ∧
      (x.closes.filter (fun k => k.src == c.src)).length < ((List.range x.phases).filter (fun ph => (x.peer c.src ph).close.isNone)).length) ∧
    (let c := wXc 3 0x18 0 [(112, 16, noGroup), (160, 32, 1)]
     let x : ExInst := { op := some 0, slot := 0, group := noGroup, xseq := 1, opcode := 0x0907, g := 2, me := 6, step := 8, attempt := 0, begun := true }
     let s := wEx (wOp 0x0907 [] []) x
     s.cellHere (.fabric 3) c = true ∧ c.kind = 0x18 ∧ c.lane = 3 ∧ c.group = noGroup ∧ s.isOwnRank c.dst = true ∧ s.recvCloseFor c = .inst x ∧
      c.lane = x.lane ∧
      (x.closes.filter (fun k => k.src == c.src)).length < ((List.range x.phases).filter (fun ph => (x.peer c.src ph).close.isNone)).length) ∧
    (let c := wXc 1 0x19 0 []; let x := wX 0x0905; let s := wEx wE13 x
     s.exHere (.fabric 3) c 0x19 = true ∧ s.groupCellFor c = .inst x ∧ x.opcode = 0x0905) := by
  refine ⟨⟨by decide +kernel, by decide +kernel, by decide +kernel, ?_⟩, ⟨by decide +kernel, by decide +kernel, by decide +kernel, ?_⟩,
    by decide +kernel, by decide +kernel, by decide +kernel, by decide +kernel⟩
  · exact take_of (by decide +kernel)
  · exact take_of (by decide +kernel)

theorem witness_SumsAreOrderFree :
    (let a : BlockAcc := ⟨0, 0, 3, [1, 2]⟩; let b : BlockAcc := ⟨0, 0, 5, [-7, 9]⟩; let x : ExInst := { wInst 0x0900 with blocks := [⟨0, 0, 4, [1, 1]⟩] }
     ∃ y z, x.addBlock a = .ok y ∧ y.addBlock b = .ok z) ∧
    (∀ z ∈ [-(2 : Int) ^ 127, 2 ^ 125 - 1, 1 - 2 ^ 125], z = -(2 : Int) ^ 127 ∨ (-(2 : Int) ^ 125 < z ∧ z < 2 ^ 125)) :=
  ⟨⟨_, _, rfl, rfl⟩, by decide +kernel⟩

theorem witness_BlocksAddElementwise :
    ({ wInst 0x0900 with blocks := [⟨0, 0xFFA6, 0, []⟩] } : ExInst).blocks = [⟨0, 0xFFA6, 0, []⟩] ∧
    xbExpOk (xbExp (0xFF6A : BitVec 64).toNat) = false ∧ xbExpOk (xbExp (0x59 : BitVec 64).toNat) = false ∧
    (xbExpOk (xbExp (0x58 : BitVec 64).toNat) = true ∧ xbExp (0x58 : BitVec 64).toNat ≠ xbExp (0xFFA6 : BitVec 64).toNat) ∧
    (xbExpOk (xbExp (0xFF6B : BitVec 64).toNat) = true ∧ xbExp (0x2FF6B : BitVec 64).toNat = xbExp (0xFF6B : BitVec 64).toNat) := by decide +kernel

/-! ### Witnesses: the twin, mirroring, recovery -/

/-- Run 0 of group 0 with twins 5 and 6, ports 3 and the bridge up, the twin running; `f` changes the run. -/
def wT (f : Run → Run) : State :=
  let s := wEx wE10 (wX 0x0900)
  { s with
    links := { s.links with bridge := kUp }, twin := { sense := true, accepted := true, state := .running }
    runs := [(0, f { state := .open_, lastCommitted := 7, openStep := some 8, twinMap := [(5, 0x80000006), (6, 0x80000005)] })] }

/-- A TWIN_IDENT with serial 77, site 2 and the numerics level `n`. -/
def wId (n : Byte) : Cell := ⟨wPack [(0, 2, 3), (2, 6, 0x38), (96, 5, 2), (112, 16, 0xFFFF)], leBytes 8 77 ++ leBytes 4 2 ++ [n] ++ List.replicate 51 0⟩

theorem witness_TwinIsFoundAndLost :
    (let s := wT id
     s.cellHere .bridge (wId 1) = true ∧ (wId 1).kind = 0x38 ∧ leAt (wId 1).payload 12 1 = Config.numericsLevel ∧
      (BitVec.ofNat 64 (leAt (wId 1).payload 0 8)).toNat ≠ s.serial) ∧
    (let s := wT id
     s.cellHere .bridge (wId 2) = true ∧ (wId 2).kind = 0x38 ∧ leAt (wId 2).payload 12 1 ≠ Config.numericsLevel) ∧
    (let s : State := { wT (fun r => { r with openStep := none }) with
       sched := {}, links := { (wT id).links with bridge := { kUp with state := .down } } }
     s.twin.accepted = true ∧ s.twin.state = .running ∧ s.twin.degraded = false ∧ (s.link .bridge).state = .down ∧ s.sched.ops = [] ∧
      s.openSteps = []) := by decide +kernel

theorem witness_MirrorKeepsPartnersState :
    (let c := wXc 3 0x39 1 []; let s := wT id
     s.cellHere .bridge c = true ∧ c.kind = 0x39 ∧ s.mirrorSlot c = some 0 ∧ s.tagFit 0 c.step c.attempt = .present ∧
      ((s.mirrorOf 0).begin_ c.step c.attempt).closed = none) ∧
    (let c := wXc 3 0x39 1 [(48, 40, noStep)]; let s := wT id
     s.cellHere .bridge c = true ∧ c.kind = 0x39 ∧ s.mirrorSlot c = some 0 ∧ c.step = noStep ∧
      ((s.mirrorOf 0).begin_ c.step c.attempt).closed = none) ∧
    (let c := wXc 3 0x18 0 [(128, 14, 0), (160, 32, 5)]; let s := wT id; let m := (s.mirrorOf 0).begin_ c.step c.attempt
     s.cellHere .bridge c = true ∧ c.kind = 0x18 ∧ c.lane = 3 ∧ c.group ≠ noGroup ∧ s.mirrorSlot c = some 0 ∧
      s.tagFit 0 c.step c.attempt = .present ∧ (m.count % 2 ^ 32, m.sum) ≠ (c.hi 32 32, c.hi 64 64)) ∧
    (let c := wXc 3 0x39 1 []; let m : Mirror := { copyHeld := true, count := 3, sum := 9, closed := some (3, 9) }
     let s : State := { wT id with twin := { (wT id).twin with mirrors := [(0, m)] } }
     (s.mirrorOf 0).closed = some ((s.mirrorOf 0).count % 2 ^ 32, (s.mirrorOf 0).sum) ∧ s.reserveFull = false ∧ c.step ≠ noStep ∧
      (s.mirrorOf 0).copyHeld = true) ∧
    (let m : Mirror := { count := 3, sum := 9, closed := some (3, 9), items := [⟨8, 1, 9, [(0, [1])], true⟩] }
     let s : State := { wT id with twin := { (wT id).twin with mirrors := [(0, m)] }, memsys := { twinReserveActive := 0 } }
     (s.mirrorOf 0).closed = some ((s.mirrorOf 0).count % 2 ^ 32, (s.mirrorOf 0).sum) ∧ s.reserveFull = true) ∧
    (let s : State := { wT id with twin := { (wT id).twin with mirrors := [(0, { copyHeld := true, copyStep := 5, digests := [(6, 0)] })] } }
     s.taskDue 0 = true) := by decide +kernel

theorem witness_MirrorIsSeededAndAcknowledged :
    (let s := wT (fun r => { r with openStep := none })
     (s.run 0).isOpen = true ∧ (s.run 0).openStep = none ∧ s.needsSeed 0 = true ∧ (s.run 0).mirror.seeding = false) ∧
    (let c := wXc 3 0x3A 0 [(48, 40, noStep), (128, 14, 1)]; let s := wT (fun r => { r with mirror := { seeding := true } })
     s.cellHere .bridge c = true ∧ c.kind = 0x3A ∧ s.isOwnRank c.dst = true ∧ (s.groupE c.group).slot = 0 ∧ (s.run 0).isOpen = true ∧
      (s.run 0).group = c.group ∧ s.twinRank 0 = some c.src ∧ c.step = noStep ∧ (s.run 0).compatInterval = 0 ∧ (s.run 0).mirror.seeding = true) ∧
    (let c := wXc 3 0x3A 0 []; let s := wT id
     s.cellHere .bridge c = true ∧ c.kind = 0x3A ∧ s.isOwnRank c.dst = true ∧ (s.groupE c.group).slot = 0 ∧ (s.run 0).isOpen = true ∧
      (s.run 0).group = c.group ∧ s.twinRank 0 = some c.src ∧ c.step ≠ noStep ∧ s.tagFit 0 c.step c.attempt = .present) ∧
    (let c := wXc 3 0x3A 0 [(48, 40, noStep), (128, 14, 1)]; let s := wT (fun r => { r with rec_ := setFld r.rec_ 232 16 2 })
     s.cellHere .bridge c = true ∧ c.kind = 0x3A ∧ s.isOwnRank c.dst = true ∧ (s.groupE c.group).slot = 0 ∧ (s.run 0).isOpen = true ∧
      (s.run 0).group = c.group ∧ s.twinRank 0 = some c.src ∧ c.step = noStep ∧ (s.run 0).compatInterval ≠ 0) ∧
    (∀ n ∈ [noStep, 6], let c := wXc 3 0x3A 0 [(48, 40, n), (128, 14, 1)]; let s := wT id
     s.cellHere .bridge c = true ∧ c.kind = 0x3A ∧ s.isOwnRank c.dst = true ∧ (s.groupE c.group).slot = 0 ∧ (s.run 0).isOpen = true ∧
      (s.run 0).group = c.group ∧ s.twinRank 0 = some c.src ∧
      ((c.step ≠ noStep ∧ s.tagFit 0 c.step c.attempt ≠ .present) ∨
        (c.step = noStep ∧ (s.run 0).compatInterval = 0 ∧ (s.run 0).mirror.seeding = false))) := by decide +kernel

/-- An adoption of rank 5 that wants item 1 of tensor 9. -/
def wAd : Adoption := { group := 0, rank := 5, twinRank := 6, wanted := [(1, 9)] }

theorem witness_RecoveryItemsTravel :
    (let c := wXc 3 0x31 0 [(128, 14, 0)]; let s := wT id
     s.cellHere (.fabric 3) c = true ∧ c.kind = 0x31 ∧ s.isOwnRank c.dst = true ∧ (s.groupE c.group).slot = 0 ∧ (s.run 0).isOpen = true ∧
      (s.run 0).group = c.group ∧ s.mayAsk 0 c (c.hi 0 8) (c.hi 16 32) = true ∧ (c.hi 0 8 ≤ 1 → s.taskDue 0 = false)) ∧
    (∀ last < 2, let c := wXc 3 0x32 1 [(128, 8, 1), (136, 1, last), (144, 32, 9)]; let s := (wT id).setAdoption (some wAd)
     s.cellHere (.fabric 3) c = true ∧ c.kind = 0x32 ∧ s.isOwnRank c.dst = true ∧ s.recov.adoption = some wAd ∧ wAd.group = c.group ∧ wAd.rank = c.dst ∧
      wAd.wanted.contains (c.hi 0 8, c.hi 16 32) = true ∧ c.hi 0 8 = 1 ∧
      (findItem (putSeg wAd.items 0 (c.hi 0 8) (BitVec.ofNat 32 (c.hi 16 32)) (c.hi 48 40) c.payload (c.hi 8 1 == 1)) 0 (c.hi 0 8) (c.hi 16 32)).map
        MirrorItem.whole = some (last == 1)) ∧
    (∀ k ∈ [(5, 9), (3, 0)], let a := { wAd with wanted := [k] }
     let c := wXc 3 0x32 1 [(128, 8, k.1), (136, 1, 1), (144, 32, k.2)]; let s := (wT id).setAdoption (some a)
     s.cellHere (.fabric 3) c = true ∧ c.kind = 0x32 ∧ s.isOwnRank c.dst = true ∧ s.recov.adoption = some a ∧ a.wanted.contains (c.hi 0 8, c.hi 16 32) = true ∧
      c.hi 0 8 = k.1) ∧
    (let c := wXc 3 0x32 1 [(128, 8, 0), (136, 1, 1)]; let s := (wT id).setAdoption (some wAd)
     s.cellHere (.fabric 3) c = true ∧ c.hi 0 8 = 0 ∧ wAd.manifest = false ∧ c.src = wAd.twinRank ∧
      (findItem (putSeg wAd.items 0 (c.hi 0 8) (BitVec.ofNat 32 (c.hi 16 32)) (c.hi 48 40) c.payload (c.hi 8 1 == 1)) 0 (c.hi 0 8) (c.hi 16 32)).map
        MirrorItem.whole = some true) ∧
    (let s := ((wT id).setAdoption (some wAd)).updReq (.yalvo 0) (fun x => { x with runSelect := 0 })
     Writes s q1 0x7001 4 1 ∧ (s.forWrite q1).selected q1.who = some 0 ∧ s.recov.adoption = some wAd ∧ wAd.group = (s.run 0).group ∧
      (s.run 0).isOpen = true) :=
  ⟨by decide +kernel, by decide +kernel, by decide +kernel, by decide +kernel, ⟨writes_of (by decide +kernel), by decide +kernel⟩⟩

/-- The run in compatibility mode with an interval of 2 steps. -/
def wCo : State := wT (fun r => { r with openStep := none, rec_ := setFld r.rec_ 232 16 2 })

theorem witness_RecoveryEnds :
    (∀ u : Bool, let a : Adoption := { wAd with wanted := [], requested := true, needUpdate := u }; let s := (wT id).setAdoption (some a)
     s.recov.adoption = some a ∧ a.pulled = true ∧ (s.groupE a.group).slot = 0 ∧ (s.run 0).compatInterval = 0 ∧ a.needUpdate = u) ∧
    ((wCo.run 0).isOpen = true ∧ (wCo.run 0).compatInterval ≠ 0 ∧ (wCo.run 0).openStep = none ∧ (wCo.runMe 0).isSome = true ∧
      wCo.recov.adoption = none ∧ (wCo.run 0).compatInterval < (wCo.run 0).lastCommitted) ∧
    (let a : Adoption := { wAd with wanted := [], requested := true, ready := true }; let s := wCo.setAdoption (some a)
     (s.run 0).isOpen = true ∧ (s.run 0).compatInterval ≠ 0 ∧ (s.run 0).openStep = none ∧ (s.runMe 0).isSome = true ∧
      s.recov.adoption = some a ∧ a.group = (s.run 0).group ∧ a.ready = true ∧ a.pulled = true) ∧
    (let s := wT (fun r => { r with openStep := none, lastCommitted := 2, rec_ := setFld r.rec_ 232 16 2 })
     (s.run 0).isOpen = true ∧ (s.run 0).compatInterval ≠ 0 ∧ (s.run 0).openStep = none ∧ (s.runMe 0).isSome = true ∧ s.recov.adoption = none ∧
      (s.run 0).lastCommitted ≤ (s.run 0).compatInterval) ∧
    (let a : Adoption := { wAd with wanted := [], requested := true }; let s := (wT id).setAdoption (some a)
     s.uniqueSum 0 a.step [] = a.updateDigest.toNat ∧ s.uniqueSum 0 a.step [] ≠ ({ a with updateDigest := 1 } : Adoption).updateDigest.toNat) := by
  decide +kernel

theorem witness_RankObjectsTakeEffect :
    (Writes wR q1 0x7200 6 8 ∧ fld (0x3FFFFFFFFF : BitVec 64) 38 26 = 0) ∧ (Writes wR q1 0x7200 7 2 ∧ wR.boot.degraded = false) ∧
    (let s : State := { wR with boot := { wR.boot with degraded := true } }
     Writes s q1 0x7200 7 2 ∧ s.boot.degraded = true) :=
  ⟨⟨writes_of (by decide +kernel), by decide +kernel⟩, ⟨writes_of (by decide +kernel), by decide +kernel⟩, writes_of (by decide +kernel), by decide +kernel⟩

/-! ### Witnesses: the control network, step control -/

/-- The same pod with the module as rank 6, member 1. -/
def wMe1 (f : Run → Run) : State :=
  let s := wT f
  { s with links := { s.links with rankTable := [(5, 0x80000002), (6, 0x80000001)] } }

/-- A control message from rank 6 to rank 5 (up), or back (down). -/
def wUp (cmsg len : Nat) (l : List (Nat × Nat × Nat)) : Cell := wXc 0 2 len ([(128, 14, 0), (128, 8, cmsg)] ++ l)
def wDn (cmsg len : Nat) (l : List (Nat × Nat × Nat)) : Cell := wXc 0 2 len ([(8, 18, 6), (26, 18, 5), (128, 14, 0), (128, 8, cmsg), (136, 1, 1)] ++ l)

/-- With its own contribution to the reduction that the cell belongs to. -/
def State.giving (s : State) (k : RedKey) : State := s.setRed { key := k, own := some [0] }

theorem witness_ReductionMessagesClimbAndDescend :
    (∀ p ∈ [(1, 1), (3, 1), (4, 4), (5, 1), (0x0B, 1)], let c := wUp p.1 p.2 []; let s := wT id
     s.ctrlHere (.fabric 3) c p.1 = true ∧ s.myIdx c.group = some 0 ∧ s.idxOf c.group c.src = some 1 ∧
      ctrlFrom c (s.groupE c.group).size 0 1 = true ∧ s.tagFit (s.groupE c.group).slot c.step c.attempt = .present ∧ c.hi 8 1 = 0) ∧
    (∀ p ∈ [(1, 1), (3, 1), (4, 4), (5, 1), (0x0B, 1)], let c := wDn p.1 p.2 []; let s := State.giving (wMe1 id) (ctrlKey c)
     s.ctrlHere (.fabric 3) c p.1 = true ∧ s.myIdx c.group = some 1 ∧ s.idxOf c.group c.src = some 0 ∧
      ctrlFrom c (s.groupE c.group).size 1 0 = true ∧ s.tagFit (s.groupE c.group).slot c.step c.attempt = .present ∧ c.hi 8 1 = 1 ∧
      (((s.takeCell (.fabric 3) c).seen (s.groupE c.group).slot c.src).redOf (ctrlKey c)).own.isSome = true) ∧
    (∀ p ∈ [(1, 1), (3, 1), (0x0B, 1)], let c := wDn p.1 p.2 []; let s := wMe1 id
     s.ctrlHere (.fabric 3) c p.1 = true ∧ ctrlFrom c (s.groupE c.group).size 1 0 = true ∧
      s.tagFit (s.groupE c.group).slot c.step c.attempt = .present ∧ c.hi 8 1 = 1 ∧ p.1 ≠ 4 ∧ p.1 ≠ 5 ∧
      (((s.takeCell (.fabric 3) c).seen (s.groupE c.group).slot c.src).redOf (ctrlKey c)).own = none) ∧
    (∀ p ∈ [(8, TagFit.waiting), (9, .stale)], let c := wUp 1 1 [(48, 40, p.1)]; let s := wT (fun r => { r with openStep := none })
     s.ctrlHere (.fabric 3) c 1 = true ∧ s.myIdx c.group = some 0 ∧ s.idxOf c.group c.src = some 1 ∧
      ctrlFrom c (s.groupE c.group).size 0 1 = true ∧ c.step ≠ noStep ∧ s.tagFit (s.groupE c.group).slot c.step c.attempt = p.2) := by decide +kernel

theorem witness_GroupStartReleasesOperators :
    (let c := wUp 2 1 [(144, 14, 1)]; let s := wT id
     s.ctrlHere (.fabric 3) c 2 = true ∧ s.myIdx c.group = some 0 ∧ s.idxOf c.group c.src = some 1 ∧ ctrlFrom c (s.groupE c.group).size 0 1 = true ∧
      s.tagFit (s.groupE c.group).slot c.step c.attempt = .present ∧ c.hi 8 1 = 0) ∧
    (∀ own : Bool, let c := wDn 2 1 [(144, 14, 1)]; let s := if own then State.giving (wMe1 id) (ctrlKey c) else wMe1 id
     s.ctrlHere (.fabric 3) c 2 = true ∧ s.myIdx c.group = some 1 ∧ s.idxOf c.group c.src = some 0 ∧ ctrlFrom c (s.groupE c.group).size 1 0 = true ∧
      s.tagFit (s.groupE c.group).slot c.step c.attempt = .present ∧ c.hi 8 1 = 1 ∧
      (((s.takeCell (.fabric 3) c).seen (s.groupE c.group).slot c.src).redOf (ctrlKey c)).own.isSome = own) := by decide +kernel

/-- A group of 10 ranks from 5 on; the module is the member at site 1, rank `r`. -/
def wTen (r : Nat) (f : Run → Run) : State :=
  let s := wT f
  { s with links := { s.links with
      groups := [(0, wPack [(0, 18, 5), (18, 19, 10), (37, 18, 1), (55, 19, 1), (127, 1, 1)])], rankTable := [(r, 0x80000001)] } }

theorem witness_ControlCellsTakeEffect :
    (let c := wUp 6 0 []; let s := wT id; let e := s.groupE c.group
     s.myIdx c.group = some 0 ∧ s.idxOf c.group c.src = some 1 ∧ s.ctrlHere (.fabric 3) c 6 = true ∧ (s.run e.slot).group = c.group ∧
      (s.run e.slot).isOpen = true) ∧
    (let c := wDn 6 0 [(136, 1, 0), (192, 8, 1), (200, 18, 5)]; let s := wMe1 id; let e := s.groupE c.group
     let u := (s.takeCell (.fabric 3) c).seen e.slot c.src
     s.myIdx c.group = some 1 ∧ s.idxOf c.group c.src = some 0 ∧ s.ctrlHere (.fabric 3) c 6 = true ∧ (s.run e.slot).group = c.group ∧
      (s.run e.slot).isOpen = true ∧ c.hi 64 8 ≠ 0 ∧ c.hi 72 18 = u.rootRank e.slot) ∧
    (let c := wDn 7 0 [(192, 8, 1)]; let s := wMe1 id; let e := s.groupE c.group
     s.myIdx c.group = some 1 ∧ s.idxOf c.group c.src = some 0 ∧ s.ctrlHere (.fabric 3) c 7 = true ∧ ctrlFrom c e.size 1 0 = true ∧ c.hi 8 1 = 1 ∧
      s.tagFit e.slot c.step c.attempt = .present) ∧
    (let c := wUp 9 0 [(160, 16, 1)]; let s := wT id
     s.ctrlHere (.fabric 3) c 9 = true ∧ newerSeq (NMap.getD s.links.moveSeq (c.hi 64 18) 0) (c.hi 32 16) = true) ∧
    (let c := wUp 9 0 [(160, 16, 0)]; let s := wT id
     s.ctrlHere (.fabric 3) c 9 = true ∧ newerSeq (NMap.getD s.links.moveSeq (c.hi 64 18) 0) (c.hi 32 16) = false) ∧
    (let c := wXc 0 2 0 [(128, 14, 0), (8, 18, 14), (128, 8, 6)]; let s := wTen 14 id; let e := s.groupE c.group
     s.myIdx c.group = some 9 ∧ s.idxOf c.group c.src = some 1 ∧ s.ctrlHere (.fabric 3) c 6 = true ∧ (s.run e.slot).group = c.group ∧
      (s.run e.slot).isOpen = true ∧ 1 < 9) ∧
    (let c := wUp 0x0A 0 []; let s := wT id; let e := s.groupE c.group
     s.myIdx c.group = some 0 ∧ s.idxOf c.group c.src = some 1 ∧ s.ctrlHere (.fabric 3) c 0x0A = true ∧ ctrlFrom c e.size 0 1 = true) := by
  decide +kernel

theorem witness_HeartbeatsAndSilence :
    wR.released = true ∧
    (let s := wT id; let e := s.groupE (s.run 0).group
     s.runMe 0 = some 0 ∧ (s.run 0).isOpen = true ∧ (∃ j ∈ treeChildren e.size 0, e.rank j = 6)) ∧
    (let s := wTen 14 id; let e := s.groupE (s.run 0).group
     s.runMe 0 = some 9 ∧ (s.run 0).isOpen = true ∧ (∀ j ∈ treeChildren e.size 9, e.rank j ≠ 6) ∧ 1 < 9 ∧ e.rank (treeParent 9) = 6) ∧
    (let s := wMe1 id; let e := s.groupE (s.run 0).group
     s.runMe 0 = some 1 ∧ (s.run 0).isOpen = true ∧ (∀ j ∈ treeChildren e.size 1, e.rank j ≠ 5) ∧ e.rank (treeParent 1) = 5) := by decide +kernel

/-- The STEP_CHECK reduction as the module saw it: its own contribution at time 3. -/
def State.arrived (s : State) (j : Nat) : State := s.setRed { key := s.runKey 0 4 0, own := some [], arrivals := [(j, 3)] }

theorem witness_StragglersAreDeclared :
    (let s := State.arrived (wT id) 0; let e := s.groupE (s.run 0).group; let k := s.runKey 0 4 0
     s.runMe 0 = some 0 ∧ s.watchMedian 0 0 = some 3 ∧ (s.run 0).openStep.isSome = true ∧ (treeChildren e.size 0).find? (fun j => e.rank j == 6) = some 1 ∧
      NMap.get? (s.redOf k).children 1 = none ∧ 1 ∉ (s.redOf k).excused) ∧
    (let s := State.arrived (wTen 6 id) 1; let e := s.groupE (s.run 0).group; let k := s.runKey 0 4 0
     s.runMe 0 = some 1 ∧ s.watchMedian 0 1 = some 3 ∧ (s.run 0).openStep.isSome = true ∧ (treeChildren e.size 1).find? (fun j => e.rank j == 14) = some 9 ∧
      NMap.get? (s.redOf k).children 9 = none ∧ 9 ∉ (s.redOf k).excused ∧ (s.redOf k).sentUp = none ∧ (s.run 0).passed = false) ∧
    (let e : OpEntry := { wOp 0x0A00 [] [] with phase := .started }
     let s := { wT (fun r => { r with openStep := none, startWait := true, voidAt := [(0, 4)] }) with sched := { ops := [(0, e)] } }
     s.opBy 0 0x0A00 = some 0 ∧ NMap.get? s.sched.ops 0 = some e ∧ (s.run 0).startWait = true ∧
      NMap.get? (s.run 0).voidAt (s.run 0).attempt = some 4) := by decide +kernel

/-- An operator of the step class that is due, in context 0, the run's step context. -/
def wSt (opcode step : Nat) (f : Run → Run) : OpEntry × State :=
  let e : OpEntry := { wOp opcode [(96, 40, step), (512, 32, 1)] [] with phase := .checked }
  let s := wT f
  (e, { s with sched := { ops := [(0, e)], nextOp := 1 }, exch := [] })

/-- The hypotheses that a step operator's clauses share. -/
def dueOk (p : OpEntry × State) : Bool :=
  let u := p.2.settle
  p.1.phase == .checked && u.stepControlCode p.1.ctx p.1.d == cOk && u.stepDue 0 p.1.d.opcode == some p.1

theorem witness_StepOperatorsTakeEffect :
    (∀ w : Bool, let p := wSt 0x0A00 8 (fun r => { r with openStep := none, verified := true, voidAt := if w then [(0, 0)] else [] })
     let q := p.2.settle.pairTwin 0
     dueOk p = true ∧ (p.2.settle.ctx p.1.ctx).runSlot = 0 ∧ q.beginWaits 0 p.1 = false ∧ (decide (q.now < q.reuseAt 0)) = w) ∧
    (let p := wSt 0x0A01 8 id
     dueOk p = true ∧ p.2.settle.taskDue 0 = false ∧ (p.2.settle.run 0).replicaStarted = false) ∧
    (let p := wSt 0x0A01 8 (fun r => { r with replicaStarted := true })
     dueOk p = true ∧ p.2.settle.taskDue 0 = false ∧ (p.2.settle.run 0).replicaStarted = true) ∧
    (let q := wSt 0x0A01 8 id
     let p : OpEntry × State := (q.1, { q.2 with twin := { q.2.twin with mirrors := [(0, { copyHeld := true, copyStep := 5, digests := [(6, 0)] })] } })
     dueOk p = true ∧ p.2.settle.taskDue 0 = true) ∧
    (let q := wSt 0x0A00 8 (fun r => { r with openStep := none, verified := true })
     let p : OpEntry × State := (q.1, { q.2 with sched := { q.2.sched with captures := [(0, wCap)] } })
     dueOk p = true ∧ (p.2.settle.pairTwin 0).beginWaits 0 p.1 = true) ∧
    (let p := wSt 0x0A02 8 id
     dueOk p = true ∧ (p.2.settle.run 0).passed = false) ∧
    (let p := wSt 0x0A03 8 (fun r => { r with openStep := none })
     dueOk p = true ∧ (p.2.settle.run 0).openStep = none ∧ (p.2.settle.run 0).lastCommitted < p.1.d.step) ∧
    (let p := wSt 0x0A02 8 (fun r => { r with passed := true })
     dueOk p = true ∧ (p.2.settle.run 0).passed = true ∧ (p.2.settle.run 0).vetoSent = false) ∧
    (let p := wSt 0x0A03 8 id
     dueOk p = true ∧ (p.2.settle.run 0).openStep.isSome = true) ∧
    (let p := wSt 0x0A03 7 (fun r => { r with openStep := none })
     dueOk p = true ∧ (p.2.settle.run 0).openStep = none ∧ p.1.d.step ≤ (p.2.settle.run 0).lastCommitted) ∧
    (let p := wSt 0x0A04 8 id
     dueOk p = true ∧ flag p.1.d 24 = false) ∧
    dueOk (wSt 0x0A05 noStep (fun r => { r with openStep := none })) = true ∧
    (let p := wSt 0x0A06 noStep (fun r => { r with openStep := none })
     dueOk p = true ∧ flag p.1.d 24 = false) ∧
    (let e : OpEntry := { wOp 0x0A04 [(24, 1, 1), (96, 40, 8)] [] with phase := .checked }
     let p : OpEntry × State := (e, { wT id with sched := { ops := [(0, e)], nextOp := 1 }, exch := [] })
     p.2.settle.stepDue 0 0x0A04 = some e ∧ p.2.settle.stepControlCode 0 e.d = cOk ∧ flag e.d 24 = true ∧ (p.2.settle.ctx 0).runSlot ≠ noRun) ∧
    (let e : OpEntry := { wOp 0x0A06 [(24, 1, 1), (96, 40, noStep), (512, 32, 5)] [] with phase := .checked }
     let p : OpEntry × State := (e, { wT (fun r => { r with openStep := none, ckpts := [⟨5, 0, []⟩] }) with sched := { ops := [(0, e)], nextOp := 1 }, exch := [] })
     p.2.settle.stepDue 0 0x0A06 = some e ∧ p.2.settle.stepControlCode 0 e.d = cOk ∧
      flag e.d 24 = true ∧ ((p.2.settle.run 0).ckptOf (e.d.arg 0 + e.d.arg 1 % 256 * 2 ^ 32)).isSome = true) := by decide +kernel

/-! ### Witnesses: the scheduler, check tasks, hangs -/

/-- A region entry with all rights. -/
def wRegion (base size : Nat) : BitVec 128 := wPack [(0, 48, base), (64, 48, size), (112, 3, 7), (116, 1, 1)]

/-- Context 0 with queue 0 (16 entries) at `a` holding one descriptor, window 0 on host port 0. -/
def wQ (a : Nat) (window : BitVec 64) : State :=
  let s := wL (.host 0) (fun _ => kUp)
  { s with
    ctxs := { tab := [(0, { state := .open_, cached := true, loaded := true, qtail := [1, 0, 0, 0], regions := [wRegion (a / 2 ^ 21 * 2 ^ 21) (2 ^ 21)]
                            desc := wPack [(384, 48, a), (432, 5, 4), (437, 1, 1)] })] }
    links := { s.links with windows := [(0, window)] } }

theorem witness_QueuesAreFetched :
    (let s := wQ 0x200000 0; let x := s.ctx 0; let e := x.region ((x.regionAt 0x200000 128 RegionE.r).getD 0)
     s.nextQueue = some 0 ∧ x.qbase 0 + 128 * (nth x.qhead 0 0 % 2 ^ x.qlog2 0) = 0x200000 ∧ isHost 0x200000 = false ∧
      s.memsys.mem.badIn 0x200000 128 = [] ∧ s.keyFor x e = some .slot0) ∧
    (let s := wQ hostBase 0x8000000000000000
     s.nextQueue = some 0 ∧ (s.ctx 0).qbase 0 + 128 * (nth (s.ctx 0).qhead 0 0 % 2 ^ (s.ctx 0).qlog2 0) = hostBase ∧ isHost hostBase = true ∧
      (s.hostRoute hostBase).toOption = some (0, 0)) ∧
    (let s := wQ hostBase 0
     s.nextQueue = some 0 ∧ (s.ctx 0).qbase 0 + 128 * (nth (s.ctx 0).qhead 0 0 % 2 ^ (s.ctx 0).qlog2 0) = hostBase ∧ isHost hostBase = true ∧
      (s.hostRoute hostBase).toOption = none) ∧
    (let s : State := { wQ 0x200000 0 with memsys := { mem := { bad := [0x2000] } } }
     s.nextQueue = some 0 ∧ isHost 0x200000 = false ∧ (s.meetErrors []).memsys.mem.badIn 0x200000 128 ≠ []) ∧
    (let s0 := wQ 0x200000 0
     let s : State := { s0 with ctxs := { s0.ctxs with tab := s0.ctxs.tab.map (fun p => (p.1, { p.2 with desc := setFld p.2.desc 40 12 5 })) } }
     let x := s.ctx 0; let e := x.region ((x.regionAt 0x200000 128 RegionE.r).getD 0)
     s.nextQueue = some 0 ∧ (s.meetErrors []).memsys.mem.badIn 0x200000 128 = [] ∧ (s.meetErrors []).keyFor x e = none) ∧ wR.nextQueue = none := by decide +kernel

theorem witness_IssueEntersTheList :
    (let s : State := { wR with ctxs := { streams := [(0, ⟨3, false⟩)] } }
     NMap.get? s.ctxs.streams (OpDesc.stream 0) = some ⟨3, false⟩ ∧ (3 : Nat) ≠ 0) ∧
    NMap.get? wR.ctxs.streams (OpDesc.stream 0) = none := by decide +kernel

/-- A conversion of 64 elements that has passed checks 1 to 15. -/
def wCv : OpEntry := { wOp 0x0600 [(168, 4, 1), (172, 3, 1), (384, 40, 64)] [(fmtB32, 64, 1), (fmtB16f, 64, 1)] with phase := .checked, coreCount := 0, readyAt := some 0 }
/-- Operator 0 is `e`, all cores are free, and region 0 of its context lies at `a`. -/
def wCsAt (a : Nat) (e : OpEntry) : State :=
  let s := wEx e (wInst 0)
  { s with cores := { map := (List.range 800).map (fun i => (i, i)), good := List.range 832, spares := [] }, exch := []
           ctxs := { tab := [(0, { state := .open_, cached := true, loaded := true, regions := [wRegion a 0x200000] })] } }
def wCs (e : OpEntry) : State := wCsAt 0 e

/-- A POP of a stack without frames: check 16 fails. -/
def wPop : OpEntry := { wOp 0x0801 [(172, 3, 1)] [(fmtB32, 64, 1)] with phase := .checked, coreCount := 0, readyAt := some 0 }

/-- A PEEK of 64 elements of a frame whose page is away. -/
def wPeek : OpEntry := { wOp 0x0802 [(172, 3, 1)] [(fmtB32, 64, 1)] with phase := .checked, coreCount := 0, readyAt := some 0 }
def wPeekS : State :=
  let s := wCs wPeek
  { s with ctxs := { s.ctxs with stackTab := [(0, { frames := [⟨0, BitVec.ofNat 8 fmtB32, false, 8, 256, [64, 1, 1, 1, 1, 1], 0, 4096⟩]
                                                    pages := [(0, ⟨.spilled, 7, 0, 0⟩)] })] } }

theorem witness_OperatorsStartAndComplete :
    (let s := wCs wCv
     NMap.get? s.settle.sched.ops 0 = some wCv ∧ s.settle.unblocked 0 wCv = true ∧ wCv.d.cls ≠ 9 ∧ s.settle.startCode wCv = cOk ∧ wCv.d.cls ≠ 8 ∧
      (∀ f ∈ s.settle.earlier 0, s.settle.startable f.1 f.2 = false) ∧ s.settle.place 0 wCv = some (0, 1)) ∧
    (let s := wCs wPop
     NMap.get? s.settle.sched.ops 0 = some wPop ∧ s.settle.unblocked 0 wPop = true ∧ wPop.d.cls ≠ 9 ∧ s.settle.startCode wPop ≠ cOk) ∧
    (let s := wPeekS
     NMap.get? s.settle.sched.ops 0 = some wPeek ∧ s.settle.unblocked 0 wPeek = true ∧ wPeek.d.cls = 8 ∧ s.settle.startCode wPeek = cOk ∧
      s.settle.pagesReady wPeek = false ∧ (s.settle.wantPages wPeek).pagesReady wPeek = false) ∧
    (let e : OpEntry := { wCv with tensors := wCv.tensors.map (fun t => setFld t 272 48 0x50000), readyAt := some 0 }
     let s : State := { wCs wCv with sched := { ops := [(0, wCv), (1, e)], nextOp := 2 } }
     NMap.get? s.settle.sched.ops 1 = some e ∧ s.settle.unblocked 1 e = true ∧ s.settle.startCode e = cOk ∧
      (∃ f ∈ s.settle.earlier 1, s.settle.startable f.1 f.2 = true)) ∧
    (let e : OpEntry := { wCv with phase := .finished }
     NMap.get? (wCs e).sched.ops 0 = some e ∧ e.phase = .finished) ∧
    (let s := wCs wCv
     NMap.get? s.sched.ops 0 = some wCv ∧ s.mayReserve 0 wCv = true ∧ s.runFor 0 wCv = some ⟨0, 0, 1⟩) ∧
    (let s : State := { wCs wCv with sched := { (wCs wCv).sched with reservations := [⟨7, 0, 800⟩] } }
     NMap.get? s.sched.ops 0 = some wCv ∧ s.mayReserve 0 wCv = true ∧ s.runFor 0 wCv = none) := by decide +kernel

/-- Gather group 0 with `n` rows waiting. -/
def wG (n : Nat) : GatherQ := ⟨0, 0, 0, 0, 4, List.replicate n ⟨0, 0, 5⟩, 0⟩

/-- A stack of one frame of 4,096 bytes whose page 0 is in state `p`; region 1 backs it. -/
def wK (p : PageState) : State :=
  { wR with ctxs := {
      tab := [(0, { state := .open_, cached := true, loaded := true, regions := [wRegion 0 0x200000, wRegion 0x200000 0x200000 ||| (1 <<< 115)] })]
      stackTab := [(0, { frames := [⟨1, 1, false, 8, 4064, [], 0, 4096⟩], pages := [(0, ⟨p, 7, 0, 0⟩)] })] } }

theorem witness_GathererAndStackTransfers :
    (∀ n ∈ [1024, 1025], let s : State := { wR with sched := { gather := [(0, wG n)] } }
     NMap.get? s.sched.gather 0 = some (wG n) ∧ 1024 ≤ (wG n).rows.length) ∧
    (let s : State := { wR with sched := { gather := [(0, wG 256)] } }
     NMap.get? s.sched.gather 0 = some (wG 256) ∧ 256 ≤ (wG 256).rows.length ∧ (wG 256).rows = ⟨0, 0, 5⟩ :: List.replicate 255 ⟨0, 0, 5⟩ ∧ s.gatherD ≠ 0) ∧
    (let e : OpEntry := { wCv with overflowWait := true }; let s := wCs e
     NMap.get? s.sched.ops 0 = some e ∧ e.overflowWait = true ∧ s.gatherRoom e = true ∧ (∀ f ∈ s.earlier 0, f.2.overflowWait = false)) ∧
    (let p : StackPage := ⟨.spilling, 7, 0, 0⟩
     NMap.get? ((wK .spilling).stackOf 0).pages 0 = some p ∧ (wK .spilling).pageReplyLate 0 0 p .resident = none) ∧
    (let s := (wK .spilling).updCtx 0 (fun x => { x with gen := 1 }); let p : StackPage := ⟨.spilling, 7, 0, 0⟩
     NMap.get? (s.stackOf 0).pages 0 = some p ∧ (s.pageReplyLate 0 0 p .resident).isSome = true) ∧
    (let s0 := wK .fetching
     let s : State := { s0 with ctxs := { s0.ctxs with tab := s0.ctxs.tab.map (fun e => (e.1, { e.2 with
       regions := [wRegion 0 0x200000, wRegion hostBase 0x200000 ||| (1 <<< 115)] })) } }
     s.pageReplyLate 0 0 ⟨.fetching, 7, 0, 0⟩ .spilled = none ∧ (s.stackOf 0).pagePieces 0 = [0] ∧ (s.ctx 0).backing 0 = some (1, 0) ∧
      isHost (((s.ctx 0).region 1).base + 0) = true) ∧
    (let s := wK .fetching
     NMap.get? (s.stackOf 0).pages 0 = some ⟨.fetching, 7, 0, 0⟩ ∧ s.pageReplyLate 0 0 ⟨.fetching, 7, 0, 0⟩ .spilled = none ∧ (s.stackOf 0).pagePieces 0 = [0] ∧ (s.ctx 0).backing 0 = some (1, 0) ∧
      isHost (((s.ctx 0).region 1).base + 0) = false ∧ s.memsys.mem.badIn (((s.ctx 0).region 1).base + 0) 4096 = []) := by decide +kernel

/-- A check task of core 0. -/
def wTask : CheckTask := ⟨0, 0, 0, 0, [], 8, 0, 0, false, 0⟩

theorem witness_ChecksAndCapturesAreAttributed :
    (let s : State := { wR with sched := { checks := [(4, wTask)] } }
     NMap.get? s.sched.checks 4 = some wTask ∧ (∀ e ∈ s.sched.ops, e.2.runsOn (checkerOf wTask.core) = false)) ∧
    (let e : OpEntry := { wCv with phase := .started, coreFirst := checkerOf wTask.core, coreCount := 1 }
     let s : State := { wR with sched := { checks := [(4, wTask)], ops := [(0, e)] } }
     NMap.get? s.sched.checks 4 = some wTask ∧ ∃ e ∈ s.sched.ops, e.2.runsOn (checkerOf wTask.core) = true) ∧
    ((1 : DWord) ≠ 0 ∧ (0 : Nat) ≤ 1 ∧ (1 : Nat) ≤ 1 ∧ 1 < (2 : Nat)) ∧
    (wR.captureOutcome 0 false = 0 ∧ wR.captureOutcome 1 false = 1 ∧ wR.captureOutcome 1 true = 2) ∧
    (let k : Capture := { wCap with flushed := true }; let s : State := { wR with sched := { captures := [(0, k)] } }
     NMap.get? s.sched.captures 0 = some k ∧ s.captureDue k = true) := by decide +kernel

theorem witness_CoresRetire :
    (let s : State := { wC with cores := { wC.cores with due := [⟨0, 1, false⟩] } }
     s.cores.due.find? (fun d => d.core == 0) = some ⟨0, 1, false⟩ ∧ s.openSteps = [] ∧ s.sched.captures = [] ∧ (∀ e ∈ s.sched.ops, e.2.runsOn 0 = false) ∧
      s.sched.checks = [] ∧ s.cores.spares.find? (fun p => p / 52 == s.phys 0 / 52) = some 51) ∧
    (let s : State := { wC with cores := { wC.cores with due := [⟨799, 1, false⟩] } }
     s.cores.due.find? (fun d => d.core == 799) = some ⟨799, 1, false⟩ ∧ s.openSteps = [] ∧ s.sched.captures = [] ∧
      (∀ e ∈ s.sched.ops, e.2.runsOn 799 = false) ∧ s.sched.checks = [] ∧ s.cores.spares.find? (fun p => p / 52 == s.phys 799 / 52) = none) ∧
    (let s : State := { wC with cores := { wC.cores with reloading := [0] } }
     s.cores.reloading.contains 0 = true) := by decide +kernel

theorem witness_HangsAreContained :
    (∀ turn : Bool, let e : OpEntry := { wCv with phase := .started, turn := turn }; let s := wCs e
     NMap.get? s.sched.ops 0 = some e ∧ e.phase = .started ∧ e.d.cls ≠ 0x0A ∧ e.turn = turn ∧ s.sched.quarantine.culprit ≠ some e.ctx) ∧
    (let e : OpEntry := { wCv with phase := .finished, cycles := wR.watchBound { wCv with phase := .finished } + 1 }; let s := wCs e
     NMap.get? s.sched.ops 0 = some e ∧ e.phase = .finished ∧ s.watchBound e < e.cycles) ∧
    (let e : OpEntry := { wCv with phase := .started }
     let s : State := { wCs e with sched := { (wCs e).sched with quarantine := { culprit := some 0, culpritOpcode := 0x0600, cores := [5] } } }
     NMap.get? s.sched.ops 0 = some e ∧ e.turn = false ∧ s.sched.quarantine.culprit = some e.ctx ∧
      e.d.opcode = s.sched.quarantine.culpritOpcode.toNat ∧ s.sched.quarantine.cores ≠ []) ∧
    (let e : OpEntry := { wCv with phase := .started, waitSince := some 4 }; let s := wCs e
     NMap.get? s.sched.ops 0 = some e ∧ e.waitStart = some 4 ∧ e.unexcluded = false) ∧
    (let s : State := { wR with sched := { quarantine := { suspects := [0], hung := [3] } } }
     s.sched.quarantine.hung ≠ [] ∧ (∀ c ∈ s.sched.quarantine.suspects, (s.ctx c).state ≠ .resetting) ∧ s.sched.quarantine.suspects.contains 0 = true) ∧
    (let e : OpEntry := { wCv with stagedAt := some 2 }; let s := wCsAt hostBase e
     NMap.get? s.sched.ops 0 = some e ∧ e.stagedAt = some 2 ∧ e.phase = .checked ∧ s.stagedAll e = false ∧ (s.ctx e.ctx).state = .open_) := by
  decide +kernel

/-! ### Witnesses: contexts, host ports -/

/-- Host port 1 up, context 5 as given. -/
def wD (x : Ctx) : State := { wL (.host 1) (fun _ => kUp) with ctxs := { tab := [(5, x)], streams := [(9, ⟨5, true⟩)] } }
/-- An open context with queues 0 to 3 of 16 entries, the generation 2, and 3 records in its ring of 16. -/
def wCtx : Ctx := { state := .open_, gen := 2, loaded := true, crHead := 3, qhead := [0xFFFFFFF8, 0, 0, 0], qtail := [0xFFFFFFF8, 0, 0, 0]
                    desc := wPack [(240, 5, 4), (432, 5, 4), (437, 1, 1), (816, 5, 4), (821, 1, 1)] }
/-- A doorbell of kind `k` for context 5 with value `v`. -/
def wDb (gen k v : Nat) : BitVec 128 := wPack [(0, 20, 5), (24, 8, gen), (32, 3, k), (64, 32, v), (96, 18, 9)]

theorem witness_DoorbellsTakeEffect :
    (∀ kv ∈ [(0, 8), (3, 16), (3, 0)], let s := wD wCtx; let p := wDb 2 kv.1 kv.2; let k := fld p 32 3; let v := fld p 64 32
     s.doorbellOk 1 2 p [0, 1, 2, 3] = true ∧ (s.ctx 5).state = .open_ ∧ (2 : Byte) = (s.ctx 5).gen ∧ (s.ctx 5).qen k = true ∧
      idxBehind (nth (s.ctx 5).qtail k 0) v = false ∧ idxAhead (nth (s.ctx 5).qhead k 0) v ≤ 2 ^ (s.ctx 5).qlog2 k) ∧
    (∀ kv ∈ [(1, 1), (0, 0xFFFFFFF0), (3, 17)], let s := wD wCtx; let p := wDb 2 kv.1 kv.2; let k := fld p 32 3; let v := fld p 64 32; let x := s.ctx 5
     s.doorbellOk 1 2 p [0, 1, 2, 3] = true ∧ x.state = .open_ ∧ (2 : Byte) = x.gen ∧
      (x.qen k = false ∨ idxBehind (nth x.qtail k 0) v = true ∨ 2 ^ x.qlog2 k < idxAhead (nth x.qhead k 0) v)) ∧
    (let s := wD wCtx; let p := wDb 2 4 3; let v := fld p 64 32
     s.doorbellOk 1 2 p [4] = true ∧ (s.ctx 5).state = .open_ ∧ (2 : Byte) = (s.ctx 5).gen ∧ idxBehind (s.ctx 5).crTail v = false ∧
      idxAhead (s.ctx 5).crTail v ≤ (s.ctx 5).ringUsed ∧ (s.ctx 5).crBuffer = []) ∧
    (let s := wD wCtx; let p := wDb 2 5 0
     s.doorbellOk 1 2 p [5] = true ∧ (s.ctx 5).state = .open_ ∧ (2 : Byte) = (s.ctx 5).gen ∧
      NMap.get? s.ctxs.streams (fld p 96 18) = some ⟨5, true⟩ ∧ (s.runOf 5).openStep = none) ∧
    (∀ k < 6, let s := wD wCtx; let p := wDb 1 k 0
     s.doorbellOk 1 1 p (if k < 4 then [0, 1, 2, 3] else [k]) = true ∧ (s.ctx 5).state = .open_ ∧ (1 : Byte) ≠ (s.ctx 5).gen) ∧
    (∀ k < 6, let s := wD { wCtx with state := .resetting }; let p := wDb 2 k 0
     s.doorbellOk 1 2 p (if k < 4 then [0, 1, 2, 3] else [k]) = true ∧ (s.ctx 5).state = .resetting ∧ (2 : Byte) = (s.ctx 5).gen) := by
  decide +kernel

/-- Context 5 in a state, in a production module. -/
def wLife (x : CtxState) (r : Option CtxReq) : State :=
  { wR with fuses := { shadow := setFld 0 320 3 3 }, ctxs := { tab := [(5, { state := x, pend := r })] } }
def wCmd (k : Nat) : BitVec 32 := wPack [(0, 20, 5), (20, 4, k)]

theorem witness_ContextsChangeState :
    (∀ p ∈ [(1, CtxState.free), (2, .open_), (3, .open_), (3, .halted), (3, .resetting), (1, .releasing)], let s := wLife p.2 none; let v := wCmd p.1
     writesB s q1 0x7100 2 4 = true ∧ s.released = true ∧ fld v 24 8 = 0 ∧ cmdKind v = p.1 ∧ lcState s.fuses.shadow = 2 ∧ cmdCtx v = 5 ∧
      (s.ctx 5).state = p.2 ∧ (s.ctx 5).pend = none ∧ s.opsOf 5 = [] ∧ s.sched.quarantine.suspects.contains 5 = false ∧ (s.ctx 5).heldDoorbells = [] ∧
      (s.ctx 5).tagDue = false) ∧
    (let x : Ctx := { tagAt := some 3 }
     x.tagAt = some 3 ∧ 3 + tagGap ≤ 3 + tagGap ∧ 3 < 3 + tagGap) := by
  decide +kernel

/-- Context 5 with its region table in a host window. -/
def wLoad (x : Ctx) : State :=
  { wD { x with state := .open_, loading := true, desc := wPack [(0, 20, 5), (40, 12, 7), (64, 48, hostBase), (160, 16, noRun), (192, 48, 0x200000), (240, 5, 4)] }
    with links := { (wD {}).links with windows := [(0, 0x8100000000000000)] }, memsys := { keys := [(7, 1)] } }

/-- The transfer of a whole context descriptor for context 0. -/
def wTr : Transfer := ⟨0x7100, 1, 0, 0, 128, List.replicate 128 0, some 0, 0⟩

/-- A context cache with 16,384 entries, all of context 7; `ops` are running. -/
def wFull (ops : NMap OpEntry) : State :=
  { wR with ctxs := { tab := (5, { state := .open_, loading := true }) :: List.replicate 16384 (7, { state := .open_, cached := true }) }, sched := { ops := ops } }

theorem witness_ContextsAreLoaded_full :
    (let s := wFull [(0, { ctx := 7, desc := 0 })]
     s.cacheFull = true ∧ (s.ctx 5).state = .open_ ∧ (s.ctx 5).loading = true ∧ s.evictable.isEmpty = true) ∧
    (let s := wFull []
     s.cacheFull = true ∧ (s.ctx 5).state = .open_ ∧ (s.ctx 5).loading = true ∧ s.evictable.all (· == 7) = true ∧ s.evictable.isEmpty = false ∧
      (s.updCtx 7 (fun x => { x with cached := false })).cacheFull = false) := by decide +kernel

theorem witness_ContextsAreLoaded :
    (let s := wLoad { loaded := true }
     (s.ctx 5).state = .open_ ∧ (s.ctx 5).loading = true ∧ s.cacheFull = false ∧ (s.ctx 5).loaded = true ∧ s.entryBad 5 = []) ∧
    (let s : State := { wLoad {} with memsys := { mem := { bad := [(ctxTableAt + 128 * 5) / 256] } } }
     (s.ctx 5).state = .open_ ∧ (s.ctx 5).loading = true ∧ s.cacheFull = false ∧ s.entryBad 5 ≠ []) ∧
    (let s := wD { state := .open_, loading := true }
     (s.ctx 5).state = .open_ ∧ (s.ctx 5).loading = true ∧ s.cacheFull = false ∧ s.entryBad 5 = [] ∧ fld (s.ctx 5).desc 0 20 ≠ 5) ∧
    (let s : State := { wLoad {} with memsys := { mem := { bad := [grantMapAt / 256] } } }; let rs := [wRegion 0x200000 0x200000]
     s.entryBad 5 = [] ∧ s.grantsBad rs ≠ [] ∧ (s.hostRoute (s.ctx 5).rtAddr).toOption = some (1, 0)) ∧
    (∀ w : Bool, let s := wLoad {}; let x := s.ctx 5; let bs := leBytes 16 (if w then wRegion 0x200000 0x200000 else 1).toNat
     let rs : List RegionE := (List.range 64).map (fun i => BitVec.ofNat 128 (leAt bs (16 * i) 16))
     x.state = .open_ ∧ x.loading = true ∧ s.cacheFull = false ∧ x.loaded = false ∧ x.reservedZero = true ∧ fld x.desc 0 20 = 5 ∧ isHost x.rtAddr = true ∧
      x.rtAddr % 1024 = 0 ∧ (s.hostRoute x.rtAddr).toOption = some (1, 0) ∧ (s.loadCode 5 rs == cOk) = w ∧ s.entryBad 5 = [] ∧ s.grantsBad rs = []) ∧
    (let s : State := wR.updReq (.yalvo 0) (fun x => { x with transfer := some wTr })
     Ends s q1 0x7100 1 (sha512 wTr.got) wTr ∧ s.released = true ∧ wTr.offset = 0 ∧ wTr.got.length = 128 ∧ (s.ctx 0).state = .free ∧
      (∀ f ∈ roFields, fld (BitVec.ofNat 1024 (leAt wTr.got 0 128)) f.1 f.2 = fld (s.ctxWord 0) f.1 f.2)) ∧
    (let s : State := { wR with ctxs := { tab := [(5, { state := .open_, loaded := true, regions := [0, wRegion 0x200000 0x200000] })] } }
     let v : BitVec 32 := wPack [(0, 20, 5), (20, 6, 1)]; let c := fld v 0 20; let e := (s.ctx c).region (fld v 20 6)
     Writes s q1 0x7100 5 4 ∧ s.released = true ∧ (s.ctx c).state = .open_ ∧ (s.ctx c).loaded = true ∧ e.valid = true ∧ e.stk = false ∧
      e.w = true) :=
  ⟨by decide +kernel, by decide +kernel, by decide +kernel, by decide +kernel, by decide +kernel, ⟨ends_of (by decide +kernel), by decide +kernel⟩,
    ⟨writes_of (by decide +kernel), by decide +kernel⟩⟩

/-- A Yalvo packet of a class with a tag and data. -/
def wPk (cls tag gen : Nat) (bs : List Byte) : Packet := ⟨wPack [(0, 4, cls), (16, 12, tag), (32, 8, gen), (128, 13, bs.length)], bs⟩
/-- An outstanding READ of 64 bytes. -/
def wRd (f : ReadFor) : HostRead := ⟨1, 7, f, hostBase, 64, 0, 3⟩
def wReads (f : ReadFor) : State :=
  { wL (.host 1) (fun _ => kUp) with sched := { ops := [(0, wCv)], reads := [wRd f] } }

theorem witness_HostPortsCarryReads :
    (let s := wL (.host 1) (fun _ => kUp); let p := wPk 0 0 0 ([129, 1, 0, 0, 1, 46, 3].flatMap (leBytes 4 ·) ++ leBytes 4 0); let k := s.link (.host 1)
     (s.link (.host 1)).live = true ∧ p.cls = 0 ∧ (∀ c < 8, 1 ≤ c → (k.linkWord c (leAt p.data (4 * (c - 1)) 4)).2.2 = false)) ∧
    (let s := wReads (.op 0); let p := wPk 3 7 0 (List.replicate 64 0)
     s.hostUp 1 = true ∧ p.cls = 3 ∧ s.readOf 1 p.tag = some (wRd (.op 0)) ∧ NMap.get? s.sched.ops 0 = some wCv ∧ p.gen = wCv.gen.toNat ∧
      p.cstatus = 0 ∧ p.bytes_ = (wRd (.op 0)).bytes) ∧
    (let s := wReads (.op 0); let p : Packet := ⟨setFld (wPk 3 7 0 []).hdr 28 4 1, []⟩
     s.hostUp 1 = true ∧ p.cls = 3 ∧ s.readOf 1 p.tag = some (wRd (.op 0)) ∧ NMap.get? s.sched.ops 0 = some wCv ∧ p.gen = wCv.gen.toNat ∧
      p.cstatus ≠ 0) ∧
    (let s := wReads (.op 0); let p := wPk 3 7 0 [1]
     s.readOf 1 p.tag = some (wRd (.op 0)) ∧ p.gen = wCv.gen.toNat ∧ p.cstatus = 0 ∧ p.bytes_ ≠ (wRd (.op 0)).bytes) ∧
    (let s := wReads (.op 0); let p := wPk 3 7 1 []
     s.readOf 1 p.tag = some (wRd (.op 0)) ∧ p.gen ≠ wCv.gen.toNat) ∧
    (let s := wReads (.dropped 6)
     s.readOf 1 (wPk 3 7 0 []).tag = some (wRd (.dropped 6))) ∧
    (let s := wReads .expired
     s.readOf 1 (wPk 3 7 0 []).tag = some (wRd .expired)) ∧
    (let s := wReads (.op 4)
     s.readOf 1 7 = some (wRd (.op 4)) ∧ NMap.get? s.sched.ops 4 = none) ∧
    (let i : LinkItem := ⟨2, wPack [(16, 12, 7)], [], 3⟩; let s := wL (.host 1) (fun _ => { kUp with txq := [i] })
     (s.link (.host 1)).txq.find? (fun i => i.lane == 2 && fld i.hdr 16 12 == 7) = some i) ∧
    (let s := wL (.host 1) (fun _ => { kUp with violStamps := List.replicate 64 0 })
     (s.link (.host 1)).state = .up ∧ s.guardDue (.host 1) = true ∧ (∀ r ∈ s.sched.reads, r.port ≠ 1)) ∧
    (∀ lane ∈ [1, 3], let i : LinkItem := ⟨lane, 0, [], 3⟩; let s := wL .bridge (fun _ => { kUp with txq := [i] })
     (s.link .bridge).rx = [] ∧ i ∈ (s.link .bridge).txq ∧ 1 ≤ i.lane ∧ i.lane ≤ 3 ∧ s.sched.ops = [] ∧ (∀ x ∈ s.exch, x.closes = [])) := by decide +kernel

/-! ### Signatures: images and a token signed with the key 1 -/

/-- The key: the base point itself. -/
def wKey : List Byte := pointBytes g521
/-- A signature whose random point is the base point. -/
def wSig (s : Nat) : List Byte := beBytes 66 ((g521.getD (0, 0)).1 % n521) ++ beBytes 66 s

/-- The coordinates of the base point. -/
def gX : Nat := (g521.getD (0, 0)).1
def gY : Nat := (g521.getD (0, 0)).2
theorem g521_eq : g521 = some (gX, gY) := rfl

theorem ecdsa_of {s z w a b c d : Nat} {msg : List Byte} (hs : (sha512 msg).toNat = z)
    (h1 : (0 < s && s < n521 && invMod s n521 == w && beNat ((wSig s).drop 66) == s) = true) (h2 : Laws.mulOk (z * w % n521) gX gY a b = true)
    (h3 : Laws.mulOk (gX % n521 * w % n521) gX gY c d = true) (h4 : ptAdd (some (a, b)) (some (c, d)) = g521) :
    ecdsaOk wKey (wSig s) msg = true := by
  have e1 : pointOf wKey = some (gX, gY) := by decide +kernel
  have e2 : beNat ((wSig s).take 66) = gX % n521 := by
    have : (wSig s).take 66 = beBytes 66 (gX % n521) := by
      unfold wSig
      rw [List.take_append_of_le_length (by decide +kernel)]
      exact List.take_of_length_le (by decide +kernel)
    rw [this]
    decide +kernel
  have e3 : (wSig s).length = 132 := by simp [wSig, beBytes, leBytes_length]
  simp only [Bool.and_eq_true, decide_eq_true_eq, beq_iff_eq] at h1
  obtain ⟨⟨⟨p1, p2⟩, p3⟩, p4⟩ := h1
  have p5 : 0 < gX % n521 ∧ gX % n521 < n521 := by decide +kernel
  simp only [ecdsaOk, e1, e2, e3, p4, hs, p3]
  rw [if_pos (by simp [p1, p2, p5.1, p5.2]), g521_eq, Laws.ptMul_of h2, Laws.ptMul_of h3, h4, g521_eq]
  simp only [beq_self_eq_true]

theorem image_of {sh : BitVec 32768} {kind mx s : Nat} {img msg : List Byte} (h : ecdsaOk wKey (wSig s) msg = true)
    (hk : (sha512 wKey).toNat = beNat (leBytes 64 (fld sh 1608 512)))
    (h1 : (img.length < 512 || leAt img 0 4 != 0x4D59494D || leAt img 4 1 != kind || leAt img 5 1 != fld sh 424 8 || 64 < leAt img 6 1 ||
      leAt img 7 1 != 0 || mx - 512 < leAt img 8 8 || img.length < 512 + leAt img 8 8 || leAt img 213 167 != 0) = false)
    (h2 : (img.drop 80).take 133 = wKey) (h3 : (img.drop 380).take 132 = wSig s) (h4 : img.take 380 ++ (img.drop 512).take (leAt img 8 8) = msg)
    (h5 : ¬ leAt img 6 1 < (thermometer sh 360 64).getD 0) : imageCode sh kind mx img = cOk := by
  unfold imageCode
  simp only
  rw [if_neg (by rw [h1]; simp), h2, h3, h4, if_neg (by simp [h, hk]), if_neg h5]

/-- The first 380 bytes of an image of a kind, without a body. -/
def wImgHead (kind : Byte) : List Byte := leBytes 4 0x4D59494D ++ [kind, 0, 0, 0] ++ List.replicate 72 0 ++ wKey ++ List.replicate 167 0
/-- The first 168 bytes of a vendor token for any object, with nonce 9. -/
def wTokHead : List Byte := leBytes 2 0x4154 ++ [1, 3] ++ leBytes 2 0xFFFF ++ [0xFF, 0] ++ leBytes 8 0 ++ leBytes 16 9 ++ wKey ++ List.replicate 3 0

def fwS : Nat :=
  0xc6ccb6c64ac3d84023ac2ae7d97e20a4741ba155c400eebf61fb0c0d09f14ecaa98012273abaa10029cf79a185cecb69913bf57f3ad8253ff746e702e9dc9690c5
theorem fw_signed : ecdsaOk wKey (wSig fwS) (wImgHead 0) = true :=
  ecdsa_of (z := 0x4728bf93bfd356560dec1c735a8af0317f3cd48afbaf0a4002e35da986018ceedec6c8c2cab9a700d15be05e2bcbc0b308accb7952bafd5b4d6884b819b0d35f)
    (w := 0x18fcd6c79c88fbf88b7ba6cfbe7c9c2bdf9021287cbf9ac0bd8e053324cba8349996197c78a38b7981972442fdb6e9516add620a3a7388780415bff65b70f1727fa)
    (a := 0x57a407470296424c2d9cc40c33567294dd9daea381c0ef033a0fbe238e9024338451398fd5f20ac0bd38673b83f00079c200c2d9b8b786786cab423b90fc010095)
    (b := 0x6a90321103dbe47aa85292748033ff7ac83b0e2ca8156ae31d7e43abe5ee11997450b2e7049fca7487e79f994a10302750abf4c3c5e846072886366efb063c9ee3)
    (c := 0x1a05ffaccac8b3752a6d1c5158866ae1b673979ccf261daace041a336eeba89e2c41b22f1afdb7f0de8b22c2a9e8b72c4f16929034ea4788ef198c2a1e5b96cd947)
    (d := 0x113cd4002085050c097a0e223abccc296c9d073958ade5c1e8af7185a29e96cfb7b79bcbb0fb4d0a67cb0b5b79ec54f355fab4dfd3f5fe89fd3be8bc735f2d924cc)
    (by decide +kernel) (by decide +kernel) (by decide +kernel) (by decide +kernel) (by decide +kernel)

def cfgS : Nat :=
  0xc6ca9dbf758d317fa575d822134581e03d57a1021a6c87c20eb38594baa9969f7a9f588e19a1b3a47cd89cc724c6bb1f03be747322dcfdee04793551b3cdd7503a
theorem cfg_signed : ecdsaOk wKey (wSig cfgS) (wImgHead 1) = true :=
  ecdsa_of (z := 0x450fb8be892c95d7d79956ad21ec2bfabb3c80e167480cecbb5ce55a3e4961bffe0d2fa1b1cc4b53da7f05fd23bb76258b2bbf615793ab687fb6d3820af192d4)
    (w := 0xd4355515340f72f0f78ae849862028549401f0063c1a1a4c6da8558cd7c69c34f2644f38b50d0c7d8aa29770ac77d6d9f10362ffbe82c6e6a6c7b6b14742c4653b)
    (a := 0x636eb3575a0a89018d3a4a9a46ae7d46d71bfea527734ea8cdbf1e72efc30da22b7ca25b328c6ee685aa726e0c45c2048afd19d7daa9c6b38fb105b87730d7ded2)
    (b := 0x1eb4e429e7501bd4fc5fe7d72e2e198eb6a6a5edff508fd60728ef6de84a84f2067b58bdb638ccf511f9395eb6a92ed973846b169147f03c0715d86af9852cf88a9)
    (c := 0x6bd8ed6b22bf39c9b1bafab25d0866367d9b950ddda9ef6db07d0bbc47db8ef1b0f86985691104ded0f8b8f1f05b1dd807bc4065ae2f36e61aee0a61b7d0c6dfc1)
    (d := 0xd538a83f32c8ea62f7d663771ad677fc01256fc2f41c10696a97cc5c0929dda73c1b7ec38fae21ecdb4d997bae6e1b0f96096ca99f2c4f4dc8a96a6275885b13d5)
    (by decide +kernel) (by decide +kernel) (by decide +kernel) (by decide +kernel) (by decide +kernel)

def tokS : Nat :=
  0xc6b1a33bc59829df0add0940fd89c8f96950391d876e730edd9ba8a4ce8ecbd694c6bb2cb8ca2d2b3db4685f7c08ba4b09945b50bc9b5a8a9be9724ef759f5fb63
theorem tok_signed : ecdsaOk wKey (wSig tokS) (wTokHead) = true :=
  ecdsa_of (z := 0x2c15350e9424f53d3eca759766334526b3d49c4e693359bba37ff56e237e98da256fce40da45d214b64a9e5465baa22b61129cfb15f047ffeff3d0c597103dfd)
    (w := 0x1683ae6ca69338861dde5e8d69cd2a059df94a65fbc3fe7ec3a478810b59f60063c1a5ce204de0d01abfd66efe8a3a682b673062365af85a1a6a3a0bc707ce12c3e)
    (a := 0x13b9d6c8502b902dfca70708f4ed94b272c177fe0efe023da733ff025dfc967970b21a2017fe142c43d595be228a61d298d4cbaca0f21da88dabfab86d26b96cb74)
    (b := 0x1cd45ff41b4e576cf2e659c9123d84d564b9bf476413d43d8be9ebac060de67312af6b1b321cb3620a925f17a4944e254fd2045126a20cc1606c3ae17474e8d9ea3)
    (c := 0x4e099c27d2f4ac01fc656065484b893b5420d310d39708957bbbdd21d5c7c001f9bef74557095ac519415cd158d9f5444f5475a932903c53c57b45a0db8af4057f)
    (d := 0x53d0d375ff2c0ccd73556a3845e94dce2d34b482fdc58082edb514086bfb6b8bfea36477017a4fb12538a9d39dc259ac8e5fbb1931dbe7b5d296aa843ab8a338b9)
    (by decide +kernel) (by decide +kernel) (by decide +kernel) (by decide +kernel) (by decide +kernel)

def wFw : List Byte := wImgHead 0 ++ wSig fwS
def wCfg : List Byte := wImgHead 1 ++ wSig cfgS
def wTok : List Byte := wTokHead ++ wSig tokS

/-- Fuses that hold the hash of the key as the vendor's; the device is provisioned. -/
def wFuses : BitVec 32768 := setFld (setFld 0 1608 512 0xadf225851e15dd6be877397e5f3eb3aacef8dbdb728e23bdfcf8d13de59836ac80865e0012fc5aeeefaac21c66222fd4375bf6747f73babaf48ce9c06a67b927) 320 3 1
theorem key_hash : (sha512 wKey).toNat = beNat (leBytes 64 (fld wFuses 1608 512)) := by decide +kernel

theorem wFw_ok : imageCode wFuses 0 fwMax wFw = cOk :=
  image_of fw_signed key_hash (by decide +kernel) (by decide +kernel) (by decide +kernel) (by decide +kernel) (by decide +kernel)
theorem wCfg_ok : imageCode wFuses 1 cfgMax wCfg = cOk :=
  image_of cfg_signed key_hash (by decide +kernel) (by decide +kernel) (by decide +kernel) (by decide +kernel) (by decide +kernel)

/-! ### Witnesses: the field network and the object dictionary -/

/-- A message of the dictionary without payload. -/
def wMsg (op seq index sub : Nat) : List Byte := leBytes 1 1 ++ leBytes 1 op ++ leBytes 2 seq ++ leBytes 2 index ++ leBytes 1 sub ++ List.replicate 9 0
/-- A requester of the field network. -/
def q2 : Req := ⟨.field 1 2, 3⟩
/-- `wR` with the vigil changed. -/
def wV (f : Vigil → Vigil) : State := { wR with vigil := f wR.vigil }

theorem witness_FieldNetworkAnswers :
    (∀ g < 2, let s := wV (fun v => { v with fieldState := g })
     s.answers (.field 1 2) = true ∧ messageFault (wMsg 9 0 0 0) = some (some cProtoOperation) ∧ messageFault [1] = some none ∧ s.vigil.fieldState = g) ∧
    (let bs := wMsg 1 3 0x1000 1
     messageFault bs = none ∧ leAt bs 1 1 = 1 ∧ q2.seq = BitVec.ofNat 16 (leAt bs 2 2) ∧ 0x1000 = leAt bs 4 2 ∧ 1 = leAt bs 6 1 ∧ bs.drop 16 = [] ∧
      Fresh wR q2 1 0x1000 1) ∧
    (let s := wV (fun v => { v with fieldViolStamps := List.replicate 64 0 })
     s.vigil.fieldState = 0 ∧ 64 ≤ (recent s.now Config.msCycles s.vigil.fieldViolStamps).length) ∧
    (let s := wV (fun v => { v with fieldState := 1 })
     s.vigil.fieldState = 1 ∧ q1.who = .yalvo 0 ∧ Writes s q1 0x1100 6 1) ∧
    wR.answers (.field 0 0) = true ∧
    (∃ x ∈ (wR.updReq (.yalvo 1) id).vigil.requesters, x.who = .yalvo 1) :=
  ⟨by decide +kernel, ⟨by decide +kernel, by decide +kernel, by decide +kernel, by decide +kernel, by decide +kernel, by decide +kernel,
    fresh_of (by decide +kernel)⟩, by decide +kernel, ⟨by decide +kernel, by decide +kernel, writes_of (by decide +kernel)⟩, by decide +kernel,
    by decide +kernel⟩

theorem witness_RepeatedRequestsAreNotExecuted :
    (let s := wR.updReq (.yalvo 0) (fun x => { x with kept := [answerOf q1 2 0 0 cOk []] })
     s.answers q1.who = true ∧ (((s.opened q1).reqOf q1.who).kept.find? (fun r => r.seq == q1.seq)).isSome = true) ∧
    (let s := wR.updReq (.yalvo 0) (fun x => { x with deferred := [1] })
     s.answers q1.who = true ∧ ((s.opened q1).reqOf q1.who).kept.find? (fun r => r.seq == q1.seq) = none ∧ q1.seq ∈ ((s.opened q1).reqOf q1.who).deferred) ∧
    (let s := wR.updReq (.yalvo 0) (fun x => { x with deferred := [2, 3, 4, 5, 6, 7, 8, 9] })
     s.answers q1.who = true ∧ ((s.opened q1).reqOf q1.who).kept.find? (fun r => r.seq == q1.seq) = none ∧ q1.seq ∉ ((s.opened q1).reqOf q1.who).deferred ∧
      8 ≤ ((s.opened q1).reqOf q1.who).deferred.length) ∧
    (let s := wR.updReq (.yalvo 0) (fun x => { x with deferred := [2, 3, 4, 5, 6, 7, 8] })
     s.answers q1.who = true ∧ Fresh s q1 2 0x2000 3) :=
  ⟨by decide +kernel, by decide +kernel, by decide +kernel, by decide +kernel, fresh_of (by decide +kernel)⟩

/-- Requester `yalvo 0` with its state changed, in a provisioned module whose fuses hold the test key as the vendor's. -/
def wReq (f : ReqState → ReqState) : State := ({ wR with fuses := { bits := wFuses, shadow := wFuses } } : State).updReq (.yalvo 0) f
/-- A transfer of the given bytes to an object. -/
def wXfer (index sub run : Nat) (got : List Byte) : Transfer := ⟨BitVec.ofNat 16 index, BitVec.ofNat 8 sub, run, 0, got.length, got, none, 0⟩

theorem tokenCode_of {s : State} {x : ReqState} {n : Nonce} {tok : List Byte} (hn : x.nonce = some n)
    (h1 : (n.used || n.issuedAt + 60 * Config.sCycles < s.now || leAt tok 16 16 != n.value.toNat) = false) (h0 : tok.length = 300)
    (h2 : (leAt tok 0 2 != 0x4154 || leAt tok 2 1 != 1 || leAt tok 7 1 != 0 || leAt tok 165 3 != 0 || leAt tok 8 8 != s.serial) = false)
    (h3 : (tok.drop 32).take 133 = wKey) (h4 : leAt tok 3 1 = 3) (h5 : beNat (digestBytes (sha512 wKey)) = beNat (leBytes 64 (fld s.fuses.shadow 1608 512)))
    (h6 : ecdsaOk wKey ((tok.drop 168).take 132) (tok.take 168) = true) : s.tokenCode x tok = cOk := by
  unfold State.tokenCode
  simp only [hn, h0, h3, h4, h6, h5]
  rw [if_neg (by simp), if_neg (by rw [h1]; simp), if_neg (by rw [h2]; simp), if_neg (by simp)]
  simp

theorem witness_TransfersAndTokens :
    (let s := wReq (fun x => { x with runSelect := 0 }); let u := s.opened q1
     Fresh s q1 4 0x7000 2 ∧ ∃ o, objInfo 0x7000 2 = some o ∧ o.wr = true ∧ o.domain = true ∧ u.mayWrite q1.who 0x7000 2 o.level = true ∧
      0 + 16 ≤ o.size ∧ 0 % o.granule = 0 ∧ 16 % o.granule = 0 ∧ (∀ r ∈ u.vigil.requesters, r.who ≠ q1.who → r.transfer = none) ∧
      runScoped 0x7000 = false ∧ (u.selected q1.who).isSome = true) ∧
    (let tr : Transfer := { wXfer 0x7000 2 0 [5, 6] with total := 16 }; let s := wReq (fun x => { x with transfer := some tr })
     Fresh s q1 5 0x7000 2 ∧ Fresh s q1 7 0x7000 2 ∧ ((s.opened q1).reqOf q1.who).transfer = some tr ∧ tr.index = 0x7000 ∧ tr.sub = 2 ∧
      tr.offset + tr.got.length = 2 ∧ tr.got.length + (List.replicate 14 (0 : Byte)).length ≤ tr.total ∧ (s.reqOf (.yalvo 0)).transfer = some tr) ∧
    Fresh wR q1 3 0x1200 3 ∧
    (let s := wReq (fun x => { x with nonce := some ⟨9, 0, false⟩ }); let u := s.opened q1
     Fresh s q1 8 0 0 ∧ u.tokenCode (u.reqOf q1.who) wTok = cOk ∧ u.tokenCode (u.reqOf q1.who) [] ≠ cOk) ∧
    (let e : Elevation := ⟨2, 0x1200, 2, 0, false⟩; let s := wReq (fun x => { x with elevation := some e })
     (s.reqOf (.yalvo 0)).elevation = some e ∧ e.inTransfer = false) := by
  refine ⟨⟨fresh_of (by decide +kernel), (objInfo 0x7000 2).getD { size := 0 }, by decide +kernel⟩,
    ⟨fresh_of (by decide +kernel), fresh_of (by decide +kernel), by decide +kernel⟩, fresh_of (by decide +kernel),
    ⟨fresh_of (by decide +kernel), ?_, by decide +kernel⟩, by decide +kernel⟩
  refine tokenCode_of (n := ⟨9, 0, false⟩) (by decide +kernel) (by decide +kernel) (by decide +kernel) (by decide +kernel) (by decide +kernel)
    (by decide +kernel) (by decide +kernel) ?_
  have a : (wTok.drop 168).take 132 = wSig tokS := by decide +kernel
  have b : wTok.take 168 = wTokHead := by decide +kernel
  rw [a, b]
  exact tok_signed

/-- Run 0 open without an open step, in a production module; requester `yalvo 0` has selected it and has the transfer given. -/
def wObj (open_ : Bool) (index sub : Nat) (got : List Byte) : State :=
  let s := wT (fun r => { r with openStep := none, state := if open_ then .open_ else .closed })
  ({ s with fuses := { shadow := setFld 0 320 3 3 } } : State).updReq (.yalvo 0) (fun x => { x with runSelect := 0, transfer := some (wXfer index sub 0 got) })

/-- One entry with the fields given. -/
def wEntry (n : Nat) (l : List (Nat × Nat × Nat)) : List Byte := leBytes n (wPack (w := 1024) l).toNat

/-- The hypothesis `Ends` of such a state. -/
theorem ends_obj {o : Bool} {i sub : Nat} {got : List Byte} (h : endsB (wObj o i sub got) q1 i sub (wXfer i sub 0 got) = true) :
    Ends (wObj o i sub got) q1 i sub (sha512 got) (wXfer i sub 0 got) := ends_of h

theorem witness_ObjectsAndRunsAreWritten :
    (ownRow 0x2000 3 = false ∧ Writes wR q1 0x2000 3 (leBytes 2 400).length) ∧
    (∀ v ∈ [400, 800], Writes wR q1 0x2000 3 2 ∧ 400 ≤ v ∧ v + 40 ≤ wR.store.tempStop.toNat ∧ v ≤ 880) ∧
    (let got := wEntry 8 [(0, 32, 9), (42, 1, 1), (63, 1, 1)]
     Ends (wObj true 0x7200 3 got) q1 0x7200 3 (sha512 got) (wXfer 0x7200 3 0 got) ) ∧
    (let got := wEntry 16 [(0, 18, 5), (18, 19, 1), (55, 19, 1), (127, 1, 1)]; let s := wObj true 0x7000 2 got
     Ends s q1 0x7000 2 (sha512 got) (wXfer 0x7000 2 0 got) ∧
      (∀ e ∈ entriesOf 16 (wXfer 0x7000 2 0 got), (s.forEnd q1).groupOk (BitVec.ofNat 128 e.2) = true)) ∧
    (let got := wEntry 16 [(0, 18, 5), (127, 1, 1)]; let s := wObj true 0x7000 2 got
     Ends s q1 0x7000 2 (sha512 got) (wXfer 0x7000 2 0 got) ∧
      (∃ e ∈ entriesOf 16 (wXfer 0x7000 2 0 got), (s.forEnd q1).groupOk (BitVec.ofNat 128 e.2) = false)) ∧
    (let got := wEntry 8 [(32, 16, 0), (50, 1, 1), (63, 1, 1)]; let s := wObj true 0x7002 2 got
     Ends s q1 0x7002 2 (sha512 got) (wXfer 0x7002 2 0 got) ∧
      (∀ e ∈ entriesOf 8 (wXfer 0x7002 2 0 got), ¬(bitsOf e.2 63 1 = 1 ∧ (s.groupE (bitsOf e.2 32 16)).valid = true ∧
        (s.groupE (bitsOf e.2 32 16)).size = 1))) ∧
    (let got := wEntry 8 [(20, 6, 1), (26, 6, 2), (63, 1, 1)]; let s := wObj true 0x7002 5 got
     let r : Run := { s.run 0 with bankPairs := setEntries (s.run 0).bankPairs (unreserved [(0, 32), (63, 1)] (entriesOf 8 (wXfer 0x7002 5 0 got))) }
     let size (c k : Nat) : Nat := if ((s.ctx c).region k).valid then ((s.ctx c).region k).size else 0
     Ends s q1 0x7002 5 (sha512 got) (wXfer 0x7002 5 0 got) ∧
      (∀ e ∈ entriesOf 8 (wXfer 0x7002 5 0 got), let p : BankPair := BitVec.ofNat 64 e.2
        (p.valid = true ∧ (r.pairsOf p.ctx).length ≤ 32 ∧ size p.ctx p.set0 = size p.ctx p.set1))) ∧
    (let got := wEntry 128 []; let s := wObj true 0x7002 6 got
     Ends s q1 0x7002 6 (sha512 got) (wXfer 0x7002 6 0 got) ∧ (s.run 0).openStep = none ∧
      (let l := setEntries (s.run 0).stateTensors (entriesOf 128 (wXfer 0x7002 6 0 got))
       ∀ e ∈ entriesOf 128 (wXfer 0x7002 6 0 got), ({ s.run 0 with stateTensors := l } : Run).stateOk (BitVec.ofNat 1024 e.2) = true)) ∧
    (let got := wEntry 8 [(12, 44, 2 ^ 44 - 2 ^ 25), (63, 1, 1)]; let s := wObj true 0x5130 0x28 got
     Ends s q1 0x5130 0x28 (sha512 got) (wXfer 0x5130 0x28 0 got) ∧
      (∀ e ∈ entriesOf 8 (wXfer 0x5130 0x28 0 got), bitsOf e.2 58 5 = 0 ∧ bitsOf e.2 0 12 = 0 ∧ bitsOf e.2 0 56 + 2 ^ 37 ≤ 2 ^ 56 ∧
        s.windowUsed e.1 = false)) ∧
    (let got := wEntry 16 [(0, 48, hostBase), (48, 5, 20), (63, 1, 1)]; let s := wObj true 0x5130 0x29 got
     Ends s q1 0x5130 0x29 (sha512 got) (wXfer 0x5130 0x29 0 got) ∧
      (∀ e ∈ entriesOf 16 (wXfer 0x5130 0x29 0 got), (bitsOf e.2 63 1 = 1 ∧ isHost (bitsOf e.2 0 48) = true ∧ bitsOf e.2 0 12 = 0 ∧
        4 ≤ bitsOf e.2 48 5 ∧ bitsOf e.2 48 5 ≤ 20))) ∧
    (let got := wEntry 256 [(0, 16, 0x414C), (16, 8, 1)]; let s := wObj true 0x7001 5 got
     Ends s q1 0x7001 5 (sha512 got) (wXfer 0x7001 5 0 got) ∧ almFraming (fitBytes 0 (((s.run 0).refAlmanac).getD []) ++ got) = true) ∧
    (let got := wEntry 16 [(0, 16, 3), (64, 40, 8)]; let s := wObj true 0x7003 4 got
     Ends s q1 0x7003 4 (sha512 got) (wXfer 0x7003 4 0 got) ∧ (s.run 0).isOpen = true ∧ (s.run 0).openStep = none ∧
      (∃ es, almEntries 3 (got.length / 16 + 1) got = some es ∧
        (∀ e ∈ es, if e.etype = 3 then (s.run 0).lastCommitted < e.estep else e.estep = (s.run 0).lastCommitted))) ∧
    (let got := wEntry 128 [(192, 21, 1), (220, 8, 1)]; let s := wObj false 0x7001 1 got
     Ends s q1 0x7001 1 (sha512 got) (wXfer 0x7001 1 0 got) ∧ (s.forEnd q1).openCode 0 (BitVec.ofNat 1024 (leNat got)) = cOk) ∧
    (let s := wObj true 0 0 []
     (s.forWrite q1).selected q1.who = some 0 ∧ (s.run 0).isOpen = true ∧ (s.run 0).openStep = none ∧ Writes s q1 0x7001 2 1 ∧ Writes s q1 0x7003 1 1) ∧
    (let s := ((wT id).updReq (.yalvo 0) (fun x => { x with runSelect := 0 }))
     (s.forWrite q1).selected q1.who = some 0 ∧ (s.run 0).isOpen = true ∧ (s.run 0).openStep.isSome = true ∧ Writes s q1 0x7003 1 1) := by
  refine ⟨⟨by decide +kernel, writes_of (by decide +kernel)⟩, fun v hv => ⟨writes_of (by decide +kernel), ?_⟩,
    ends_obj (by decide +kernel), ⟨ends_obj (by decide +kernel), by decide +kernel⟩, ⟨ends_obj (by decide +kernel), by decide +kernel⟩, ⟨ends_obj (by decide +kernel), by decide +kernel⟩,
    ⟨ends_obj (by decide +kernel), by decide +kernel⟩, ⟨ends_obj (by decide +kernel), by decide +kernel⟩, ⟨ends_obj (by decide +kernel), by decide +kernel⟩,
    ⟨ends_obj (by decide +kernel), by decide +kernel⟩, ⟨ends_obj (by decide +kernel), by decide +kernel⟩,
    ⟨ends_obj (by decide +kernel), by decide +kernel, by decide +kernel, [⟨3, 8, []⟩], by decide +kernel⟩,
    ⟨ends_obj (by decide +kernel), by decide +kernel⟩,
    ⟨by decide +kernel, by decide +kernel, by decide +kernel, writes_of (by decide +kernel), writes_of (by decide +kernel)⟩,
    ⟨by decide +kernel, by decide +kernel, by decide +kernel, writes_of (by decide +kernel)⟩⟩
  revert v
  decide +kernel

/-- A device in a life-cycle state: `dev` and `svc` are the fuses of Table 15.2; `lvl` elevates the requester. -/
def wLc (dev svc fleet lvl : Nat) : State :=
  let f : BitVec 32768 := setFld (setFld (setFld 0 320 3 (2 ^ dev - 1)) 328 32 (2 ^ svc - 1)) 2120 512 fleet
  ({ wR with fuses := { bits := f, shadow := f } } : State).updReq (.yalvo 0) (fun x => { x with elevation := some ⟨lvl, 0x1200, 2, 0, false⟩ })

/-- As `wObj`, with the test fuses and the requester elevated to `Vendor` for every object. -/
def wKeys (index sub : Nat) (got : List Byte) : State :=
  ({ wR with fuses := { bits := wFuses, shadow := wFuses }, boot := { wR.boot with keysDerived := true } } : State).updReq (.yalvo 0)
    (fun x => { x with elevation := some ⟨3, 0xFFFF, 0xFF, 0, true⟩, transfer := some (wXfer index sub 0 got) })

theorem ends_keys {i sub : Nat} {got : List Byte} (h : endsB (wKeys i sub got) q1 i sub (wXfer i sub 0 got) = true) :
    Ends (wKeys i sub got) q1 i sub (sha512 got) (wXfer i sub 0 got) := ends_of h

/-- `lc = 0` also asks for `certOk`, whose certificate fields are free values (log entry 15): no closed state can show it. -/
theorem witness_LifeCycleKeysAndImages :
    (∀ p ∈ [(0, 0, 0, 3), (1, 0, 1, 2), (2, 1, 0, 3), (2, 0, 0, 3), (2, 0, 0, 2)], let s := wLc p.1 p.2.1 p.2.2.1 p.2.2.2
     writesB s q1 0x1200 2 1 = true ∧ s.released = true ∧ (∀ e ∈ s.ctxs.tab, e.2.state = .free) ∧ s.dump.wanted = none ∧
      lcState s.fuses.shadow = p.1 + p.2.1 ∧ s.mayWrite q1.who 0x1200 2 p.2.2.2 = true ∧ fld s.fuses.shadow 2120 512 = p.2.2.1 ∧
      (thermometer s.fuses.shadow 328 32).getD 0 = p.2.1) ∧
    (Ends (wKeys 0x1200 7 wKey) q1 0x1200 7 (sha512 wKey) (wXfer 0x1200 7 0 wKey) ∧ (pointOf wKey).isSome = true ∧ fld wFuses 2120 512 = 0) ∧
    (let got := List.replicate 256 (0 : Byte); let s := wKeys 0x1200 8 got
     Ends s q1 0x1200 8 (sha512 got) (wXfer 0x1200 8 0 got) ∧ s.boot.keysDerived = true ∧
      ((s.forEnd q1).keyRecords 1 (chunks 256 4096 got)).toOption = some []) ∧
    (let got := List.replicate 32 (7 : Byte); let s := wKeys 0x1200 4 got
     Ends s q1 0x1200 4 (sha512 got) (wXfer 0x1200 4 0 got) ∧ lcState s.fuses.shadow = 1 ∧ s.released = true) ∧
    (Ends (wKeys 0x1300 6 wFw) q1 0x1300 6 (sha512 wFw) (wXfer 0x1300 6 0 wFw) ∧ (wKeys 0x1300 6 wFw).released = true ∧
      imageCode wFuses 0 fwMax (overlay [] 0 wFw) = cOk) ∧
    (Ends (wKeys 0x1300 7 wCfg) q1 0x1300 7 (sha512 wCfg) (wXfer 0x1300 7 0 wCfg) ∧ (wKeys 0x1300 7 wCfg).released = true ∧
      imageCode wFuses 1 cfgMax (overlay [] 0 wCfg) = cOk) ∧
    (∀ v ∈ [1, 4095], writesB (wKeys 0 0 []) q1 0x1200 9 2 = true ∧ BitVec.ofNat 16 v ≠ 0 ∧ (BitVec.ofNat 16 v).toNat < 4096 ∧
      (wKeys 0 0 []).slotInUse (BitVec.ofNat 16 v).toNat = false) := by
  refine ⟨by decide +kernel, ⟨ends_keys (by decide +kernel), by decide +kernel, by decide +kernel⟩, ⟨ends_keys (by decide +kernel), by decide +kernel⟩,
    ⟨ends_keys (by decide +kernel), by decide +kernel⟩, ⟨ends_keys (by decide +kernel), by decide +kernel, ?_⟩,
    ⟨ends_keys (by decide +kernel), by decide +kernel, ?_⟩, by decide +kernel⟩
  · have e : overlay [] 0 wFw = wFw := by decide +kernel
    rw [e]; exact wFw_ok
  · have e : overlay [] 0 wCfg = wCfg := by decide +kernel
    rw [e]; exact wCfg_ok

/-- A slot whose images pass every check. -/
def wSlot : FlashSlot := { status := 1, firmware := wFw, config := wCfg, fwDone := true, cfgDone := true }

/-- The remaining clause of StartUpStagesFollowInOrder. -/
theorem witness_BootImage :
    (let s : State := { wS .bootImage with fuses := { bits := wFuses, shadow := wFuses }, flash := { slotA := wSlot } }
     s.boot.powered = true ∧ s.boot.stage = .bootImage ∧ s.store.bootSlot = 0 ∧ s.fuses.shadow = wFuses ∧ s.flash.slot 0 = wSlot) ∧
    slotCheck wFuses wSlot = cOk := by
  refine ⟨⟨rfl, rfl, by decide +kernel, rfl, rfl⟩, ?_⟩
  have a : imageCode wFuses 0 fwMax wSlot.firmware = cOk := wFw_ok
  have b : imageCode wFuses 1 cfgMax wSlot.config = cOk := wCfg_ok
  unfold slotCheck
  simp only [a, b]
  decide

/-! ### Witnesses: operators' bodies -/

/-- A started operator with 6 inputs and 2 outputs of 4 by 2 binary32 elements, on core 0. -/
def wBody (oc : Nat) : OpEntry := wOp oc [(168, 4, 6), (172, 3, 2), (384, 40, 4)] (List.replicate 8 (fmtB32, 4, 2))
/-- Operator 0 is `e`; region 0 of its context lies at `a`. -/
def wBs (a : Nat) (e : OpEntry) : State := { wCsAt a e with cores := {} }

/-- `Clean`, decided. -/
theorem clean_of {s : State} {e : OpEntry} {v : OpEnv} {b : Body}
    (h : (v.accessFault.isNone && (v.lineErrors.filter (fun x => lineLost x.line x.symbols)).isEmpty && (s.badLinesOf e v).isEmpty && (e.ownTiles v).isEmpty && (e.ownFaults v).isEmpty &&
      (s.badWrites e.ctx b.writes v.lineFaults).isEmpty) = true) : Clean s e v b := by
  simp only [Bool.and_eq_true, Option.isNone_iff_eq_none, List.isEmpty_iff] at h
  exact ⟨h.1.1.1.1.1, by rw [h.1.1.1.1.2]; rfl, h.1.1.1.2, h.1.1.2, h.1.2, h.2⟩

/-- The bodies whose result depends on their tensors alone. -/
def wBodies : List (Nat × (MathCtx → Body)) :=
  [(0x0100, arrBody), (0x0101, arrBody), (0x0102, arrBody), (0x0103, arrBody), (0x0108, arrBody), (0x0109, arrBody), (0x010A, arrBody),
   (0x0200, attnFwdBody), (0x0201, attnBwdBody), (0x0300, customBody), (0x0301, libBody), (0x0302, libBody), (0x0303, libBody), (0x0304, libBody),
   (0x0305, libBody), (0x0400, rowBody), (0x0401, rowBody), (0x0402, rowBody), (0x0403, rowBody), (0x0404, rowBody), (0x0405, rowBody),
   (0x0406, reduceSumBody), (0x0407, rowBody), (0x0408, rowBody), (0x0409, rowBody), (0x0500, adamBody)] ++
  [(0x0600, cvtBody), (0x0601, cvtBody), (0x0602, cvtBody), (0x0603, cvtBody), (0x0700, copyBody), (0x0701, gatherBody), (0x0702, scatterBody),
   (0x0703, scatterAddBody), (0x0704, permuteBody), (0x0705, transposeBody)]

/-- For the first clause the writes find their routes; for the second their region lies in a host window that is not valid. -/
theorem witness_BodiesStoreTheirResults :
    (∀ p ∈ wBodies, (wBs 0 (wBody p.1)).bodyDue 0 p.1 = some (wBody p.1) ∧
      Clean (wBs 0 (wBody p.1)) (wBody p.1) OpEnv.quiet (p.2 ((wBs 0 (wBody p.1)).mathCtx (wBody p.1)))) ∧
    (∀ p ∈ wBodies, ∃ u, (wBs 0 (wBody p.1)).planeWrites 0 (p.2 ((wBs 0 (wBody p.1)).mathCtx (wBody p.1))).writes = .ok u) ∧
    (let e := wBody 0x0700; let s := wBs hostBase e
     s.bodyDue 0 0x0700 = some e ∧ Clean s e OpEnv.quiet (copyBody (s.mathCtx e)) ∧ (s.planeWrites 0 (copyBody (s.mathCtx e)).writes).toOption.isSome = false) := by
  refine ⟨?_, ?_, by decide +kernel, clean_of (by decide +kernel), by decide +kernel⟩
  · have h : wBodies.all (fun p => let e := wBody p.1; let s := wBs 0 e
        s.bodyDue 0 p.1 == some e && (s.badLinesOf e OpEnv.quiet).isEmpty && (e.ownTiles OpEnv.quiet).isEmpty && (e.ownFaults OpEnv.quiet).isEmpty &&
        (s.badWrites 0 (p.2 (s.mathCtx e)).writes []).isEmpty) = true := by
      decide +kernel
    intro p hp
    have := List.all_eq_true.1 h p hp
    simp only [Bool.and_eq_true, beq_iff_eq] at this
    refine ⟨this.1.1.1.1, clean_of ?_⟩
    simp only [Bool.and_eq_true]
    exact ⟨⟨⟨⟨⟨rfl, rfl⟩, this.1.1.1.2⟩, this.1.1.2⟩, this.1.2⟩, this.2⟩
  · have h : wBodies.all (fun p => ((wBs 0 (wBody p.1)).planeWrites 0 (p.2 ((wBs 0 (wBody p.1)).mathCtx (wBody p.1))).writes).toOption.isSome) = true := by
      decide +kernel
    exact fun p hp => ok_of (List.all_eq_true.1 h p hp)

/-- A context with a stack of 4 MiB behind region 1, and one frame of 32 bytes over a floor of 0. -/
def wStk (e : OpEntry) : State :=
  let s := wBs 0 e
  { s with ctxs := {
      tab := [(0, { state := .open_, cached := true, loaded := true, regions := [wRegion 0 0x200000, wRegion 0x200000 0x400000 ||| (1 <<< 115)] })]
      stackTab := [(0, { frames := [⟨0, BitVec.ofNat 8 fmtB32, false, noStep, 32, [4, 2, 1, 1, 1, 1], 0, 4096⟩], pages := [(0, ⟨.resident, 7, 0, 0⟩)] })] } }

def wStkOp (oc nIn nOut : Nat) : OpEntry := wOp oc [(168, 4, nIn), (172, 3, nOut)] (List.replicate (nIn + nOut) (fmtB32, 4, 2))

/-- The hypotheses on a stack operator. -/
def stackB (oc nIn nOut : Nat) : Bool :=
  let e := wStkOp oc nIn nOut
  let s := wStk e
  s.stackCode e == cOk && s.bodyDue 0 oc == some e && (s.badLinesOf e OpEnv.quiet).isEmpty &&
    (oc == 0x0800 || oc == 0x0803 || ((s.popFrame e).isSome && (s.badWrites 0 (s.popMk e (s.mathCtx e)).writes []).isEmpty && (s.planeWrites 0 (s.popMk e (s.mathCtx e)).writes).toOption.isSome))

/-- A scale operator with its estimates and their maximum known. -/
def wScale (oc : Nat) : OpEntry := { wBody oc with lnew := [3], scaleMax := some 3 }

/-- In a replay of run 0 whose reference holds step 8 as a calibration step, with one record of tensor 0. -/
def wReplay (s : State) : State :=
  s.updRun 0 (fun r => { r with
      rec_ := wPack [(228, 1, 1)]
      refAlmanac := some (List.replicate 256 0 ++ (AlmEntry.bytes ⟨4, 8, leBytes 128 (2 ^ 44)⟩) ++ (calibEntry 8 false [⟨wPack [(96, 32, 1)], [5]⟩]).bytes) })

/-- The first event of a scale operator: it gives its estimate and waits for the maximum of the group. -/
def scaleFirstB (oc : Nat) (est : MathCtx → List Int) : Bool :=
  let e := wBody oc
  let s := wBs 0 e
  let l := est (s.mathCtx e)
  let v := s.updOp 0 (fun e => { e with lnew := l })
  let u := v.contribute { v.runKey (v.ctx e.ctx).runSlot 3 (BitVec.ofNat 32 (nth e.ts e.d.nIn 0 : TDesc).tid) with group := e.scaleGroup }
    [BitVec.ofInt 64 (l.foldl max noObs + 2 ^ 15)]
  s.bodyDue 0 oc == some e && (s.recordedScale e).isNone && e.lnew.isEmpty && (match u.bodyDue 0 oc with
    | some f => f.scaleMax.isNone
    | none => false)

theorem witness_StackScaleAndKnownAnswerRun :
    (scaleFirstB 0x040B calibLnew = true ∧ scaleFirstB 0x0501 updateLnew = true) ∧
    (let e := wBody 0x040B; let s := wReplay (wBs 0 e); let q : ScaleRec := ⟨wPack [(96, 32, 1)], [5]⟩
     let b := scaleLoad (s.mathCtx e) (q.header, q.codes) (s.shardFirst e q.codes.length ((s.mathCtx e).out 0).count)
     s.bodyDue 0 0x040B = some e ∧ s.recordedScale e = some q ∧ Clean s e OpEnv.quiet b ∧ ∃ u, s.planeWrites 0 b.writes = .ok u) ∧
    (stackB 0x0800 1 0 = true ∧ stackB 0x0801 0 1 = true ∧ stackB 0x0802 0 1 = true ∧ stackB 0x0803 0 0 = true) ∧
    (let e := wScale 0x040B; let s := wBs 0 e
     e.lnew ≠ [] ∧ e.scaleMax = some 3 ∧ s.bodyDue 0 0x040B = some e ∧ s.recordedScale e = none ∧ Clean s e OpEnv.quiet (scaleFinish (s.mathCtx e) e.lnew 3) ∧
      ∃ u, s.planeWrites 0 (scaleFinish (s.mathCtx e) e.lnew 3).writes = .ok u) ∧
    (let e := wScale 0x0501; let s := wBs 0 e
     e.lnew ≠ [] ∧ e.scaleMax = some 3 ∧ s.bodyDue 0 0x0501 = some e) ∧
    (let e := wOp 0x0B00 [] []; let s := wBs 0 e
     s.bodyDue 0 0x0B00 = some e ∧ (∀ r ∈ [(⟨true, 0, []⟩ : KatRun), ⟨false, 0, []⟩],
        Clean s e (katEnv [r, ⟨true, 0, []⟩]) {}) ∧ (⟨true, 0, []⟩ : KatRun).pass = true ∧ (⟨false, 0, []⟩ : KatRun).pass = false) :=
  ⟨by decide +kernel, ⟨by decide +kernel, by decide +kernel, clean_of (by decide +kernel), ok_of (by decide +kernel)⟩, by decide +kernel,
    ⟨by decide +kernel, by decide +kernel, by decide +kernel, by decide +kernel, clean_of (by decide +kernel), ok_of (by decide +kernel)⟩,
    by decide +kernel, ⟨by decide +kernel, fun r hr => clean_of (by revert r; decide +kernel), by decide +kernel⟩⟩

/-- The exchange operators' opcodes. -/
def wExOps : List Nat := [0x0900, 0x0901, 0x0902, 0x0903, 0x0904, 0x0905, 0x0906, 0x0907, 0x0908]
/-- An instance of each that has begun; `full` where it is complete. -/
def wExX (oc : Nat) (full : Bool) : ExInst := { wX (BitVec.ofNat 16 oc) with
  phase := if full then 1 else 0, added := [0, 1], goGot := [6], group := if oc = 0x0906 || oc = 0x0907 then noGroup else 0
  me := if oc = 0x0906 || oc = 0x0907 then 6 else 0
  peers := if full then [{ rank := 6, phase := 0, close := some (0, 0) },
    { rank := 6, phase := 1, recvCount := if oc = 0x0900 then 3 else 1, close := some (if oc = 0x0900 then 3 else 1, 0) }] else [] }
def wExS (oc : Nat) (full : Bool) : State := { wEx (wBody oc) (wExX oc full) with ctxs := (wCs (wBody oc)).ctxs }

/-- The instance a step works on, after it has begun and gone on. -/
def exGone (s : State) (op : Nat) : Option State := match NMap.get? s.sched.ops op, s.instOf op with
  | some e, some x => let p := if x.begun then (s, x) else s.exBegin e x; some ((p.1.setInst p.2).exAfter p.2)
  | _, _ => none

/-- The state before the body of a complete instance runs. -/
def exRun (u : State) (f : OpEntry) (y : ExInst) : State :=
  { u with ctxs := { u.ctxs with ctr := { u.ctxs.ctr with expertSpillRows := sat64 (u.ctxs.ctr.expertSpillRows + u.spilled f y) } } }

/-- The hypotheses on the state in which a complete instance's body runs. -/
def exCleanB (r : State) (f : OpEntry) (y : ExInst) : Bool :=
  (r.badLinesOf f OpEnv.quiet).isEmpty && (f.ownTiles OpEnv.quiet).isEmpty && (f.ownFaults OpEnv.quiet).isEmpty &&
    (r.badWrites f.ctx (r.exBody f y (r.mathCtx f)).writes []).isEmpty && (r.planeWrites f.ctx (r.exBody f y (r.mathCtx f)).writes).toOption.isSome

/-- The hypotheses on an exchange operator whose instance is (in)complete. -/
def exB (oc : Nat) (full : Bool) (x : ExInst) : Bool :=
  let s := { wEx (wBody oc) x with ctxs := (wCs (wBody oc)).ctxs }
  s.bodyDue 0 oc == some (wBody oc) && s.instOf 0 == some x && (match exGone s 0 with
    | none => false
    | some u => match u.bodyDue 0 oc, u.instOf 0 with
      | some f, some y => y.complete == full && (!full || exCleanB (exRun u f y) f y)
      | _, _ => false)

/-- A complete instance; RANK_ORDER_REDUCE notes the ranks that it has added, the others their indexes in the group. -/
def wExFull (oc : Nat) : ExInst := let x := wExX oc true; if oc = 0x0905 then { x with added := [5, 6] } else x

theorem witness_ExchangeOperatorsRun :
    (∀ oc ∈ wExOps, exB oc true (wExFull oc) = true) ∧ (∀ oc ∈ wExOps, oc ≠ 0x0906 → exB oc false (wExX oc false) = true) ∧
    OpEnv.quiet.accessFault = none ∧ ({ OpEnv.quiet with accessFault := some cMemoryUncorrectable } : OpEnv).accessFault = some cMemoryUncorrectable := by
  refine ⟨?_, ?_, rfl, rfl⟩ <;> decide +kernel

/-! ### Witnesses: the vector engine -/

/-- The engine of core 0 as it is at the start of a chunk. -/
theorem witness_Engine : Engine wR 799 ∧ Engine wR 0 := by
  constructor <;> exact ⟨by decide +kernel, by decide +kernel, by decide +kernel, by decide +kernel, by decide +kernel⟩

/-- Operator 0 runs a custom kernel on core 0, whose engine is bound to it with `vl` 8 and its last lane not active under `m1`. -/
def wVecE : OpEntry := wBody 0x0300
def wVec : State :=
  let c : VCore := {}
  { wBs 0 wVecE with vec := [(0, { c with op := some 0, vl := 8, passes := [(8, 0)], m := c.m.set 1 (List.replicate 7 true) })] }

theorem witness_ScalarsMasksReductionsPorts :
    Engine wVec 0 ∧ wVec.vecOp 0 = some wVecE ∧
    ((wVec.vcore 0).passes = [(8, 0)] ∧ (wVec.vcore 0).op.isSome = true ∧ (wVec.vcore 0).wipe = [] ∧ (wVec.vcore 0).s.length = 16) ∧
    isBlock32 ((wVec.mathCtx wVecE).out 1).fmt = false ∧
    (∀ port < 2, ∃ u, wVec.planeWrites wVecE.ctx (streamWrites (wVec.mathCtx wVecE) port (fun q => 0x40 + q)
      (((wVec.vcore 0).vst 31 1).map (fun x => ⟨port, 63, x.1, x.2⟩))).1 = .ok u) ∧
    (∀ acc < 4, ∃ u, wVec.planeWrites wVecE.ctx (rstoreWrite (wVec.mathCtx wVecE)
      { op := 0x88, d := 0, a := 0, b := 0, c := 0, msk := 0, imm := acc + 1 * 2 ^ 4 + 63 * 2 ^ 8, res := 0 } (wVec.vcore 0).acc).1 = .ok u) :=
  ⟨⟨by decide +kernel, by decide +kernel, by decide +kernel, by decide +kernel, by decide +kernel⟩, by decide +kernel,
    by decide +kernel, by decide +kernel,
    fun p hp => ok_of ((by decide +kernel : ∀ port < 2, (wVec.planeWrites wVecE.ctx (streamWrites (wVec.mathCtx wVecE) port (fun q => 0x40 + q)
      (((wVec.vcore 0).vst 31 1).map (fun x => ⟨port, 63, x.1, x.2⟩))).1).toOption.isSome = true) p hp),
    fun a ha => ok_of ((by decide +kernel : ∀ acc < 4, (wVec.planeWrites wVecE.ctx (rstoreWrite (wVec.mathCtx wVecE)
      { op := 0x88, d := 0, a := 0, b := 0, c := 0, msk := 0, imm := acc + 1 * 2 ^ 4 + 63 * 2 ^ 8, res := 0 } (wVec.vcore 0).acc).1).toOption.isSome = true) a ha)⟩

/-! ### Witnesses: identifiers, the invariant -/

theorem witness_UnitIdsNamePhysicalCores : (831 : Nat) < 832 ∧ (255 : Nat) < 256 := by decide

theorem witness_InvAndStep : Inv State.reset ∧ ∃ t, step State.reset = .next t :=
  ⟨⟨by decide, by intro e h; cases h⟩, _, rfl⟩

/-- A command in front, on a state with a vector engine in use. -/
theorem witness_EveryStepKeepsTheInvariant :
    (let s : State := { wVec with pending := [.sli 0 12 5] }; Inv s ∧ ∃ t, step s = .next t) := by
  refine ⟨⟨by decide +kernel, ?_⟩, _, rfl⟩
  intro e h
  simp only [wVec, List.mem_singleton] at h
  subst h
  exact ⟨by decide +kernel, by decide +kernel, by decide +kernel, by decide +kernel, by decide +kernel⟩

/-! ### The checks of `Instr.wf`: for each check its commands, refused with an operand just past its range and accepted with the last one in it -/

def wCl : Cell := ⟨0, []⟩
def wPt : Packet := ⟨0, []⟩
def wBk : Block := ⟨true, 0, []⟩

/-- `f` is refused at `b` and accepted at `g`. -/
def checks {α : Type} (f : α → List Instr) (b g : α) : Bool := (f b).all (fun i => !i.wf) && (f g).all (·.wf)

theorem test_wf_Nat128 : checks (fun x : Nat =>
    ([.thermtrip x] : List Instr)) 128 127 = true := by decide +kernel

theorem test_wf_Req : checks (fun x : Req =>
    ([.chipReset x 0, .dumpRequest x 0, .snapshotObject x 0, .contextOpen x 0, .contextRelease x 0, .contextTableWrite x 0,
    .regionSeal x 0, .domainBegin x 0 0 0 0, .domainSeg x 0 0 0 [], .domainCancel x 0 0, .auth x [], .nonceRead x,
    .objectWrite x 0 0 (.value []), .lcToProvisioned x, .lcToFleet x, .lcToService x, .lcToRetired x, .fleetKey x 0,
    .keySlotWrite x 0, .keySlotClear x 0] : List Instr) ++
    ([.attestNonce x 0, .fwImage x 0 true, .configImage x 0 true, .fieldStateClear x 0, .coreDrainStop x 0, .coreDrainStart x 0,
    .fabricPortRetrain x 0, .fabricPortDisable x 0, .hostPortRetrain x 0, .hostPortDisable x 0, .bridgeRetrain x, .bridgeDisable x,
    .mirrorStart x, .mirrorStop x, .groupTableWrite x 0, .replicaTableWrite x 0, .bankPairsWrite x 0, .stateTensorsWrite x 0,
    .hostWindowsWrite x 0, .recordRingsWrite x 0] : List Instr) ++
    ([.runOpen x 0, .runClose x 0, .refAlmanac x 0, .almanacAppend x 0, .rankReady x 0, .lineageRequest x 0, .rankMove x 0,
    .spareRole x 0] : List Instr)) (⟨.yalvo 2, 1⟩) (⟨.yalvo 1, 1⟩) = true := by decide +kernel

theorem test_wf_Nat16 : checks (fun x : Nat =>
    ([.partitionReset x .vigil, .laneFifoSlip .bridge x] : List Instr)) 16 15 = true := by decide +kernel

theorem test_wf_ResetSrc : checks (fun x : ResetSrc =>
    ([.partitionReset 0 x, .engineReset 0 x] : List Instr)) (.request ⟨.yalvo 2, 1⟩ 0) (.request q1 0) = true := by decide +kernel

theorem test_wf_Nat832 : checks (fun x : Nat =>
    ([.engineReset x .vigil] : List Instr)) 832 831 = true := by decide +kernel

theorem test_wf_ResetScope : ∀ p ∈ ([(.context 1048576, .context 1048575), (.engine 832, .engine 831), (.partition 16, .partition 15)] : List (ResetScope × ResetScope)), checks (fun x : ResetScope =>
    ([.resetEscalate x, .resetReturnToService x] : List Instr)) p.1 p.2 = true := by
  decide +kernel

theorem test_wf_Nat64 : checks (fun x : Nat =>
    ([.captureFlush x, .captureAttribution x 0 true] : List Instr)) 64 63 = true := by decide +kernel

theorem test_wf_Nat48 : checks (fun x : Nat =>
    ([.railOutOfRange x] : List Instr)) 48 47 = true := by decide +kernel

theorem test_wf_Nat24 : checks (fun x : Nat =>
    ([.regulatorPoll x .missed] : List Instr)) 24 23 = true := by decide +kernel

theorem test_wf_Nat8 : checks (fun x : Nat =>
    ([.lpddrTempLimit x 0] : List Instr)) 8 7 = true := by decide +kernel

theorem test_wf_MaintWork : ∀ p ∈ ([(.refresh 8 0, .refresh 7 0), (.scrub 0 [132], .scrub 0 [131])] : List (MaintWork × MaintWork)), checks (fun x : MaintWork =>
    ([.lpddrMaintSlot x] : List Instr)) p.1 p.2 = true := by decide +kernel

theorem test_wf_LineError : checks (fun x : LineError =>
    ([.queueFetch ⟨.timeout, [x]⟩] : List Instr)) (⟨0, [132]⟩) (⟨0, [131]⟩) = true := by decide +kernel

theorem test_wf_KatRun : checks (fun x : ArrayFault =>
    ([.knownAnswer 0 [⟨true, 0, [x]⟩]] : List Instr)) (⟨800, 0, 0, 0, true, 0⟩) (⟨799, 0, 0, 0, true, 0⟩) = true := by decide +kernel

theorem test_wf_Nat380928 : checks (fun x : Nat =>
    ([.zeroingDone x] : List Instr)) 380928 380927 = true := by decide +kernel

theorem test_wf_Nat800 : checks (fun x : Nat =>
    ([.tileScrub x [], .coreRetire x [], .retireReloadDone x, .coreDrainStop q1 x, .coreDrainStart q1 x, .setvl x 0 0, .sli x 0 0,
    .sadd x 0 0 0, .ssub x 0 0 0, .sminu x 0 0 0, .vld x 0 0 0, .vldx x 0 0 0 0, .vst x 0 0 0 0, .vbcast x 0 0 0, .vbcasti x 0 0 0,
    .viota x 0 0, .vadd x 0 0 0 0, .vsub x 0 0 0 0, .vmul x 0 0 0 0, .vfma x 0 0 0 0 0] : List Instr) ++
    ([.vfms x 0 0 0 0 0, .vfnma x 0 0 0 0 0, .vdiv x 0 0 0 0, .vsqrt x 0 0 0, .vmin x 0 0 0 0, .vmax x 0 0 0 0, .vabs x 0 0 0,
    .vneg x 0 0 0, .vcpysgn x 0 0 0 0, .vexp x 0 0 0, .vlog x 0 0 0, .vrsqrt x 0 0 0, .vtanh x 0 0 0, .verf x 0 0 0, .vsigm x 0 0 0,
    .viadd x 0 0 0 0, .visub x 0 0 0 0, .vimul x 0 0 0 0, .vand x 0 0 0 0, .vor x 0 0 0 0] : List Instr) ++
    ([.vxor x 0 0 0 0, .vshl x 0 0 0 0, .vshrl x 0 0 0 0, .vshra x 0 0 0 0, .vimin x 0 0 0 0, .vimax x 0 0 0 0, .vcvtfi x 0 0 true 0,
    .vcvtif x 0 0 0, .vcvtuf x 0 0 0, .vcmp x 0 0 0 0 0, .vsel x 0 0 0 0, .mand x 0 0 0, .mor x 0 0 0, .mxor x 0 0 0, .mnot x 0 0,
    .vperm x 0 0 0 0, .rsum x 0 0 0, .rsump x 0 0 0 0, .rmax x 0 0 0, .rmin x 0 0 0] : List Instr) ++
    ([.rargmax x 0 0 0, .rstore x 0 true 0 0 0] : List Instr)) 800 799 = true := by decide +kernel

theorem test_wf_LinkRef : ∀ p ∈ ([(.fabric 32, .fabric 31), (.host 2, .host 1)] : List (LinkRef × LinkRef)), checks (fun x : LinkRef =>
    ([.linkBlock x wBk, .linkRetrainStart x, .linkRetrainDone x true, .portTrained x, .portTrainingTimeout x, .laneFifoSlip x 0,
    .linkCtrlSend x, .linkCtrl x wCl, .staleCellExpire x, .xb16Block x wCl, .xp40Seg x wCl, .g128Seg x wCl, .rawSeg x wCl,
    .closeCell x wCl, .goCell x wCl, .dispatchRow x wCl, .combineRow x wCl, .bulkSeg x wCl, .recoveryReq x wCl, .recoveryData x wCl] : List Instr) ++
    ([.mirrorData x wCl, .mirrorAck x wCl, .ctrlStepBegin x wCl, .ctrlGroupStart x wCl, .ctrlScaleMax x wCl, .ctrlStepCheck x wCl,
    .ctrlStepCommit x wCl, .ctrlVoidRequest x wCl, .ctrlDecision x wCl, .ctrlRankMove x wCl, .ctrlHeartbeat x wCl,
    .ctrlCheckpoint x wCl] : List Instr)) p.1 p.2 = true := by
  decide +kernel

theorem test_wf_Block : checks (fun x : Block =>
    ([.linkBlock .bridge x] : List Instr)) (⟨true, 0, List.replicate 1281 0⟩) (⟨true, 0, List.replicate 1280 0⟩) = true := by decide +kernel

theorem test_wf_Cell : ∀ p ∈ ([(⟨0, [0]⟩, ⟨setFld 0 96 5 1, List.replicate 32 0⟩),
    (⟨setFld 0 96 5 17, List.replicate 544 0⟩, ⟨setFld 0 96 5 16, List.replicate 512 0⟩)] : List (Cell × Cell)), checks (fun x : Cell =>
    ([.linkCtrl .bridge x, .xb16Block .bridge x, .xp40Seg .bridge x, .g128Seg .bridge x, .rawSeg .bridge x, .closeCell .bridge x,
    .goCell .bridge x, .dispatchRow .bridge x, .combineRow .bridge x, .bulkSeg .bridge x, .recoveryReq .bridge x,
    .recoveryData .bridge x, .twinIdent x, .mirrorData .bridge x, .mirrorAck .bridge x, .ctrlStepBegin .bridge x,
    .ctrlGroupStart .bridge x, .ctrlScaleMax .bridge x, .ctrlStepCheck .bridge x, .ctrlStepCommit .bridge x] : List Instr) ++
    ([.ctrlVoidRequest .bridge x, .ctrlDecision .bridge x, .ctrlRankMove .bridge x, .ctrlHeartbeat .bridge x,
    .ctrlCheckpoint .bridge x] : List Instr)) p.1 p.2 = true := by
  decide +kernel

theorem test_wf_Nat32 : checks (fun x : Nat =>
    ([.portGuarded x, .fabricPortRetrain q1 x, .fabricPortDisable q1 x] : List Instr)) 32 31 = true := by decide +kernel

theorem test_wf_Nat4096 : checks (fun x : Nat =>
    ([.controlPeerSilent x 0, .stragglerDeclare x 0, .rootDeclareFailed x, .compatRestore x, .mirrorSeed x, .mirrorTask x,
    .attemptReuseWait x] : List Instr)) 4096 4095 = true := by decide +kernel

theorem test_wf_Nat1048576 : checks (fun x : Nat =>
    ([.stackSpillAck x 0, .stackFetchDone x 0 .timeout, .suspectIdleExpire x, .contextLoad x .timeout, .contextResetDone x,
    .contextReleaseDone x] : List Instr)) 1048576 1048575 = true := by decide +kernel

theorem test_wf_Nat2 : checks (fun x : Nat =>
    ([.doorbellQueueTail x 0 0, .doorbellRingTail x 0 0, .doorbellResumeStream x 0 0, .yalvoLink x wPt, .yalvoLinkSend x,
    .completion x wPt, .hostReadTimeout x 0, .requestExpire x 0, .hostPortGuarded x, .hostPortRetrain q1 x, .hostPortDisable q1 x,
    .hostPortDisableTimeout x] : List Instr)) 2 1 = true := by decide +kernel

theorem test_wf_CtxResetSrc : ∀ p ∈ ([(.request ⟨.yalvo 2, 1⟩ 0, .request q1 0), (.device 1048576, .device 1048575)] : List (CtxResetSrc × CtxResetSrc)), checks (fun x : CtxResetSrc =>
    ([.contextReset x] : List Instr)) p.1 p.2 = true := by
  decide +kernel

theorem test_wf_Packet : checks (fun x : Packet =>
    ([.yalvoLink 0 x, .completion 0 x] : List Instr)) (⟨0, List.replicate 4097 0⟩) (⟨0, List.replicate 4096 0⟩) = true := by decide +kernel

theorem test_wf_Requester : checks (fun x : Requester =>
    ([.fieldDatagram x [], .requesterEvict x, .domainTimeout x, .elevationLapse x] : List Instr)) (.yalvo 2) (.yalvo 1) = true := by decide +kernel

theorem test_wf_OpEnv : ∀ p ∈ ([({ OpEnv.quiet with arrayFaults := [⟨800, 0, 0, 0, true, 0⟩] }, { OpEnv.quiet with arrayFaults := [⟨799, 0, 0, 0, true, 0⟩] }),
    ({ OpEnv.quiet with lineErrors := [⟨0, [132]⟩] }, { OpEnv.quiet with lineErrors := [⟨0, [131]⟩] }), ({ OpEnv.quiet with tileFixed := [800] }, { OpEnv.quiet with tileFixed := [799] }),
    ({ OpEnv.quiet with tileFaults := [⟨800, 0, 0, 0⟩] }, { OpEnv.quiet with tileFaults := [⟨799, 0, 0, 0⟩] })] : List (OpEnv × OpEnv)), checks (fun x : OpEnv =>
    ([.matmul 0 x, .matmulDx 0 x, .matmulDw 0 x, .batchedMatmul 0 x, .convFwd 0 x, .convDx 0 x, .convDw 0 x, .attnFwd 0 x,
    .attnBwd 0 x, .customKernel 0 x, .addTensors 0 x, .mulTensors 0 x, .axpby 0 x, .act 0 x, .actBwd 0 x, .rmsnorm 0 x,
    .rmsnormBwd 0 x, .layernorm 0 x, .layernormBwd 0 x, .softmax 0 x] : List Instr) ++
    ([.softmaxBwd 0 x, .reduceSum 0 x, .reduceMax 0 x, .argmax 0 x, .topk 0 x, .scaleCalibrate 0 x, .adamw 0 x, .scaleUpdate 0 x,
    .convert 0 x, .quantXb16 0 x, .pairToWorking 0 x, .pairFrom 0 x, .copyTensor 0 x, .gatherRows 0 x, .scatterRows 0 x,
    .scatterAddRows 0 x, .permute 0 x, .transpose 0 x, .pushFrame 0 x, .popFrame 0 x] : List Instr) ++
    ([.peekFrame 0 x, .markFrame 0 x, .allreduceXb 0 x, .reduceScatterXb 0 x, .allgather 0 x, .dispatch 0 x, .combine 0 x,
    .rankOrderReduce 0 x, .sendTensor 0 x, .recvTensor 0 x, .g128Exchange 0 x] : List Instr)) p.1 p.2 = true := by
  decide +kernel

theorem test_wf_StopUnit : ∀ p ∈ ([(.fabric 32, .fabric 31), (.host 2, .host 1), (.core 800, .core 799)] : List (StopUnit × StopUnit)), checks (fun x : StopUnit =>
    ([.stopCompletes x] : List Instr)) p.1 p.2 = true := by
  decide +kernel

/-! ### Worked values of the spec -/

/-- Core 3 with `vl` 6: v5 holds 10.0 to 15.0 and 9.0 in element 7, v7 the indexes of Table 6.2, m2 its mask. -/
def wPerm : State :=
  let c : VCore := {}
  let v5 : List Word := [0x41200000, 0x41300000, 0x41400000, 0x41500000, 0x41600000, 0x41700000, 0, 0x41100000]
  let v : List (List Word) := ((c.v.set 5 v5).set 7 [5, 0, 7, 2, 0xFFFFFFFF, 1]).set 6 [1, 1, 1, 1, 77, 1, 88]
  { wR with vec := [(3, { c with vl := 6, m := c.m.set 2 [true, true, true, true, false, true], v := v })] }

/-- Table 6.2 (R133). -/
theorem test_vperm_table_6_2 : (match exec (.vperm 3 6 5 7 2) wPerm with
    | .next t => (List.range 7).map ((t.vcore 3).lane 6) == [0x41700000, 0x41200000, 0, 0x41400000, 77, 0x41300000, 88] && (t.vcore 3).stat.permOob
    | _ => false) = true := by decide +kernel

/-- R129: sums of 32-bit integers wrap; here v6 := v6 + v7 in the active lanes of m0. -/
theorem test_viadd_wraps : (match exec (.viadd 3 6 6 7 0) wPerm with
    | .next t => (List.range 7).map ((t.vcore 3).lane 6) == [6, 1, 8, 3, 76, 2, 88]
    | _ => false) = true := by decide +kernel

/-- Table 6.3: ln 1 is +0, ln -0 is minus infinity, e^-inf is +0; and of an infinite and a zero operand. -/
theorem test_table_6_3 : log32 0x3F800000 = (0, {}) ∧ log32 0x80000000 = (0xFF800000, { dz := true }) ∧ exp32 0xFF800000 = (0, {}) ∧
    rsqrt32 0x80000000 = (0xFF800000, { dz := true }) ∧ tanh32 0x80000000 = (0x80000000, {}) := by decide +kernel

/-- File 06's worked kernel (Tables 6.9, 6.10): its passes take 386 and 182 cycles, T_core is 1,011 on core 799 and T_body 1,503; core 799 begins at element
4,909,056 with 5,000 left, and its engine's first SETVL sets s1, s2 and `vl` so. -/
theorem test_kernel_example :
    let w := ([0x6113, 0x2B01, 0x210, 0x84081, 0x82322, 0x6335, 0xC4422, 0x10000008012, 0x21000000088] : List Nat).map VI.ofWord
    let k : KImage := ⟨0, 88, w.take 1, (w.drop 1).take 7, w.drop 8⟩
    w.all VI.encOk = true ∧ k.sectionsOk = true ∧ k.accOk = true ∧ k.unwritten = [] ∧
    passCycles k.body 2048 = 386 ∧ passCycles k.body 904 = 182 ∧
    17 + passCycles k.pro 2048 + sumOf ((stripLens 4914056 800 799).map (passCycles k.body)) + 8 = 1011 ∧
    (let p := passList 4914056 (stripsOf 4914056 800 799)
     p.map Prod.fst = [5000, 2952, 904] ∧ p.map Prod.snd = [4909056, 4911104, 4913152] ∧
     (let c := (({ kinit k [0x3F800000] [0, 0, 0, 0] with op := some 0, passes := p } : VCore).nextPass 1).setvl 11 1
      c.sreg 1 = 5000 ∧ c.sreg 2 = 4909056 ∧ c.sreg 3 = 0x3F800000 ∧ c.sreg 11 = 2048 ∧ c.vl = 2048 ∧ c.passes = p.drop 1)) := by decide +kernel

/-- File 02's worked examples: an MXFP8 E4M3 block, Table 2.4, an XB16 block, a head/tail pair rounded to -27. -/
theorem test_file_02_examples :
    (let r := mxQuantise fmtMxE4M3 (fun _ => Rnd.rne) [0, 1, 2] [.fin false 75 (-1), .fin true 19 (-6), .zero]; (r.blk, r.codes.take 2) = (0x7C, [0x79, 0xC2])) ∧
    (let r := b16From ([0x4040, 0xC2C8, 0x3C01, 0x3E80, 0x3B00, 0x3BC0].map ffBf.decode); (r.blk, r.codes) = (133, [0x0300, 0x9C00, 2, 0x40, 0, 2])) ∧
    xb16Elem (-20) Rnd.rne 0 (.fin false 4194304 (-26)) = (32767, true, false) ∧ xb16Elem (-20) Rnd.rne 0 (.fin true 3 (-22)) = (-1, false, false) ∧
    pairFrom Rnd.rne 0 (.fin false 131989 (-17)) = (0x3F81, 0xE5, false, false) := by decide +kernel

/-- File 03's first worked example: the sum of Table 3.2 is 0x8400 whatever the split, and rounds to 0x3020 in binary16. -/
theorem test_one_sum_three_splits :
    let p := ([(0x7E, 0x68), (0x36, 0x20), (0xFE, 0x68), (0x12, 0x30)] : List (Nat × Nat)).map (fun x => Val.mul (ffE4M3.decode x.1) (ffE4M3.decode x.2))
    (gridSum (-18) (p.take 2)).n = 0x1C0007000 ∧ ((gridSum (-18) (p.take 2)).join (gridSum (-18) (p.drop 2))).n = 0x8400 ∧
    (gridSum (-18) p).n = 0x8400 ∧ (cvtPlain fmtB16f Rnd.rne 0 ((gridSum (-18) p).val (-18))).code = 0x3020 := by decide +kernel

/-- The table gives no row any bits, so no word spells a command. -/
theorem test_decodeTableWord : decodeTableWord 0 0 = none ∧ decodeTableWord 32 0x6335 = none ∧ State.reset.withFetchWord 32 0x6335 = State.reset := by
  decide +kernel

/-- R73: Philox4x32-10 with key 0 and counter 0. -/
theorem test_philox : philox ⟨0, 0, 0, 0⟩ 0 0 = ⟨0x6627E8D5, 0xE169C58D, 0xBC57AC4C, 0x9B00DBD8⟩ := by decide +kernel

/-- SHA-512 of "abc" begins and ends as FIPS 180-4's example has it. -/
theorem test_sha512_abc : ((digestBytes (sha512 [0x61, 0x62, 0x63])).take 4, (digestBytes (sha512 [0x61, 0x62, 0x63])).drop 60) =
    ([0xDD, 0xAF, 0x35, 0xA1], [0xA5, 0x4C, 0xA4, 0x9F]) := by decide +kernel

end Sys2Proof.Tests
end

section
namespace Sys2Proof.Machine

/-! ### Operators that store nothing, and the stack's pages -/

/-- A body without writes meets no route that fails: it ends with its values, and memory stays. -/
theorem finishBody_stored_of_writes_nil (s : State) (id : Nat) (e : OpEntry) (env : OpEnv) (mk : MathCtx → Body) (h : Clean s e env {})
    (hg : NMap.get? s.sched.ops id = some e) (hw : (mk (s.mathCtx e)).writes = []) : Stored s id e env (mk (s.mathCtx e)) (s.finishBody id e env mk) := by
  have hc : Clean s e env (mk (s.mathCtx e)) := by
    unfold Clean at h ⊢
    rw [hw]
    exact h
  exact finishBody_stored s s id e env mk hc hg (by rw [hw]; rfl)

/-- What a stored body leaves in memory, where its writes leave `u` and no plane of it is undefined. -/
theorem Stored.mem_eq {s t u : State} {id : Nat} {e : OpEntry} {env : OpEnv} {b : Body} (h : Stored s id e env b t)
    (hw : s.planeWrites e.ctx b.writes = .ok u) (hu : b.undef = []) (ho : b.undefinedOut = false) : t.memsys.mem = u.memsys.mem := by
  obtain ⟨⟨v, hv, hm⟩, -⟩ := h
  rw [hw] at hv
  cases hv
  exact hm hu ho

/-- A stored body leaves the contexts and their stacks. -/
theorem Stored.stackOf_eq {s t : State} {id : Nat} {e : OpEntry} {env : OpEnv} {b : Body} (h : Stored s id e env b t) (c : Nat) :
    t.stackOf c = s.stackOf c := by
  obtain ⟨-, -, -, hc, -⟩ := h
  simp only [State.stackOf, hc]

/-- A stack operator that is due, passes its checks and stores its result does to the stack what its row says (R171). -/
theorem gives_of_stackRow {s : State} {id oc : Nat} {env : OpEnv} {e : OpEntry} {i : Instr} {mk : OpEntry → MathCtx → Body}
    {after : OpEntry → State → State} {b : Body} {P : State → Prop} (hi : exec i s = s.stackRow id oc env mk after) (hd : s.bodyDue id oc = some e)
    (hc : s.stackCode e = cOk) (h : Stored s id e env b (s.finishBody id e env (mk e))) (hP : P (after e (s.finishBody id e env (mk e)))) : Gives i s P := by
  obtain ⟨-, ⟨f, hf, hp, -⟩, -⟩ := h
  exact ⟨_, hi.trans (by simp [State.stackRow, hd, hc, hf, hp]), hP⟩

/-! ### What a new frame and the pool's pages leave of a stack -/

/-- A frame pushed after a stored body lies on the stack's frames. -/
theorem Stored.frames_pushOn {s t : State} {id : Nat} {e : OpEntry} {env : OpEnv} {b : Body} (h : Stored s id e env b t) (c : Nat) (f : Frame)
    (l : List Byte) : ((t.pushOn c f l).stackOf c).frames = f :: (s.stackOf c).frames := by simp [State.pushOn, h.stackOf_eq]

/-- A frame pushed after a stored body leaves the floor. -/
theorem Stored.floor_pushOn {s t : State} {id : Nat} {e : OpEntry} {env : OpEnv} {b : Body} (h : Stored s id e env b t) (c : Nat) (f : Frame)
    (l : List Byte) : ((t.pushOn c f l).stackOf c).floor = (s.stackOf c).floor := by simp [State.pushOn, h.stackOf_eq]

theorem State.stackOf_setStack_other (s : State) (c j : Nat) (k : Stack) (h : j ≠ c) : (s.setStack c k).stackOf j = s.stackOf j := by
  simp [State.setStack, State.stackOf, NMap.getD_set_other _ _ _ _ _ h]

/-- `t` has the frames and the LPDDR5X contents of `s`. -/
structure FramesKept (s t : State) : Prop where
  memsys : t.memsys = s.memsys
  frames : ∀ c, (t.stackOf c).frames = (s.stackOf c).frames

theorem FramesKept.refl (s : State) : FramesKept s s := ⟨rfl, fun _ => rfl⟩

theorem FramesKept.trans {s t u : State} (a : FramesKept s t) (b : FramesKept t u) : FramesKept s u :=
  ⟨b.memsys.trans a.memsys, fun c => (b.frames c).trans (a.frames c)⟩

theorem framesKept_setPage (s : State) (c j : Nat) (p : StackPage) : FramesKept s (s.setPage c j p) := by
  refine ⟨rfl, fun d => ?_⟩
  by_cases h : d = c
  · subst h; simp [State.setPage]
  · simp [State.setPage, State.stackOf_setStack_other _ _ _ _ h]

theorem framesKept_takePage {s t : State} {c j : Nat} {p : PageState} (h : s.takePage c j p = some t) : FramesKept s t := by
  unfold State.takePage at h
  split at h
  · cases h; exact framesKept_setPage _ _ _ _
  · cases h

theorem framesKept_takePages (c : Nat) (p : PageState) (js : List Nat) (r : State × List Nat) : FramesKept r.1 (State.takePages c p js r).1 := by
  induction js generalizing r with
  | nil => exact .refl _
  | cons j js ih =>
    obtain ⟨s, miss⟩ := r
    simp only [State.takePages]
    split
    · rename_i t ht
      exact (framesKept_takePage ht).trans (ih (t, miss))
    · exact ih (s, miss ++ [j])

theorem framesKept_spillVictim (s : State) : FramesKept s s.spillVictim := by
  unfold State.spillVictim
  split
  · exact .refl s
  · split
    · exact .refl s
    · exact ⟨rfl, (framesKept_setPage s _ _ _).frames⟩

theorem framesKept_spillTo (n f : Nat) (s : State) : FramesKept s (s.spillTo n f) := by
  induction f generalizing s with
  | zero => exact .refl s
  | succ f ih =>
    simp only [State.spillTo]
    split
    · exact .refl s
    · exact (framesKept_spillVictim s).trans (ih _)

/-- Fetching pages back moves pages, not frames (R177). -/
theorem framesKept_fetchBack (s : State) (c : Nat) (evict : Bool) : FramesKept s (s.fetchBack c evict) := by
  unfold State.fetchBack
  dsimp only
  split
  · exact .refl s
  · split
    · exact (framesKept_takePages _ _ _ (s, [])).trans (framesKept_spillTo _ _ _)
    · exact framesKept_takePages _ _ _ (s, [])

/-- A stack cut below its frame `n` keeps the frames under it (R173, R174). -/
theorem Stack.frames_cut_below (k : Stack) (n : Nat) (h : n < k.frames.length) :
    (k.cut (k.frames.length - n - 1)).frames = k.frames.drop (n + 1) := by
  have : k.frames.length - (k.frames.length - n - 1) = n + 1 := by omega
  simp [Stack.cut, this]

/-- The frame a POP or PEEK reads lies in its stack. -/
theorem State.popFrame_lt {s : State} {e : OpEntry} {n : Nat} {f : Frame} (h : s.popFrame e = some (n, f)) : n < (s.stackOf e.ctx).frames.length := by
  simp only [State.popFrame, Option.bind_eq_some_iff, Option.map_eq_some_iff, Prod.mk.injEq] at h
  obtain ⟨m, -, g, hg, rfl, rfl⟩ := h
  exact (List.getElem?_eq_some_iff.1 hg).1

/-- Every plane that a POP or PEEK writes is defined. -/
theorem popMk_defined (s : State) (e : OpEntry) (x : MathCtx) : (s.popMk e x).undef = [] ∧ (s.popMk e x).undefinedOut = false := by
  unfold State.popMk
  dsimp only
  split
  · split
    · exact ⟨rfl, rfl⟩
    · unfold popBody
      dsimp only
      split <;> exact ⟨rfl, rfl⟩
  · exact ⟨rfl, rfl⟩

/-! ### PUSH, MARK, POP and PEEK (R171 to R179) -/

section
variable {s : State} {op : Nat} {env : OpEnv} {e : OpEntry}

theorem pushFrame_gives (hd : s.bodyDue op 0x0800 = some e) (hc : s.stackCode e = cOk) (h : Clean s e env {}) :
    Gives (.pushFrame op env) s (fun t => ∃ f, (t.stackOf e.ctx).frames = f :: (s.stackOf e.ctx).frames ∧ f.mark = false ∧
      f.off = (s.stackOf e.ctx).top ∧ f.bytes = (nth e.ts 0 0 : TDesc).payload ∧ f.len = frameLen f.bytes ∧ f.shape = (nth e.ts 0 0 : TDesc).dims ∧
      f.step = s.frameStep e.ctx ∧ (t.stackOf e.ctx).floor = (s.stackOf e.ctx).floor ∧ t.memsys.mem = s.memsys.mem) := by
  have hs := finishBody_stored_of_writes_nil s op e env (fun _ => { tBody := s.stackT e }) h (s.bodyDue_get _ _ _ hd).1 rfl
  exact gives_of_stackRow (rfl : exec _ s = execPushFrame op env s) hd hc hs
    ⟨_, hs.frames_pushOn _ _ _, rfl, rfl, rfl, rfl, rfl, rfl, hs.floor_pushOn _ _ _, hs.mem_eq (u := s) rfl rfl rfl⟩

theorem markFrame_gives (hd : s.bodyDue op 0x0803 = some e) (hc : s.stackCode e = cOk) (h : Clean s e env {}) :
    Gives (.markFrame op env) s (fun t => ∃ f, (t.stackOf e.ctx).frames = f :: (s.stackOf e.ctx).frames ∧ f.mark = true ∧ f.bytes = 0 ∧
      f.len = 4096 ∧ f.off = (s.stackOf e.ctx).top ∧ (t.stackOf e.ctx).floor = (s.stackOf e.ctx).floor ∧ t.memsys.mem = s.memsys.mem) := by
  have hs := finishBody_stored_of_writes_nil s op e env (fun _ => { tBody := s.stackT e }) h (s.bodyDue_get _ _ _ hd).1 rfl
  exact gives_of_stackRow (rfl : exec _ s = execMarkFrame op env s) hd hc hs
    ⟨_, hs.frames_pushOn _ _ _, rfl, rfl, rfl, rfl, hs.floor_pushOn _ _ _, hs.mem_eq (u := s) rfl rfl rfl⟩

variable {n : Nat} {f : Frame} {u : State}

theorem popFrame_gives (hd : s.bodyDue op 0x0801 = some e) (hc : s.stackCode e = cOk) (hf : s.popFrame e = some (n, f))
    (h : Clean s e env (s.popMk e (s.mathCtx e))) (hw : s.planeWrites e.ctx (s.popMk e (s.mathCtx e)).writes = .ok u) :
    Gives (.popFrame op env) s (fun t => (t.stackOf e.ctx).frames = (s.stackOf e.ctx).frames.drop (n + 1) ∧ t.memsys.mem = u.memsys.mem) := by
  have hs := finishBody_stored s u op e env (s.popMk e) h (s.bodyDue_get _ _ _ hd).1 hw
  obtain ⟨hu, ho⟩ := popMk_defined s e (s.mathCtx e)
  refine gives_of_stackRow (rfl : exec _ s = execPopFrame op env s) hd hc hs ?_
  generalize s.finishBody op e env (s.popMk e) = t at hs ⊢
  simp only [hf]
  obtain ⟨hm, hk⟩ := framesKept_fetchBack (t.setStack e.ctx ((t.stackOf e.ctx).cut ((t.stackOf e.ctx).frames.length - n - 1))) e.ctx true
  constructor
  · rw [hk, State.stackOf_setStack_same, hs.stackOf_eq, Stack.frames_cut_below _ _ (State.popFrame_lt hf)]
  · rw [hm, State.setStack_memsys, hs.mem_eq hw hu ho]

theorem peekFrame_gives (hd : s.bodyDue op 0x0802 = some e) (hc : s.stackCode e = cOk) (h : Clean s e env (s.popMk e (s.mathCtx e)))
    (hw : s.planeWrites e.ctx (s.popMk e (s.mathCtx e)).writes = .ok u) :
    Gives (.peekFrame op env) s (fun t => t.stackOf e.ctx = s.stackOf e.ctx ∧ Stored s op e env (s.popMk e (s.mathCtx e)) t) := by
  have hs := finishBody_stored s u op e env (s.popMk e) h (s.bodyDue_get _ _ _ hd).1 hw
  exact gives_of_stackRow (rfl : exec _ s = execPeekFrame op env s) hd hc hs ⟨hs.stackOf_eq _, hs⟩

end

/-! ### SCALE_CALIBRATE and SCALE_UPDATE (R21, R85, R97, R98) -/

section
variable {s : State} {op oc : Nat} {env : OpEnv} {e : OpEntry} {est : MathCtx → List Int}

/-- Only SCALE_CALIBRATE takes a recorded record. -/
theorem State.recordedScale_of_update (hd : s.bodyDue op 0x0501 = some e) : s.recordedScale e = none := by
  obtain ⟨-, -, ho⟩ := s.bodyDue_get _ _ _ hd
  simp [State.recordedScale, ho]

/-- A scale operator's first event contributes the maximum of its estimates and, without the group's maximum, ends there. -/
theorem scaleRow_first (hd : s.bodyDue op oc = some e) (hr : s.recordedScale e = none) (hl : e.lnew = []) :
    let l := est (s.mathCtx e)
    let v := s.updOp op (fun e => { e with lnew := l })
    let u := v.contribute { v.runKey (v.ctx e.ctx).runSlot 3 (BitVec.ofNat 32 (nth e.ts e.d.nIn 0 : TDesc).tid) with group := e.scaleGroup }
      [BitVec.ofInt 64 (l.foldl max noObs + 2 ^ 15)]
    ∀ f, u.bodyDue op oc = some f → f.scaleMax = none → s.scaleRow op oc env est = .next u := by
  intro l v u f hf hm
  have he : e.lnew.isEmpty = true := by rw [hl]; rfl
  dsimp only [u, v, l] at hf ⊢
  simp only [State.scaleRow, hd, hr, he, if_true, hf, hm]

/-- A replay's SCALE_CALIBRATE loads the recorded record. -/
theorem scaleRow_recorded {q : ScaleRec} (hd : s.bodyDue op oc = some e) (hr : s.recordedScale e = some q) :
    s.scaleRow op oc env est = .next (s.finishBody op e env (fun x => scaleLoad x (q.header, q.codes) (s.shardFirst e q.codes.length (x.out 0).count))) := by
  simp only [State.scaleRow, hd, hr]

/-- With the group's maximum known a scale operator writes its record. -/
theorem scaleRow_finish {m : Int} (hd : s.bodyDue op oc = some e) (hr : s.recordedScale e = none) (hl : e.lnew ≠ []) (hm : e.scaleMax = some m) :
    s.scaleRow op oc env est = .next ((if oc = 0x0501 then s.mirrorMax e m else s).finishBody op e env (fun x => scaleFinish x e.lnew m)) := by
  have he : e.lnew.isEmpty = false := by simpa using hl
  simp only [State.scaleRow, hd, hr, he, hm, Bool.false_eq_true, if_false]

end

/-! ### KNOWN_ANSWER (R229, R348) -/

theorem knownAnswer_pass {s : State} {op : Nat} {e : OpEntry} {r : KatRun} {rest : List KatRun} (hd : s.bodyDue op 0x0B00 = some e) (hp : r.pass = true) :
    exec (.knownAnswer op (r :: rest)) s =
      .next (s.finishBody op e (katEnv (r :: rest)) (fun _ => { stat := { katPass := true }, tBody := s.tBody e })) := by
  change execKnownAnswer op (r :: rest) s = _
  simp only [execKnownAnswer, hd, hp, if_true]

theorem knownAnswer_second {s : State} {op : Nat} {e : OpEntry} {r r2 : KatRun} {l : List KatRun} (hd : s.bodyDue op 0x0B00 = some e)
    (hp : r.pass = false) : exec (.knownAnswer op (r :: r2 :: l)) s =
      .next (((s.katRecord e 0 r).katSecond e r2).finishBody op e (katEnv (r :: r2 :: l))
        (fun _ => { stat := { katPass := false }, tBody := s.tBody e })) := by
  change execKnownAnswer op (r :: r2 :: l) s = _
  simp only [execKnownAnswer, hd, hp, Bool.false_eq_true, if_false]

/-- Settles O54: stack operators by what their rows do to the stack after a stored body, scale operators by the events of their row, KNOWN_ANSWER by
its first run. -/
theorem stackScaleAndKnownAnswerRun : Obligations.StackScaleAndKnownAnswerRun := by
  unfold Obligations.StackScaleAndKnownAnswerRun
  refine ⟨fun s op env e h hc => ⟨fun hd => pushFrame_gives hd hc h, fun hd => markFrame_gives hd hc h, fun n f u hf hb hw =>
    ⟨fun hd => popFrame_gives hd hc hf hb hw, fun hd => peekFrame_gives hd hc hb hw⟩⟩, ?_, ?_, ?_, ?_⟩
  · intro s op env e i oc est hi hd hr hl
    simp only [List.mem_cons, Prod.mk.injEq, List.not_mem_nil, or_false] at hi
    rcases hi with ⟨rfl, rfl, rfl⟩ | ⟨rfl, rfl, rfl⟩
    · exact scaleRow_first hd hr hl
    · exact scaleRow_first hd hr hl
  · intro s op env e q hd hr mk h u hw
    exact ⟨_, scaleRow_recorded hd hr, finishBody_stored s u op e env mk h (s.bodyDue_get _ _ _ hd).1 hw⟩
  · intro s op env e m hl hm mk
    refine ⟨fun hd hr h u hw => ?_, fun hd => ?_⟩
    · exact ⟨_, scaleRow_finish hd hr hl hm, finishBody_stored s u op e env mk h (s.bodyDue_get _ _ _ hd).1 hw⟩
    · exact scaleRow_finish hd (State.recordedScale_of_update hd) hl hm
  · intro s op e r rest env hd h
    refine ⟨fun hp => ⟨_, knownAnswer_pass hd hp, ?_⟩, ?_⟩
    · exact finishBody_stored_of_writes_nil s op e env (fun _ => { stat := { katPass := true }, tBody := s.tBody e }) h (s.bodyDue_get _ _ _ hd).1 rfl
    · rintro hp r2 l rfl
      exact knownAnswer_second hd hp

end Sys2Proof.Machine
end

section
namespace Sys2Proof.Machine

/-! ### Step-control operators that are due and admissible (R228, R314) -/

/-- A change of an operator's entry leaves the runs. -/
@[simp] theorem State.updOp_run (s : State) (id : Nat) (f : OpEntry → OpEntry) (j : Nat) : (s.updOp id f).run j = s.run j := by
  unfold State.updOp
  split <;> rfl

@[simp] theorem State.begun_run (s : State) (id j : Nat) : (s.begun id).run j = s.run j := State.updOp_run _ _ _ _

/-- A step-control operator that is due, has its checks made and stays admissible runs its body between two settlings. -/
theorem exec_of_stepRow {s t : State} {op oc : Nat} {e : OpEntry} {i : Instr} {body : State → Nat → OpEntry → State}
    (hi : exec i s = s.stepRow op oc body) (hd : s.settle.stepDue op oc = some e) (hp : e.phase = .checked)
    (hc : s.settle.stepControlCode e.ctx e.d = cOk) (hb : body s.settle (s.settle.ctx e.ctx).runSlot e = t) : exec i s = .next t.settle := by
  rw [hi, State.stepRow, hd, ← hb]
  simp [hp, hc]

/-- Settles O35: each operator's body on the settled state, by its conditions. -/
theorem stepOperatorsTakeEffect : Obligations.StepOperatorsTakeEffect := by
  unfold Obligations.StepOperatorsTakeEffect
  intro s op e
  dsimp only
  intro hp hc
  have hs : (e.phase == .started) = false := by rw [hp]; rfl
  refine ⟨fun hd hw ht => ?_, fun hd hw ht => ?_, fun hd hw => ?_, fun hd ht => ?_, fun hd ht hr => ?_, fun hd ht hr => ?_, fun hd hv => ?_,
    fun hd hok hv => ?_, fun hd ho => ?_, fun hd ho hl => ?_, fun hd ho hl => ?_, fun hd hf hn => ?_, fun hd hf => ?_, fun hd => ?_,
    fun hd => ⟨fun hk => ?_, fun k hf hk => ?_⟩⟩
  -- STEP_BEGIN contributes, waits until its attempt number may be used again, or waits for what precedes its reduction
  · exact exec_of_stepRow (rfl : exec _ s = execStepBegin op s) hd hp hc (by simp [hs, hw, Nat.not_lt.2 ht])
  · exact exec_of_stepRow (rfl : exec _ s = execStepBegin op s) hd hp hc (by simp [hs, hw, ht])
  · exact exec_of_stepRow (rfl : exec _ s = execStepBegin op s) hd hp hc (by simp [hs, hw])
  -- STEP_CHECK waits for a mirror task, starts the comparisons, or goes on with the check
  · exact exec_of_stepRow (rfl : exec _ s = execStepCheck op s) hd hp hc (by simp [ht])
  · exact exec_of_stepRow (rfl : exec _ s = execStepCheck op s) hd hp hc (by simp [ht, hr])
  · exact exec_of_stepRow (rfl : exec _ s = execStepCheck op s) hd hp hc (by simp [ht, hr])
  -- STEP_COMMIT has no veto to send, or sends it
  · exact exec_of_stepRow (rfl : exec _ s = execStepCommit op s) hd hp hc (by rcases hv with hv | hv <;> simp [hv])
  · exact exec_of_stepRow (rfl : exec _ s = execStepCommit op s) hd hp hc (by simp [hok, hv])
  -- STEP_VOID with its step open, committed, or not begun
  · exact exec_of_stepRow (rfl : exec _ s = execStepVoid op s) hd hp hc (by simp [hs, ho])
  · exact exec_of_stepRow (rfl : exec _ s = execStepVoid op s) hd hp hc (by simp [hs, ho, hl])
  · exact exec_of_stepRow (rfl : exec _ s = execStepVoid op s) hd hp hc (by simp [hs, ho, Nat.not_le.2 hl])
  -- SNAPSHOT at its run's boundary, or at once
  · exact exec_of_stepRow (rfl : exec _ s = execSnapshot op s) hd hp hc (by simp [hs, hf, hn])
  · exact exec_of_stepRow (rfl : exec _ s = execSnapshot op s) hd hp hc (by rcases hf with hf | hf <;> simp [hs, hf])
  -- CHECKPOINT; CHECKPOINT_VERIFY without and with records to load
  · exact exec_of_stepRow (rfl : exec _ s = execCheckpoint op s) hd hp hc (by simp [hs])
  · exact exec_of_stepRow (rfl : exec _ s = execCheckpointVerify op s) hd hp hc (by rcases hk with hk | hk <;> simp [-Nat.reducePow, hs, hk])
  · exact exec_of_stepRow (rfl : exec _ s = execCheckpointVerify op s) hd hp hc (by simp [-Nat.reducePow, hs, hf, hk])

end Sys2Proof.Machine
end

section
namespace Sys2Proof.Machine

/-! ### Fields of numbers, and table entries without their reserved bits (R6) -/

theorem bitsOf_eq_div_mod (x lo len : Nat) : bitsOf x lo len = x / 2 ^ lo % 2 ^ len := by rw [bitsOf, Nat.shiftRight_eq_div_pow]

/-- A field within the low `n` bits is a field of what they hold. -/
theorem bitsOf_mod_two_pow {lo len n : Nat} (x : Nat) (h : lo + len ≤ n) : bitsOf (x % 2 ^ n) lo len = bitsOf x lo len := by
  obtain ⟨k, rfl⟩ := Nat.exists_eq_add_of_le h
  rw [bitsOf_eq_div_mod, bitsOf_eq_div_mod, Nat.add_assoc, Nat.pow_add, Nat.mod_mul_right_div_self, Nat.pow_add, Nat.mod_mul_right_mod]

theorem fld_ofNat {n lo len : Nat} (x : Nat) (h : lo + len ≤ n) : fld (BitVec.ofNat n x) lo len = bitsOf x lo len := by
  rw [fld, BitVec.toNat_ofNat, bitsOf_mod_two_pow x h]

theorem flag_ofNat {n i : Nat} (x : Nat) (h : i < n) : flag (BitVec.ofNat n x) i = decide (bitsOf x i 1 = 1) := by
  rw [flag, BitVec.getLsbD_ofNat, decide_eq_true h, Bool.true_and, Nat.testBit_eq_decide_div_mod_eq, bitsOf_eq_div_mod, Nat.pow_one]

/-- The low `n` bits and bit 63: what is left of an entry that has no other fields. -/
def lowAndTop (n x : Nat) : Nat := x % 2 ^ n + bitsOf x 63 1 * 2 ^ 63

theorem sumOf_pair (a b : Nat) : sumOf [a, b] = a + b := congrArg (· + b) (Nat.zero_add a)

theorem unreserved_eq_lowAndTop (n : Nat) (es : List (Nat × Nat)) :
    unreserved [(0, n), (63, 1)] es = es.map (fun e => (e.1, lowAndTop n e.2)) := by
  refine List.map_congr_left fun e _ => congrArg (Prod.mk e.1) ?_
  rw [List.map_cons, List.map_cons, List.map_nil, sumOf_pair, lowAndTop, bitsOf_eq_div_mod e.2 0 n, Nat.pow_zero, Nat.div_one, Nat.mul_one]

theorem bitsOf_lowAndTop {lo len n : Nat} (x : Nat) (hn : n ≤ 63) (h : lo + len ≤ n) : bitsOf (lowAndTop n x) lo len = bitsOf x lo len := by
  obtain ⟨k, hk⟩ := Nat.exists_eq_add_of_le hn
  rw [← bitsOf_mod_two_pow (lowAndTop n x) h, ← bitsOf_mod_two_pow x h, lowAndTop, hk, Nat.pow_add, Nat.mul_left_comm, Nat.add_mul_mod_self_left,
    Nat.mod_mod]

theorem bitsOf_lowAndTop_top {n : Nat} (x : Nat) (hn : n ≤ 63) : bitsOf (lowAndTop n x) 63 1 = bitsOf x 63 1 := by
  have h : x % 2 ^ n < 2 ^ 63 := lt_of_lt_of_le (Nat.mod_lt _ (Nat.two_pow_pos n)) (Nat.pow_le_pow_right (by decide) hn)
  have hb : bitsOf x 63 1 < 2 := Nat.mod_lt _ (by decide)
  rw [bitsOf_eq_div_mod (lowAndTop n x), lowAndTop, Nat.add_mul_div_right _ _ (Nat.two_pow_pos 63), Nat.div_eq_of_lt h]
  omega

/-- No entry has a property in what its fields hold, if none has it in its own bits. -/
theorem any_unreserved_eq_false {n : Nat} {es : List (Nat × Nat)} {p : Nat × Nat → Bool} (h : ∀ e ∈ es, p (e.1, lowAndTop n e.2) = false) :
    (unreserved [(0, n), (63, 1)] es).any p = false := by
  rw [unreserved_eq_lowAndTop, List.any_map, List.any_eq_false]
  intro e he
  simp [h e he]

/-! ### What a request's own handling leaves of the state (R428 to R433) -/

@[simp] theorem State.forEnd_runs (s : State) (q : Req) : (s.forEnd q).runs = s.runs := by simp [State.forEnd, State.opened]
@[simp] theorem State.forEnd_run (s : State) (q : Req) (j : Nat) : (s.forEnd q).run j = s.run j := by simp [State.run]
@[simp] theorem State.forEnd_memsys (s : State) (q : Req) : (s.forEnd q).memsys = s.memsys := by simp [State.forEnd, State.opened]
@[simp] theorem State.forEnd_ctxs (s : State) (q : Req) : (s.forEnd q).ctxs = s.ctxs := by simp [State.forEnd, State.opened]
@[simp] theorem State.forEnd_ctx (s : State) (q : Req) (j : Nat) : (s.forEnd q).ctx j = s.ctx j := by simp [State.ctx]
@[simp] theorem State.forWrite_run (s : State) (q : Req) (j : Nat) : (s.forWrite q).run j = s.run j := by simp [State.forWrite, State.opened]
@[simp] theorem State.forWrite_memsys (s : State) (q : Req) : (s.forWrite q).memsys = s.memsys := by simp [State.forWrite, State.opened]
@[simp] theorem State.forWrite_store (s : State) (q : Req) : (s.forWrite q).store = s.store := by simp [State.forWrite, State.opened]

/-- Taking out a request's packet touches the host ports' links alone. -/
theorem State.forEnd_links (s : State) (q : Req) : (s.forEnd q).links = { s.links with host := (s.forEnd q).links.host } := by
  simp only [State.forEnd, State.opened, State.updReq_links, State.touch_links]
  cases q.who <;> rfl

/-- A response touches the host ports' links alone. -/
theorem State.respond_links (s : State) (w : Requester) (r : Response) : (s.respond w r).links = { s.links with host := (s.respond w r).links.host } := by
  simp only [State.respond, State.updReq_links]
  cases w <;> rfl

@[simp] theorem State.forEnd_podRoutes (s : State) (q : Req) : (s.forEnd q).links.podRoutes = s.links.podRoutes := by rw [State.forEnd_links]
@[simp] theorem State.forEnd_groups (s : State) (q : Req) : (s.forEnd q).links.groups = s.links.groups := by rw [State.forEnd_links]
@[simp] theorem State.forEnd_windows (s : State) (q : Req) : (s.forEnd q).links.windows = s.links.windows := by rw [State.forEnd_links]
@[simp] theorem State.forEnd_rings (s : State) (q : Req) : (s.forEnd q).links.rings = s.links.rings := by rw [State.forEnd_links]
@[simp] theorem State.respond_podRoutes (s : State) (w : Requester) (r : Response) : (s.respond w r).links.podRoutes = s.links.podRoutes := by
  rw [State.respond_links]
@[simp] theorem State.respond_groups (s : State) (w : Requester) (r : Response) : (s.respond w r).links.groups = s.links.groups := by
  rw [State.respond_links]
@[simp] theorem State.respond_windows (s : State) (w : Requester) (r : Response) : (s.respond w r).links.windows = s.links.windows := by
  rw [State.respond_links]
@[simp] theorem State.respond_rings (s : State) (w : Requester) (r : Response) : (s.respond w r).links.rings = s.links.rings := by
  rw [State.respond_links]

/-- What the store holds is read back after it was written, whichever copy was in use (R419). -/
@[simp] theorem State.store_setStore (s : State) (v : Store) : (s.setStore v).store = v := by
  simp only [State.setStore, State.store, Flash.saveStore]
  split
  · rename_i h
    simp [Flash.store, show ¬ s.flash.storeA.gen + 1 ≤ s.flash.storeA.gen by omega]
  · simp [Flash.store, show s.flash.storeB.gen ≤ s.flash.storeB.gen + 1 by omega]

@[simp] theorem State.run_setRun_same (s : State) (k : Nat) (r : Run) : (s.setRun k r).run k = r := by simp [State.setRun, State.run]

/-! ### Requests that reach their object -/

/-- A DOMAIN_END that reaches its object answers the state of the object's action. -/
theorem exec_of_ends {s u : State} {q : Req} {i sub : Nat} {sha : Digest} {tr : Transfer} {x : Instr} {act : State → Transfer → State × Code} {c : Code}
    (h : Ends s q i sub sha tr) (hx : exec x s = .next (s.dictEnd q i sub sha act).1) (ha : act (s.forEnd q) tr = (u, c)) :
    exec x s = .next (u.respond q.who (answerOf q 6 i sub c [])) := by
  rw [hx, dictEnd_of_ends s q i sub sha tr act h, ha]

/-- What holds of the action's state and outlasts the response holds after the command. -/
theorem gives_of_ends {s u : State} {q : Req} {i sub : Nat} {sha : Digest} {tr : Transfer} {x : Instr} {act : State → Transfer → State × Code} {c : Code}
    {P : State → Prop} (h : Ends s q i sub sha tr) (hx : exec x s = .next (s.dictEnd q i sub sha act).1) (ha : act (s.forEnd q) tr = (u, c))
    (hP : ∀ r, P (u.respond q.who r)) : Gives x s P := ⟨_, exec_of_ends h hx ha, hP _⟩

/-- A WRITE that reaches its object answers the state of the object's action. -/
theorem exec_of_writes {s u : State} {q : Req} {i sub : Nat} {bs : List Byte} {x : Instr} {act : State → State × Code} {c : Code}
    (h : Writes s q i sub bs.length) (hx : exec x s = .next (s.dictWrite q i sub bs act).1) (ha : act (s.forWrite q) = (u, c)) :
    exec x s = .next (u.respond q.who (answerOf q 2 i sub c [])) := by
  rw [hx, dictWrite_of_writes s q i sub bs act h, ha]

theorem gives_of_writes {s u : State} {q : Req} {i sub : Nat} {bs : List Byte} {x : Instr} {act : State → State × Code} {c : Code} {P : State → Prop}
    (h : Writes s q i sub bs.length) (hx : exec x s = .next (s.dictWrite q i sub bs act).1) (ha : act (s.forWrite q) = (u, c))
    (hP : ∀ r, P (u.respond q.who r)) : Gives x s P := ⟨_, exec_of_writes h hx ha, hP _⟩

/-! ### Single objects (R437) -/

theorem exec_objectWrite_value {q : Req} {index : BitVec 16} {sub : Byte} (s : State) (bs : List Byte) (h : ownRow index.toNat sub.toNat = false) :
    exec (.objectWrite q index sub (.value bs)) s =
      .next (s.dictWrite q index.toNat sub.toNat bs (fun s => s.writePlain q.who index.toNat sub.toNat (leNat bs))).1 := by
  change execObjectWrite q index sub (.value bs) s = _
  simp only [execObjectWrite, h, Bool.false_eq_true, if_false]

/-- A plain WRITE answers what its object's check says. -/
theorem objectWrite_value {s : State} {q : Req} {index : BitVec 16} {sub : Byte} {bs : List Byte} (h : ownRow index.toNat sub.toNat = false)
    (hw : Writes s q index.toNat sub.toNat bs.length) :
    let r := (s.forWrite q).writePlain q.who index.toNat sub.toNat (leNat bs)
    exec (.objectWrite q index sub (.value bs)) s = .next (r.1.respond q.who (answerOf q 2 index.toNat sub.toNat r.2 [])) :=
  exec_of_writes hw (exec_objectWrite_value s bs h) rfl

/-- A warning threshold within its range is stored. -/
theorem writePlain_tempWarn (s : State) (w : Requester) (v : Nat) (h1 : 400 ≤ v) (h2 : v + 40 ≤ s.store.tempStop.toNat) (h3 : v ≤ 880) :
    s.writePlain w 0x2000 3 v = (s.setStore { s.store with tempWarn := BitVec.ofNat 16 v }, cOk) := by
  simp [State.writePlain, ranged, h1, h2, h3]

theorem tempWarn_stored {s : State} {q : Req} {v : BitVec 16} (hw : Writes s q 0x2000 3 2) (h1 : 400 ≤ v.toNat)
    (h2 : v.toNat + 40 ≤ s.store.tempStop.toNat) (h3 : v.toNat ≤ 880) :
    Gives (.objectWrite q 0x2000 3 (.value (leBytes 2 v.toNat))) s (fun t => t.store = { s.store with tempWarn := v }) := by
  have hv : leNat (leBytes 2 v.toNat) = v.toNat := (leNat_leBytes 2 v.toNat).trans (Nat.mod_eq_of_lt v.isLt)
  refine gives_of_writes (i := 0x2000) (sub := 3) (by rwa [leBytes_length]) (exec_objectWrite_value s _ rfl) ?_ (c := cOk)
    (u := (s.forWrite q).setStore { s.store with tempWarn := v }) (fun r => by simp)
  have := writePlain_tempWarn (s.forWrite q) q.who v.toNat h1 (by rwa [State.forWrite_store]) h3
  rw [hv]
  simpa using this

/-! ### Tables (R265, R270, R316, R336, R450, R452, R500) -/

section
variable {s : State} {q : Req} {sha : BitVec 512} {tr : Transfer}

theorem exec_objectWrite_podRoutes : exec (.objectWrite q 0x7200 3 (.domainEnd sha)) s =
    .next (s.dictEnd q 0x7200 3 sha (fun s t => s.writeTable 0x7200 3 t)).1 := by
  have h : isVendorCert 0x7200 3 = false := by
    have : (0x7200 : Nat) ≠ 0x8000 + Config.vendorCertObject.1.toNat := by omega
    simp [isVendorCert, this]
  change execObjectWrite q 0x7200 3 (.domainEnd sha) s = _
  have ho : ownRow 0x7200 3 = false := rfl
  simp [execObjectWrite, ho, h]

theorem podRoutes_stored (h : Ends s q 0x7200 3 sha tr) : Gives (.objectWrite q 0x7200 3 (.domainEnd sha)) s (fun t =>
    t.links.podRoutes = setEntries s.links.podRoutes (unreserved routeFields (entriesOf 8 tr)) ∧ t.runs = s.runs) :=
  gives_of_ends h exec_objectWrite_podRoutes rfl (fun r => by simp)

theorem groups_stored (h : Ends s q 0x7000 2 sha tr) (ho : ∀ e ∈ entriesOf 16 tr, (s.forEnd q).groupOk (BitVec.ofNat 128 e.2) = true) :
    Gives (.groupTableWrite q sha) s (fun t => t.links.groups = setEntries s.links.groups (entriesOf 16 tr) ∧ t.runs = s.runs ∧ t.memsys = s.memsys) :=
  gives_of_ends h (rfl : exec _ s = execGroupTableWrite q sha s) (if_pos (List.all_eq_true.2 ho)) (fun r => by simp)

theorem groups_refused (h : Ends s q 0x7000 2 sha tr) (ho : ∃ e ∈ entriesOf 16 tr, (s.forEnd q).groupOk (BitVec.ofNat 128 e.2) = false) :
    Gives (.groupTableWrite q sha) s (fun t => t.links.groups = s.links.groups ∧ t.memsys = s.memsys) := by
  obtain ⟨e, he, hn⟩ := ho
  refine gives_of_ends h (rfl : exec _ s = execGroupTableWrite q sha s)
    (if_neg fun hall => by simp [List.all_eq_true.1 hall e he] at hn) (fun r => ?_)
  rw [State.respond_groups, State.respond_memsys]
  refine foldl_keeps (fun t : State => t.links.groups = s.links.groups ∧ t.memsys = s.memsys) _ (fun t e ht => ?_) _ _ (by simp)
  split
  · exact ht
  · simpa using ht

theorem replicaTable_stored (h : Ends s q 0x7002 2 sha tr) (ho : ∀ e ∈ entriesOf 8 tr, ¬(bitsOf e.2 63 1 = 1 ∧
      (s.groupE (bitsOf e.2 32 16)).valid = true ∧ (s.groupE (bitsOf e.2 32 16)).size = 1)) :
    Gives (.replicaTableWrite q sha) s (fun t => t.run tr.runSlot = { s.run tr.runSlot with
      replicaTable := setEntries (s.run tr.runSlot).replicaTable (unreserved [(0, 48), (63, 1)] (entriesOf 8 tr)) } ∧ t.memsys = s.memsys) := by
  refine gives_of_ends h (rfl : exec _ s = execReplicaTableWrite q sha s) (if_neg ?_) (fun r => by simp)
  rw [any_unreserved_eq_false]
  · exact Bool.false_ne_true
  · intro e he
    rw [Bool.eq_false_iff]
    intro hb
    refine ho e he ?_
    simpa [State.groupE, bitsOf_lowAndTop, bitsOf_lowAndTop_top, and_assoc] using hb

theorem BankPair.ctx_lowAndTop (v : Nat) : BankPair.ctx (BitVec.ofNat 64 (lowAndTop 32 v)) = BankPair.ctx (BitVec.ofNat 64 v) := by
  simp [BankPair.ctx, fld_ofNat, bitsOf_lowAndTop]

theorem BankPair.set0_lowAndTop (v : Nat) : BankPair.set0 (BitVec.ofNat 64 (lowAndTop 32 v)) = BankPair.set0 (BitVec.ofNat 64 v) := by
  simp [BankPair.set0, fld_ofNat, bitsOf_lowAndTop]

theorem BankPair.set1_lowAndTop (v : Nat) : BankPair.set1 (BitVec.ofNat 64 (lowAndTop 32 v)) = BankPair.set1 (BitVec.ofNat 64 v) := by
  simp [BankPair.set1, fld_ofNat, bitsOf_lowAndTop]

theorem BankPair.valid_lowAndTop (v : Nat) : BankPair.valid (BitVec.ofNat 64 (lowAndTop 32 v)) = BankPair.valid (BitVec.ofNat 64 v) := by
  simp [BankPair.valid, flag_ofNat, bitsOf_lowAndTop_top]

theorem bankPairs_stored (h : Ends s q 0x7002 5 sha tr) :
    let r : Run := { s.run tr.runSlot with bankPairs := setEntries (s.run tr.runSlot).bankPairs (unreserved [(0, 32), (63, 1)] (entriesOf 8 tr)) }
    let size (c k : Nat) : Nat := if ((s.ctx c).region k).valid then ((s.ctx c).region k).size else 0
    (∀ e ∈ entriesOf 8 tr, let p : BankPair := BitVec.ofNat 64 e.2
      (p.valid = true → (r.pairsOf p.ctx).length ≤ 32 ∧ size p.ctx p.set0 = size p.ctx p.set1)) →
    Gives (.bankPairsWrite q sha) s (fun t => t.run tr.runSlot = r ∧ t.memsys = s.memsys) := by
  intro r size ho
  refine gives_of_ends h (rfl : exec _ s = execBankPairsWrite q sha s) ((if_neg ?_).trans (if_neg ?_)) (fun z => by simp [r])
  · rw [any_unreserved_eq_false fun e he => ?_]
    · exact Bool.false_ne_true
    · simpa [BankPair.ctx_lowAndTop, BankPair.valid_lowAndTop] using fun hv => (ho e he hv).1
  · rw [any_unreserved_eq_false fun e he => ?_]
    · exact Bool.false_ne_true
    · simpa [BankPair.ctx_lowAndTop, BankPair.valid_lowAndTop, BankPair.set0_lowAndTop, BankPair.set1_lowAndTop] using fun hv => (ho e he hv).2

theorem stateTensors_stored (h : Ends s q 0x7002 6 sha tr) (hn : (s.run tr.runSlot).openStep = none)
    (ho : ∀ e ∈ entriesOf 128 tr, ({ s.run tr.runSlot with
      stateTensors := setEntries (s.run tr.runSlot).stateTensors (entriesOf 128 tr) } : Run).stateOk (BitVec.ofNat 1024 e.2) = true) :
    Gives (.stateTensorsWrite q sha) s (fun t => t.run tr.runSlot = { s.run tr.runSlot with
      stateTensors := setEntries (s.run tr.runSlot).stateTensors (entriesOf 128 tr) } ∧ t.memsys = s.memsys) := by
  refine gives_of_ends h (rfl : exec _ s = execStateTensorsWrite q sha s) ((if_neg ?_).trans (if_pos ?_)) (fun r => by simp)
  · simp [hn]
  · rw [State.forEnd_run]
    exact List.all_eq_true.2 ho

theorem windows_stored (h : Ends s q 0x5130 0x28 sha tr) (ho : ∀ e ∈ entriesOf 8 tr, bitsOf e.2 58 5 = 0 ∧ bitsOf e.2 0 12 = 0 ∧
      bitsOf e.2 0 56 + 2 ^ 37 ≤ 2 ^ 56 ∧ (s.windowUsed e.1 = true → flag (NMap.getD s.links.windows e.1 0) 63 = true →
        (NMap.getD s.links.windows e.1 0).toNat = e.2)) :
    Gives (.hostWindowsWrite q sha) s (fun t => t.links.windows = setEntries s.links.windows (entriesOf 8 tr) ∧ t.runs = s.runs) := by
  refine gives_of_ends h (rfl : exec _ s = execHostWindowsWrite q sha s) ((if_neg ?_).trans (if_neg ?_)) (fun r => by simp)
  · rw [List.any_eq_true]
    rintro ⟨e, he, hb⟩
    obtain ⟨h1, h2, h3, -⟩ := ho e he
    simp [h1, h2] at hb
    omega
  · rw [List.any_eq_true]
    rintro ⟨e, he, hb⟩
    obtain ⟨-, -, -, h4⟩ := ho e he
    simp only [State.forEnd_windows, State.windowUsed, State.forEnd_ctxs, Bool.and_eq_true, bne_iff_ne] at hb
    exact hb.1.2 (h4 hb.2 hb.1.1)

theorem rings_stored (h : Ends s q 0x5130 0x29 sha tr) (ho : ∀ e ∈ entriesOf 16 tr, (bitsOf e.2 63 1 = 1 →
      isHost (bitsOf e.2 0 48) = true ∧ bitsOf e.2 0 12 = 0 ∧ 4 ≤ bitsOf e.2 48 5 ∧ bitsOf e.2 48 5 ≤ 20)) :
    Gives (.recordRingsWrite q sha) s (fun t => t.links.rings = setEntries s.links.rings
      ((unreserved [(0, 53), (63, 1)] (entriesOf 16 tr)).map (fun e => (e.1, e.2 + fld (NMap.getD s.links.rings e.1 0) 64 64 * 2 ^ 64)))) := by
  refine gives_of_ends h (rfl : exec _ s = execRecordRingsWrite q sha s) (if_neg ?_) (fun r => by simp)
  rw [any_unreserved_eq_false fun e he => ?_]
  · exact Bool.false_ne_true
  · by_cases hv : bitsOf e.2 63 1 = 1
    · obtain ⟨h1, h2, h3, h4⟩ := ho e he hv
      simp [bitsOf_lowAndTop, bitsOf_lowAndTop_top, hv, h1, h2, h3, h4]
    · simp [bitsOf_lowAndTop_top, hv]

/-! ### Runs, their Almanacs and certificates (R28 to R31, R438, R475) -/

theorem refAlmanac_stored (h : Ends s q 0x7001 5 sha tr) :
    let bs := fitBytes tr.offset (((s.run tr.runSlot).refAlmanac).getD []) ++ tr.got
    almFraming bs = true → Gives (.refAlmanac q sha) s (fun t => t.run tr.runSlot = { s.run tr.runSlot with refAlmanac := some bs }) := by
  intro bs hb
  refine gives_of_ends h (rfl : exec _ s = execRefAlmanac q sha s) (if_pos ?_) (fun r => by simp [bs])
  rwa [State.forEnd_run]

/-- A run has the state, the run-open record, the last committed step and the open step it had. -/
structure Run.SameProgress (a b : Run) : Prop where
  state : a.state = b.state
  rec_ : a.rec_ = b.rec_
  lastCommitted : a.lastCommitted = b.lastCommitted
  openStep : a.openStep = b.openStep

theorem Run.SameProgress.refl (r : Run) : r.SameProgress r := ⟨rfl, rfl, rfl, rfl⟩

theorem Run.SameProgress.trans {a b c : Run} (h : a.SameProgress b) (g : b.SameProgress c) : a.SameProgress c :=
  ⟨h.state.trans g.state, h.rec_.trans g.rec_, h.lastCommitted.trans g.lastCommitted, h.openStep.trans g.openStep⟩

/-- Every run has the progress it had, and memory is as before. -/
structure ProgressKept (s t : State) : Prop where
  memsys : t.memsys = s.memsys
  run : ∀ j, (t.run j).SameProgress (s.run j)

theorem ProgressKept.refl (s : State) : ProgressKept s s := ⟨rfl, fun _ => .refl _⟩

theorem ProgressKept.trans {s t u : State} (a : ProgressKept s t) (b : ProgressKept t u) : ProgressKept s u :=
  ⟨b.memsys.trans a.memsys, fun j => (b.run j).trans (a.run j)⟩

theorem progressKept_updRun (s : State) (k : Nat) (f : Run → Run) (hf : ∀ r, (f r).SameProgress r) : ProgressKept s (s.updRun k f) := by
  refine ⟨rfl, fun j => ?_⟩
  by_cases h : j = k
  · subst h; rw [State.run_updRun_same]; exact hf _
  · rw [State.run_updRun_other _ _ _ _ h]; exact .refl _

theorem Run.almDrop_sameProgress (r : Run) (n : Nat) : (r.almDrop n).SameProgress r := by
  unfold Run.almDrop
  split <;> exact ⟨rfl, rfl, rfl, rfl⟩

theorem progressKept_almTrim (n : Nat) (s : State) : ProgressKept s (s.almTrim n) := by
  induction n generalizing s with
  | zero => exact .refl s
  | succ n ih =>
    simp only [State.almTrim]
    split
    · exact .refl s
    · split
      · exact .refl s
      · exact (progressKept_updRun _ _ _ fun r => r.almDrop_sameProgress _).trans (ih _)

/-- Appending to an Almanac is no progress of a run (R30). -/
theorem progressKept_almAppend (s : State) (slot : Nat) (bs : List Byte) : ProgressKept s (s.almAppend slot bs) :=
  (progressKept_updRun s slot (fun r => { r with sha := r.sha.absorb bs, almWindow := r.almWindow ++ bs, almParts := r.almParts ++ [(s.now, bs.length)] })
    fun _ => ⟨rfl, rfl, rfl, rfl⟩).trans (progressKept_almTrim _ _)

@[simp] theorem State.dropMirror_run (s : State) (k j : Nat) : (s.dropMirror k).run j = s.run j := rfl
@[simp] theorem State.dropMirror_memsys (s : State) (k : Nat) : (s.dropMirror k).memsys = s.memsys := rfl

theorem runOpen_opens (h : Ends s q 0x7001 1 sha tr) (ho : (s.forEnd q).openCode tr.runSlot (BitVec.ofNat 1024 (leNat tr.got)) = cOk) :
    Gives (.runOpen q sha) s (fun t => (t.run tr.runSlot).state = .open_ ∧ (t.run tr.runSlot).rec_ = BitVec.ofNat 1024 (leNat tr.got) ∧
      (t.run tr.runSlot).lastCommitted = fld (BitVec.ofNat 1024 (leNat tr.got)) 296 40 ∧ (t.run tr.runSlot).openStep = none ∧ t.memsys = s.memsys) := by
  refine gives_of_ends h (rfl : exec _ s = execRunOpen q sha s) (if_neg (by simp [ho])) (fun r => ?_)
  generalize hu : ((s.forEnd q).updRun tr.runSlot (fun r => r.opened (BitVec.ofNat 1024 (leNat tr.got)))).dropMirror tr.runSlot = u
  have hm : u.memsys = s.memsys := by simp [← hu]
  have hr : u.run tr.runSlot = (s.run tr.runSlot).opened (BitVec.ofNat 1024 (leNat tr.got)) := by simp [← hu]
  have hk := progressKept_almAppend u tr.runSlot (almHeader (u.run tr.runSlot))
  obtain ⟨hstate, hrec, hlast, hstep⟩ := hk.run tr.runSlot
  rw [State.respond_run_, State.respond_memsys, hstate, hrec, hlast, hstep, hk.memsys, hr, hm]
  exact ⟨rfl, rfl, rfl, rfl, rfl⟩

theorem almanacAppend_appends (h : Ends s q 0x7003 4 sha tr) (hopen : (s.run tr.runSlot).isOpen = true) (hn : (s.run tr.runSlot).openStep = none)
    {es : List AlmEntry} (he : almEntries 3 (tr.got.length / 16 + 1) tr.got = some es)
    (hs : ∀ e ∈ es, if e.etype = 3 then (s.run tr.runSlot).lastCommitted < e.estep else e.estep = (s.run tr.runSlot).lastCommitted) :
    exec (.almanacAppend q sha) s = .next (((s.forEnd q).almAppend tr.runSlot tr.got).answered q 6 0x7003 4) := by
  refine exec_of_ends h (rfl : exec _ s = execAlmanacAppend q sha s) (c := cOk) ?_
  have hall : (es.all fun e => if e.etype = 3 then decide ((s.run tr.runSlot).lastCommitted < e.estep)
      else e.estep == (s.run tr.runSlot).lastCommitted) = true := by
    refine List.all_eq_true.2 fun e hm => ?_
    have := hs e hm
    split at this <;> simp_all
  simp [hopen, hn, he, hall]

/-- A certificate begins with its magic number, so it is not empty (Table 18.4). -/
theorem State.certBody_ne_nil (s : State) (slot : Nat) (closed : Bool) : s.certBody slot closed ≠ [] := by
  have magic : leBytes 2 0x4C43 ≠ [] := List.cons_ne_nil _ _
  delta State.certBody
  simp only [ne_eq, List.append_eq_nil_iff, magic, false_and, not_false_eq_true]

@[simp] theorem State.issueCert_memsys (s : State) (slot : Nat) (closed : Bool) : (s.issueCert slot closed).memsys = s.memsys := rfl

theorem State.lineageCert_issueCert_ne_nil (s : State) (slot : Nat) (closed : Bool) : ((s.issueCert slot closed).run slot).lineageCert ≠ [] := by
  rw [State.issueCert, State.run_updRun_same]
  exact List.append_ne_nil_of_left_ne_nil (s.certBody_ne_nil slot closed) _

theorem State.run_issueCert_other (s : State) {slot j : Nat} (closed : Bool) (h : j ≠ slot) : (s.issueCert slot closed).run j = s.run j :=
  State.run_updRun_other _ _ _ _ h

end

section
variable {s : State} {q : Req} {slot : Nat}

theorem runClose_closes (hsel : (s.forWrite q).selected q.who = some slot) (hopen : (s.run slot).isOpen = true) (h : Writes s q 0x7001 2 1)
    (hn : (s.run slot).openStep = none) : Gives (.runClose q 1) s (fun t => (t.run slot).state = .closed ∧ (t.run slot).refAlmanac = none ∧
      (t.run slot).almWindow = [] ∧ (t.run slot).lineageCert ≠ [] ∧ (∀ j, j ≠ slot → t.run j = s.run j) ∧ t.memsys = s.memsys) := by
  refine gives_of_writes (bs := [1]) h (rfl : exec _ s = execRunClose q 1 s) ?_ (fun r => ?_) (c := cOk)
    (u := (((s.forWrite q).issueCert slot true).updRun slot (fun r => { r with
      state := .closed, refAlmanac := none, almWindow := [], almParts := [], almBase := r.sha.len })).dropMirror slot)
  · simp [hsel, hopen, hn]
  · simp only [State.respond_run_, State.dropMirror_run, State.run_updRun_same, State.respond_memsys, State.dropMirror_memsys, State.updRun_memsys,
      State.issueCert_memsys, State.forWrite_memsys, true_and, and_true]
    refine ⟨State.lineageCert_issueCert_ne_nil _ _ _, fun j hj => ?_⟩
    rw [State.run_updRun_other _ _ _ _ hj, State.run_issueCert_other _ _ hj, State.forWrite_run]

theorem lineageRequest_held (hsel : (s.forWrite q).selected q.who = some slot) (hopen : (s.run slot).isOpen = true) (h : Writes s q 0x7003 1 1)
    (hn : (s.run slot).openStep.isSome = true) :
    Gives (.lineageRequest q 1) s (fun t => t.run slot = { s.run slot with lineageHeld := true }) := by
  refine gives_of_writes (bs := [1]) h (rfl : exec _ s = execLineageRequest q 1 s) (c := cOk)
    (u := (s.forWrite q).updRun slot (fun r => { r with lineageHeld := true })) ?_ (fun r => by simp)
  simp [hsel, hopen, hn]

theorem lineageRequest_issues (hsel : (s.forWrite q).selected q.who = some slot) (hopen : (s.run slot).isOpen = true) (h : Writes s q 0x7003 1 1)
    (hn : (s.run slot).openStep = none) : exec (.lineageRequest q 1) s = .next (((s.forWrite q).issueCert slot false).answered q 2 0x7003 1) := by
  refine exec_of_writes (bs := [1]) h (rfl : exec _ s = execLineageRequest q 1 s) (c := cOk) ?_
  simp [hsel, hopen, hn]

end

/-- Settles O51: each command reaches its object's own action, whose checks pass by the hypotheses; what the action writes outlasts the response. -/
theorem objectsAndRunsAreWritten : Obligations.ObjectsAndRunsAreWritten := by
  unfold Obligations.ObjectsAndRunsAreWritten
  refine ⟨fun s q index sub bs ho hw => objectWrite_value ho hw, fun s q v hw h1 h2 h3 => tempWarn_stored hw h1 h2 h3, fun s q sha tr => ?_,
    fun s q slot hsel hopen => ⟨fun h hn => runClose_closes hsel hopen h hn, fun h => ⟨fun hn => lineageRequest_held hsel hopen h hn,
      fun hn => lineageRequest_issues hsel hopen h hn⟩⟩⟩
  exact ⟨podRoutes_stored, groups_stored, groups_refused, replicaTable_stored, bankPairs_stored, stateTensors_stored, windows_stored, rings_stored,
    refAlmanac_stored, fun h hopen hn es he hs => almanacAppend_appends h hopen hn he hs, runOpen_opens⟩

end Sys2Proof.Machine
end

section
namespace Sys2Proof.Machine

/-! ### Two's complement (R3) and the fields of XB16 and XP40 headers (R46) -/

theorem intBits_lt (w : Nat) (z : Int) : intBits w z < 2 ^ w := by
  have h0 : ((2 ^ w : Nat) : Int) ≠ 0 := by exact_mod_cast (Nat.two_pow_pos w).ne'
  have := Int.emod_nonneg z h0
  have := Int.emod_lt_of_pos z (b := (2 ^ w : Nat)) (by exact_mod_cast Nat.two_pow_pos w)
  unfold intBits
  omega

/-- Only the low `w` bits of a number count. -/
theorem signedOf_mod (w n : Nat) : signedOf w (n % 2 ^ w) = signedOf w n := by simp only [signedOf, Nat.mod_mod]

/-- The two's-complement reading of a number is its balanced remainder. -/
theorem signedOf_succ_eq_bmod (w n : Nat) : signedOf (w + 1) n = (n : Int).bmod (2 ^ (w + 1)) := by
  have hp : 2 ^ (w + 1) = 2 * 2 ^ w := by rw [Nat.pow_succ, Nat.mul_comm]
  rw [signedOf, Int.bmod_def, Nat.add_sub_cancel, hp, ← Int.natCast_emod]
  split <;> split <;> omega

/-- Storing an integer in two's complement and reading it again reduces it to its balanced remainder. -/
theorem signedOf_intBits_eq_bmod (w : Nat) (z : Int) : signedOf (w + 1) (intBits (w + 1) z) = z.bmod (2 ^ (w + 1)) := by
  have h0 : ((2 ^ (w + 1) : Nat) : Int) ≠ 0 := by exact_mod_cast (Nat.two_pow_pos _).ne'
  rw [signedOf_succ_eq_bmod, intBits, Int.toNat_of_nonneg (Int.emod_nonneg z h0), Int.emod_bmod]

@[simp] theorem signedOf_intBits_signedOf (w n : Nat) : signedOf (w + 1) (intBits (w + 1) (signedOf (w + 1) n)) = signedOf (w + 1) n := by
  rw [signedOf_intBits_eq_bmod, signedOf_succ_eq_bmod, Int.bmod_bmod]

section
variable (e : Int) (v n : Bool) {t : Nat}

theorem xbHeader_mod (t : Nat) : xbHeader e v n t % 2 ^ 16 = intBits 16 e := by
  have := intBits_lt 16 e
  unfold xbHeader
  split <;> split <;> omega

theorem xbHeader_lt (ht : t < 2 ^ 32) : xbHeader e v n t < 2 ^ 64 := by
  have := intBits_lt 16 e
  unfold xbHeader
  split <;> split <;> omega

theorem xbExp_xbHeader (t : Nat) : xbExp (xbHeader e v n t) = signedOf 16 (intBits 16 e) := by
  rw [xbExp, ← signedOf_mod, xbHeader_mod]

theorem xbOvf_xbHeader (t : Nat) : xbOvf (xbHeader e v n t) = v := by
  have := intBits_lt 16 e
  rw [xbOvf, bitsOf_eq_div_mod, xbHeader]
  cases v <;> cases n <;> simp <;> omega

theorem xbNf_xbHeader (t : Nat) : xbNf (xbHeader e v n t) = n := by
  have := intBits_lt 16 e
  rw [xbNf, bitsOf_eq_div_mod, xbHeader]
  cases v <;> cases n <;> simp <;> omega

theorem xbTally_xbHeader (ht : t < 2 ^ 32) : xbTally (xbHeader e v n t) = t := by
  have := intBits_lt 16 e
  rw [xbTally, bitsOf_eq_div_mod, xbHeader]
  split <;> split <;> omega

end

/-! ### The addition of headers (R49): every field of the sum -/

theorem xbTally_add_lt (a b : Nat) : min (xbTally a + xbTally b) 0xFFFFFFFF < 2 ^ 32 := (min_le_right _ _).trans_lt (by decide)

theorem hdrAdd_lt (a b : Nat) : hdrAdd a b < 2 ^ 64 := xbHeader_lt _ _ _ (xbTally_add_lt a b)

@[simp] theorem xbExp_hdrAdd (a b : Nat) : xbExp (hdrAdd a b) = xbExp a := by
  rw [hdrAdd, xbExp_xbHeader]
  exact signedOf_intBits_signedOf 15 a

@[simp] theorem xbOvf_hdrAdd (a b : Nat) : xbOvf (hdrAdd a b) = (xbOvf a || xbOvf b) := xbOvf_xbHeader _ _ _ _

@[simp] theorem xbNf_hdrAdd (a b : Nat) : xbNf (hdrAdd a b) = (xbNf a || xbNf b) := xbNf_xbHeader _ _ _ _

@[simp] theorem xbTally_hdrAdd (a b : Nat) : xbTally (hdrAdd a b) = min (xbTally a + xbTally b) 0xFFFFFFFF :=
  xbTally_xbHeader _ _ _ (xbTally_add_lt a b)

/-- Two headers may be added in either order: the flags are or-reduced, and a tally at its limit stays there. -/
theorem hdrAdd_right_comm (o a b : Nat) : hdrAdd (hdrAdd o a) b = hdrAdd (hdrAdd o b) a := by
  have htally : min (min (xbTally o + xbTally a) 0xFFFFFFFF + xbTally b) 0xFFFFFFFF =
      min (min (xbTally o + xbTally b) 0xFFFFFFFF + xbTally a) 0xFFFFFFFF := by omega
  change xbHeader _ _ _ _ = xbHeader _ _ _ _
  simp only [xbExp_hdrAdd, xbOvf_hdrAdd, xbNf_hdrAdd, xbTally_hdrAdd, htally, Bool.or_right_comm]

/-! ### A block with a contribution added (R49, R84) -/

/-- Block `o` with contribution `a` added: the block that `ExInst.addBlock` stores. -/
def BlockAcc.plus (o a : BlockAcc) : BlockAcc :=
  ⟨o.idx, BitVec.ofNat 64 (hdrAdd o.hdr.toNat a.hdr.toNat), if o.obs.toInt < a.obs.toInt then a.obs else o.obs,
    List.zipWith (· + ·) o.elems a.elems⟩

/-- The checks of R47 and R50, which `a` passes to be added to `o`. -/
def BlockAcc.Takes (o a : BlockAcc) : Prop := xbExpOk (xbExp a.hdr.toNat) = true ∧ xbExp a.hdr.toNat = xbExp o.hdr.toNat

@[simp] theorem BlockAcc.plus_idx (o a : BlockAcc) : (o.plus a).idx = o.idx := by rw [BlockAcc.plus]

@[simp] theorem BlockAcc.plus_elems (o a : BlockAcc) : (o.plus a).elems = List.zipWith (· + ·) o.elems a.elems := by rw [BlockAcc.plus]

@[simp] theorem BlockAcc.plus_hdr_toNat (o a : BlockAcc) : (o.plus a).hdr.toNat = hdrAdd o.hdr.toNat a.hdr.toNat := by
  rw [BlockAcc.plus, BitVec.toNat_ofNat, Nat.mod_eq_of_lt (hdrAdd_lt _ _)]

@[simp] theorem BlockAcc.plus_obs_toInt (o a : BlockAcc) : (o.plus a).obs.toInt = max o.obs.toInt a.obs.toInt := by
  unfold BlockAcc.plus
  split
  case isTrue h => exact (max_eq_right h.le).symm
  case isFalse h => exact (max_eq_left (not_lt.1 h)).symm

/-- A block is determined by its number, the values of its header and observation, and its elements. -/
theorem BlockAcc.eq_of_values {c d : BlockAcc} (hi : c.idx = d.idx) (hh : c.hdr.toNat = d.hdr.toNat) (ho : c.obs.toInt = d.obs.toInt)
    (he : c.elems = d.elems) : c = d := by
  cases c
  cases d
  cases hi
  cases he
  cases BitVec.eq_of_toNat_eq hh
  cases BitVec.eq_of_toInt_eq ho
  rfl

/-- Element sums do not depend on the order of two contributions, of whatever lengths. -/
theorem zipWith_add_right_comm (l m n : List Int) :
    List.zipWith (· + ·) (List.zipWith (· + ·) l m) n = List.zipWith (· + ·) (List.zipWith (· + ·) l n) m := by
  induction l generalizing m n with
  | nil => rfl
  | cons x l ih =>
    cases m with
    | nil => cases n <;> rfl
    | cons y m =>
      cases n with
      | nil => rfl
      | cons z n => exact congrArg₂ List.cons (add_right_comm x y z) (ih m n)

theorem BlockAcc.plus_right_comm (o a b : BlockAcc) : (o.plus a).plus b = (o.plus b).plus a := by
  apply BlockAcc.eq_of_values
  · simp only [BlockAcc.plus_idx]
  · simp only [BlockAcc.plus_hdr_toNat, hdrAdd_right_comm o.hdr.toNat a.hdr.toNat]
  · simp only [BlockAcc.plus_obs_toInt, max_right_comm]
  · simp only [BlockAcc.plus_elems, zipWith_add_right_comm o.elems a.elems]

/-- A block keeps its exponent, so that it takes the same contributions as before. -/
@[simp] theorem BlockAcc.plus_takes_iff (o a b : BlockAcc) : (o.plus a).Takes b ↔ o.Takes b := by
  simp only [BlockAcc.Takes, BlockAcc.plus_hdr_toNat, xbExp_hdrAdd]

/-! ### The blocks of an instance after an addition (R283) -/

/-- The accumulator of block `i`. -/
def ExInst.block? (x : ExInst) (i : Nat) : Option BlockAcc := x.blocks.find? (fun o => o.idx == i)

/-- Put `n` in the place of block `i`. -/
def ExInst.putBlock (x : ExInst) (i : Nat) (n : BlockAcc) : ExInst := { x with blocks := x.blocks.map (fun b => if b.idx == i then n else b) }

/-- The instance with `a` added to its block, if it has that block. -/
def ExInst.withAdded (x : ExInst) (a : BlockAcc) : ExInst := match x.block? a.idx with
  | none => x
  | some o => x.putBlock a.idx (o.plus a)

/-- No check of R47 and R50 speaks against adding `a`. -/
def ExInst.Accepts (x : ExInst) (a : BlockAcc) : Prop := ∀ o ∈ x.block? a.idx, o.Takes a

theorem ExInst.idx_of_block? {x : ExInst} {i : Nat} {o : BlockAcc} (h : x.block? i = some o) : o.idx = i := by
  simpa using List.find?_some h

/-- The search for a block finds what now stands in its place. -/
theorem ExInst.block?_putBlock (x : ExInst) {i : Nat} {n : BlockAcc} (hn : n.idx = i) (j : Nat) :
    (x.putBlock i n).block? j = (x.block? j).map (fun b => if b.idx == i then n else b) := by
  rw [ExInst.block?, ExInst.putBlock, List.find?_map, ExInst.block?]
  congr 2
  funext b
  by_cases hb : b.idx = i <;> simp [hb, hn]

theorem ExInst.block?_putBlock_same (x : ExInst) {i : Nat} {n : BlockAcc} (hn : n.idx = i) :
    (x.putBlock i n).block? i = (x.block? i).map (fun _ => n) := by
  rw [ExInst.block?_putBlock x hn]
  refine Option.map_congr fun b hb => ?_
  simp [ExInst.idx_of_block? hb]

theorem ExInst.block?_putBlock_other (x : ExInst) {i j : Nat} {n : BlockAcc} (hn : n.idx = i) (hj : j ≠ i) :
    (x.putBlock i n).block? j = x.block? j := by
  rw [ExInst.block?_putBlock x hn]
  refine (Option.map_congr fun b hb => ?_).trans (congrFun Option.map_id _)
  simp [ExInst.idx_of_block? hb, hj]

theorem ExInst.putBlock_putBlock_same (x : ExInst) {i : Nat} {n : BlockAcc} (m : BlockAcc) (hn : n.idx = i) :
    (x.putBlock i n).putBlock i m = x.putBlock i m := by
  simp only [ExInst.putBlock, List.map_map]
  congr 1
  refine List.map_congr_left fun b _ => ?_
  by_cases hb : b.idx = i <;> simp [hb, hn]

theorem ExInst.putBlock_comm (x : ExInst) {i j : Nat} {n m : BlockAcc} (hn : n.idx = i) (hm : m.idx = j) (hij : i ≠ j) :
    (x.putBlock i n).putBlock j m = (x.putBlock j m).putBlock i n := by
  simp only [ExInst.putBlock, List.map_map]
  congr 1
  refine List.map_congr_left fun b _ => ?_
  by_cases hi : b.idx = i
  · simp [hi, hn, hij]
  · by_cases hj : b.idx = j <;> simp [hi, hj, hm, hij.symm]

theorem ExInst.withAdded_of_none {x : ExInst} {a : BlockAcc} (h : x.block? a.idx = none) : x.withAdded a = x := by rw [ExInst.withAdded, h]

theorem ExInst.withAdded_of_some {x : ExInst} {a o : BlockAcc} (h : x.block? a.idx = some o) : x.withAdded a = x.putBlock a.idx (o.plus a) := by
  rw [ExInst.withAdded, h]

theorem ExInst.block?_withAdded_same (x : ExInst) (a : BlockAcc) : (x.withAdded a).block? a.idx = (x.block? a.idx).map (·.plus a) := by
  cases h : x.block? a.idx with
  | none => rw [ExInst.withAdded_of_none h, h, Option.map_none]
  | some o =>
    have hi : (o.plus a).idx = a.idx := (o.plus_idx a).trans (ExInst.idx_of_block? h)
    rw [ExInst.withAdded_of_some h, ExInst.block?_putBlock_same x hi, h, Option.map_some, Option.map_some]

theorem ExInst.block?_withAdded_other (x : ExInst) {a : BlockAcc} {i : Nat} (hi : i ≠ a.idx) : (x.withAdded a).block? i = x.block? i := by
  cases h : x.block? a.idx with
  | none => rw [ExInst.withAdded_of_none h]
  | some o =>
    have ho : (o.plus a).idx = a.idx := (o.plus_idx a).trans (ExInst.idx_of_block? h)
    rw [ExInst.withAdded_of_some h, ExInst.block?_putBlock_other x ho hi]

/-- An addition neither makes nor removes a block. -/
theorem ExInst.block?_withAdded_eq_none (a : BlockAcc) {x : ExInst} {i : Nat} (h : x.block? i = none) : (x.withAdded a).block? i = none := by
  by_cases hi : i = a.idx
  · rw [hi, ExInst.block?_withAdded_same, ← hi, h, Option.map_none]
  · rw [ExInst.block?_withAdded_other x hi, h]

/-- An addition changes no exponent, so what an instance accepts stays the same. -/
theorem ExInst.withAdded_accepts_iff (x : ExInst) (a b : BlockAcc) : (x.withAdded a).Accepts b ↔ x.Accepts b := by
  by_cases hi : b.idx = a.idx
  · simp [ExInst.Accepts, hi, ExInst.block?_withAdded_same]
  · rw [ExInst.Accepts, ExInst.block?_withAdded_other x hi, ExInst.Accepts]

/-- Additions to two blocks do not meet; two additions to one block commute as their sums do. -/
theorem ExInst.withAdded_comm (x : ExInst) (a b : BlockAcc) : (x.withAdded a).withAdded b = (x.withAdded b).withAdded a := by
  cases ha : x.block? a.idx with
  | none => rw [ExInst.withAdded_of_none ha, ExInst.withAdded_of_none (ExInst.block?_withAdded_eq_none b ha)]
  | some o =>
    cases hb : x.block? b.idx with
    | none => rw [ExInst.withAdded_of_none hb, ExInst.withAdded_of_none (ExInst.block?_withAdded_eq_none a hb)]
    | some p =>
      have ho : (o.plus a).idx = a.idx := (o.plus_idx a).trans (ExInst.idx_of_block? ha)
      have hp : (p.plus b).idx = b.idx := (p.plus_idx b).trans (ExInst.idx_of_block? hb)
      by_cases hi : a.idx = b.idx
      · obtain rfl : o = p := Option.some.inj (by rw [← ha, ← hb, hi])
        have hab : (x.withAdded a).block? b.idx = some (o.plus a) := by rw [← hi, ExInst.block?_withAdded_same, ha, Option.map_some]
        have hba : (x.withAdded b).block? a.idx = some (o.plus b) := by rw [hi, ExInst.block?_withAdded_same, hb, Option.map_some]
        rw [ExInst.withAdded_of_some hab, ExInst.withAdded_of_some hba, ExInst.withAdded_of_some ha, ExInst.withAdded_of_some hb, hi,
          ExInst.putBlock_putBlock_same _ _ (ho.trans hi), ExInst.putBlock_putBlock_same _ _ hp, BlockAcc.plus_right_comm]
      · rw [ExInst.withAdded_of_some ((ExInst.block?_withAdded_other x (Ne.symm hi)).trans hb),
          ExInst.withAdded_of_some ((ExInst.block?_withAdded_other x hi).trans ha), ExInst.withAdded_of_some ha, ExInst.withAdded_of_some hb,
          ExInst.putBlock_comm x ho hp hi]

/-! ### What `ExInst.addBlock` answers (R47, R50) -/

section
variable {x : ExInst} {a o : BlockAcc}

theorem ExInst.addBlock_of_none (h : x.block? a.idx = none) : x.addBlock a = .ok x := by
  rw [ExInst.block?] at h
  simp only [ExInst.addBlock, h]

theorem ExInst.addBlock_of_some (h : x.block? a.idx = some o) :
    x.addBlock a = if !xbExpOk (xbExp a.hdr.toNat) then .error cXbExponentRange
      else if xbExp a.hdr.toNat != xbExp o.hdr.toNat then .error cXbExponentMismatch else .ok (x.putBlock a.idx (o.plus a)) := by
  rw [ExInst.block?] at h
  simp only [ExInst.addBlock, h]
  rfl

theorem ExInst.addBlock_range (h : x.block? a.idx = some o) (hr : xbExpOk (xbExp a.hdr.toNat) = false) :
    x.addBlock a = .error cXbExponentRange := by
  rw [ExInst.addBlock_of_some h]
  simp [hr]

theorem ExInst.addBlock_mismatch (h : x.block? a.idx = some o) (hr : xbExpOk (xbExp a.hdr.toNat) = true)
    (hm : xbExp a.hdr.toNat ≠ xbExp o.hdr.toNat) : x.addBlock a = .error cXbExponentMismatch := by
  rw [ExInst.addBlock_of_some h]
  simp [hr, hm]

theorem ExInst.addBlock_takes (h : x.block? a.idx = some o) (ht : o.Takes a) : x.addBlock a = .ok (x.putBlock a.idx (o.plus a)) := by
  obtain ⟨hr, hm⟩ := ht
  rw [ExInst.addBlock_of_some h]
  simp [hr, hm.symm]

/-- An addition succeeds exactly where the checks of R47 and R50 pass, with its block's sum. -/
theorem ExInst.addBlock_eq_ok_iff {y : ExInst} : x.addBlock a = .ok y ↔ x.Accepts a ∧ y = x.withAdded a := by
  cases h : x.block? a.idx with
  | none => simp [ExInst.Accepts, h, ExInst.addBlock_of_none h, ExInst.withAdded_of_none h, eq_comm]
  | some o =>
    have hacc : x.Accepts a ↔ o.Takes a := by simp [ExInst.Accepts, h]
    rw [hacc, ExInst.withAdded_of_some h]
    by_cases hr : xbExpOk (xbExp a.hdr.toNat) = true
    · by_cases hm : xbExp a.hdr.toNat = xbExp o.hdr.toNat
      · have ht : o.Takes a := ⟨hr, hm⟩
        simp only [ExInst.addBlock_takes h ht, ht, true_and, Except.ok.injEq, eq_comm]
      · simp [ExInst.addBlock_mismatch h hr hm, BlockAcc.Takes, hm]
    · simp [ExInst.addBlock_range h (Bool.eq_false_of_not_eq_true hr), BlockAcc.Takes, hr]

/-- Two contributions that are added one after the other may be added in the other order (R49, R84, R283). -/
theorem ExInst.addBlock_order_free {y z : ExInst} {b : BlockAcc} (hy : x.addBlock a = .ok y) (hz : y.addBlock b = .ok z) :
    ∃ w, x.addBlock b = .ok w ∧ w.addBlock a = .ok z := by
  obtain ⟨ha, rfl⟩ := ExInst.addBlock_eq_ok_iff.1 hy
  obtain ⟨hb, rfl⟩ := ExInst.addBlock_eq_ok_iff.1 hz
  rw [ExInst.withAdded_accepts_iff] at hb
  exact ⟨x.withAdded b, ExInst.addBlock_eq_ok_iff.2 ⟨hb, rfl⟩,
    ExInst.addBlock_eq_ok_iff.2 ⟨(x.withAdded_accepts_iff b a).2 ha, x.withAdded_comm a b⟩⟩

end

/-! ### G128 sums (R66, R287) -/

/-- The non-finite marker of G128 elements (R52). -/
def g128Marker : Int := -(2 : Int) ^ 127

theorem g128Add_comm (a b : Int) : g128Add a b = g128Add b a := by simp only [g128Add, Bool.or_comm, Int.add_comm]

@[simp] theorem g128Add_marker_left (b : Int) : g128Add g128Marker b = g128Marker := by simp [g128Add, g128Marker]

@[simp] theorem g128Add_marker_right (a : Int) : g128Add a g128Marker = g128Marker := by rw [g128Add_comm, g128Add_marker_left]

/-- Elements whose sum lies within the format add as integers. -/
theorem g128Add_of_bounds {a b : Int} (ha : -(2 : Int) ^ 126 < a ∧ a < 2 ^ 126) (hb : -(2 : Int) ^ 126 < b ∧ b < 2 ^ 126) :
    g128Add a b = a + b := by
  have hm : ¬((decide (a = -(2 : Int) ^ 127) || decide (b = -(2 : Int) ^ 127)) = true) := by
    rw [Bool.or_eq_true, decide_eq_true_iff, decide_eq_true_iff]
    omega
  rw [g128Add, if_neg hm, signedOf_intBits_eq_bmod]
  exact Int.bmod_eq_of_le (by omega) (by omega)

/-- The marker, or an element that two more can be added to without leaving the format. -/
def G128Within (z : Int) : Prop := z = g128Marker ∨ (-(2 : Int) ^ 125 < z ∧ z < 2 ^ 125)

section
variable {a b c : Int}

/-- The marker enters every sum of three. -/
theorem g128Add_three_of_marker_mem (h : g128Marker ∈ [a, b, c]) : g128Add (g128Add a b) c = g128Marker := by
  simp only [List.mem_cons, List.not_mem_nil, or_false] at h
  rcases h with rfl | rfl | rfl <;> simp

/-- Without the marker, a sum of three elements within the format is that of the integers, and not the marker. -/
theorem g128Add_three_of_marker_not_mem (ha : G128Within a) (hb : G128Within b) (hc : G128Within c) (h : g128Marker ∉ [a, b, c]) :
    g128Add (g128Add a b) c = a + b + c ∧ a + b + c ≠ g128Marker := by
  simp only [List.mem_cons, List.not_mem_nil, or_false, not_or] at h
  obtain ⟨hna, hnb, hnc⟩ := h
  replace ha := ha.resolve_left (Ne.symm hna)
  replace hb := hb.resolve_left (Ne.symm hnb)
  replace hc := hc.resolve_left (Ne.symm hnc)
  have hab : g128Add a b = a + b := g128Add_of_bounds (by omega) (by omega)
  rw [hab, g128Marker]
  exact ⟨g128Add_of_bounds (by omega) (by omega), by omega⟩

theorem g128Add_assoc (ha : G128Within a) (hb : G128Within b) (hc : G128Within c) : g128Add (g128Add a b) c = g128Add a (g128Add b c) := by
  have hmem : g128Marker ∈ [b, c, a] ↔ g128Marker ∈ [a, b, c] := (List.perm_append_comm (l₁ := [b, c]) (l₂ := [a])).mem_iff
  rw [g128Add_comm a (g128Add b c)]
  by_cases h : g128Marker ∈ [a, b, c]
  · rw [g128Add_three_of_marker_mem h, g128Add_three_of_marker_mem (hmem.2 h)]
  · obtain ⟨hl, -⟩ := g128Add_three_of_marker_not_mem ha hb hc h
    obtain ⟨hr, -⟩ := g128Add_three_of_marker_not_mem hb hc ha (mt hmem.1 h)
    rw [hl, hr, add_assoc, add_comm]

theorem g128Add_three_eq_marker_iff (ha : G128Within a) (hb : G128Within b) (hc : G128Within c) :
    g128Add (g128Add a b) c = g128Marker ↔ g128Marker ∈ [a, b, c] := by
  refine ⟨fun hs => ?_, g128Add_three_of_marker_mem⟩
  by_contra h
  obtain ⟨hsum, hne⟩ := g128Add_three_of_marker_not_mem ha hb hc h
  exact hne (hsum.symm.trans hs)

end

/-- Settles O22: additions to the blocks of an instance commute and change no check; a sum of three G128 elements is the marker or that of the integers. -/
theorem sumsAreOrderFree : Obligations.SumsAreOrderFree := by
  unfold Obligations.SumsAreOrderFree
  refine ⟨fun x y z a b hy hz => ExInst.addBlock_order_free hy hz, fun a b c => ?_⟩
  intro m h
  have ha : G128Within a := h a (by simp)
  have hb : G128Within b := h b (by simp)
  have hc : G128Within c := h c (by simp)
  exact ⟨g128Add_comm a b, g128Add_assoc ha hb hc, g128Add_three_eq_marker_iff ha hb hc⟩

/-- Settles O23: the block found is the only one, and `BlockAcc.plus` is what stands in its place. -/
theorem blocksAddElementwise : Obligations.BlocksAddElementwise := by
  unfold Obligations.BlocksAddElementwise
  intro x a o hx ho
  have hfound : x.block? a.idx = some o := by simp [ExInst.block?, hx, ho]
  have hput : x.putBlock a.idx (o.plus a) = { x with blocks := [o.plus a] } := by simp [ExInst.putBlock, hx, ho]
  refine ⟨ExInst.addBlock_range hfound, ExInst.addBlock_mismatch hfound, fun hr he => ⟨o.plus a, ?_, (o.plus_idx a).trans ho, o.plus_elems a, ?_⟩⟩
  · rw [ExInst.addBlock_takes hfound ⟨hr, he⟩, hput]
  · simp only [BlockAcc.plus_obs_toInt, BlockAcc.plus_hdr_toNat, xbTally_hdrAdd, xbExp_hdrAdd, xbOvf_hdrAdd, xbNf_hdrAdd, and_self]

end Sys2Proof.Machine
end

section
namespace Sys2Proof.Machine

/-! ### Operators whose result depends on their tensors alone (R93, R146, R199 to R221) -/

/-- The commands of classes 1 to 7 that run a body on their operator's tensors, each with its opcode and its body. -/
def tensorRows (op : Nat) (env : OpEnv) : List (Instr × Nat × (MathCtx → Body)) :=
  [(.matmul op env, 0x0100, arrBody), (.matmulDx op env, 0x0101, arrBody), (.matmulDw op env, 0x0102, arrBody),
   (.batchedMatmul op env, 0x0103, arrBody), (.convFwd op env, 0x0108, arrBody), (.convDx op env, 0x0109, arrBody),
   (.convDw op env, 0x010A, arrBody), (.attnFwd op env, 0x0200, attnFwdBody), (.attnBwd op env, 0x0201, attnBwdBody),
   (.customKernel op env, 0x0300, customBody), (.addTensors op env, 0x0301, libBody), (.mulTensors op env, 0x0302, libBody),
   (.axpby op env, 0x0303, libBody), (.act op env, 0x0304, libBody), (.actBwd op env, 0x0305, libBody), (.rmsnorm op env, 0x0400, rowBody),
   (.rmsnormBwd op env, 0x0401, rowBody), (.layernorm op env, 0x0402, rowBody), (.layernormBwd op env, 0x0403, rowBody),
   (.softmax op env, 0x0404, rowBody), (.softmaxBwd op env, 0x0405, rowBody), (.reduceSum op env, 0x0406, reduceSumBody),
   (.reduceMax op env, 0x0407, rowBody), (.argmax op env, 0x0408, rowBody), (.topk op env, 0x0409, rowBody),
   (.adamw op env, 0x0500, adamBody), (.convert op env, 0x0600, cvtBody), (.quantXb16 op env, 0x0601, cvtBody),
   (.pairToWorking op env, 0x0602, cvtBody), (.pairFrom op env, 0x0603, cvtBody), (.copyTensor op env, 0x0700, copyBody),
   (.gatherRows op env, 0x0701, gatherBody), (.scatterRows op env, 0x0702, scatterBody), (.scatterAddRows op env, 0x0703, scatterAddBody),
   (.permute op env, 0x0704, permuteBody), (.transpose op env, 0x0705, transposeBody)]

section
variable {s : State} {op oc : Nat} {env : OpEnv} {e : OpEntry} {i : Instr} {mk : MathCtx → Body}

/-- Row by row, such a command executes as the body row of its opcode. -/
theorem exec_of_mem_tensorRows (h : (i, oc, mk) ∈ tensorRows op env) : exec i s = s.bodyRow op oc env mk := by
  have rows : (tensorRows op env).map (fun r => exec r.1 s) = (tensorRows op env).map (fun r => s.bodyRow op r.2.1 env r.2.2) := rfl
  exact List.map_inj_left.1 rows _ h

/-- The body row of an operator that is due ends the operator's body. -/
theorem State.bodyRow_of_due (hd : s.bodyDue op oc = some e) : s.bodyRow op oc env mk = .next (s.finishBody op e env mk) := by
  simp only [State.bodyRow, hd]

/-- A due operator whose body meets no fault and whose writes find their routes stores its result. -/
theorem gives_stored_of_bodyRow {u : State} (hi : exec i s = s.bodyRow op oc env mk) (hd : s.bodyDue op oc = some e)
    (h : Clean s e env (mk (s.mathCtx e))) (hw : s.planeWrites e.ctx (mk (s.mathCtx e)).writes = .ok u) :
    Gives i s (Stored s op e env (mk (s.mathCtx e))) := by
  obtain ⟨hg, -, -⟩ := s.bodyDue_get op oc e hd
  exact ⟨_, hi.trans (State.bodyRow_of_due hd), finishBody_stored s u op e env mk h hg hw⟩

/-- A due operator whose body meets no fault and whose writes miss a route ends with the code of that miss. -/
theorem exec_of_bodyRow_error {c : Code} (hi : exec i s = s.bodyRow op oc env mk) (hd : s.bodyDue op oc = some e)
    (h : Clean s e env (mk (s.mathCtx e))) (hw : s.planeWrites e.ctx (mk (s.mathCtx e)).writes = .error c) :
    exec i s = .next (((s.addFixed e env).unbindVec op).endOp op c) := by
  rw [hi, State.bodyRow_of_due hd, finishBody_error s op e env mk c h hw]

end

/-- Settles O53: each command is the body row of its opcode, and a due operator's row ends its body as the writes' routes decide. -/
theorem bodiesStoreTheirResults : Obligations.BodiesStoreTheirResults := by
  unfold Obligations.BodiesStoreTheirResults
  intro s op env e i oc mk hmem hd h
  have hi : exec i s = s.bodyRow op oc env mk := exec_of_mem_tensorRows hmem
  exact ⟨fun u hw => gives_stored_of_bodyRow hi hd h hw, fun c hw => exec_of_bodyRow_error hi hd h hw⟩

end Sys2Proof.Machine
end

section
namespace Sys2Proof.Machine

/-! ### The fields of a UnitID (Table 12.2, R102, R330) -/

section
variable (domain partition index sub inst : Nat)

@[simp] theorem fld_uid_inst : fld (uid domain partition index sub inst) 0 8 = inst % 256 := by
  rw [uid, fld_ofNat _ (by decide), bitsOf_eq_div_mod]
  omega

@[simp] theorem fld_uid_subunit : fld (uid domain partition index sub inst) 8 8 = sub % 256 := by
  rw [uid, fld_ofNat _ (by decide), bitsOf_eq_div_mod]
  omega

@[simp] theorem fld_uid_index : fld (uid domain partition index sub inst) 16 8 = index % 256 := by
  rw [uid, fld_ofNat _ (by decide), bitsOf_eq_div_mod]
  omega

@[simp] theorem fld_uid_partition : fld (uid domain partition index sub inst) 24 4 = partition % 16 := by
  rw [uid, fld_ofNat _ (by decide), bitsOf_eq_div_mod]
  omega

@[simp] theorem fld_uid_domain : fld (uid domain partition index sub inst) 28 4 = domain % 16 := by
  rw [uid, fld_ofNat _ (by decide), bitsOf_eq_div_mod]
  omega

end

/-- Settles O59: `uid` keeps each field modulo its width, and 832 = 16 * 52 cores of sub-units below 256 fit the widths. -/
theorem unitIdsNamePhysicalCores : Obligations.UnitIdsNamePhysicalCores := by
  unfold Obligations.UnitIdsNamePhysicalCores
  intro p sub inst hp hs hi
  have hpart : p / 52 < 16 := Nat.div_lt_of_lt_mul hp
  have hidx : p % 52 < 256 := (Nat.mod_lt p (by decide)).trans (by decide)
  rw [uidCore, fld_uid_partition, fld_uid_index, fld_uid_subunit, fld_uid_inst, fld_uid_domain, Nat.mod_eq_of_lt hpart,
    Nat.mod_eq_of_lt hidx, Nat.mod_eq_of_lt hs, Nat.mod_eq_of_lt hi]
  exact ⟨hpart, (Nat.div_add_mod p 52).symm, rfl, rfl, rfl, rfl, rfl⟩

end Sys2Proof.Machine
end

section
namespace Sys2Proof.Machine

/-! ### Stacks that stay lost while a core's pages leave it (R104, R122, R358) -/

/-- A stack without frames in `s` has none in `t`. -/
def LostStacksStay (s t : State) : Prop := ∀ c, (s.stackOf c).frames = [] → (t.stackOf c).frames = []

theorem LostStacksStay.refl (s : State) : LostStacksStay s s := fun _ h => h

theorem LostStacksStay.trans {s t u : State} (a : LostStacksStay s t) (b : LostStacksStay t u) : LostStacksStay s u := fun c h => b c (a c h)

theorem LostStacksStay.of_ctxs_eq {s t : State} (h : t.ctxs = s.ctxs) : LostStacksStay s t := fun c hc => by rwa [State.stackOf, h]

theorem LostStacksStay.foldl {β : Type} (f : State → β → State) (h : ∀ s b, LostStacksStay s (f s b)) (l : List β) (s : State) :
    LostStacksStay s (l.foldl f s) := by
  induction l generalizing s with
  | nil => exact .refl s
  | cons b l ih => exact (h s b).trans (ih _)

@[simp] theorem State.makeDue_ctxs (s : State) (c seq : Nat) (slot : Option Nat) : (s.makeDue c seq slot).ctxs = s.ctxs := by
  unfold State.makeDue
  dsimp only
  split
  · rfl
  · split
    · rfl
    · cases slot <;> simp

@[simp] theorem State.strike_ctxs (s : State) (c source seq : Nat) (slot : Option Nat) : (s.strike c source seq slot).ctxs = s.ctxs := by
  unfold State.strike
  dsimp only
  split
  · rfl
  · cases slot <;> split <;> simp

/-- An uncorrectable word of tile memory is counted, recorded and a strike; the contexts stay (R122). -/
@[simp] theorem State.tileBad_ctxs (s : State) (core off : Nat) (w : Who) (slot : Option Nat) : (s.tileBad core off w slot).ctxs = s.ctxs := by
  simp [State.tileBad, State.updCtr]

/-- What a lost stack leaves of the contexts is the emptied stack; the rest is a record and a fault. -/
theorem State.loseStack_ctxs (s : State) (c core : Nat) :
    (s.loseStack c core).ctxs = (s.setStack c { s.stackOf c with frames := [], pages := [], bytes := [] }).ctxs := by
  simp [State.loseStack]

theorem State.loseStack_frames (s : State) (c core : Nat) : ((s.loseStack c core).stackOf c).frames = [] := by
  rw [State.stackOf, State.loseStack_ctxs, ← State.stackOf, State.stackOf_setStack_same]

theorem lostStacksStay_loseStack (s : State) (c core : Nat) : LostStacksStay s (s.loseStack c core) := by
  intro j hj
  by_cases h : j = c
  · rw [h, State.loseStack_frames]
  · rw [State.stackOf, State.loseStack_ctxs, ← State.stackOf, State.stackOf_setStack_other _ _ _ _ h, hj]

theorem lostStacksStay_pageOut (s : State) (c j : Nat) : LostStacksStay s (s.pageOut c j) := by
  intro d hd
  by_cases h : d = c
  · subst h
    rw [State.pageOut, State.stackOf_setStack_same, hd]
  · rw [State.pageOut, State.stackOf_setStack_other _ _ _ _ h, hd]

/-- Pages are written back to memory or to the host; the stacks stay as they are (R176). -/
theorem kept_writeBack (s : State) (c j : Nat) : BodyKept s (s.writeBack c j) := by
  unfold State.writeBack
  refine BodyKept.foldl _ (fun u o => ?_) _ _
  split
  · exact .refl u
  · split
    · rename_i v hv
      exact (kept_planeWrite _ _ _ _ hv).trans ⟨rfl, rfl, rfl, rfl, rfl, rfl, rfl, rfl⟩
    · exact .refl u

/-! ### The parts of a retirement with a spare (R104, R126) -/

/-- The contexts whose page on the core has an uncorrectable word lose their stacks. -/
def State.loseBadPages (s : State) (core : Nat) (bad : List StackPageRef) : State :=
  (bad.filter (fun b => (s.pagesOn core).contains (b.ctx, b.page))).foldl (fun s b =>
    (s.tileBad core b.addr (s.whoRun (s.ctx b.ctx).runSlot) none).loseStack b.ctx core) s

/-- A page leaves a retiring core: what it holds goes to the backing store, unless it is still being fetched. -/
def State.evictPage (s : State) (g : Nat × Nat) : State :=
  match NMap.get? (s.stackOf g.1).pages g.2 with
  | some pg => if pg.state == .fetching then s.pageOut g.1 g.2 else (s.writeBack g.1 g.2).pageOut g.1 g.2
  | none => s

/-- Spare `q` takes the place of core `p` under the logical number, with cleared counters, and its staging is to be loaded. -/
def State.replaceCore (s : State) (core p q : Nat) : State :=
  let t : State := { s with
    cores := { s.cores with
      map := NMap.set s.cores.map core q, spares := s.cores.spares.filter (· != q)
      recs := NMap.upd s.cores.recs core {} (fun k => { k with
        ctr := {}, transientFaults := 0, transientHangs := 0, lastCheck := none, backAt := some s.now })
      due := s.cores.due.filter (fun d => d.core != core), reloading := insertRising s.cores.reloading core
      badTile := s.cores.badTile.filter (fun t => t.core != core) }
    vec := NMap.erase s.vec core }
  (t.setStore { t.store with retired := insertRising t.store.retired p }).record (uidCore p 0 0) cCoreRetired 3
    (core + p % 52 * 2 ^ 10 + q % 52 * 2 ^ 16 + s.vigil.seconds * 2 ^ 64)

/-- The state of a retirement with spare `q`. -/
def State.withCoreRetired (s : State) (c q : Nat) (bad : List StackPageRef) : State :=
  let u := s.loseBadPages c bad
  ((u.pagesOn c).foldl State.evictPage u).replaceCore c (s.phys c) q

theorem lostStacksStay_evictPage (s : State) (g : Nat × Nat) : LostStacksStay s (s.evictPage g) := by
  unfold State.evictPage
  split
  · split
    · exact lostStacksStay_pageOut _ _ _
    · exact (LostStacksStay.of_ctxs_eq (kept_writeBack _ _ _).ctxs).trans (lostStacksStay_pageOut _ _ _)
  · exact .refl s

theorem lostStacksStay_tileBad_loseStack (s : State) (core : Nat) (b : StackPageRef) :
    LostStacksStay s ((s.tileBad core b.addr (s.whoRun (s.ctx b.ctx).runSlot) none).loseStack b.ctx core) :=
  (LostStacksStay.of_ctxs_eq (State.tileBad_ctxs _ _ _ _ _)).trans (lostStacksStay_loseStack _ _ _)

/-- Each context in turn loses its stack, and those after it do not give it back. -/
theorem State.loseBadPages_frames {s : State} {core : Nat} {bad : List StackPageRef} {b : StackPageRef} (hb : b ∈ bad)
    (hp : (b.ctx, b.page) ∈ s.pagesOn core) : ((s.loseBadPages core bad).stackOf b.ctx).frames = [] := by
  have hm : b ∈ bad.filter (fun b => (s.pagesOn core).contains (b.ctx, b.page)) := by simp [hb, hp]
  obtain ⟨l, r, hl⟩ := List.append_of_mem hm
  rw [State.loseBadPages, hl, List.foldl_append, List.foldl_cons]
  exact LostStacksStay.foldl _ (fun u k => lostStacksStay_tileBad_loseStack u core k) _ _ _ (State.loseStack_frames _ _ _)

/-! #### What the replacement leaves -/

theorem NMap.get?_erase_same {α : Type} (m : NMap α) (k : Nat) : NMap.get? (NMap.erase m k) k = none := by
  induction m with
  | nil => rfl
  | cons e r ih =>
    by_cases h : e.1 = k
    · simpa [NMap.erase, h] using ih
    · simpa [NMap.erase, NMap.get?, h] using ih

section
variable (s : State) (core p q : Nat)

@[simp] theorem State.replaceCore_phys : (s.replaceCore core p q).phys core = q := by simp [State.replaceCore, State.phys]

theorem State.replaceCore_spares : q ∉ (s.replaceCore core p q).cores.spares := by simp [State.replaceCore]

theorem State.replaceCore_reloading : core ∈ (s.replaceCore core p q).cores.reloading := by simp [State.replaceCore, insertRising_mem]

theorem State.replaceCore_due : ∀ d ∈ (s.replaceCore core p q).cores.due, d.core ≠ core := by simp [State.replaceCore]

theorem State.replaceCore_vec : NMap.get? (s.replaceCore core p q).vec core = none := by
  simp [State.replaceCore, NMap.get?_erase_same]

theorem State.replaceCore_retired : p ∈ (s.replaceCore core p q).store.retired := by simp [State.replaceCore, insertRising_mem]

theorem State.replaceCore_ctr : ((s.replaceCore core p q).core core).ctr = {} := by simp [State.replaceCore, State.core, NMap.upd]

@[simp] theorem State.replaceCore_ctxs : (s.replaceCore core p q).ctxs = s.ctxs := by simp [State.replaceCore]

end

/-- A context that lost its stack has none after the retirement. -/
theorem State.withCoreRetired_frames {s : State} {c q : Nat} {bad : List StackPageRef} {b : StackPageRef} (hb : b ∈ bad)
    (hp : (b.ctx, b.page) ∈ s.pagesOn c) : ((s.withCoreRetired c q bad).stackOf b.ctx).frames = [] :=
  ((LostStacksStay.foldl _ lostStacksStay_evictPage _ _).trans (.of_ctxs_eq (State.replaceCore_ctxs _ _ _ _))) _ (State.loseBadPages_frames hb hp)

/-! #### CORE_RETIRE with nothing on the core, and RETIRE_RELOAD_DONE -/

theorem State.any_runsOn_eq_false {s : State} {c : Nat} (h : ∀ e ∈ s.sched.ops, e.2.runsOn c = false) :
    s.sched.ops.any (fun e => e.2.runsOn c) = false :=
  List.any_eq_false.2 (fun e he => Bool.eq_false_iff.1 (h e he))

section
variable {s : State} {c : Nat} {d : DueCore} (bad : List StackPageRef) (hd : s.cores.due.find? (fun d => d.core == c) = some d)
  (hs : s.openSteps = []) (hc : s.sched.captures = []) (ho : ∀ e ∈ s.sched.ops, e.2.runsOn c = false) (hk : s.sched.checks = [])
include hd hs hc ho hk

theorem exec_coreRetire_of_spare {q : Nat} (hq : s.cores.spares.find? (fun p => p / 52 == s.phys c / 52) = some q) :
    exec (.coreRetire c bad) s = .next (s.withCoreRetired c q bad) := by
  change execCoreRetire c bad s = _
  simp only [execCoreRetire, hd, hs, hc, State.any_runsOn_eq_false ho, hk, hq]
  rfl

theorem exec_coreRetire_of_no_spare (hq : s.cores.spares.find? (fun p => p / 52 == s.phys c / 52) = none) :
    exec (.coreRetire c bad) s =
      let u : State := { s with cores := { s.cores with due := s.cores.due.filter (fun d => d.core != c) } }
      .next (if d.told then u else u.record (uidCore (s.phys c) 0 0) cPartitionSparesExhausted 4 0).boundaryStop := by
  change execCoreRetire c bad s = _
  simp only [execCoreRetire, hd, hs, hc, State.any_runsOn_eq_false ho, hk, hq]
  rfl

end

theorem exec_retireReloadDone_of_reloading {s : State} {c : Nat} (h : s.cores.reloading.contains c = true) :
    exec (.retireReloadDone c) s = .next ({ s with cores := { s.cores with reloading := s.cores.reloading.filter (· != c) } } : State).settle :=
  if_pos h

/-- Settles O42: with a spare, the replacement gives all but the lost stacks, which no later part of the retirement gives back. -/
theorem coresRetire : Obligations.CoresRetire := by
  unfold Obligations.CoresRetire
  refine ⟨fun s c d bad hd hs hc ho hk => ⟨fun q hq => ?_, fun hq => ?_⟩, fun s c h => exec_retireReloadDone_of_reloading h⟩
  · exact ⟨_, exec_coreRetire_of_spare bad hd hs hc ho hk hq, State.replaceCore_phys _ _ _ _, State.replaceCore_spares _ _ _ _,
      State.replaceCore_reloading _ _ _ _, State.replaceCore_due _ _ _ _, State.replaceCore_vec _ _ _ _, State.replaceCore_retired _ _ _ _,
      State.replaceCore_ctr _ _ _ _, fun b hb hp => State.withCoreRetired_frames hb hp⟩
  · exact exec_coreRetire_of_no_spare bad hd hs hc ho hk hq

end Sys2Proof.Machine
end

section
namespace Sys2Proof.Machine

/-! ### What an update of the state needs for the invariant to hold after it -/

/-- The invariant of the state that an outcome goes on with, if it goes on. -/
def InvOut : Out → Prop
  | .next t => Inv t
  | _ => True

theorem inv_next {s : State} (h : Inv s) : InvOut (.next s) := h

theorem inv_of_fields {s : State} {pending free now pins clk boot fuses flash vigil cores ctxs sched links exch ctrl runs recov twin dump}
    (h : Inv s) : Inv ⟨pending, free, now, pins, clk, boot, fuses, flash, vigil, cores, s.vec, s.memsys, ctxs, sched, links, exch, ctrl, runs,
      recov, twin, dump⟩ := h

/-- Every vector engine of the table has the registers of Table 6.1. -/
def AllShaped (v : NMap VCore) : Prop := ∀ e ∈ v, e.2.shaped

theorem Inv.mem {s : State} (h : Inv s) : s.memsys.mem.wf = true := h.1
theorem Inv.vec {s : State} (h : Inv s) : AllShaped s.vec := h.2

theorem inv_of_wf {s : State} {pending free now pins clk boot fuses flash vigil cores ctxs sched links exch ctrl runs recov twin dump}
    {m : MemSys} (h : Inv s) (hm : m.mem.wf = true) : Inv ⟨pending, free, now, pins, clk, boot, fuses, flash, vigil, cores, s.vec, m, ctxs, sched,
      links, exch, ctrl, runs, recov, twin, dump⟩ := ⟨hm, h.2⟩

theorem inv_of_shaped {s : State} {pending free now pins clk boot fuses flash vigil cores ctxs sched links exch ctrl runs recov twin dump}
    {v : NMap VCore} (h : Inv s) (hv : AllShaped v) :
    Inv ⟨pending, free, now, pins, clk, boot, fuses, flash, vigil, cores, v, s.memsys, ctxs, sched,
      links, exch, ctrl, runs, recov, twin, dump⟩ := ⟨h.1, hv⟩

theorem allShaped_filter {v : NMap VCore} {p : Nat × VCore → Bool} (h : AllShaped v) : AllShaped (v.filter p) :=
  fun e he => h e (List.mem_filter.1 he).1

theorem allShaped_erase {v : NMap VCore} {k : Nat} (h : AllShaped v) : AllShaped (NMap.erase v k) := allShaped_filter h

theorem NMap.mem_set {α : Type} {m : NMap α} {k : Nat} {v : α} {e : Nat × α} (h : e ∈ NMap.set m k v) : e = (k, v) ∨ e ∈ m := by
  induction m with
  | nil => exact .inl (by simpa [NMap.set] using h)
  | cons a r ih =>
    obtain ⟨j, w⟩ := a
    simp only [NMap.set] at h
    split at h
    · simpa using h
    · split at h
      · rcases List.mem_cons.1 h with h | h
        · exact .inl h
        · exact .inr (List.mem_cons_of_mem _ h)
      · rcases List.mem_cons.1 h with h | h
        · exact .inr (h ▸ List.mem_cons_self)
        · exact (ih h).imp id (List.mem_cons_of_mem _)

theorem allShaped_set {v : NMap VCore} {k : Nat} {c : VCore} (h : AllShaped v) (hc : c.shaped) : AllShaped (NMap.set v k c) := by
  intro e he
  rcases NMap.mem_set he with rfl | he
  · exact hc
  · exact h e he

theorem markBads_wf {l : List Nat} {m : Mem} (h : m.wf = true) : (l.foldl Mem.markBad m).wf = true :=
  foldl_keeps (fun m : Mem => m.wf = true) _ (fun m x hm => Mem.markBad_wf m x hm) l m h

theorem loses_wf {l : List LineError} {ep : Nat} {m : Mem} (h : m.wf = true) : (l.foldl (fun m x => m.lose ep x.line) m).wf = true :=
  foldl_keeps (fun m : Mem => m.wf = true) _ (fun m x hm => Mem.lose_wf m ep x.line hm) l m h

theorem inv_ite {p : Prop} {_ : Decidable p} {a b : State} (ha : Inv a) (hb : Inv b) : Inv (if p then a else b) := by
  split
  · exact ha
  · exact hb

theorem invOut_ite {p : Prop} {_ : Decidable p} {a b : Out} (ha : InvOut a) (hb : InvOut b) : InvOut (if p then a else b) := by
  split
  · exact ha
  · exact hb

theorem inv_ite_fst {α : Type} {p : Prop} {_ : Decidable p} {a b : State × α} (ha : Inv a.1) (hb : Inv b.1) : Inv (if p then a else b).1 := by
  split
  · exact ha
  · exact hb

theorem inv_foldl {β : Type} {f : State → β → State} {l : List β} {s : State} (hf : ∀ t x, Inv t → Inv (f t x)) (h : Inv s) :
    Inv (l.foldl f s) := foldl_keeps Inv f (fun t x ht => hf t x ht) l s h

theorem inv_foldl_fst {α β : Type} {f : State × α → β → State × α} {l : List β} {s : State × α}
    (hf : ∀ t x, Inv t.1 → Inv (f t x).1) (h : Inv s.1) : Inv (l.foldl f s).1 := foldl_keeps (fun p : State × α => Inv p.1) f (fun t x ht => hf t x ht) l s h

theorem inv_of_fst_eq {α : Type} {p : State × α} {t : State} {x : α} (he : p = (t, x)) (h : Inv p.1) : Inv t := by rwa [he] at h

theorem inv_of_next_eq {o : Out} {t : State} (he : o = .next t) (h : InvOut o) : Inv t := by rwa [he] at h

theorem Ended.inv {s t : State} (e : Ended s t) (h : Inv s) : Inv t := ⟨e.mem h.1, by rw [e.vec]; exact h.2⟩

theorem inv_planeWrites {s t : State} {c : Nat} {ws : List PlaneW} (he : s.planeWrites c ws = .ok t) (h : Inv s) : Inv t :=
  (ended_planeWrites _ _ _ _ he).inv h

theorem inv_planeWrite {s t : State} {c : Nat} {w : PlaneW} (he : s.planeWrite c w = .ok t) (h : Inv s) : Inv t :=
  (ended_planeWrite _ _ _ _ he).inv h

theorem inv_hostWrite {s t : State} {c g a : Nat} {bs : List Byte} (he : s.hostWrite c g a bs = .ok t) (h : Inv s) : Inv t :=
  (ended_hostWrite _ _ _ _ _ _ he).inv h

theorem inv_takePage {s t : State} {c j : Nat} {st : PageState} (he : s.takePage c j st = some t) (h : Inv s) : Inv t := by
  unfold State.takePage at he
  split at he
  · cases he
    exact h
  · cases he

theorem inv_pageReplyLate {s t : State} {c j : Nat} {p : StackPage} {back : PageState} (he : s.pageReplyLate c j p back = some t) (h : Inv s) :
    Inv t := by
  unfold State.pageReplyLate at he
  dsimp only at he
  split at he
  · cases he
    exact h
  · split at he
    · cases he
      exact h
    · cases he

theorem inv_cacheRoom {s t : State} (he : s.cacheRoom = some t) (h : Inv s) : Inv t := by
  unfold State.cacheRoom at he
  split at he
  · cases he
    exact h
  · obtain ⟨c, -, rfl⟩ := Option.map_eq_some_iff.1 he
    exact h

theorem engineStart_shaped (x : MathCtx) (id i : Nat) : (engineStart x id i).shaped := by
  simp [VCore.shaped, engineStart, kinit]

theorem allShaped_engineStarts {v : NMap VCore} {first : Nat} {x : MathCtx} {id : Nat} {l : List Nat} (h : AllShaped v) :
    AllShaped (l.foldl (fun v i => NMap.set v (first + i) (engineStart x id i)) v) :=
  foldl_keeps AllShaped _ (fun _ _ hv => allShaped_set hv (engineStart_shaped _ _ _)) l v h

/-- A change of the engines' entries that keeps each one shaped keeps the table shaped. -/
theorem allShaped_map {v : NMap VCore} {f : Nat × VCore → Nat × VCore} (hf : ∀ e, e.2.shaped → (f e).2.shaped) (h : AllShaped v) :
    AllShaped (v.map f) := by
  intro e he
  obtain ⟨a, ha, rfl⟩ := List.mem_map.1 he
  exact hf a (h a ha)

theorem inv_unbindVec {s : State} {id : Nat} (h : Inv s) : Inv (s.unbindVec id) :=
  inv_of_shaped h (allShaped_map (fun e he => by dsimp only; split <;> exact he) h.vec)

theorem inv_setVcore {s : State} {core : Nat} {c : VCore} (h : Inv s) (hc : c.shaped) : Inv (s.setVcore core c) :=
  inv_of_shaped h (allShaped_set h.vec hc)

theorem NMap.mem_of_get? {α : Type} {m : NMap α} {k : Nat} {v : α} (h : NMap.get? m k = some v) : ∃ j, (j, v) ∈ m := by
  induction m with
  | nil => cases h
  | cons a r ih =>
    simp only [NMap.get?] at h
    split at h
    · cases h
      exact ⟨a.1, List.mem_cons_self⟩
    · exact (ih h).imp fun _ => List.mem_cons_of_mem _

/-- The engine of every core is shaped: one that the table does not list is in its reset state. -/
theorem Inv.vcore {s : State} (h : Inv s) (core : Nat) : (s.vcore core).shaped := by
  unfold State.vcore NMap.getD
  cases hg : NMap.get? s.vec core with
  | none => exact ⟨rfl, rfl, rfl, rfl, Nat.zero_le _⟩
  | some c =>
    obtain ⟨j, hj⟩ := NMap.mem_of_get? hg
    exact h.vec _ hj

theorem inv_vecStep {s : State} {core : Nat} {f : VCore → VCore} (hf : ∀ c, c.shaped → (f c).shaped) (h : Inv s) : InvOut (s.vecStep core f) :=
  invOut_ite (inv_setVcore h (hf _ (h.vcore core))) h

end Sys2Proof.Machine
end

section
namespace Sys2Proof.Machine

/-! ### The registers of an engine keep their number (Table 6.1) -/

@[simp] theorem updAt_length {α : Type} (l : List α) (i : Nat) (f : α → α) : (updAt l i f).length = l.length := by
  induction l generalizing i with
  | nil => rfl
  | cons a r ih => cases i <;> simp [updAt, ih]

section
variable {c : VCore}

theorem setV_shaped {d mk f} (h : c.shaped) : (c.setV d mk f).shaped := by simpa [VCore.shaped, VCore.setV] using h

theorem setS_shaped {d x} (h : c.shaped) : (c.setS d x).shaped := by
  unfold VCore.setS
  split
  · simpa [VCore.shaped] using h
  · exact h

theorem setM_shaped {d mk f} (h : c.shaped) : (c.setM d mk f).shaped := by
  unfold VCore.setM
  split
  · exact h
  · simpa [VCore.shaped] using h

theorem fop_shaped {d mk f} (h : c.shaped) : (c.fop d mk f).shaped := setV_shaped (d := d) (mk := mk) (f := fun i => (f i).1) h

theorem vcvtfi_shaped {d a tz mk} (h : c.shaped) : (c.vcvtfi d a tz mk).shaped :=
  setV_shaped (d := d) (mk := mk) (f := fun i => BitVec.ofNat 32 (cvtFI tz (c.lane a i)).code) h

theorem vperm_shaped {d a b mk} (h : c.shaped) : (c.vperm d a b mk).shaped := by simpa [VCore.shaped, VCore.vperm, VCore.setV] using h

theorem vld_shaped {d mk el} (h : c.shaped) : (c.vld d mk el).shaped := by simpa [VCore.shaped, VCore.vld, VCore.setV] using h

theorem vldx_shaped {d a mk len el} (h : c.shaped) : (c.vldx d a mk len el).shaped := by
  unfold VCore.vldx
  dsimp only
  split <;> simpa [VCore.shaped, VCore.setV] using h

theorem rsum_shaped {k mk term} (h : c.shaped) : (c.rsum k mk term).shaped := by simpa [VCore.shaped, VCore.rsum] using h

theorem rminmax_shaped {k mk a kd} (h : c.shaped) : (c.rminmax k mk a kd).shaped := by simpa [VCore.shaped, VCore.rminmax] using h

theorem zeroRegs_shaped {l} (h : c.shaped) : (c.zeroRegs l).shaped := by
  refine foldl_keeps VCore.shaped _ (fun c r hc => ?_) l c h
  split
  · simpa [VCore.shaped] using hc
  · split <;> simpa [VCore.shaped] using hc

theorem beginPass_shaped {p} (h : c.shaped) : (c.beginPass p).shaped := by
  have hz : (c.zeroRegs c.wipe).shaped := zeroRegs_shaped h
  simpa [VCore.shaped, VCore.beginPass] using hz

theorem nextPass_shaped {a} (h : c.shaped) : (c.nextPass a).shaped := by
  unfold VCore.nextPass
  split
  · split
    · exact beginPass_shaped (c := c) h
    · exact h
  · exact h

theorem setvl_shaped {d a} (h : c.shaped) : (c.setvl d a).shaped := by
  obtain ⟨hv, hm, hs, ha, -⟩ := h
  exact setS_shaped ⟨hv, hm, hs, ha, Nat.min_le_right _ _⟩

end

theorem inv_vecStore {s : State} {core e w undef} (h : Inv s) : InvOut (s.vecStore core e w undef) := by
  unfold State.vecStore
  split
  · exact inv_next h
  · rename_i t he
    have ht := inv_planeWrites he h
    exact inv_next (inv_setVcore (inv_foldl (fun t p ht => (ended_forgetPlane t _ p).inv ht) ht) (h.vcore core))

theorem inv_execVst {s : State} {core a port p mk} (h : Inv s) : InvOut (execVst core a port p mk s) := by
  unfold execVst
  split
  · exact inv_next h
  · split
    · exact inv_next h
    · extract_lets st x o all missing part
      have hw := inv_vecStore (core := core) (e := ‹_›) (w := streamWrites x port.toNat (fun q => 0x40 + q) all) (undef := []) h
      split
      · rename_i t he
        have ht : Inv t := inv_of_next_eq he hw
        extract_lets t1
        have ht1 : Inv t1 := inv_of_shaped ht (allShaped_map (fun p hp => by split <;> exact hp) ht.vec)
        exact inv_next (inv_setVcore ht1 (ht1.vcore core))
      · exact hw

end Sys2Proof.Machine
end

section
namespace Sys2Proof.Machine

/-! ### The invariant, from the shared operations to the commands -/

section
variable {s : State}

/-! #### Ops -/

theorem inv_advance {n} (h : Inv s) : Inv (s.advance n) := h

theorem inv_advanceTo {t} (h : Inv s) : Inv (s.advanceTo t) := h

theorem inv_setRun {slot r} (h : Inv s) : Inv (s.setRun slot r) := h

theorem inv_updRun {slot f} (h : Inv s) : Inv (s.updRun slot f) := (ended_updRun _ _ _).inv h

theorem inv_fault {slot} (h : Inv s) : Inv (s.fault slot) := (ended_fault _ _).inv h

theorem inv_updLink {l f} (h : Inv s) : Inv (s.updLink l f) := by simpa [Inv] using h

theorem inv_hostSend {n cls hdr data} (h : Inv s) : Inv (s.hostSend n cls hdr data) := (ended_hostSend _ _ _ _ _).inv h

theorem inv_notice {port code context} (h : Inv s) : Inv (s.notice port code context) := (ended_notice _ _ _ _).inv h

theorem inv_noticeAll {cls hdr data} (h : Inv s) : Inv (s.noticeAll cls hdr data) := (ended_noticeAll _ _ _ _).inv h

theorem inv_record {unit code severity detail w} (h : Inv s) : Inv (s.record unit code severity detail w) := (ended_record _ _ _ _ _ _).inv h

theorem inv_updMemCtr {c f} (h : Inv s) : Inv (s.updMemCtr c f) := h

theorem inv_lineBad {line w} (h : Inv s) : Inv (s.lineBad line w) := (ended_lineBad _ _ _).inv h

theorem inv_loseLines {l} (h : Inv s) : Inv (s.loseLines l) := inv_ite h (inv_of_wf h (loses_wf h.mem))

theorem inv_lineFixed {line} (h : Inv s) : Inv (s.lineFixed line) := h

theorem inv_meetErrors {l} (h : Inv s) : Inv (s.meetErrors l) := by
  unfold State.meetErrors
  refine inv_foldl (fun _ _ h1 => ?_) (inv_loseLines h)
  split
  · exact h1
  · exact inv_lineFixed h1
  · exact inv_of_wf h1 (Mem.markBad_wf _ _ h1.mem)

theorem inv_setCtx {c x} (h : Inv s) : Inv (s.setCtx c x) := (ended_setCtx _ _ _).inv h

theorem inv_updCtx {c f} (h : Inv s) : Inv (s.updCtx c f) := (ended_updCtx _ _ _).inv h

theorem inv_foundBad {l slot} (h : Inv s) : Inv (s.foundBad l slot) := (ended_foundBad _ _ _).inv h

theorem inv_runWrites {slot c ws} (h : Inv s) : Inv (s.runWrites slot c ws) := by
  unfold State.runWrites
  split
  · exact h
  · rename_i he
    exact inv_foundBad (inv_planeWrites he h)

theorem inv_ringDrain {c n} (h : Inv s) : Inv (s.ringDrain c n) := (ended_ringDrain _ _ _).inv h

theorem inv_forgetPlane {c p} (h : Inv s) : Inv (s.forgetPlane c p) := (ended_forgetPlane _ _ _).inv h

theorem inv_forgetOutputs {e} (h : Inv s) : Inv (s.forgetOutputs e) := (ended_forgetOutputs _ _).inv h

theorem inv_endOp {id code} (h : Inv s) : Inv (s.endOp id code) := (ended_endOp _ _ _).inv h

theorem inv_setStack {c k} (h : Inv s) : Inv (s.setStack c k) := h

theorem inv_haltStreams {c b} (h : Inv s) : Inv (s.haltStreams c b) := h

theorem inv_tagCatchUp {c} (h : Inv s) : Inv (s.tagCatchUp c) := inv_ite h (inv_updCtx (inv_advanceTo h))

theorem inv_resetCtx {c} (h : Inv s) : Inv (s.resetCtx c) := (ended_resetCtx _ _).inv h

theorem inv_resetCtxs {cs} (h : Inv s) : Inv (s.resetCtxs cs) := (ended_resetCtxs _ _).inv h

theorem inv_updCore {c f} (h : Inv s) : Inv (s.updCore c f) := h

theorem inv_setStore {v} (h : Inv s) : Inv (s.setStore v) := h

/-! #### Cells -/

theorem inv_cellOut {l c} (h : Inv s) : Inv (s.cellOut l c) := by simpa [Inv] using h

/-! #### Power -/

theorem inv_unpowered : Inv s.unpowered := ⟨rfl, by intro e he; cases he⟩

theorem inv_startRails : Inv s.startRails := inv_of_fields inv_unpowered

theorem inv_enterBoxwood {chip} : Inv (s.enterBoxwood chip) := inv_of_fields inv_unpowered

theorem inv_wantDump {kind part trigger} (h : Inv s) : Inv (s.wantDump kind part trigger) := h

theorem inv_startChipReset {trigger} (h : Inv s) : Inv (s.startChipReset trigger) := by
  unfold State.startChipReset
  extract_lets _ _ s1
  have hs1 : Inv s1 := inv_of_fields h
  exact inv_ite (inv_of_fields hs1) (inv_of_fields (inv_enterBoxwood))

theorem inv_heldReset (h : Inv s) : Inv s.heldReset := inv_ite (inv_startChipReset h) h

theorem inv_halt (h : Inv s) : Inv s.halt := inv_heldReset (inv_of_fields h)

theorem inv_requestChipReset {trigger} (h : Inv s) : Inv (s.requestChipReset trigger) := by
  unfold State.requestChipReset
  split
  · exact inv_ite h (inv_startChipReset h)
  · exact inv_ite h (inv_startChipReset h)
  · exact inv_ite h (inv_startChipReset h)
  · exact inv_of_fields h

theorem inv_railsDown : Inv s.railsDown := inv_ite (inv_of_fields inv_unpowered) inv_unpowered

theorem inv_execPwrEnRise (h : Inv s) : InvOut (execPwrEnRise s) := by
  unfold execPwrEnRise
  extract_lets _ s1
  have hs1 : Inv s1 := inv_of_fields h
  refine invOut_ite (inv_next h) (invOut_ite (inv_next hs1) ?_)
  split
  · exact invOut_ite (inv_next (inv_of_fields hs1)) (inv_next inv_startRails)
  · exact inv_next inv_startRails

theorem inv_recordN {u c v n} (h : Inv s) : Inv (s.recordN u c v n) := by
  induction n generalizing s with
  | zero => exact h
  | succ n ih => exact ih (inv_record h)

theorem inv_execBoxwood (h : Inv s) : InvOut (execBoxwood s) := invOut_ite (inv_next h) (invOut_ite (inv_next (inv_halt (inv_record h))) (inv_next
  (inv_recordN (inv_of_fields h))))

theorem inv_bootSlot {n fell} (h : Inv s) : Inv (s.bootSlot n fell) := h

theorem inv_powerUpReports (h : Inv s) : Inv s.powerUpReports := by
  unfold State.powerUpReports
  extract_lets s1
  have hs1 : Inv s1 := by
    dsimp only [s1]
    split
    · exact inv_ite h (inv_record h)
    · exact h
  exact inv_ite (inv_of_fields (inv_record hs1)) hs1

theorem inv_execBootImage (h : Inv s) : InvOut (execBootImage s) := by
  unfold execBootImage
  extract_lets _ _ _ _ _ s2 _ _ s4 s5
  have hs2 : Inv s2 := inv_of_fields (inv_ite h (inv_powerUpReports h))
  have hs4 : Inv s4 := inv_of_fields (inv_record hs2)
  have hs5 : Inv s5 := inv_record (inv_record hs4)
  exact invOut_ite (inv_next h) (invOut_ite (inv_next (inv_bootSlot hs2)) (invOut_ite (inv_next (inv_bootSlot (inv_record hs4))) (inv_next
    (inv_heldReset (inv_of_fields hs5)))))

theorem inv_execClockAlign {tries delays} (h : Inv s) : InvOut (execClockAlign tries delays s) := by
  unfold execClockAlign
  refine invOut_ite (inv_next h) ?_
  split
  · exact invOut_ite (inv_next (inv_of_fields h)) (inv_next (inv_halt (inv_record (inv_of_fields h))))

theorem inv_execMemTrain {fails} (h : Inv s) : InvOut (execMemTrain fails s) := invOut_ite (inv_next h) (invOut_ite (inv_next (inv_of_wf h h.mem))
  (inv_next (inv_halt (inv_foldl (fun _ _ h1 => inv_record h1) h))))

theorem inv_execWipe {bad} (h : Inv s) : InvOut (execWipe bad s) := by
  unfold execWipe
  extract_lets s1
  have hs1 : Inv s1 := ⟨rfl, by intro e he; cases he⟩
  exact invOut_ite (inv_next h) (invOut_ite (inv_next (inv_of_fields hs1)) (inv_next (inv_halt (inv_foldl (fun _ _ ht => inv_record ht) hs1))))

theorem inv_execSelfTest {fails} (h : Inv s) : InvOut (execSelfTest fails s) := by
  unfold execSelfTest
  extract_lets _ _ _ _ _ _ _ _ s2
  have hs2 : Inv s2 := inv_of_fields (inv_foldl (fun _ _ h1 => inv_record h1) h)
  exact invOut_ite (inv_next h) (inv_next (inv_foldl (fun _ _ h1 => inv_ite (inv_record h1) (inv_ite (inv_record h1) h1)) hs2))

theorem inv_execLinkUp {up} (h : Inv s) : InvOut (execLinkUp up s) := by
  unfold execLinkUp
  extract_lets _ _ _ _ s2
  have hs2 : Inv s2 := inv_foldl (fun _ _ h1 => inv_updLink h1) (inv_of_fields h)
  exact invOut_ite (inv_next h) (invOut_ite (inv_next hs2) (invOut_ite (inv_next (inv_cellOut hs2)) (inv_next (inv_record hs2))))

theorem inv_execEnterReleased (h : Inv s) : InvOut (execEnterReleased s) := by
  unfold execEnterReleased
  extract_lets _ _ _ _ _ _ _ s2
  have hs2 : Inv s2 := inv_record (inv_of_fields h)
  exact invOut_ite (inv_next h) (inv_next (inv_ite (inv_startChipReset hs2) hs2))

theorem inv_execInputPowerReturn (h : Inv s) : InvOut (execInputPowerReturn s) := by
  unfold execInputPowerReturn
  extract_lets _ s1
  have hs1 : Inv s1 := inv_of_fields h
  exact invOut_ite (inv_next h) (inv_next (inv_ite inv_startRails hs1))

theorem inv_execRefclkRestored (h : Inv s) : InvOut (execRefclkRestored s) := by
  unfold execRefclkRestored
  exact inv_next (inv_of_fields h)

/-! #### Dict -/

theorem inv_touch {w} (h : Inv s) : Inv (s.touch w) := h

theorem inv_updReq {w f} (h : Inv s) : Inv (s.updReq w f) := h

theorem inv_sendResponse {w r} (h : Inv s) : Inv (s.sendResponse w r) := by simpa [Inv] using h

theorem inv_respond {w r} (h : Inv s) : Inv (s.respond w r) := by simpa [Inv] using h

theorem inv_takeDict {w} (h : Inv s) : Inv (s.takeDict w) := by simpa [Inv] using h

theorem inv_dictOpt {q op i sub act} (h : Inv s) (hf : ∀ t, Inv t → Inv (act t).1) : Inv (s.dictOpt q op i sub act).1 := by
  unfold State.dictOpt
  extract_lets s1
  have hs1 : Inv s1 := inv_touch (inv_takeDict h)
  refine inv_ite_fst h ?_
  split
  · exact inv_sendResponse hs1
  · refine inv_ite_fst hs1 (inv_ite_fst (inv_respond hs1) (inv_ite_fst (inv_respond hs1) ?_))
    split
    · rename_i x t _ _ he
      have ht := inv_of_fst_eq he (hf _ hs1)
      exact inv_respond ht
    · rename_i he
      have ht := inv_of_fst_eq he (hf _ hs1)
      exact inv_updReq ht

theorem inv_dict {q op i sub act} (h : Inv s) (hf : ∀ t, Inv t → Inv (act t).1) : Inv (s.dict q op i sub act).1 := by
  unfold State.dict
  refine inv_dictOpt h (fun _ h1 => ?_)
  split
  · rename_i he
    exact inv_of_fst_eq he (hf _ h1)

theorem inv_answerLater {q op i sub c} (h : Inv s) : Inv (s.answerLater q op i sub c) := inv_ite (inv_respond (inv_updReq h)) h

theorem inv_endElevation {w} (h : Inv s) : Inv (s.endElevation w) := h

theorem inv_dictWrite {q i sub bytes act} (h : Inv s) (hf : ∀ t, Inv t → Inv (act t).1) : Inv (s.dictWrite q i sub bytes act).1 := by
  unfold State.dictWrite
  refine inv_dict h (fun _ h1 => ?_)
  split
  · exact h1
  · extract_lets s1
    have hs1 : Inv s1 := inv_endElevation h1
    refine inv_ite_fst h1 (inv_ite_fst h1 (inv_ite_fst (inv_endElevation h1) (inv_ite_fst hs1 ?_)))
    split
    · rename_i he
      exact inv_of_fst_eq he (hf _ hs1)

theorem inv_dictEnd {q i sub sha act} (h : Inv s) (hf : ∀ t x, Inv t → Inv (act t x).1) : Inv (s.dictEnd q i sub sha act).1 := by
  unfold State.dictEnd
  refine inv_dict h (fun _ h1 => ?_)
  split
  · exact h1
  · extract_lets s1
    have hs1 : Inv s1 := inv_updReq h1
    refine inv_ite_fst h1 (inv_ite_fst h1 (inv_ite_fst hs1 (inv_ite_fst hs1 ?_)))
    split
    · rename_i he
      exact inv_of_fst_eq he (hf _ _ hs1)

theorem inv_execDomainBegin {q index sub offset total} (h : Inv s) : InvOut (execDomainBegin q index sub offset total s) := by
  unfold execDomainBegin
  refine inv_next (inv_dict h (fun _ h1 => ?_))
  extract_lets _ _ s1 _ _ _ s2
  have hs1 : Inv s1 := inv_updReq h1
  have hs2 : Inv s2 := inv_ite (inv_of_fields hs1) hs1
  split
  · exact h1
  · exact inv_ite_fst h1 (inv_ite_fst h1 (inv_ite_fst (inv_endElevation h1) (inv_ite_fst (inv_endElevation h1) (inv_ite_fst h1 (inv_ite_fst h1
      (inv_ite_fst (inv_endElevation h1) hs2))))))

theorem inv_execDomainSeg {q index sub offset bytes} (h : Inv s) : InvOut (execDomainSeg q index sub offset bytes s) := by
  unfold execDomainSeg
  refine inv_next (inv_dict h (fun _ h1 => ?_))
  split
  · exact h1
  · exact inv_ite_fst h1 (inv_ite_fst (inv_updReq h1) (inv_ite_fst (inv_updReq h1) (inv_ite_fst h1 (inv_updReq h1))))

theorem inv_execDomainCancel {q index sub} (h : Inv s) : InvOut (execDomainCancel q index sub s) := by
  unfold execDomainCancel
  refine inv_next (inv_dict h (fun _ h1 => ?_))
  split
  · exact h1
  · exact inv_ite_fst h1 (inv_updReq h1)

theorem inv_execDomainTimeout {r} (h : Inv s) : InvOut (execDomainTimeout r s) := by
  unfold execDomainTimeout
  split
  · exact inv_next h
  · exact inv_next (inv_updReq (inv_advanceTo h))

theorem inv_execNonceRead {q} (h : Inv s) : InvOut (execNonceRead q s) := by
  unfold execNonceRead
  exact inv_next (inv_dict h (fun _ h1 => inv_updReq (inv_of_fields h1)))

theorem inv_execAuth {q token} (h : Inv s) : InvOut (execAuth q token s) := by
  unfold execAuth
  refine inv_next (inv_dict h (fun _ h1 => ?_))
  extract_lets _ s1
  have hs1 : Inv s1 := inv_updReq h1
  exact inv_ite_fst (inv_updReq hs1) (inv_record hs1)

theorem inv_execElevationLapse {r} (h : Inv s) : InvOut (execElevationLapse r s) := by
  unfold execElevationLapse
  split
  · exact inv_next h
  · exact invOut_ite (inv_next h) (inv_next (inv_endElevation (inv_advanceTo h)))

/-! #### DictRead -/

theorem inv_serveRead {w bs} (h : Inv s) : Inv (s.serveRead w bs) := by
  unfold State.serveRead
  refine inv_ite h ?_
  split
  · refine inv_dict h (fun _ h1 => ?_)
    split
    · exact h1
  · refine inv_ite (inv_dict h (fun _ h1 => ?_)) h
    split
    · exact h1

theorem inv_execFieldDatagram {r bytes} (h : Inv s) : InvOut (execFieldDatagram r bytes s) := by
  unfold execFieldDatagram
  refine invOut_ite (inv_next h) ?_
  split
  · exact inv_next (inv_serveRead h)
  · extract_lets _ s1 _ _ s2
    have hs1 : Inv s1 := inv_of_fields h
    have hs2 : Inv s2 := inv_ite hs1 (inv_of_fields (inv_record hs1))
    refine invOut_ite (inv_next h) (inv_next ?_)
    split
    · exact hs2
    · exact inv_sendResponse hs2

theorem inv_execFieldStateClear {q v} (h : Inv s) : InvOut (execFieldStateClear q v s) := by
  unfold execFieldStateClear
  refine inv_next (inv_dictWrite h (fun _ h1 => ?_))
  split
  · exact h1
  · exact inv_ite_fst h1 (inv_ite_fst (inv_of_fields h1) (inv_ite_fst h1 h1))

theorem inv_execNeighbourDiscovery {m} (h : Inv s) : InvOut (execNeighbourDiscovery m s) := by
  unfold execNeighbourDiscovery
  extract_lets _ _ out
  have hout : ∀ x, Inv (out x) := fun _ => inv_of_fields h
  refine invOut_ite (inv_next h) ?_
  split
  · exact invOut_ite (inv_next (hout _)) (inv_next h)
  · exact invOut_ite (inv_next (hout _)) (inv_next h)

/-! #### Strikes -/

theorem inv_makeDue {c seq slot} (h : Inv s) : Inv (s.makeDue c seq slot) := by
  unfold State.makeDue
  extract_lets _ _ _ s1
  have hs1 : Inv s1 := inv_of_fields h
  refine inv_ite h (inv_ite hs1 ?_)
  split
  · exact inv_fault (inv_record hs1)
  · exact inv_record hs1

theorem inv_strike {c source seq slot} (h : Inv s) : Inv (s.strike c source seq slot) := by
  unfold State.strike
  extract_lets _ _ _ s1 s2 _ s3
  have hs1 : Inv s1 := inv_setStore h
  have hs2 : Inv s2 := by
    dsimp only [s2]
    split
    · exact inv_updRun hs1
    · exact hs1
  have hs3 : Inv s3 := inv_record hs2
  exact inv_ite h (inv_ite (inv_makeDue hs3) hs3)

theorem inv_transient {c seq slot} (h : Inv s) : Inv (s.transient c seq slot) := by
  unfold State.transient
  extract_lets _ s1
  have hs1 : Inv s1 := inv_updCore h
  exact inv_ite (inv_setStore hs1) (inv_strike (inv_setStore hs1))

theorem inv_updCtr {c f} (h : Inv s) : Inv (s.updCtr c f) := h

theorem inv_tileBad {core off w slot} (h : Inv s) : Inv (s.tileBad core off w slot) := inv_strike (inv_record (inv_of_fields (inv_updCtr h)))

theorem inv_dropSuspect {c cleared} (h : Inv s) : Inv (s.dropSuspect c cleared) := inv_ite (inv_of_fields h) (inv_of_fields (inv_ite (inv_foldl (fun _
  _ h1 => inv_updCore h1) h) h))

/-! #### Resets -/

theorem inv_partitionReset {p trigger} (h : Inv s) : Inv (s.partitionReset p trigger) := by
  unfold State.partitionReset
  extract_lets _ _ _ _ s3
  have hs3 : Inv s3 := by
    exact inv_foldl (fun _ _ h1 => inv_fault (inv_record (inv_setStack h1))) (inv_resetCtxs (inv_ite h (inv_wantDump h)))
  exact inv_of_shaped hs3 (allShaped_filter hs3.vec)

theorem inv_engineReset {p trigger} (h : Inv s) : Inv (s.engineReset p trigger) := by
  unfold State.engineReset
  split
  · exact h
  · extract_lets _ _ s2
    have hs2 : Inv s2 := inv_updCore (inv_resetCtxs h)
    exact inv_ite (inv_partitionReset h) (inv_of_shaped hs2 (allShaped_erase hs2.vec))

theorem inv_coreBack {c} (h : Inv s) : Inv (s.coreBack c) := h

theorem inv_execChipReset {q v} (h : Inv s) : InvOut (execChipReset q v s) := by
  unfold execChipReset
  extract_lets r
  have hr : Inv r.1 := inv_dictWrite h (fun _ h1 => inv_ite_fst h1 (inv_ite_fst h1 h1))
  exact inv_next (inv_ite (inv_requestChipReset hr) hr)

theorem inv_execPartitionReset {p src} (h : Inv s) : InvOut (execPartitionReset p src s) := by
  unfold execPartitionReset
  split
  · exact inv_next (inv_dictWrite h (fun _ h1 => inv_ite_fst h1 (inv_ite_fst h1 (inv_ite_fst h1 (inv_ite_fst h1 (inv_partitionReset h1))))))
  · exact invOut_ite (inv_next (inv_partitionReset h)) (inv_next h)

theorem inv_execEngineReset {core src} (h : Inv s) : InvOut (execEngineReset core src s) := by
  unfold execEngineReset
  split
  · split
    · exact inv_next h
    · exact inv_next (inv_dictWrite h (fun _ h1 => inv_ite_fst h1 (inv_ite_fst h1 (inv_ite_fst h1 (inv_ite_fst h1 (inv_engineReset h1))))))
  · exact invOut_ite (inv_next (inv_engineReset h)) (inv_next h)

theorem inv_execResetEscalate {scope} (h : Inv s) : InvOut (execResetEscalate scope s) := by
  unfold execResetEscalate
  split
  · exact invOut_ite (inv_next (inv_foldl (fun _ _ h1 => inv_engineReset h1) (inv_advanceTo h))) (inv_next h)
  · split
    · exact inv_next h
    · exact invOut_ite (inv_next (inv_partitionReset (inv_advanceTo h))) (inv_next h)
  · exact invOut_ite (inv_next (inv_startChipReset h)) (inv_next h)

theorem inv_execCrashDump {silent} (h : Inv s) : InvOut (execCrashDump silent s) := by
  unfold execCrashDump
  split
  · exact inv_next h
  · extract_lets _ _ _ _ _ _ _ s2
    have hs2 : Inv s2 := inv_record (inv_of_fields h)
    exact inv_next (inv_ite (inv_startChipReset hs2) hs2)

theorem inv_execDumpRequest {q v} (h : Inv s) : InvOut (execDumpRequest q v s) := by
  unfold execDumpRequest
  exact inv_next (inv_dictWrite h (fun _ h1 => inv_ite_fst h1 (inv_ite_fst h1 (inv_ite_fst (inv_of_fields h1) (inv_wantDump h1)))))

theorem inv_execCaptureFlush {slot} (h : Inv s) : InvOut (execCaptureFlush slot s) := by
  unfold execCaptureFlush
  split
  · exact inv_next h
  · exact invOut_ite (inv_next h) (inv_next (inv_of_fields h))

theorem inv_execUnitSilent {unit} (h : Inv s) : InvOut (execUnitSilent unit s) := by
  unfold execUnitSilent
  extract_lets s1 _ _ _ s2 s3
  have hs1 : Inv s1 := by
    dsimp only [s1]
    split
    · exact inv_advanceTo h
    · exact h
  have hs2 : Inv s2 := inv_record hs1
  have hs3 : Inv s3 := inv_record hs1
  exact invOut_ite (inv_next h) (invOut_ite (inv_next (inv_engineReset hs2)) (invOut_ite (inv_next (inv_partitionReset hs2)) (invOut_ite (inv_next
    (inv_record hs1)) (inv_next (inv_startChipReset hs3)))))

/-! #### VigilRows -/

theorem inv_execThermalSample {temps} (h : Inv s) : InvOut (execThermalSample temps s) := by
  unfold execThermalSample
  extract_lets _ _ _ _ _ _ _ s1 _ _ _ s2
  have hs1 : Inv s1 := inv_of_fields h
  have hs2 : Inv s2 := inv_ite (inv_of_fields (inv_record hs1)) (inv_ite (inv_of_fields hs1) hs1)
  exact invOut_ite (inv_next h) (inv_next (inv_ite (inv_record hs2) hs2))

theorem inv_execPowerLimit {watts} (h : Inv s) : InvOut (execPowerLimit watts s) := by
  unfold execPowerLimit
  extract_lets _ s1
  have hs1 : Inv s1 := inv_of_fields h
  exact invOut_ite (inv_next h) (inv_next (inv_ite (inv_record hs1) hs1))

theorem inv_execRegulatorPoll {n reply} (h : Inv s) : InvOut (execRegulatorPoll n reply s) := by
  unfold execRegulatorPoll
  refine invOut_ite (inv_next h) ?_
  split
  · extract_lets _ _ s1
    have hs1 : Inv s1 := inv_of_fields h
    exact inv_next (inv_ite (inv_record hs1) hs1)
  · extract_lets _ s1
    have hs1 : Inv s1 := inv_of_fields h
    exact inv_next (inv_ite (inv_record hs1) hs1)

theorem inv_execLpddrMaintSlot {work} (h : Inv s) : InvOut (execLpddrMaintSlot work s) := by
  unfold execLpddrMaintSlot
  split
  · exact inv_next (inv_updMemCtr h)
  · extract_lets s1 slot s2
    have hs1 : Inv s1 := inv_ite h (inv_meetErrors h)
    have hs2 : Inv s2 := inv_lineBad hs1
    refine invOut_ite trivial (invOut_ite (inv_next ?_) (inv_next hs1))
    clear_value slot
    split
    · exact inv_fault hs2
    · exact hs2
  · exact invOut_ite trivial (invOut_ite (inv_next (inv_of_wf h (Mem.zeroLine_wf _ _ h.mem))) (inv_next h))

theorem inv_tileFound {core f} (h : Inv s) : Inv (s.tileFound core f) := by
  unfold State.tileFound
  split
  · exact h
  · exact inv_updCtr h
  · extract_lets slot s1
    have hs1 : Inv s1 := inv_tileBad h
    clear_value slot
    split
    · exact inv_fault hs1
    · exact hs1

theorem inv_latch {key} (h : Inv s) : Inv (s.latch key) := h

theorem inv_strobe {f} (h : Inv s) : Inv (s.strobe f) := h

theorem inv_execSnapshotObject {q v} (h : Inv s) : InvOut (execSnapshotObject q v s) := inv_next (inv_dictOpt h (fun _ h1 => inv_ite_fst
  (inv_endElevation h1) (inv_ite_fst h1 (inv_ite_fst h1 (inv_ite_fst h1 (inv_strobe h1))))))

theorem inv_execSnapshotLatch (h : Inv s) : InvOut (execSnapshotLatch s) := by
  unfold execSnapshotLatch
  split
  · exact inv_next h
  · extract_lets _ s1 s2 _ s3
    have hs1 : Inv s1 := inv_advanceTo h
    have hs2 : Inv s2 := by
      dsimp only [s2]
      split
      · exact inv_latch hs1
      · exact inv_latch hs1
    have hs3 : Inv s3 := inv_of_fields hs2
    refine inv_next ?_
    split
    · exact inv_answerLater hs3
    · exact inv_of_fields hs3
    · exact hs3

/-! #### Security -/

theorem inv_burn {lo w n} (h : Inv s) : Inv (s.burn lo w n) := h

theorem inv_lifeCycle {q target need extra change} (h : Inv s)
    (hf : ∀ t, Inv t → Inv (change t)) : Inv (s.lifeCycle q target need extra change) := by
  unfold State.lifeCycle
  extract_lets r
  have hr : Inv r.1 := by
    refine inv_dictWrite h (fun _ h1 => inv_ite_fst h1 (inv_ite_fst h1 ?_))
    split
    · exact h1
    · exact inv_ite_fst h1 (inv_ite_fst h1 (inv_ite_fst h1 (hf _ h1)))
  exact inv_ite (inv_startChipReset hr) hr

theorem inv_execFleetKey {q sha} (h : Inv s) : InvOut (execFleetKey q sha s) := by
  unfold execFleetKey
  exact inv_next (inv_dictEnd h (fun _ _ h1 => inv_ite_fst h1 (inv_ite_fst h1 (inv_of_fields h1))))

theorem inv_execKeySlotWrite {q sha} (h : Inv s) : InvOut (execKeySlotWrite q sha s) := by
  unfold execKeySlotWrite
  refine inv_next (inv_dictEnd h (fun _ _ h1 => inv_ite_fst h1 ?_))
  split
  · exact h1
  · exact inv_of_wf h1 h1.mem

theorem inv_execKeySlotClear {q v} (h : Inv s) : InvOut (execKeySlotClear q v s) := by
  unfold execKeySlotClear
  exact inv_next (inv_dictWrite h (fun _ h1 => inv_ite_fst h1 (inv_ite_fst h1 (inv_of_wf h1 h1.mem))))

theorem inv_execAttestNonce {q sha} (h : Inv s) : InvOut (execAttestNonce q sha s) := by
  unfold execAttestNonce
  exact inv_next (inv_dictEnd h (fun _ _ h1 => inv_ite_fst h1 (inv_ite_fst h1 (inv_updReq (inv_of_fields h1)))))

theorem inv_imageEnd {t fw programOk} (h : Inv s) : Inv (s.imageEnd t fw programOk).1 := inv_ite_fst (inv_of_fields h) (inv_ite_fst (inv_of_fields h)
  (inv_ite_fst (inv_record (inv_of_fields h)) (inv_of_fields h)))

theorem inv_afterImage {r} (h : Inv r.1) : Inv (State.afterImage r) := inv_ite (inv_startChipReset h) h

theorem inv_ranged {ok t} (h : Inv s) (h1 : Inv t) : Inv (ranged ok s t).1 := inv_ite_fst h1 h

theorem inv_writePlain {w i sub v} (h : Inv s) : Inv (s.writePlain w i sub v).1 := inv_ite_fst (inv_setStore h) (inv_ite_fst (inv_ranged h
  (inv_setStore h)) (inv_ite_fst (inv_setStore h) (inv_ite_fst (inv_ranged h (inv_setStore h)) (inv_ite_fst (inv_ranged h (inv_setStore h))
  (inv_ite_fst (inv_ranged h (inv_setStore h)) (inv_ite_fst (inv_ranged h (inv_setStore h)) (inv_ite_fst (inv_ranged h (inv_setStore h)) (inv_ite_fst
  (inv_ranged h (inv_setStore h)) (inv_ite_fst (inv_of_fields h) (inv_ite_fst (inv_ranged h (inv_updReq h)) (inv_ite_fst (inv_ranged h (inv_of_fields
  h)) (inv_ite_fst (inv_ranged h (inv_setStore h)) h))))))))))))

theorem inv_writeTable {i sub t} (h : Inv s) : Inv (s.writeTable i sub t).1 := inv_ite_fst (inv_ranged h (inv_setStore h)) (inv_ite_fst (inv_updRun h)
  (inv_ite_fst (inv_updRun h) (inv_ite_fst (inv_updRun h) (inv_ite_fst (inv_of_fields h) (inv_ite_fst (inv_of_fields h) (inv_ite_fst (inv_of_fields h)
  (inv_ite_fst (inv_of_fields h) h)))))))

theorem inv_execObjectWrite {q index sub w} (h : Inv s) : InvOut (execObjectWrite q index sub w s) := by
  unfold execObjectWrite
  refine invOut_ite (inv_next h) ?_
  split
  · exact inv_next (inv_dictWrite h (fun _ h1 => inv_writePlain h1))
  · refine invOut_ite (inv_next (inv_dictEnd h (fun _ _ h1 => ?_))) (inv_next (inv_dictEnd h (fun _ _ h1 => inv_writeTable h1)))
    exact inv_ite_fst h1 (inv_ite_fst h1 (inv_setStore h1))

/-! #### Links -/

theorem inv_unroutable {n} (h : Inv s) : Inv (s.unroutable n) := h

theorem inv_sendCell {c} (h : Inv s) : Inv (s.sendCell c) := by
  unfold State.sendCell
  refine inv_ite (inv_of_fields h) ?_
  split
  · exact inv_cellOut h
  · exact inv_unroutable h

theorem inv_violation {l v} (h : Inv s) : Inv (s.violation l v) := by
  unfold State.violation
  extract_lets _ _ s1
  have hs1 : Inv s1 := inv_updLink h
  exact inv_ite (inv_record hs1) hs1

theorem inv_takeCell {l c} (h : Inv s) : Inv (s.takeCell l c) := by
  unfold State.takeCell
  split
  · exact inv_of_fields h
  · exact inv_updLink h

theorem inv_takePacket {n p} (h : Inv s) : Inv (s.takePacket n p) := h

theorem inv_acceptCell {l c} (h : Inv s) : Inv (s.acceptCell l c) := by
  unfold State.acceptCell
  extract_lets _ here s1
  have hhere : ∀ t, Inv t → Inv (here t) := fun _ h1 => inv_updLink h1
  have hs1 : Inv s1 := inv_updLink h
  split
  · refine inv_ite (hhere _ h) (inv_ite (inv_violation (inv_updLink hs1)) ?_)
    split
    · exact inv_violation (inv_unroutable hs1)
    · exact inv_cellOut hs1
  · exact hhere _ h

theorem inv_eatCells {l f bs} (h : Inv s) : Inv (State.eatCells l f bs s) := by
  induction f generalizing bs s with
  | zero => exact inv_updLink h
  | succ f ih =>
    simp only [State.eatCells]
    refine inv_ite (inv_updLink h) (inv_ite (ih h) (inv_ite (inv_updLink (inv_ite h (inv_violation h))) (inv_ite (inv_updLink h)
      (inv_ite (ih (inv_updLink h)) ?_))))
    split
    · exact ih (inv_updLink (inv_violation h))
    · exact inv_ite (ih (inv_violation h)) (ih (inv_acceptCell h))

theorem inv_takeDictPacket {n bs} (h : Inv s) : Inv (s.takeDictPacket n bs) := by
  unfold State.takeDictPacket
  extract_lets _ s1
  have hs1 : Inv s1 := inv_updLink (inv_takeDict h)
  refine inv_ite (inv_takeDict h) ?_
  split
  · split
    · exact hs1
    · exact inv_sendResponse hs1
  · exact inv_serveRead h

theorem inv_acceptPacket {n p} (h : Inv s) : Inv (s.acceptPacket n p) := by
  unfold State.acceptPacket
  extract_lets s1
  have hs1 : Inv s1 := inv_updLink h
  exact inv_ite (inv_takeDictPacket hs1) hs1

theorem inv_eatPackets {n f bs} (h : Inv s) : Inv (State.eatPackets n f bs s) := by
  induction f generalizing bs s with
  | zero => exact inv_updLink h
  | succ f ih =>
    simp only [State.eatPackets]
    refine inv_ite (inv_updLink h) (inv_ite (ih h) (inv_ite (inv_updLink (inv_violation h)) (inv_ite (inv_updLink h)
      (inv_ite (ih (inv_updLink h)) ?_))))
    split
    · exact ih (inv_violation h)
    · exact ih (inv_updLink (inv_violation h))
    · exact ih (inv_acceptPacket h)

theorem inv_execLinkBlock {l b} (h : Inv s) : InvOut (execLinkBlock l b s) := by
  unfold execLinkBlock
  extract_lets _ _ s1 _ s2
  have hs1 : Inv s1 := inv_updLink h
  have hs2 : Inv s2 := inv_updLink hs1
  refine invOut_ite (inv_next h) (invOut_ite (inv_next (inv_updLink h)) (invOut_ite (inv_next (inv_updLink (inv_violation h))) (invOut_ite (inv_next
    hs1) (inv_next ?_))))
  split
  · exact inv_eatPackets hs2
  · exact inv_eatCells hs2

theorem inv_fabricLost {n sev} (h : Inv s) : Inv (s.fabricLost n sev) := inv_foldl (fun _ _ h1 => inv_endOp h1) (inv_record h)

theorem inv_failReads {n} (h : Inv s) : Inv (s.failReads n) := inv_foldl (fun _ _ h1 => inv_endOp h1) (inv_of_fields h)

theorem inv_linkLost {l down lost} (h : Inv s) : Inv (s.linkLost l down lost) := by
  unfold State.linkLost
  split
  · exact inv_fabricLost h
  · exact inv_record h
  · exact h

theorem inv_execLinkRetrainStart {l} (h : Inv s) : InvOut (execLinkRetrainStart l s) := by
  unfold execLinkRetrainStart
  extract_lets _ _ s1
  have hs1 : Inv s1 := inv_updLink h
  refine invOut_ite (inv_next ?_) (inv_next h)
  split
  · exact inv_ite hs1 (inv_linkLost hs1)
  · exact inv_linkLost hs1

theorem inv_execLinkRetrainDone {l ok} (h : Inv s) : InvOut (execLinkRetrainDone l ok s) := by
  unfold execLinkRetrainDone
  extract_lets _ _ _ s1
  have hs1 : Inv s1 := inv_updLink h
  exact invOut_ite (inv_next h) (invOut_ite (inv_next (inv_updLink h)) (invOut_ite (inv_next (inv_updLink h)) (inv_next (inv_linkLost hs1))))

theorem inv_execPortTrained {l} (h : Inv s) : InvOut (execPortTrained l s) := by
  unfold execPortTrained
  extract_lets _ s1
  have hs1 : Inv s1 := inv_updLink h
  refine invOut_ite (inv_next ?_) (inv_next h)
  split
  · exact inv_cellOut hs1
  · exact hs1

theorem inv_execLinkCtrlSend {l} (h : Inv s) : InvOut (execLinkCtrlSend l s) := by
  unfold execLinkCtrlSend
  split
  · exact inv_next h
  · exact invOut_ite (inv_next h) (inv_next (inv_cellOut (inv_updLink h)))

theorem inv_execLinkCtrl {l c} (h : Inv s) : InvOut (execLinkCtrl l c s) := by
  unfold execLinkCtrl
  split
  · exact inv_next h
  · extract_lets _ _ _ s2
    have hs2 : Inv s2 := inv_updLink (inv_takeCell h)
    exact invOut_ite (inv_next h) (inv_next (inv_ite (inv_violation hs2) hs2))

/-! #### HostRows -/

/-- The function's equations are not available (`whnf` unfolds it where `unfold` fails on the bound of 512 KiB). -/
theorem inv_issuePieces {id ps} (h : Inv s) : Inv (State.issuePieces id ps s) := by
  induction ps generalizing s with
  | nil => exact h
  | cons p ps ih =>
    conv => arg 1; whnf
    split
    · exact h
    · refine inv_ite (ih h) ?_
      split
      · exact inv_endOp h
      · split
        · exact h
        · exact inv_ite h (ih (inv_hostSend (inv_of_fields h)))

theorem inv_issueReads {id} (h : Inv s) : Inv (s.issueReads id) := by
  unfold State.issueReads
  split
  · exact h
  · exact inv_issuePieces h

theorem inv_dropRead {n tag} (h : Inv s) : Inv (s.dropRead n tag) := h

theorem inv_countHost {n f} (h : Inv s) : Inv (s.countHost n f) := h

theorem inv_lateDrop {c} (h : Inv s) : Inv (s.lateDrop c) := h

theorem inv_wantLoad {c} (h : Inv s) : Inv (s.wantLoad c) := inv_ite (inv_of_fields (inv_updCtx h)) h

theorem inv_execCompletion {port p} (h : Inv s) : InvOut (execCompletion port p s) := by
  unfold execCompletion
  extract_lets s1 s2
  have hs1 : Inv s1 := inv_takePacket h
  have hs2 : Inv s2 := inv_dropRead hs1
  refine invOut_ite (inv_next h) ?_
  split
  · exact inv_next (inv_violation hs1)
  · split
    · exact inv_next (inv_countHost hs1)
    · exact inv_next (inv_violation hs1)
    · exact inv_next (inv_ite (inv_wantLoad hs2) (inv_lateDrop hs2))
    · split
      · exact inv_next (inv_dropRead hs1)
      · exact invOut_ite (inv_next (inv_lateDrop hs1)) (invOut_ite (inv_next (inv_endOp (inv_dropRead hs1))) (invOut_ite (inv_next (inv_violation
          hs1)) (inv_next (inv_issueReads (inv_of_fields hs2)))))

theorem inv_execHostReadTimeout {port tag} (h : Inv s) : InvOut (execHostReadTimeout port tag s) := by
  unfold execHostReadTimeout
  split
  · exact inv_next h
  · split
    · exact inv_next h
    · extract_lets s1 _ _ s3
      have hs1 : Inv s1 := inv_advanceTo h
      have hs3 : Inv s3 := inv_of_fields (inv_ite hs1 (inv_countHost hs1))
      refine inv_next ?_
      split
      · exact inv_endOp hs3
      · exact hs3

theorem inv_execRequestExpire {port tag} (h : Inv s) : InvOut (execRequestExpire port tag s) := by
  unfold execRequestExpire
  split
  · exact inv_next h
  · exact inv_next (inv_of_fields (inv_updLink (inv_advanceTo h)))

theorem inv_execYalvoLink {port p} (h : Inv s) : InvOut (execYalvoLink port p s) := by
  unfold execYalvoLink
  extract_lets _ _ _ _ s2
  have hs2 : Inv s2 := inv_updLink (inv_takePacket h)
  exact invOut_ite (inv_next h) (inv_next (inv_ite (inv_violation hs2) hs2))

/-! #### Units -/

theorem inv_bridgeGone (h : Inv s) : Inv s.bridgeGone := h

theorem inv_startTraining {l} (h : Inv s) : Inv (s.startTraining l) := by
  unfold State.startTraining
  extract_lets _ s1 s2
  have hs1 : Inv s1 := inv_updLink h
  have hs2 : Inv s2 := inv_ite (inv_linkLost hs1) hs1
  exact inv_ite (inv_bridgeGone hs2) hs2

theorem inv_disableLink {l} (h : Inv s) : Inv (s.disableLink l) := by
  unfold State.disableLink
  extract_lets _ s1
  have hs1 : Inv s1 := inv_updLink h
  split
  · exact inv_ite (inv_fabricLost hs1) hs1
  · exact inv_failReads hs1
  · exact inv_ite (inv_bridgeGone hs1) hs1

theorem inv_retrainCmd {l} (h : Inv s) : Inv (s.retrainCmd l).1 := by
  unfold State.retrainCmd
  refine inv_ite_fst h ?_
  split
  · exact inv_updLink h
  · exact h
  · exact h
  · exact inv_startTraining h
  · exact inv_startTraining h

theorem inv_disableCmd {l} (h : Inv s) : Inv (s.disableCmd l).1 := by
  unfold State.disableCmd
  refine inv_ite_fst h ?_
  split
  · exact h
  · exact inv_updLink h
  · exact inv_updLink h
  · exact inv_disableLink h
  · exact inv_disableLink h

theorem inv_execBridgeRetrain {q} (h : Inv s) : InvOut (execBridgeRetrain q s) := by
  unfold execBridgeRetrain
  exact inv_next (inv_dictWrite h (fun _ h1 => inv_ite_fst h1 (inv_ite_fst (inv_ite_fst h1 (inv_of_fields h1)) (inv_retrainCmd h1))))

theorem inv_execBridgeDisable {q} (h : Inv s) : InvOut (execBridgeDisable q s) := by
  unfold execBridgeDisable
  exact inv_next (inv_dictWrite h (fun _ h1 => inv_ite_fst (inv_of_fields h1) (inv_disableCmd h1)))

theorem inv_boundaryRetrain (h : Inv s) : Inv s.boundaryRetrain := inv_ite (inv_startTraining (inv_of_fields h)) h

theorem inv_mirrorRuns (h : Inv s) : Inv s.mirrorRuns := h

theorem inv_execMirrorStart {q} (h : Inv s) : InvOut (execMirrorStart q s) := by
  unfold execMirrorStart
  refine inv_next (inv_dictWrite h (fun _ h1 => inv_ite_fst h1 ?_))
  split
  · exact inv_of_fields h1
  · exact inv_ite_fst (inv_mirrorRuns h1) h1
  · exact h1

theorem inv_execMirrorStop {q} (h : Inv s) : InvOut (execMirrorStop q s) := by
  unfold execMirrorStop
  refine inv_next (inv_dictWrite h (fun _ h1 => inv_ite_fst h1 ?_))
  split
  · exact inv_of_fields h1
  · exact inv_of_fields h1
  · exact inv_of_fields h1
  · exact h1

theorem inv_execCoreDrainStop {q core} (h : Inv s) : InvOut (execCoreDrainStop q core s) := by
  unfold execCoreDrainStop
  refine inv_next (inv_dictWrite h (fun _ h1 => inv_ite_fst h1 (inv_ite_fst (inv_ite_fst h1 (inv_updCore h1)) ?_)))
  split
  · exact inv_updCore h1
  · exact inv_updCore h1
  · exact inv_updCore h1
  · exact h1

theorem inv_execCoreDrainStart {q core} (h : Inv s) : InvOut (execCoreDrainStart q core s) := by
  unfold execCoreDrainStart
  refine inv_next (inv_dictWrite h (fun _ h1 => inv_ite_fst h1 (inv_ite_fst (inv_ite_fst (inv_updCore h1) h1) ?_)))
  split
  · exact inv_updCore h1
  · exact inv_updCore h1
  · exact h1

theorem inv_linkStopped {l} (h : Inv s) : Inv (s.linkStopped l) := by
  unfold State.linkStopped
  extract_lets _ s1
  have hs1 : Inv s1 := inv_disableLink h
  exact inv_ite (inv_startTraining hs1) hs1

theorem inv_execStopCompletes {u} (h : Inv s) : InvOut (execStopCompletes u s) := by
  unfold execStopCompletes
  split
  · exact invOut_ite (inv_next (inv_linkStopped h)) (inv_next h)
  · exact invOut_ite (inv_next (inv_linkStopped h)) (inv_next h)
  · exact invOut_ite (inv_next (inv_linkStopped h)) (inv_next h)
  · split
    · exact inv_next (inv_of_fields h)
    · exact inv_next (inv_ite (inv_mirrorRuns h) (inv_of_fields h))
    · exact inv_next h
  · exact invOut_ite (inv_next (inv_updCore h)) (inv_next h)

theorem inv_execResetReturnToService {scope} (h : Inv s) : InvOut (execResetReturnToService scope s) := by
  unfold execResetReturnToService
  split
  · exact inv_next h
  · split
    · exact inv_next h
    · exact invOut_ite (inv_next (inv_coreBack (inv_advanceTo h))) (inv_next h)
  · exact invOut_ite (inv_next (inv_of_fields (inv_foldl (fun _ _ h1 => inv_coreBack h1) h))) (inv_next h)

/-! #### Almanac -/

theorem inv_almTrim {n} (h : Inv s) : Inv (State.almTrim n s) := by
  induction n generalizing s with
  | zero => exact h
  | succ n ih =>
    simp only [State.almTrim]
    split
    · exact h
    · exact inv_ite h (ih (inv_updRun h))

theorem inv_almAppend {slot bs} (h : Inv s) : Inv (s.almAppend slot bs) := inv_almTrim (inv_updRun h)

theorem inv_almEntry {slot e} (h : Inv s) : Inv (s.almEntry slot e) := inv_almAppend h

theorem inv_issueCert {slot closed} (h : Inv s) : Inv (s.issueCert slot closed) := h

/-! #### Mirror -/

theorem inv_updMirror {slot f} (h : Inv s) : Inv (s.updMirror slot f) := h

theorem inv_mirrorCell {slot kind high bs} (h : Inv s) : Inv (s.mirrorCell slot kind high bs) := by
  unfold State.mirrorCell
  extract_lets _ _ s1
  have hs1 : Inv s1 := inv_ite (inv_sendCell h) (inv_cellOut h)
  exact inv_ite (inv_updMirror (inv_of_fields hs1)) hs1

theorem inv_mirrorItem {slot item tid base bs} (h : Inv s) : Inv (s.mirrorItem slot item tid base bs) := inv_foldl (fun _ _ h1 => inv_mirrorCell h1) h

theorem inv_mirrorEntry {slot bs} (h : Inv s) : Inv (s.mirrorEntry slot bs) := inv_updMirror (inv_mirrorItem h)

theorem inv_mirrorOp {e} (h : Inv s) : Inv (s.mirrorOp e) := by
  unfold State.mirrorOp
  extract_lets _ _ _ s'
  exact inv_ite (inv_mirrorItem (inv_mirrorEntry h)) h

theorem inv_mirrorMax {e lmax} (h : Inv s) : Inv (s.mirrorMax e lmax) := inv_ite (inv_mirrorEntry h) h

theorem inv_mirrorEnd {slot} (h : Inv s) : Inv (s.mirrorEnd slot) := inv_updMirror (inv_mirrorCell h)

theorem inv_mirrorClose {slot} (h : Inv s) : Inv (s.mirrorClose slot) := inv_ite (inv_mirrorEnd (inv_mirrorItem h)) h

theorem inv_seedMirror {slot} (h : Inv s) : Inv (s.seedMirror slot) := by
  unfold State.seedMirror
  extract_lets _ _ s2
  have hs2 : Inv s2 := by
    exact inv_foldl (fun _ _ h1 => inv_mirrorItem h1) (inv_updMirror h)
  exact inv_mirrorEnd (inv_mirrorItem hs2)

theorem inv_twinCause {slot} (h : Inv s) : Inv (s.twinCause slot) := inv_ite h (inv_record (inv_updMirror h))

/-! #### Peers -/

theorem inv_setInst {x} (h : Inv s) : Inv (s.setInst x) := inv_ite (inv_of_fields h) (inv_of_fields h)

theorem inv_countSent {slot check} (h : Inv s) : Inv (s.countSent slot check) := h

theorem inv_countRecv {slot check} (h : Inv s) : Inv (s.countRecv slot check) := h

theorem inv_sendData {x lane kind dst high bs} (h : Inv s) : Inv (s.sendData x lane kind dst high bs).1 := inv_countSent (inv_sendCell h)

theorem inv_sendClose {x lane dst} (h : Inv s) : Inv (s.sendClose x lane dst).1 := inv_ite_fst h (inv_countSent (inv_sendCell h))

theorem inv_closeAll {x lane} (h : Inv s) : Inv (s.closeAll x lane).1 := inv_foldl_fst (fun _ _ h1 => inv_sendClose h1) h

theorem inv_sendRaw {x dst bs} (h : Inv s) : Inv (s.sendRaw x dst bs).1 := inv_foldl_fst (fun _ _ h1 => inv_sendData h1) h

theorem inv_staleOn {l} (h : Inv s) : Inv (s.staleOn l) := inv_updLink h

theorem inv_acceptData {x phase c} (h : Inv s) : Inv (s.acceptData x phase c).1 := h

theorem inv_startReplica {slot g} (h : Inv s) : Inv (s.startReplica slot g) := inv_setInst (inv_updRun h)

theorem inv_sendReplica {x} (h : Inv s) : Inv (s.sendReplica x) := inv_setInst (inv_closeAll (inv_foldl_fst (fun _ _ h1 => inv_sendRaw h1) h))

theorem inv_compareReplica {x} (h : Inv s) : Inv (s.compareReplica x) := by
  unfold State.compareReplica
  extract_lets _ _ s1
  have hs1 : Inv s1 := inv_setInst h
  exact inv_ite hs1 (inv_updRun (inv_record hs1))

/-! #### Control -/

theorem inv_setRed {r} (h : Inv s) : Inv (s.setRed r) := h

theorem inv_dropRed {k} (h : Inv s) : Inv (s.dropRed k) := h

theorem inv_updOp {id f} (h : Inv s) : Inv (s.updOp id f) := by
  unfold State.updOp
  split
  · exact h
  · exact inv_of_fields h

theorem inv_endBy {slot opcode code} (h : Inv s) : Inv (s.endBy slot opcode code) := by
  unfold State.endBy
  split
  · exact inv_endOp h
  · exact h

theorem inv_floodMove {rank site q} (h : Inv s) : Inv (s.floodMove rank site q) := inv_foldl (fun _ _ h1 => inv_cellOut h1) h

theorem inv_resendUp {rank} (h : Inv s) : Inv (s.resendUp rank) := by
  unfold State.resendUp
  refine inv_foldl (fun _ _ h1 => ?_) h
  split
  · exact inv_ite (inv_sendCell h1) h1
  · exact h1

theorem inv_markResent {rank} (h : Inv s) : Inv (s.markResent rank) := h

theorem inv_evict {slot} (h : Inv s) : Inv (s.evict slot) := inv_resetCtxs (inv_foldl (fun _ _ h1 => inv_endOp h1) h)

theorem inv_voidCell {slot dst reason failed} (h : Inv s) : Inv (s.voidCell slot dst reason failed) := inv_sendCell h

theorem inv_sendVoid {slot dst reason failed} (h : Inv s) : Inv (s.sendVoid slot dst reason failed) := by
  unfold State.sendVoid
  extract_lets s1
  have hs1 : Inv s1 := inv_voidCell h
  exact inv_ite (inv_updRun hs1) hs1

theorem inv_resendVoids {rank} (h : Inv s) : Inv (s.resendVoids rank) := inv_foldl (fun _ _ h1 => inv_ite h1 (inv_foldl (fun _ _ h2 => inv_voidCell
  h2) h1)) h

theorem inv_declareSelf {slot reason} (h : Inv s) : Inv (s.declareSelf slot reason) := by
  unfold State.declareSelf
  split
  · exact h
  · exact inv_ite (inv_ite (inv_sendVoid h) h) (inv_sendVoid h)

theorem inv_adopt {rank} (h : Inv s) : Inv (s.adopt rank) := inv_ite (inv_sendCell (inv_noticeAll (inv_record (inv_of_fields h)))) (inv_declareSelf
  (inv_record h))

theorem inv_applyMove {rank site q} (h : Inv s) : Inv (s.applyMove rank site q) := by
  unfold State.applyMove
  extract_lets _ _ _ _ _ _ _ s3 s4 _ s5
  have hs3 : Inv s3 := inv_of_fields (inv_of_fields (inv_ite (inv_foldl (fun _ _ h1 => inv_evict h1) h) h))
  have hs4 : Inv s4 := inv_markResent (inv_resendVoids (inv_resendUp (inv_floodMove hs3)))
  have hs5 : Inv s5 := inv_ite hs4 (inv_foldl (fun _ _ h1 => inv_updMirror h1) (inv_of_fields hs4))
  exact inv_ite (inv_record (inv_of_fields hs5)) (inv_ite (inv_adopt hs5) hs5)

theorem inv_declareFailed {slot rank} (h : Inv s) : Inv (s.declareFailed slot rank) := by
  unfold State.declareFailed
  extract_lets
  split
  · exact inv_applyMove h
  · exact inv_record (inv_updRun h)

theorem inv_boundaryStop (h : Inv s) : Inv s.boundaryStop := inv_ite (inv_foldl (fun _ _ h1 => inv_declareSelf h1) (inv_of_fields h)) h

theorem inv_boundarySnaps {slot step attempt} (h : Inv s) : Inv (s.boundarySnaps slot step attempt) := inv_foldl (fun _ _ h1 => inv_endOp (inv_latch
  h1)) h

theorem inv_closeStep {slot} (h : Inv s) : Inv (s.closeStep slot) := by
  unfold State.closeStep
  extract_lets _ s1
  have hs1 : Inv s1 := by
    exact inv_foldl (fun _ _ h1 => inv_haltStreams (inv_setStack h1)) h
  exact inv_updRun hs1

theorem inv_atBoundary {slot} (h : Inv s) : Inv (s.atBoundary slot) := inv_boundaryRetrain (inv_boundaryStop (inv_ite (inv_issueCert h) h))

theorem inv_voidOp {id code} (h : Inv s) : Inv (s.voidOp id code) := by
  unfold State.voidOp
  split
  · exact inv_endOp (inv_ite (inv_forgetOutputs h) h)
  · exact h

theorem inv_applyVoid {slot checkCode} (h : Inv s) : Inv (s.applyVoid slot checkCode) := by
  unfold State.applyVoid
  split
  · exact h
  · extract_lets _ _ _ s3 _ _ _ _ _ s7
    have hs3 : Inv s3 := inv_endBy (inv_endBy (inv_foldl (fun _ _ h1 => inv_voidOp h1) (inv_updRun h)))
    have hs7 : Inv s7 := inv_foldl (fun _ _ h1 => inv_setStack h1) (inv_updRun (inv_of_fields (inv_foldl (fun _ _ h1 => inv_endOp h1) hs3)))
    exact inv_atBoundary (inv_closeStep (inv_boundarySnaps hs7))

theorem inv_replayCompare {slot n sr old} (h : Inv s) : Inv (s.replayCompare slot n sr old) := by
  unfold State.replayCompare
  extract_lets _ _ code
  clear_value code
  split
  · exact h
  · extract_lets s1
    have hs1 : Inv s1 := inv_record h
    exact inv_ite hs1 (inv_updRun hs1)

theorem inv_ringRecord {slot n sr} (h : Inv s) : Inv (s.ringRecord slot n sr) := by
  unfold State.ringRecord
  extract_lets
  refine inv_ite h ?_
  split
  · rename_i he1
    extract_lets _ s'1
    exact inv_notice (inv_of_fields (inv_hostWrite he1 h))
  · exact inv_record h
  · exact inv_record h

theorem inv_compatCopy {slot c} (h : Inv s) : Inv (s.compatCopy slot c) := by
  unfold State.compatCopy
  extract_lets _ _ s2
  have hs2 : Inv s2 := by
    exact inv_foldl (fun _ _ h1 => inv_mirrorItem h1) (inv_updRun h)
  exact inv_mirrorEnd (inv_mirrorItem (inv_mirrorItem hs2))

theorem inv_carryOver {slot} (h : Inv s) : Inv (s.carryOver slot) := inv_foldl (fun _ _ h1 => inv_runWrites h1) h

theorem inv_applyCommit {slot} (h : Inv s) : Inv (s.applyCommit slot) := by
  unfold State.applyCommit
  split
  · exact h
  · extract_lets _ _ _ _ old _ _ s3 _ _ _ s5 s6 _ _ _ _ _ s11
    have hs3 : Inv s3 := inv_almEntry (inv_updRun (inv_ite (inv_carryOver h) h))
    have hs5 : Inv s5 := inv_ringRecord (inv_ite (inv_of_fields (inv_almEntry hs3)) hs3)
    have hs6 : Inv s6 := by
      dsimp only [s6]
      clear_value old
      split
      · exact inv_replayCompare hs5
      · exact hs5
    have hs11 : Inv s11 := inv_closeStep (inv_boundarySnaps (inv_of_fields (inv_foldl (fun _ _ h1 => inv_endOp h1) (inv_endBy hs6))))
    exact inv_atBoundary (inv_ite (inv_compatCopy hs11) hs11)

theorem inv_openNow {slot n} (h : Inv s) : Inv (s.openNow slot n) := by
  unfold State.openNow
  extract_lets s1
  have hs1 : Inv s1 := by
    exact inv_foldl (fun _ _ h1 => inv_setStack h1) h
  exact inv_updRun hs1

theorem inv_applyBegin {slot lanes} (h : Inv s) : Inv (s.applyBegin slot lanes) := inv_ite (inv_endBy (inv_openNow h)) (inv_endBy h)

theorem inv_applyGroupStart {g xseq lanes} (h : Inv s) : Inv (s.applyGroupStart g xseq lanes) := by
  unfold State.applyGroupStart
  extract_lets o
  split
  · exact h
  · extract_lets gone t
    have hgone : Inv gone := inv_of_fields h
    have ht : Inv t := inv_sendReplica h
    split
    · refine inv_ite ?_ (inv_fault hgone)
      split
      · exact inv_ite (inv_compareReplica ht) ht
      · exact ht
    · clear_value o
      split
      · exact inv_updOp h
      · exact inv_endOp hgone
      · exact inv_endOp hgone
      · exact inv_endOp hgone

theorem inv_applyScaleMax {g tag lanes} (h : Inv s) : Inv (s.applyScaleMax g tag lanes) := by
  unfold State.applyScaleMax
  split
  · exact inv_updOp h
  · exact h

theorem inv_applyCheck {slot arg lanes} (h : Inv s) : Inv (s.applyCheck slot arg lanes) := by
  unfold State.applyCheck
  split
  · exact h
  · exact inv_ite (inv_endBy (inv_updRun h)) (inv_applyVoid h)

theorem inv_loadScales {slot k} (h : Inv s) : Inv (s.loadScales slot k) := by
  unfold State.loadScales
  refine inv_foldl (fun _ _ h1 => ?_) h
  split
  · exact h1
  · exact inv_runWrites h1

theorem inv_applyCheckpoint {slot kind lanes} (h : Inv s) : Inv (s.applyCheckpoint slot kind lanes) := by
  unfold State.applyCheckpoint
  split
  · exact h
  · split
    · exact h
    · extract_lets _ _ _ _ s1 _ _ _ s3
      have hs1 : Inv s1 := inv_updRun (inv_of_fields h)
      have hs3 : Inv s3 := inv_updRun (inv_updRun h)
      exact inv_ite (inv_ite (inv_endOp h) (inv_endOp (inv_almEntry hs1))) (inv_ite (inv_endOp (inv_almEntry hs3)) (inv_endOp h))

theorem inv_deliver {k arg lanes} (h : Inv s) : Inv (s.deliver k arg lanes) := by
  unfold State.deliver
  split
  · exact h
  · extract_lets _ _ s2
    have hs2 : Inv s2 := inv_dropRed (inv_foldl (fun _ _ h1 => inv_sendCell h1) h)
    split
    · exact inv_applyBegin hs2
    · exact inv_applyGroupStart hs2
    · exact inv_applyScaleMax hs2
    · exact inv_applyCheck hs2
    · exact inv_ite (inv_applyCommit hs2) (inv_applyVoid hs2)
    · exact inv_applyCheckpoint hs2
    · exact hs2

theorem inv_sweepUp {r me} (h : Inv s) : Inv (s.sweepUp r me) := inv_ite (inv_deliver h) (inv_sendCell (inv_setRed h))

theorem inv_redStep {k} (h : Inv s) : Inv (s.redStep k) := by
  unfold State.redStep
  split
  · exact h
  · exact inv_ite (inv_sweepUp h) h

theorem inv_contribute {k lanes} (h : Inv s) : Inv (s.contribute k lanes) := inv_redStep (inv_setRed h)

theorem inv_tryCheck {slot} (h : Inv s) : Inv (s.tryCheck slot) := by
  unfold State.tryCheck
  refine inv_ite ?_ h
  split
  · exact h
  · exact inv_contribute (inv_updRun (inv_ite (inv_twinCause h) h))

theorem inv_rootVoid {slot} (h : Inv s) : Inv (s.rootVoid slot) := inv_foldl (fun _ _ h1 => inv_sendCell h1) (inv_applyVoid h)

theorem inv_handleVoid {slot step attempt src reason failed} (h : Inv s) : Inv (s.handleVoid slot step attempt src reason failed) := by
  unfold State.handleVoid
  extract_lets s1
  have hs1 : Inv s1 := inv_ite h (inv_declareFailed h)
  exact inv_ite (inv_rootVoid hs1) (inv_ite (inv_sendCell hs1) (inv_ite (inv_foldl (fun _ _ h1 => inv_sendCell h1) hs1) hs1))

theorem inv_askVoid {slot reason failed} (h : Inv s) : Inv (s.askVoid slot reason failed) := by
  unfold State.askVoid
  split
  · exact h
  · exact inv_handleVoid h
  · exact inv_sendVoid h

theorem inv_failRoot {slot} (h : Inv s) : Inv (s.failRoot slot) := by
  unfold State.failRoot
  extract_lets s1
  have hs1 : Inv s1 := inv_declareFailed h
  exact inv_ite (inv_sendVoid hs1) hs1

/-! #### Contexts -/

theorem inv_takeGrants {c rs} (h : Inv s) : Inv (s.takeGrants c rs) := h

theorem inv_dropGrants {c rs} (h : Inv s) : Inv (s.dropGrants c rs) := h

theorem inv_applyDoorbell {port p} (h : Inv s) : Inv (s.applyDoorbell port p) := by
  unfold State.applyDoorbell
  extract_lets _ _ _ _ s1
  have hs1 : Inv s1 := inv_ite h (inv_wantLoad h)
  refine inv_ite (inv_ite (inv_notice hs1) (inv_ite hs1 (inv_ite (inv_notice hs1) (inv_updCtx hs1)))) (inv_ite (inv_ite (inv_notice hs1)
    (inv_ringDrain (inv_updCtx hs1))) ?_)
  split
  · exact hs1
  · exact inv_ite (inv_updCtx (inv_of_fields hs1)) hs1

theorem inv_doorbell {port gen p} (h : Inv s) : Inv (s.doorbell port gen p) := inv_ite (inv_notice (inv_countHost h)) (inv_ite (inv_lateDrop h)
  (inv_ite (inv_updCtx h) (inv_applyDoorbell h)))

theorem inv_takeDoorbell {port p} (h : Inv s) : Inv (s.takeDoorbell port p) := h

theorem inv_haltLoad {c code} (h : Inv s) : Inv (s.haltLoad c code) := h

theorem inv_keepGrants {c old rs} (h : Inv s) : Inv (s.keepGrants c old rs) := h

theorem inv_haltBad {c l} (h : Inv s) : Inv (s.haltBad c l) := inv_haltLoad (inv_foldl (fun _ _ h1 => inv_lineBad h1) h)

theorem inv_execContextLoad {ctx reply} (h : Inv s) : InvOut (execContextLoad ctx reply s) := by
  unfold execContextLoad
  refine invOut_ite (inv_next h) ?_
  split
  · exact inv_next h
  · rename_i he
    have hs1 := inv_cacheRoom he h
    refine invOut_ite (inv_next (inv_haltBad hs1)) (invOut_ite (inv_next (inv_haltLoad hs1)) ?_)
    split
    · exact inv_next (inv_haltLoad hs1)
    · exact inv_next (inv_haltLoad hs1)
    · exact inv_next (inv_haltLoad hs1)
    · exact invOut_ite (inv_next (inv_haltBad hs1)) (invOut_ite (inv_next (inv_haltLoad hs1)) (inv_next (inv_updCtx (inv_ite (inv_keepGrants hs1)
        (inv_takeGrants hs1)))))

theorem inv_releaseCtx {c} (h : Inv s) : Inv (s.releaseCtx c) := by
  unfold State.releaseCtx
  extract_lets _ s1 _ _ _ _ _ s5 s6
  have hs1 : Inv s1 := inv_updCtx h
  have hs5 : Inv s5 := inv_of_fields (inv_updCtx (inv_foldl (fun _ _ h1 => inv_endOp h1) (inv_of_wf hs1 hs1.mem)))
  have hs6 : Inv s6 := inv_ite (inv_dropGrants hs5) hs5
  exact inv_fault (inv_ite (inv_dropSuspect hs6) hs6)

theorem inv_execContextOpen {q v} (h : Inv s) : InvOut (execContextOpen q v s) := by
  unfold execContextOpen
  refine invOut_ite (inv_next h) (inv_next (inv_dictWrite h (fun _ h1 => inv_ite_fst h1 (inv_ite_fst h1 ?_))))
  split
  · exact inv_updCtx h1
  · exact inv_updCtx h1
  · exact inv_updCtx h1
  · exact h1

theorem inv_execContextReset {src} (h : Inv s) : InvOut (execContextReset src s) := by
  unfold execContextReset
  split
  · exact invOut_ite (inv_next (inv_resetCtx h)) (inv_next h)
  · exact invOut_ite (inv_next h) (inv_next (inv_dictWrite h (fun _ h1 => inv_ite_fst h1 (inv_ite_fst h1 (inv_ite_fst (inv_resetCtx h1) h1)))))

theorem inv_execContextRelease {q v} (h : Inv s) : InvOut (execContextRelease q v s) := by
  unfold execContextRelease
  refine invOut_ite (inv_next h) (inv_next (inv_dictWrite h (fun _ h1 => inv_ite_fst h1 (inv_ite_fst h1 ?_))))
  split
  · exact inv_releaseCtx h1
  · exact inv_releaseCtx h1
  · exact inv_updCtx h1
  · exact inv_updCtx h1
  · exact h1

theorem inv_execContextResetDone {ctx} (h : Inv s) : InvOut (execContextResetDone ctx s) := by
  unfold execContextResetDone
  extract_lets _ _ _ s3
  have hs3 : Inv s3 := inv_foldl (fun _ _ h1 => inv_applyDoorbell h1) (inv_updCtx (inv_tagCatchUp h))
  exact invOut_ite (inv_next h) (inv_next (inv_ite (inv_releaseCtx hs3) hs3))

theorem inv_execContextTableWrite {q sha} (h : Inv s) : InvOut (execContextTableWrite q sha s) := by
  unfold execContextTableWrite
  exact inv_next (inv_dictEnd h (fun _ _ h1 => inv_ite_fst h1 (inv_ite_fst h1 (inv_foldl (fun _ _ h2 => inv_updCtx h2) h1))))

theorem inv_execRegionSeal {q v} (h : Inv s) : InvOut (execRegionSeal q v s) := by
  unfold execRegionSeal
  refine inv_next (inv_dictWrite h (fun _ h1 => ?_))
  extract_lets _ _ _ _ s1
  have hs1 : Inv s1 := inv_updCtx h1
  exact inv_ite_fst h1 (inv_ite_fst h1 (inv_ite_fst h1 (inv_ite_fst h1 (inv_of_wf hs1 hs1.mem))))

/-! #### StackPool -/

theorem inv_setPage {c j p} (h : Inv s) : Inv (s.setPage c j p) := h

theorem inv_spillVictim (h : Inv s) : Inv s.spillVictim := by
  unfold State.spillVictim
  split
  · exact h
  · split
    · exact h
    · exact inv_of_fields (inv_setPage h)

theorem inv_spillTo {n k} (h : Inv s) : Inv (s.spillTo n k) := by
  induction k generalizing s with
  | zero => exact h
  | succ k ih => exact inv_ite h (ih (inv_spillVictim h))

theorem inv_takePages {c st js} {p : State × List Nat} (h : Inv p.1) : Inv (State.takePages c st js p).1 := by
  induction js generalizing p with
  | nil => exact h
  | cons j js ih =>
    simp only [State.takePages]
    split
    · rename_i t he
      exact ih (inv_takePage he h)
    · exact ih h

theorem inv_wantPages {e} (h : Inv s) : Inv (s.wantPages e) := inv_spillTo (inv_takePages (inv_takePages h))

theorem inv_fetchBack {c evict} (h : Inv s) : Inv (s.fetchBack c evict) := by
  unfold State.fetchBack
  extract_lets
  split
  · exact h
  · extract_lets _ r
    have hr : Inv r.1 := inv_takePages h
    exact inv_ite (inv_spillTo hr) hr

theorem inv_writeBack {c j} (h : Inv s) : Inv (s.writeBack c j) := by
  unfold State.writeBack
  refine inv_foldl (fun _ _ h1 => ?_) h
  split
  · exact h1
  · split
    · rename_i he
      exact inv_of_fields (inv_planeWrite he h1)
    · exact h1

theorem inv_pageOut {c j} (h : Inv s) : Inv (s.pageOut c j) := h

theorem inv_refetch (h : Inv s) : Inv s.refetch := inv_foldl (fun _ _ h1 => inv_fetchBack h1) h

theorem inv_endPageWait {id e} (h : Inv s) : Inv (s.endPageWait id e) := h

theorem inv_countPageWaits (h : Inv s) : Inv s.countPageWaits := inv_foldl (fun _ _ h1 => inv_endPageWait h1) h

theorem inv_execStackSpillAck {ctx page} (h : Inv s) : InvOut (execStackSpillAck ctx page s) := by
  unfold execStackSpillAck
  split
  · refine invOut_ite (inv_next h) ?_
    split
    · rename_i he
      exact inv_next (inv_pageReplyLate he h)
    · exact inv_next (inv_countPageWaits (inv_refetch (inv_pageOut (inv_writeBack h))))
  · exact inv_next h

theorem inv_execStackFetchDone {ctx page reply} (h : Inv s) : InvOut (execStackFetchDone ctx page reply s) := by
  unfold execStackFetchDone
  extract_lets _ _ _ _ _ _ _ _ s1
  have hs1 : Inv s1 := inv_foldl (fun _ _ h1 => inv_fault (inv_lineBad h1)) h
  split
  · exact inv_next h
  · refine invOut_ite (inv_next h) ?_
    split
    · rename_i he
      exact inv_next (inv_pageReplyLate he h)
    · exact invOut_ite (inv_next (inv_setStack h)) (inv_next (inv_countPageWaits (inv_setStack hs1)))

/-! #### Sched -/

theorem inv_giveSeq {id e} (h : Inv s) : Inv (s.giveSeq id e) := inv_ite h (inv_ite (inv_ite h (inv_updOp (inv_updRun h))) (inv_updOp (inv_updRun h)))

theorem inv_signal {e bits} (h : Inv s) : Inv (s.signal e bits) := inv_ite h (inv_contribute h)

theorem inv_meetListBad {e l} (h : Inv s) : Inv (s.meetListBad e l) := inv_ite h (inv_fault (inv_foldl (fun _ _ h1 => inv_lineBad h1) h))

theorem inv_judge {id e} (h : Inv s) : Inv (s.judge id e) := inv_ite h (inv_ite (inv_updOp h) (inv_updOp (inv_meetListBad h)))

theorem inv_resolve {id e} (h : Inv s) : Inv (s.resolve id e) := inv_ite (inv_endOp (inv_signal h)) (inv_ite (inv_endOp (inv_signal h)) (inv_ite
  (inv_endOp (inv_signal h)) (inv_ite h (inv_ite (inv_updOp h) (inv_issueReads (inv_updOp h))))))

theorem inv_announce {id e} (h : Inv s) : Inv (s.announce id e) := inv_ite h (inv_ite (inv_endOp (inv_signal h)) (inv_signal (inv_updOp (inv_setInst
  h))))

theorem inv_reserveWaiting (h : Inv s) : Inv s.reserveWaiting := by
  unfold State.reserveWaiting
  refine inv_foldl (fun _ _ h1 => inv_ite h1 ?_) h
  split
  · exact h1
  · exact inv_updOp (inv_of_fields h1)

theorem inv_settleOp {id} (h : Inv s) : Inv (s.settleOp id) := by
  unfold State.settleOp
  extract_lets
  split
  · exact h
  · extract_lets s1 s2 s3 s4
    have hs1 : Inv s1 := inv_ite (inv_giveSeq h) h
    have hs2 : Inv s2 := by
      dsimp only [s2]
      split
      · exact inv_ite (inv_judge hs1) hs1
      · exact hs1
    have hs3 : Inv s3 := by
      dsimp only [s3]
      split
      · exact inv_ite (inv_resolve hs2) hs2
      · exact hs2
    have hs4 : Inv s4 := by
      dsimp only [s4]
      split
      · exact inv_announce hs3
      · exact hs3
    split
    · exact inv_ite (inv_updOp hs4) hs4
    · exact hs4

theorem inv_settle (h : Inv s) : Inv s.settle := inv_reserveWaiting (inv_foldl (fun _ _ h1 => inv_settleOp h1) h)

theorem inv_fetchFailed {c q code} (h : Inv s) : Inv (s.fetchFailed c q code) := inv_fault (inv_record (inv_updCtx h))

theorem inv_issue {c q desc rest} (h : Inv s) : Inv (s.issue c q desc rest) := h

theorem inv_execQueueFetch {reply} (h : Inv s) : InvOut (execQueueFetch reply s) := by
  unfold execQueueFetch
  split
  · exact inv_next h
  · extract_lets _ _ _ _ _ s1 s2
    have hs1 : Inv s1 := by
      dsimp only [s1]
      split
      · exact inv_ite (inv_advanceTo h) h
      · exact h
    have hs2 : Inv s2 := inv_meetErrors hs1
    split
    · split
      · exact inv_next (inv_fetchFailed hs1)
      · exact inv_next (inv_fetchFailed hs1)
      · exact inv_next (inv_settle (inv_issue hs1))
    · refine invOut_ite (inv_next (inv_fetchFailed (inv_foldl (fun _ _ h1 => inv_lineBad h1) hs2))) ?_
      split
      · exact inv_next (inv_fetchFailed (inv_of_wf hs2 hs2.mem))
      · exact inv_next (inv_settle (inv_issue hs2))

theorem inv_enqueueRows {id e} (h : Inv s) : Inv (s.enqueueRows id e) := by
  unfold State.enqueueRows
  split
  · exact inv_of_fields h
  · exact inv_of_fields h

theorem inv_countReread {e n} (h : Inv s) : Inv (s.countReread e n) := inv_ite h (inv_of_fields h)

theorem inv_startOn {id e first n} (h : Inv s) : Inv (s.startOn id e first n) := by
  unfold State.startOn
  extract_lets _ _ _ _ _ _ _ s2 _ s3 s4
  have hs2 : Inv s2 := inv_of_fields (inv_countReread (inv_ite (inv_endPageWait h) h))
  have hs3 : Inv s3 := inv_ite (inv_of_shaped hs2 (allShaped_engineStarts hs2.vec)) hs2
  have hs4 : Inv s4 := inv_ite (inv_mirrorOp hs3) hs3
  exact inv_ite (inv_enqueueRows hs4) hs4

theorem inv_execOperatorStart {op} (h : Inv s) : InvOut (execOperatorStart op s) := by
  unfold execOperatorStart
  extract_lets s1
  have hs1 : Inv s1 := inv_settle h
  split
  · exact inv_next hs1
  · extract_lets _ s2
    have hs2 : Inv s2 := inv_ite (inv_wantPages hs1) hs1
    refine invOut_ite (inv_next hs1) (invOut_ite (inv_next (inv_settle (inv_endOp hs1))) (invOut_ite (inv_next (inv_updOp hs2)) (invOut_ite (inv_next
      hs2) ?_)))
    split
    · exact inv_next (inv_reserveWaiting (inv_startOn hs2))
    · exact inv_next hs2

theorem inv_execSchedReserve {op} (h : Inv s) : InvOut (execSchedReserve op s) := by
  unfold execSchedReserve
  split
  · exact inv_next h
  · extract_lets s1
    have hs1 : Inv s1 := inv_advanceTo h
    refine invOut_ite (inv_next h) ?_
    split
    · exact inv_next (inv_updOp hs1)
    · exact inv_next (inv_of_fields hs1)

/-! #### SchedRows -/

theorem inv_makeChecks {id e} (h : Inv s) : Inv (s.makeChecks id e) := by
  unfold State.makeChecks
  exact inv_foldl (fun _ _ h1 => inv_of_fields h1) h

theorem inv_turnDone {e} (h : Inv s) : Inv (s.turnDone e) := inv_ite h (inv_ite (inv_dropSuspect (inv_record h)) (inv_ite (inv_boundaryStop
  (inv_dropSuspect (inv_of_fields (inv_record h)))) h))

theorem inv_execOperatorComplete {op} (h : Inv s) : InvOut (execOperatorComplete op s) := by
  unfold execOperatorComplete
  split
  · exact inv_next h
  · exact invOut_ite (inv_next h) (inv_next (inv_settle (inv_turnDone (inv_endOp (inv_makeChecks (inv_advanceTo h))))))

theorem inv_addDeltas {first l} (h : Inv s) : Inv (s.addDeltas first l) := inv_foldl (fun _ _ h1 => inv_updCtr h1) h

theorem inv_closePass {gq q late} (h : Inv s) : Inv (s.closePass gq q late) := by
  unfold State.closePass
  extract_lets _ _ _ _ _ s2
  have hs2 : Inv s2 := inv_of_fields (inv_addDeltas h)
  exact inv_ite (inv_foldl (fun _ _ h1 => inv_updOp h1) hs2) hs2

theorem inv_execGatherPassClose {gq idle} (h : Inv s) : InvOut (execGatherPassClose gq idle s) := by
  unfold execGatherPassClose
  split
  · exact inv_next h
  · exact invOut_ite (inv_next (inv_closePass h)) (inv_next h)

theorem inv_execGatherDeadline {gq} (h : Inv s) : InvOut (execGatherDeadline gq s) := by
  unfold execGatherDeadline
  split
  · exact inv_next h
  · split
    · exact inv_next h
    · exact invOut_ite (inv_next h) (inv_next (inv_closePass (inv_advanceTo h)))

theorem inv_execGathererOverflowDrain {op} (h : Inv s) : InvOut (execGathererOverflowDrain op s) := by
  unfold execGathererOverflowDrain
  split
  · exact inv_next h
  · exact invOut_ite (inv_next h) (inv_next (inv_issueReads (inv_updOp (inv_of_fields h))))

theorem inv_checkPassed {k} (h : Inv s) : Inv (s.checkPassed k) := inv_settle (inv_updCore h)

theorem inv_execCheckTask {task result} (h : Inv s) : InvOut (execCheckTask task result s) := by
  unfold execCheckTask
  split
  · exact inv_next h
  · extract_lets _ _ s1 _ _ s2 _ s3
    have hs1 : Inv s1 := inv_of_fields h
    have hs2 : Inv s2 := inv_record hs1
    have hs3 : Inv s3 := inv_ite (inv_updRun hs2) (inv_fault hs2)
    refine invOut_ite (inv_next h) ?_
    split
    · exact inv_next (inv_checkPassed hs1)
    · extract_lets struck
      refine invOut_ite (inv_next (inv_checkPassed hs1)) (inv_next ?_)
      clear_value struck
      split
      · exact inv_settle (inv_strike (inv_record hs3))
      · exact inv_settle (inv_record hs3)

theorem inv_execCaptureAttribution {slot ownFails otherFails} (h : Inv s) : InvOut (execCaptureAttribution slot ownFails otherFails s) := by
  unfold execCaptureAttribution
  split
  · exact inv_next h
  · extract_lets _ _ _ _ _ _ s3
    have hs3 : Inv s3 := inv_record (inv_of_fields (inv_ite h (inv_of_fields h)))
    exact invOut_ite (inv_next h) (inv_next (inv_ite (inv_transient hs3) (inv_ite (inv_strike hs3) (inv_boundaryStop hs3))))

theorem inv_loseStack {c core} (h : Inv s) : Inv (s.loseStack c core) := inv_fault (inv_record (inv_setStack h))

theorem inv_execCoreRetire {core badPages} (h : Inv s) : InvOut (execCoreRetire core badPages s) := by
  unfold execCoreRetire
  split
  · exact inv_next h
  · extract_lets _ _ s1 _ _ _ s3
    have hs1 : Inv s1 := inv_of_fields h
    have hs3 : Inv s3 := by
      refine inv_foldl (fun _ _ h1 => ?_) (inv_foldl (fun _ _ h1 => inv_loseStack (inv_tileBad h1)) h)
      split
      · exact inv_ite (inv_pageOut h1) (inv_pageOut (inv_writeBack h1))
      · exact h1
    refine invOut_ite (inv_next h) ?_
    split
    · exact inv_next (inv_boundaryStop (inv_ite hs1 (inv_record hs1)))
    · exact inv_next (inv_record (inv_setStore (inv_of_shaped hs3 (allShaped_erase hs3.vec))))

theorem inv_resetEngines {cs} (h : Inv s) : Inv (s.resetEngines cs) := inv_foldl (fun _ _ h1 => inv_engineReset h1) h

theorem inv_suspectHang {e hung} (h : Inv s) : Inv (s.suspectHang e hung) := inv_of_fields (inv_fault (inv_resetCtxs (inv_record h)))

theorem inv_execWatchdogFire {op hung} (h : Inv s) : InvOut (execWatchdogFire op hung s) := by
  unfold execWatchdogFire
  split
  · exact inv_next h
  · extract_lets s1 _ _ _ s4 _ _ _ s6
    have hs1 : Inv s1 := inv_advanceTo h
    have hs4 : Inv s4 := inv_resetEngines (inv_resetCtxs (inv_record hs1))
    have hs6 : Inv s6 := inv_resetCtxs (inv_record hs1)
    exact invOut_ite (inv_next h) (invOut_ite (inv_next (inv_of_fields hs4)) (invOut_ite (inv_next (inv_of_fields hs6)) (inv_next (inv_suspectHang
      hs1))))

theorem inv_execWaitExclusionExpire {op} (h : Inv s) : InvOut (execWaitExclusionExpire op s) := by
  unfold execWaitExclusionExpire
  split
  · exact inv_next h
  · split
    · exact inv_next h
    · exact invOut_ite (inv_next h) (inv_next (inv_updOp (inv_advanceTo h)))

theorem inv_execStagingTimeout {op} (h : Inv s) : InvOut (execStagingTimeout op s) := by
  unfold execStagingTimeout
  split
  · exact inv_next h
  · split
    · exact inv_next h
    · exact invOut_ite (inv_next h) (inv_next (inv_fault (inv_resetCtxs (inv_record (inv_advanceTo h)))))

/-! #### Finish -/

theorem inv_arrayFault {e x p f} (h : Inv p.1) : Inv (State.arrayFault e x p f).1 := by
  unfold State.arrayFault
  split
  · exact h
  · extract_lets _ s _ free _ _ _ s1 _ _ _ s2
    have hs : Inv s := inv_updCtr h
    have hs1 : Inv s1 := inv_record hs
    have hs2 : Inv s2 := by
      refine inv_ite (inv_strike hs1) ?_
      clear_value free
      split
      · exact inv_of_fields hs1
      · exact inv_of_fields hs1
    exact inv_ite_fst h (inv_ite_fst hs hs2)

theorem inv_addFixed {e env} (h : Inv s) : Inv (s.addFixed e env) := h

theorem inv_keepArrays {e x} (h : Inv s) : Inv (s.keepArrays e x) := h

theorem inv_addDigests {slot e l} (h : Inv s) : Inv (s.addDigests slot e l) := by
  unfold State.addDigests
  split
  · exact h
  · exact inv_foldl (fun _ _ h1 => inv_updRun h1) h

theorem inv_addCounts {slot e b} (h : Inv s) : Inv (s.addCounts slot e b) := by
  unfold State.addCounts
  extract_lets _ _ _ s1
  have hs1 : Inv s1 := inv_updRun h
  exact inv_ite h (inv_ite (inv_record hs1) hs1)

theorem inv_touchBanks {e} (h : Inv s) : Inv (s.touchBanks e) := inv_ite (inv_updMirror h) h

theorem inv_finishBody {id e env mk} (h : Inv s) : Inv (s.finishBody id e env mk) := by
  unfold State.finishBody
  extract_lets _ _ s1 _ _ _ _ _ s2 _ _ _ s4 _ _ _ _ s5 _ _ _ _ _ s6 s7 s8
  have hs1 : Inv s1 := inv_loseLines h
  have hs2 : Inv s2 := inv_foldl (fun _ _ h1 => inv_lineBad h1) (inv_of_wf hs1 (markBads_wf hs1.mem))
  have hs4 : Inv s4 := (inv_foldl_fst (fun _ _ h1 => inv_arrayFault h1) (inv_foldl (fun _ _ h1 => inv_tileBad h1) hs2))
  have hs5 : Inv s5 := inv_updOp hs4
  have hs6 : Inv s6 := inv_foldl (fun _ _ h1 => inv_lineBad h1) (inv_of_wf hs4 (markBads_wf hs4.mem))
  have hs7 : Inv s7 := inv_updOp (inv_addFixed hs6)
  have hs8 : Inv s8 := inv_ite (inv_fault hs6) hs6
  split
  · exact inv_endOp (inv_unbindVec (inv_addFixed h))
  · refine inv_ite (inv_endOp (inv_unbindVec (inv_addFixed hs5))) (inv_ite (inv_endOp (inv_unbindVec (inv_addFixed hs4))) (inv_ite (inv_endOp
      (inv_unbindVec hs7)) ?_))
    split
    · exact inv_endOp (inv_unbindVec (inv_addFixed hs8))
    · rename_i he
      extract_lets _ s11 _ s13
      have hs11 : Inv s11 := inv_foldl (fun _ _ h1 => inv_forgetPlane h1) (inv_touchBanks (inv_planeWrites he hs8))
      have hs13 : Inv s13 := inv_addDeltas (inv_keepArrays (inv_addFixed (inv_ite (inv_forgetOutputs hs11) hs11)))
      exact inv_unbindVec (inv_of_fields (inv_updOp (inv_ite (inv_addDigests (inv_addCounts hs13)) hs13)))

theorem inv_bodyRow {id opcode env mk} (h : Inv s) : InvOut (s.bodyRow id opcode env mk) := by
  unfold State.bodyRow
  split
  · exact inv_next (inv_finishBody h)
  · exact inv_next h

theorem inv_scaleRow {id opcode env est} (h : Inv s) : InvOut (s.scaleRow id opcode env est) := by
  unfold State.scaleRow
  split
  · exact inv_next h
  · split
    · exact inv_next (inv_finishBody h)
    · extract_lets _ _ _ _ _ _ s2
      have hs2 : Inv s2 := inv_ite (inv_contribute (inv_updOp h)) h
      split
      · exact inv_next hs2
      · split
        · exact inv_next hs2
        · exact inv_next (inv_finishBody (inv_ite (inv_mirrorMax hs2) hs2))

theorem inv_katRecord {e sev r} (h : Inv s) : Inv (s.katRecord e sev r) := inv_record h

theorem inv_katSecond {e r} (h : Inv s) : Inv (s.katSecond e r) := inv_ite (inv_transient h) (inv_strike (inv_katRecord h))

/-! #### OpRows -/

theorem inv_pushOn {c f payload} (h : Inv s) : Inv (s.pushOn c f payload) := h

theorem inv_stackRow {id opcode env mk after} (h : Inv s) (hf : ∀ x t, Inv t → Inv (after x t)) : InvOut (s.stackRow id opcode env mk after) := by
  unfold State.stackRow
  split
  · exact inv_next h
  · extract_lets _ s'
    have hs' : Inv s' := inv_finishBody h
    exact invOut_ite (inv_next (inv_endOp h)) (invOut_ite (inv_next (hf _ _ hs')) (inv_next hs'))

theorem inv_execPushFrame {op env} (h : Inv s) : InvOut (execPushFrame op env s) := by
  unfold execPushFrame
  exact inv_stackRow h (fun _ _ h1 => inv_pushOn h1)

theorem inv_execPopFrame {op env} (h : Inv s) : InvOut (execPopFrame op env s) := by
  unfold execPopFrame
  refine inv_stackRow h (fun _ _ h1 => ?_)
  split
  · exact inv_fetchBack (inv_setStack h1)
  · exact h1

theorem inv_execKnownAnswer {op runs} (h : Inv s) : InvOut (execKnownAnswer op runs s) := by
  unfold execKnownAnswer
  split
  · extract_lets _ done
    have hdone : ∀ t, Inv t → Inv (done t) := fun _ h1 => inv_finishBody h1
    refine invOut_ite (inv_next (hdone _ h)) ?_
    split
    · exact inv_next (hdone _ (inv_katSecond (inv_katRecord h)))
    · exact inv_next h
  · exact inv_next h

/-! #### CtrlRows -/

theorem inv_seen {slot rank} (h : Inv s) : Inv (s.seen slot rank) := h

theorem inv_heard {rank} (h : Inv s) : Inv (s.heard rank) := inv_foldl (fun _ _ h1 => inv_seen h1) h

theorem inv_upSweep {k j lanes} (h : Inv s) : Inv (s.upSweep k j lanes) := by
  unfold State.upSweep
  refine inv_ite ?_ (inv_redStep (inv_setRed h))
  split
  · exact inv_of_fields h
  · exact h

theorem inv_reduceCell {l c cmsg} (h : Inv s) : InvOut (s.reduceCell l c cmsg) := by
  unfold State.reduceCell
  extract_lets _ _ fit s1
  have hs1 : Inv s1 := inv_seen (inv_takeCell h)
  refine invOut_ite (inv_next h) ?_
  split
  · refine invOut_ite (inv_next (inv_violation (inv_takeCell h))) ?_
    clear_value fit
    split
    · exact inv_next (inv_seen h)
    · exact inv_next (inv_seen (inv_takeCell h))
    · exact invOut_ite (inv_next (inv_settle (inv_upSweep hs1))) (invOut_ite (inv_next (inv_ite (inv_violation hs1) hs1)) (inv_next (inv_settle
        (inv_deliver hs1))))
  · exact inv_next (inv_violation (inv_takeCell h))

theorem inv_execCtrlGroupStart {l c} (h : Inv s) : InvOut (execCtrlGroupStart l c s) := by
  unfold execCtrlGroupStart
  split
  · rename_i he
    exact inv_next (inv_settle (inv_foldl (fun _ _ h1 => inv_tryCheck h1) (inv_of_next_eq he (inv_reduceCell h))))
  · exact inv_reduceCell h

theorem inv_execCtrlVoidRequest {l c} (h : Inv s) : InvOut (execCtrlVoidRequest l c s) := by
  unfold execCtrlVoidRequest
  extract_lets _ _ _ s1 s2
  have hs1 : Inv s1 := inv_takeCell h
  have hs2 : Inv s2 := inv_seen hs1
  refine invOut_ite (inv_next h) ?_
  split
  · exact invOut_ite (inv_next (inv_violation hs2)) (invOut_ite (inv_next (inv_settle (inv_handleVoid hs2))) (invOut_ite (inv_next (inv_settle
      (inv_failRoot hs2))) (inv_next (inv_violation hs2))))
  · exact inv_next (inv_violation hs1)

theorem inv_execCtrlDecision {l c} (h : Inv s) : InvOut (execCtrlDecision l c s) := by
  unfold execCtrlDecision
  extract_lets _ _ _ _ s1
  have hs1 : Inv s1 := inv_seen (inv_takeCell h)
  refine invOut_ite (inv_next h) ?_
  split
  · extract_lets s2
    have hs2 : Inv s2 := inv_foldl (fun _ _ h1 => inv_sendCell h1) hs1
    exact invOut_ite (inv_next (inv_violation (inv_takeCell h))) (invOut_ite (inv_next (inv_seen h)) (invOut_ite (inv_next (inv_settle (inv_ite
      (inv_applyVoid hs2) hs2))) (inv_next hs1)))
  · exact inv_next (inv_violation (inv_takeCell h))

theorem inv_execCtrlRankMove {l c} (h : Inv s) : InvOut (execCtrlRankMove l c s) := by
  unfold execCtrlRankMove
  extract_lets _ _ s1
  have hs1 : Inv s1 := inv_heard (inv_takeCell h)
  exact invOut_ite (inv_next h) (invOut_ite (inv_next (inv_settle (inv_applyMove hs1))) (inv_next hs1))

theorem inv_execCtrlHeartbeat {l c} (h : Inv s) : InvOut (execCtrlHeartbeat l c s) := by
  unfold execCtrlHeartbeat
  extract_lets _ s1
  have hs1 : Inv s1 := inv_takeCell h
  refine invOut_ite (inv_next h) ?_
  split
  · exact inv_next (inv_ite (inv_seen hs1) (inv_violation hs1))
  · exact inv_next (inv_violation hs1)

theorem inv_execHeartbeatSend (h : Inv s) : InvOut (execHeartbeatSend s) := by
  unfold execHeartbeatSend
  extract_lets s1 beat s2
  have hs1 : Inv s1 := inv_advanceTo h
  have hbeat : ∀ t x, Inv t → Inv (beat t x) := by
    intro t x h1
    dsimp only [beat]
    split
    · exact h1
    · exact inv_foldl (fun t1 x1 h2 => inv_sendCell h2) (inv_ite h1 (inv_sendCell h1))
  have hs2 : Inv s2 := inv_foldl (fun t x h1 => hbeat _ _ h1) hs1
  exact invOut_ite (inv_next h) (inv_next (inv_of_fields hs2))

theorem inv_execControlPeerSilent {slot peer} (h : Inv s) : InvOut (execControlPeerSilent slot peer s) := by
  unfold execControlPeerSilent
  split
  · exact inv_next h
  · extract_lets _ _ _ _ _ s3
    have hs3 : Inv s3 := inv_seen (inv_fault (inv_record (inv_advanceTo h)))
    exact invOut_ite (inv_next h) (inv_next (inv_settle (inv_ite (inv_askVoid hs3) (inv_ite (inv_failRoot hs3) hs3))))

theorem inv_execStragglerDeclare {slot child} (h : Inv s) : InvOut (execStragglerDeclare slot child s) := by
  unfold execStragglerDeclare
  split
  · exact inv_next h
  · extract_lets
    split
    · extract_lets _ _ s3
      have hs3 : Inv s3 := inv_askVoid (inv_setRed (inv_advanceTo h))
      exact invOut_ite (inv_next h) (inv_next (inv_settle (inv_ite (inv_sweepUp hs3) hs3)))
    · exact inv_next h

theorem inv_execRootDeclareFailed {slot} (h : Inv s) : InvOut (execRootDeclareFailed slot s) := by
  unfold execRootDeclareFailed
  split
  · exact invOut_ite (inv_next h) (inv_next (inv_settle (inv_failRoot (inv_advanceTo h))))
  · exact inv_next h

theorem inv_execRankMove {q v} (h : Inv s) : InvOut (execRankMove q v s) := by
  unfold execRankMove
  exact inv_next (inv_dictWrite h (fun _ h1 => inv_settle (inv_applyMove h1)))

theorem inv_execSpareRole {q v} (h : Inv s) : InvOut (execSpareRole q v s) := by
  unfold execSpareRole
  exact inv_next (inv_dictWrite h (fun _ h1 => inv_ite_fst h1 (inv_of_fields h1)))

/-! #### Twin -/

theorem inv_execTwinIdent {c} (h : Inv s) : InvOut (execTwinIdent c s) := by
  unfold execTwinIdent
  extract_lets _ _ _ s2 _ s3
  have hs2 : Inv s2 := inv_of_fields (inv_takeCell h)
  have hs3 : Inv s3 := inv_record (inv_of_fields hs2)
  exact invOut_ite (inv_next h) (invOut_ite (inv_next (inv_ite (inv_mirrorRuns hs3) hs3)) (inv_next (inv_record (inv_of_fields hs2))))

theorem inv_setMirror {slot m} (h : Inv s) : Inv (s.setMirror slot m) := h

theorem inv_dropMirror {slot} (h : Inv s) : Inv (s.dropMirror slot) := h

theorem inv_mirrorAnswer {l c ok} (h : Inv s) : Inv (s.mirrorAnswer l c ok) := inv_ite (inv_cellOut h) (inv_sendCell h)

theorem inv_mirrorFinish {slot l c} (h : Inv s) : Inv (s.mirrorFinish slot l c) := inv_ite (inv_mirrorAnswer (inv_setMirror h)) (inv_ite (inv_ite
  (inv_mirrorAnswer (inv_setMirror h)) (inv_mirrorAnswer (inv_setMirror h))) (inv_ite (inv_mirrorAnswer (inv_setMirror h)) (inv_mirrorAnswer
  (inv_setMirror h))))

theorem inv_mirrorSettle {slot l c} (h : Inv s) : Inv (s.mirrorSettle slot l c) := inv_ite (inv_mirrorFinish h) h

theorem inv_mirrorCellIn {l c f} (h : Inv s) : InvOut (s.mirrorCellIn l c f) := by
  unfold State.mirrorCellIn
  split
  · exact inv_next (inv_violation (inv_takeCell h))
  · split
    · exact inv_next h
    · exact inv_next (inv_staleOn (inv_takeCell h))
    · exact inv_next (inv_mirrorSettle (inv_setMirror (inv_takeCell h)))

theorem inv_mirrorClosed {l c} (h : Inv s) : InvOut (s.mirrorClosed l c) := inv_mirrorCellIn h

theorem inv_execMirrorAck {l c} (h : Inv s) : InvOut (execMirrorAck l c s) := by
  unfold execMirrorAck
  extract_lets _ _ _ s1
  have hs1 : Inv s1 := inv_takeCell h
  exact invOut_ite (inv_next h) (invOut_ite (inv_next (inv_violation (inv_takeCell h))) (invOut_ite (invOut_ite (inv_next (inv_settle (inv_tryCheck
    (inv_updMirror hs1)))) (inv_next (inv_staleOn hs1))) (invOut_ite (inv_next (inv_updRun hs1)) (invOut_ite (inv_next (inv_updMirror hs1)) (inv_next
    (inv_staleOn hs1))))))

theorem inv_execMirrorTask {slot} (h : Inv s) : InvOut (execMirrorTask slot s) := by
  unfold execMirrorTask
  extract_lets _ _ _ _ _ s1
  have hs1 : Inv s1 := inv_setMirror h
  exact invOut_ite (inv_next h) (inv_next (inv_ite hs1 (inv_fault (inv_record hs1))))

theorem inv_execTwinBridgeLost (h : Inv s) : InvOut (execTwinBridgeLost s) := by
  unfold execTwinBridgeLost
  extract_lets _ _ _ _ _ s3
  have hs3 : Inv s3 := inv_record (inv_of_fields (inv_bridgeGone h))
  exact invOut_ite (inv_next h) (inv_next (inv_settle (inv_foldl (fun _ _ h1 => inv_tryCheck h1) hs3)))

/-! #### StepRows -/

theorem inv_begun {id} (h : Inv s) : Inv (s.begun id) := inv_updOp h

theorem inv_stepRow {id opcode body} (h : Inv s) (hf : ∀ t x y, Inv t → Inv (body t x y)) : InvOut (s.stepRow id opcode body) := by
  unfold State.stepRow
  extract_lets s1
  have hs1 : Inv s1 := inv_settle h
  split
  · exact inv_next hs1
  · exact inv_next (inv_settle (inv_ite (hf _ _ _ hs1) (inv_endOp hs1)))

theorem inv_pairTwin {slot} (h : Inv s) : Inv (s.pairTwin slot) := by
  unfold State.pairTwin
  extract_lets _ _ s1 _ s2
  have hs1 : Inv s1 := inv_ite (inv_of_fields h) h
  have hs2 : Inv s2 := inv_updMirror hs1
  exact inv_ite hs1 (inv_ite (inv_record hs2) hs2)

theorem inv_sendBegin {slot e} (h : Inv s) : Inv (s.sendBegin slot e) := inv_contribute (inv_updRun h)

theorem inv_execStepBegin {op} (h : Inv s) : InvOut (execStepBegin op s) := by
  unfold execStepBegin
  refine inv_stepRow h (fun _ _ _ h1 => ?_)
  extract_lets s1 _ s2
  have hs1 : Inv s1 := inv_pairTwin h1
  have hs2 : Inv s2 := inv_updRun (inv_begun hs1)
  exact inv_ite h1 (inv_ite hs1 (inv_ite hs2 (inv_sendBegin hs2)))

theorem inv_execAttemptReuseWait {slot} (h : Inv s) : InvOut (execAttemptReuseWait slot s) := by
  unfold execAttemptReuseWait
  split
  · exact inv_next h
  · exact invOut_ite (inv_next (inv_settle (inv_sendBegin (inv_advanceTo h)))) (inv_next h)

theorem inv_compareReplicas {slot} (h : Inv s) : Inv (s.compareReplicas slot) := by
  unfold State.compareReplicas
  exact inv_foldl (fun _ _ h1 => inv_contribute (inv_startReplica h1)) h

theorem inv_execStepCheck {op} (h : Inv s) : InvOut (execStepCheck op s) := by
  unfold execStepCheck
  refine inv_stepRow h (fun _ _ _ h1 => ?_)
  exact inv_ite h1 (inv_ite (inv_tryCheck (inv_begun h1)) (inv_tryCheck (inv_updRun (inv_compareReplicas (inv_mirrorClose (inv_begun h1))))))

theorem inv_execStepCommit {op} (h : Inv s) : InvOut (execStepCommit op s) := by
  unfold execStepCommit
  refine inv_stepRow h (fun _ _ _ h1 => ?_)
  extract_lets s1
  have hs1 : Inv s1 := inv_begun h1
  exact inv_ite (inv_contribute (inv_updRun hs1)) hs1

theorem inv_execStepVoid {op} (h : Inv s) : InvOut (execStepVoid op s) := by
  unfold execStepVoid
  refine inv_stepRow h (fun _ _ _ h1 => ?_)
  exact inv_ite h1 (inv_ite (inv_askVoid (inv_fault (inv_begun h1))) (inv_ite (inv_endOp h1) (inv_endOp (inv_updOp h1))))

theorem inv_sendCkpt {slot op c kind} (h : Inv s) : Inv (s.sendCkpt slot op c kind) := inv_contribute (inv_updOp (inv_begun h))

theorem inv_execCheckpointVerify {op} (h : Inv s) : InvOut (execCheckpointVerify op s) := by
  unfold execCheckpointVerify
  refine inv_stepRow h (fun _ _ _ h1 => ?_)
  extract_lets _ s1
  have hs1 : Inv s1 := by
    dsimp only [s1]
    split
    · exact inv_updMirror (inv_loadScales h1)
    · exact h1
  exact inv_ite h1 (inv_sendCkpt hs1)

/-! #### Recovery -/

theorem inv_execRecoveryReq {l c} (h : Inv s) : InvOut (execRecoveryReq l c s) := invOut_ite (inv_next h) (invOut_ite (inv_next (inv_violation
  (inv_takeCell h))) (invOut_ite (inv_next h) (inv_next (inv_foldl (fun _ _ h1 => inv_sendCell h1) (inv_takeCell h)))))

theorem inv_setAdoption {a} (h : Inv s) : Inv (s.setAdoption a) := h

theorem inv_askItem {slot a dst item tid len} (h : Inv s) : Inv (s.askItem slot a dst item tid len) := inv_foldl (fun _ _ h1 => inv_sendCell h1) h

theorem inv_askItems {slot} (h : Inv s) : Inv (s.askItems slot) := by
  unfold State.askItems
  split
  · exact h
  · exact inv_ite h (inv_foldl (fun _ _ h1 => inv_askItem h1) (inv_foldl (fun _ _ h1 => inv_askItem h1) (inv_setAdoption h)))

theorem inv_placeState {slot tid b bs} (h : Inv s) : Inv (s.placeState slot tid b bs) := by
  unfold State.placeState
  extract_lets
  split
  · exact h
  · exact inv_runWrites h

theorem inv_takeManifest {slot a bs} (h : Inv s) : Inv (s.takeManifest slot a bs) := inv_ite (inv_declareSelf (inv_record (inv_setAdoption h)))
  (inv_askItems (inv_setAdoption (inv_updRun h)))

theorem inv_execRecoveryData {l c} (h : Inv s) : InvOut (execRecoveryData l c s) := by
  unfold execRecoveryData
  extract_lets _ _ _ s1
  have hs1 : Inv s1 := inv_takeCell h
  refine invOut_ite (inv_next h) ?_
  split
  · exact inv_next (inv_staleOn hs1)
  · extract_lets _ _ s2
    have hs2 : Inv s2 := inv_setAdoption hs1
    refine invOut_ite (inv_next (inv_staleOn hs1)) ?_
    split
    · exact inv_next hs2
    · exact inv_next (inv_ite hs2 (inv_ite (inv_takeManifest hs2) (inv_ite (inv_placeState hs2) (inv_ite (inv_placeState hs2) hs2))))

theorem inv_execRankReady {q v} (h : Inv s) : InvOut (execRankReady q v s) := by
  unfold execRankReady
  refine inv_next (inv_dictWrite h (fun _ h1 => ?_))
  split
  · exact h1
  · refine inv_ite_fst h1 ?_
    split
    · exact h1
    · exact inv_ite_fst h1 (inv_ite_fst h1 (inv_askItems (inv_setAdoption h1)))

theorem inv_replayOp {slot a o} (h : Inv s) : Inv (s.replayOp slot a o).1 := by
  unfold State.replayOp
  extract_lets _ _ _ _ put _ s1
  have hput : ∀ t x, Inv t → Inv (put t x) := fun _ _ h1 => inv_runWrites h1
  have hs1 : Inv s1 := by
    dsimp only [s1]
    split
    · exact hput _ _ h
    · exact h
  exact inv_foldl (fun _ _ h1 => inv_forgetPlane h1) (hput _ _ (inv_ite (hput _ _ hs1) hs1))

theorem inv_takeAlmanac {slot bs} (h : Inv s) : Inv (s.takeAlmanac slot bs) := inv_almTrim (inv_updRun h)

theorem inv_adopted {slot a flip} (h : Inv s) : Inv (s.adopted slot a flip) := by
  unfold State.adopted
  extract_lets s1
  have hs1 : Inv s1 := by
    dsimp only [s1]
    split
    · exact inv_takeAlmanac h
    · exact h
  exact inv_record (inv_of_fields (inv_setAdoption (inv_updRun hs1)))

theorem inv_execRecoveryUpdateReplay (h : Inv s) : InvOut (execRecoveryUpdateReplay s) := by
  unfold execRecoveryUpdateReplay
  split
  · exact inv_next h
  · extract_lets _ _ p
    have hp : Inv p.1 := by
      exact inv_foldl_fst (fun _ _ h1 => inv_replayOp h1) h
    exact invOut_ite (inv_next h) (invOut_ite (inv_next (inv_adopted h)) (invOut_ite (inv_next (inv_adopted hp)) (inv_next (inv_declareSelf
      (inv_record (inv_setAdoption hp))))))

theorem inv_askCopy {slot c} (h : Inv s) : Inv (s.askCopy slot c) := inv_foldl (fun _ _ h1 => inv_askItem h1) (inv_setAdoption h)

theorem inv_compatDone {slot a} (h : Inv s) : Inv (s.compatDone slot a) := by
  unfold State.compatDone
  extract_lets s1 s2
  have hs1 : Inv s1 := by
    dsimp only [s1]
    split
    · exact inv_takeAlmanac h
    · exact h
  have hs2 : Inv s2 := inv_updRun (inv_setAdoption hs1)
  exact inv_ite hs2 (inv_almEntry (inv_updRun hs2))

theorem inv_execCompatRestore {slot} (h : Inv s) : InvOut (execCompatRestore slot s) := by
  unfold execCompatRestore
  refine invOut_ite (inv_next h) ?_
  split
  · exact inv_next (inv_ite (inv_compatDone h) h)
  · exact invOut_ite (inv_next (inv_record h)) (inv_next (inv_askCopy h))

/-! #### RunObjects -/

theorem inv_execGroupTableWrite {q sha} (h : Inv s) : InvOut (execGroupTableWrite q sha s) := by
  unfold execGroupTableWrite
  exact inv_next (inv_dictEnd h (fun _ _ h1 => inv_ite_fst (inv_of_fields h1) (inv_foldl (fun _ _ h2 => inv_ite h2 (inv_fault h2)) h1)))

theorem inv_execReplicaTableWrite {q sha} (h : Inv s) : InvOut (execReplicaTableWrite q sha s) := by
  unfold execReplicaTableWrite
  exact inv_next (inv_dictEnd h (fun _ _ h1 => inv_ite_fst (inv_fault h1) (inv_updRun h1)))

theorem inv_execBankPairsWrite {q sha} (h : Inv s) : InvOut (execBankPairsWrite q sha s) := by
  unfold execBankPairsWrite
  exact inv_next (inv_dictEnd h (fun _ _ h1 => inv_ite_fst h1 (inv_ite_fst h1 (inv_setRun h1))))

theorem inv_execStateTensorsWrite {q sha} (h : Inv s) : InvOut (execStateTensorsWrite q sha s) := by
  unfold execStateTensorsWrite
  exact inv_next (inv_dictEnd h (fun _ _ h1 => inv_ite_fst h1 (inv_ite_fst (inv_setRun h1) h1)))

theorem inv_execHostWindowsWrite {q sha} (h : Inv s) : InvOut (execHostWindowsWrite q sha s) := by
  unfold execHostWindowsWrite
  exact inv_next (inv_dictEnd h (fun _ _ h1 => inv_ite_fst h1 (inv_ite_fst h1 (inv_of_fields h1))))

theorem inv_execRecordRingsWrite {q sha} (h : Inv s) : InvOut (execRecordRingsWrite q sha s) := by
  unfold execRecordRingsWrite
  exact inv_next (inv_dictEnd h (fun _ _ h1 => inv_ite_fst h1 (inv_of_fields h1)))

theorem inv_execRunOpen {q sha} (h : Inv s) : InvOut (execRunOpen q sha s) := by
  unfold execRunOpen
  exact inv_next (inv_dictEnd h (fun _ _ h1 => inv_ite_fst h1 (inv_almAppend (inv_dropMirror (inv_updRun h1)))))

theorem inv_execRunClose {q v} (h : Inv s) : InvOut (execRunClose q v s) := by
  unfold execRunClose
  refine inv_next (inv_dictWrite h (fun _ h1 => ?_))
  split
  · exact h1
  · exact inv_ite_fst h1 (inv_ite_fst h1 (inv_ite_fst h1 (inv_dropMirror (inv_updRun (inv_issueCert h1)))))

theorem inv_execRefAlmanac {q sha} (h : Inv s) : InvOut (execRefAlmanac q sha s) := by
  unfold execRefAlmanac
  exact inv_next (inv_dictEnd h (fun _ _ h1 => inv_ite_fst (inv_updRun h1) h1))

theorem inv_execAlmanacAppend {q sha} (h : Inv s) : InvOut (execAlmanacAppend q sha s) := by
  unfold execAlmanacAppend
  refine inv_next (inv_dictEnd h (fun _ _ h1 => inv_ite_fst h1 ?_))
  split
  · exact h1
  · exact inv_ite_fst (inv_almAppend h1) h1

theorem inv_execLineageRequest {q v} (h : Inv s) : InvOut (execLineageRequest q v s) := by
  unfold execLineageRequest
  refine inv_next (inv_dictWrite h (fun _ h1 => ?_))
  split
  · exact h1
  · exact inv_ite_fst h1 (inv_ite_fst h1 (inv_ite_fst h1 (inv_ite_fst (inv_updRun h1) (inv_issueCert h1))))

/-! #### Exchange -/

theorem inv_sendBlock {x fmt dst a} (h : Inv s) : Inv (s.sendBlock x fmt dst a).1 := inv_ite_fst (inv_sendData h) (inv_foldl_fst (fun _ _ h1 =>
  inv_sendData h1) h)

theorem inv_sendUnit {x dst a} (h : Inv s) : Inv (s.sendUnit x dst a).1 := inv_sendData h

theorem inv_sendAll {α : Type} {l : List α} {f : State → ExInst → α → State × ExInst} {p : State × ExInst}
    (hf : ∀ t x y, Inv t → Inv (f t x y).1) (h : Inv p.1) : Inv (sendAll l f p).1 :=
  inv_foldl_fst (fun _ _ ht => hf _ _ _ ht) h

theorem inv_scatter {x n blk send} (h : Inv s) (hf : ∀ t x y z, Inv t → Inv (send t x y z).1) : Inv (s.scatter x n blk send).1 := inv_closeAll
  (inv_sendAll (fun _ _ _ h1 => hf _ _ _ _ h1) h)

theorem inv_distribute {x n send} (h : Inv s) (hf : ∀ t x y z, Inv t → Inv (send t x y z).1) : Inv (s.distribute x n send).1 := inv_closeAll
  (inv_sendAll (fun _ _ _ h1 => inv_sendAll (fun _ _ _ h2 => hf _ _ _ _ h2) h1) h)

theorem inv_letIn {x mc} (h : Inv s) : Inv (s.letIn x mc).1 := by
  unfold State.letIn
  exact inv_foldl_fst (fun _ _ h1 => inv_sendCell h1) h

theorem inv_rankStep {x mc} (h : Inv s) : Inv (s.rankStep x mc).1 := inv_letIn h

theorem inv_onGo {x mc rank} (h : Inv s) : Inv (s.onGo x mc rank).1 := inv_ite_fst h (inv_sendClose (inv_sendRaw h))

theorem inv_sendRow {x kind dst r bs} (h : Inv s) : Inv (s.sendRow x kind dst r bs).1 := inv_ite_fst h (inv_foldl_fst (fun _ _ h1 => inv_sendData h1)
  h)

theorem inv_dispatchRows {e x mc} (h : Inv s) : Inv (s.dispatchRows e x mc).1 := by
  unfold State.dispatchRows
  extract_lets _ _ _ _ p
  have hp : Inv p.1 := by
    exact inv_sendAll (fun _ _ _ h1 => inv_sendRow h1) h
  exact inv_closeAll hp

theorem inv_combineRows {e x mc} (h : Inv s) : Inv (s.combineRows e x mc).1 := by
  unfold State.combineRows
  extract_lets _ _ _ _ _ p
  have hp : Inv p.1 := by
    exact inv_sendAll (fun _ _ _ h1 => inv_ite_fst (inv_sendRow h1) (inv_violation h1)) h
  exact inv_closeAll hp

theorem inv_exBegin {e x} (h : Inv s) : Inv (s.exBegin e x).1 := by
  unfold State.exBegin
  split
  · exact inv_scatter h (fun _ _ _ _ h1 => inv_sendBlock h1)
  · exact inv_scatter h (fun _ _ _ _ h1 => inv_sendBlock h1)
  · exact inv_closeAll (inv_sendAll (fun _ _ _ h1 => inv_sendRaw h1) h)
  · exact inv_dispatchRows h
  · exact inv_combineRows h
  · exact inv_rankStep h
  · exact inv_sendClose (inv_sendAll (fun _ _ _ h1 => inv_sendData h1) h)
  · exact inv_scatter h (fun _ _ _ _ h1 => inv_sendUnit h1)
  · exact h

theorem inv_exStep {e x} (h : Inv s) : Inv (s.exStep e x) := by
  unfold State.exStep
  extract_lets _ _ p
  have hp : Inv p.1 := by
    refine inv_ite_fst h ?_
    split
    · exact inv_ite_fst (inv_distribute h (fun _ _ _ _ h1 => inv_sendBlock h1)) h
    · exact inv_ite_fst (inv_distribute h (fun _ _ _ _ h1 => inv_sendUnit h1)) h
    · exact inv_rankStep h
    · exact h
  exact inv_setInst hp

theorem inv_exFail {x code detail} (h : Inv s) : Inv (s.exFail x code detail) := by
  unfold State.exFail
  split
  · exact inv_endOp (inv_record h)
  · exact inv_fault (inv_setInst (inv_record h))

theorem inv_exAfter {x} (h : Inv s) : Inv (s.exAfter x) := by
  unfold State.exAfter
  extract_lets e _ _ s1
  have hs1 : Inv s1 := inv_setInst h
  split
  · exact inv_exFail (inv_setInst h)
  · clear_value e
    split
    · exact inv_exStep h
    · exact inv_ite (inv_compareReplica hs1) hs1

theorem inv_exFinish {id e env x} (h : Inv s) : Inv (s.exFinish id e env x) := inv_finishBody (inv_of_fields h)

theorem inv_exRow {id opcode env} (h : Inv s) : InvOut (s.exRow id opcode env) := by
  unfold State.exRow
  split
  · exact inv_next h
  · refine invOut_ite (inv_next (inv_settle (inv_finishBody h))) ?_
    split
    · exact inv_next h
    · extract_lets _ s1
      have hs1 : Inv s1 := inv_exAfter (inv_setInst (inv_ite_fst h (inv_exBegin h)))
      split
      · exact inv_next (inv_settle (inv_ite (inv_exFinish hs1) hs1))
      · exact inv_next (inv_settle hs1)

/-! #### ExCells -/

theorem inv_spoil {x phase c} (h : Inv s) : Inv (s.spoil x phase c) := inv_ite (inv_exFail h) (inv_exAfter h)

theorem inv_dataIn {l c x fate} (h : Inv s) : Inv (s.dataIn l c x fate) := by
  unfold State.dataIn
  split
  · exact inv_spoil (inv_violation h)
  · extract_lets p
    have hp : Inv p.1 := inv_acceptData h
    refine inv_ite (inv_exFail h) ?_
    split
    · exact inv_exAfter hp
    · exact inv_exFail (inv_setInst hp)

theorem inv_cellTaken {l c which f} (h : Inv s) (hf : ∀ t x, Inv t → Inv (f t x)) : InvOut (s.cellTaken l c which f) := by
  unfold State.cellTaken
  split
  · exact inv_next h
  · exact inv_next (inv_staleOn (inv_takeCell h))
  · exact inv_next (inv_violation (inv_takeCell h))
  · exact inv_next (inv_takeCell h)
  · exact inv_next (inv_settle (inv_tryCheck (hf _ _ (inv_takeCell h))))

theorem inv_groupData {l c kind f} (h : Inv s) : InvOut (s.groupData l c kind f) := invOut_ite (inv_cellTaken h (fun _ _ h1 => inv_dataIn h1))
  (inv_next h)

theorem inv_closeIn {l c x} (h : Inv s) : Inv (s.closeIn l c x) := inv_ite (inv_violation h) (inv_ite h (inv_exAfter (inv_countRecv h)))

theorem inv_execCloseCell {l c} (h : Inv s) : InvOut (execCloseCell l c s) := invOut_ite (inv_next h) (invOut_ite (inv_mirrorClosed h) (invOut_ite
  (inv_next h) (inv_cellTaken h (fun _ _ h1 => inv_closeIn h1))))

theorem inv_execGoCell {l c} (h : Inv s) : InvOut (execGoCell l c s) := by
  unfold execGoCell
  exact invOut_ite (inv_cellTaken h (fun _ _ h1 => inv_ite (inv_violation h1) (inv_exAfter (inv_setInst (inv_onGo h1))))) (inv_next h)

theorem inv_execStaleCellExpire {l} (h : Inv s) : InvOut (execStaleCellExpire l s) := by
  unfold execStaleCellExpire
  extract_lets _ _ _ times
  clear_value times
  split
  · exact inv_next h
  · extract_lets _ _ _ _ _ _ s2
    have hs2 : Inv s2 := inv_updLink (inv_advanceTo h)
    exact invOut_ite (inv_next h) (inv_next (inv_settle (inv_foldl (fun _ _ h1 => inv_ite (inv_exFail h1) h1) hs2)))

/-! #### VectorRows -/

theorem inv_execVld {core d port mk} (h : Inv s) : InvOut (execVld core d port mk s) := by
  unfold execVld
  split
  · exact inv_next h
  · exact inv_vecStep (fun _ hc => vld_shaped hc) h

theorem inv_execVldx {core d a port mk} (h : Inv s) : InvOut (execVldx core d a port mk s) := by
  unfold execVldx
  split
  · exact inv_next h
  · exact inv_vecStep (fun _ hc => vldx_shaped hc) h

theorem inv_execRstore {core acc part port p elem} (h : Inv s) : InvOut (execRstore core acc part port p elem s) := by
  unfold execRstore
  split
  · exact inv_next h
  · exact invOut_ite (inv_next h) (inv_vecStore h)

/-! #### Tick -/

theorem inv_transmitAll (h : Inv s) : Inv s.transmitAll := h

theorem inv_markWaits (h : Inv s) : Inv s.markWaits := h

theorem inv_countStalls (h : Inv s) : Inv s.countStalls := inv_foldl (fun _ _ h1 => inv_updCore h1) (inv_of_fields h)

theorem inv_tick (h : Inv s) : Inv s.tick := inv_boundaryRetrain (inv_boundaryStop (inv_settle (inv_advance (inv_transmitAll (inv_countStalls
  (inv_markWaits h))))))
end

end Sys2Proof.Machine
end

section
namespace Sys2Proof.Machine

/-! ### The invariant of every step -/

section
variable {s : State}
/-- Every command keeps the invariant. -/
theorem inv_exec (i : Instr) (h : Inv s) : InvOut (exec i s) := by
  unfold exec
  cases i with
  | pwrEnRise => exact inv_execPwrEnRise h
  | rails => exact invOut_ite (inv_next (inv_enterBoxwood)) (inv_next h)
  | boxwood => exact inv_execBoxwood h
  | bootImage => exact inv_execBootImage h
  | clockAlign => exact inv_execClockAlign h
  | memTrain => exact inv_execMemTrain h
  | wipe => exact inv_execWipe h
  | selfTest => exact inv_execSelfTest h
  | linkUp => exact inv_execLinkUp h
  | enterReleased => exact inv_execEnterReleased h
  | pwrEnFall | thermtrip => exact invOut_ite (inv_next h) (inv_next (inv_of_fields (inv_railsDown)))
  | inputUndervoltage => exact inv_next (inv_of_fields (inv_railsDown))
  | powerFailFlush => exact invOut_ite (inv_next h) (inv_next (inv_of_fields inv_unpowered))
  | resetNFall => exact invOut_ite (inv_next h) (inv_next (inv_requestChipReset h))
  | refclkLost => exact invOut_ite (inv_next (inv_of_fields h)) (inv_next (inv_of_fields h))
  | pllLockLost => exact invOut_ite (inv_next h) (inv_next (inv_startChipReset (inv_of_fields (inv_record h))))
  | vigilWatchdog | logFlush | voltageSample | unitHeartbeat => exact invOut_ite (inv_next h) (inv_next (inv_of_fields h))
  | vigilSramUncorrectable => exact invOut_ite (inv_next h) (inv_next (inv_startChipReset (inv_record h)))
  | chipReset => exact inv_execChipReset h
  | partitionReset => exact inv_execPartitionReset h
  | engineReset => exact inv_execEngineReset h
  | resetEscalate => exact inv_execResetEscalate h
  | crashDump => exact inv_execCrashDump h
  | dumpRequest => exact inv_execDumpRequest h
  | captureFlush => exact inv_execCaptureFlush h
  | thermalSample => exact inv_execThermalSample h
  | railOutOfRange => exact invOut_ite (inv_next h) (inv_next (inv_record h))
  | powerLimit => exact inv_execPowerLimit h
  | regulatorPoll => exact inv_execRegulatorPoll h
  | serviceSecondTick => exact invOut_ite (inv_next h) (inv_next (inv_of_fields (inv_advanceTo h)))
  | serviceSecondsSave => exact invOut_ite (inv_next h) (inv_next (inv_setStore h))
  | lpddrTempLimit => exact invOut_ite (inv_next h) (inv_next (inv_record (inv_of_fields h)))
  | lpddrMaintSlot => exact inv_execLpddrMaintSlot h
  | zeroingDone => exact invOut_ite (inv_next (inv_of_wf h h.mem)) (inv_next h)
  | tileScrub => exact invOut_ite trivial (inv_next (inv_foldl (fun _ _ h1 => inv_tileFound h1) h))
  | unitSilent => exact inv_execUnitSilent h
  | snapshotObject => exact inv_execSnapshotObject h
  | snapshotLatch => exact inv_execSnapshotLatch h
  | linkBlock => exact inv_execLinkBlock h
  | linkRetrainStart => exact inv_execLinkRetrainStart h
  | linkRetrainDone => exact inv_execLinkRetrainDone h
  | portTrained => exact inv_execPortTrained h
  | portTrainingTimeout => exact invOut_ite (inv_next (inv_updLink (inv_advanceTo h))) (inv_next h)
  | laneFifoSlip => exact invOut_ite (inv_next (inv_updLink h)) (inv_next h)
  | linkCtrlSend => exact inv_execLinkCtrlSend h
  | linkCtrl => exact inv_execLinkCtrl h
  | portGuarded => exact invOut_ite (inv_next (inv_record (inv_updLink h))) (inv_next h)
  | staleCellExpire => exact inv_execStaleCellExpire h
  | xb16Block | xp40Seg | g128Seg | rawSeg | dispatchRow | combineRow => exact inv_groupData h
  | closeCell => exact inv_execCloseCell h
  | goCell => exact inv_execGoCell h
  | bulkSeg => exact invOut_ite (inv_cellTaken h (fun _ _ h1 => inv_dataIn h1)) (inv_next h)
  | recoveryReq => exact inv_execRecoveryReq h
  | recoveryData => exact inv_execRecoveryData h
  | twinIdent => exact inv_execTwinIdent h
  | mirrorData => exact invOut_ite (inv_next h) (inv_mirrorCellIn h)
  | mirrorAck => exact inv_execMirrorAck h
  | ctrlStepBegin | ctrlScaleMax | ctrlStepCheck | ctrlStepCommit | ctrlCheckpoint => exact inv_reduceCell h
  | ctrlGroupStart => exact inv_execCtrlGroupStart h
  | ctrlVoidRequest => exact inv_execCtrlVoidRequest h
  | ctrlDecision => exact inv_execCtrlDecision h
  | ctrlRankMove => exact inv_execCtrlRankMove h
  | ctrlHeartbeat => exact inv_execCtrlHeartbeat h
  | heartbeatSend => exact inv_execHeartbeatSend h
  | controlPeerSilent => exact inv_execControlPeerSilent h
  | stragglerDeclare => exact inv_execStragglerDeclare h
  | rootDeclareFailed => exact inv_execRootDeclareFailed h
  | recoveryUpdateReplay => exact inv_execRecoveryUpdateReplay h
  | compatRestore => exact inv_execCompatRestore h
  | mirrorSeed => exact invOut_ite (inv_next (inv_of_fields (inv_seedMirror h))) (inv_next h)
  | mirrorTask => exact inv_execMirrorTask h
  | twinBridgeLost => exact inv_execTwinBridgeLost h
  | queueFetch => exact inv_execQueueFetch h
  | operatorStart => exact inv_execOperatorStart h
  | operatorComplete => exact inv_execOperatorComplete h
  | schedReserve => exact inv_execSchedReserve h
  | gatherPassClose => exact inv_execGatherPassClose h
  | gatherDeadline => exact inv_execGatherDeadline h
  | gathererOverflowDrain => exact inv_execGathererOverflowDrain h
  | stackSpillAck => exact inv_execStackSpillAck h
  | stackFetchDone => exact inv_execStackFetchDone h
  | checkTask => exact inv_execCheckTask h
  | captureAttribution => exact inv_execCaptureAttribution h
  | coreRetire => exact inv_execCoreRetire h
  | retireReloadDone => exact invOut_ite (inv_next (inv_settle (inv_of_fields h))) (inv_next h)
  | watchdogFire => exact inv_execWatchdogFire h
  | hungCoreCheck => exact invOut_ite (inv_next h) (inv_next (inv_resetEngines (inv_of_fields (inv_advanceTo h))))
  | suspectIdleExpire => exact invOut_ite (inv_next (inv_dropSuspect (inv_advanceTo h))) (inv_next h)
  | waitExclusionExpire => exact inv_execWaitExclusionExpire h
  | stagingTimeout => exact inv_execStagingTimeout h
  | doorbellQueueTail | doorbellRingTail | doorbellResumeStream => exact invOut_ite (inv_next (inv_doorbell (inv_takeDoorbell h))) (inv_next h)
  | contextLoad => exact inv_execContextLoad h
  | contextOpen => exact inv_execContextOpen h
  | contextReset => exact inv_execContextReset h
  | contextRelease => exact inv_execContextRelease h
  | contextResetDone => exact inv_execContextResetDone h
  | contextReleaseDone => exact invOut_ite (inv_next h) (inv_next (inv_setCtx (inv_tagCatchUp h)))
  | contextTableWrite => exact inv_execContextTableWrite h
  | regionSeal => exact inv_execRegionSeal h
  | yalvoLink => exact inv_execYalvoLink h
  | yalvoLinkSend => exact invOut_ite (inv_next h) (inv_next (inv_hostSend (inv_updLink h)))
  | completion => exact inv_execCompletion h
  | hostReadTimeout => exact inv_execHostReadTimeout h
  | requestExpire => exact inv_execRequestExpire h
  | hostPortGuarded => exact invOut_ite (inv_next (inv_failReads (inv_record (inv_updLink h)))) (inv_next h)
  | fieldDatagram => exact inv_execFieldDatagram h
  | fieldGuarded | duplicateAddressDetection => exact invOut_ite (inv_next (inv_of_fields (inv_record h))) (inv_next h)
  | fieldGuardExpire | requesterEvict => exact invOut_ite (inv_next (inv_of_fields (inv_advanceTo h))) (inv_next h)
  | neighbourDiscovery => exact inv_execNeighbourDiscovery h
  | domainBegin => exact inv_execDomainBegin h
  | domainSeg => exact inv_execDomainSeg h
  | domainCancel => exact inv_execDomainCancel h
  | domainTimeout => exact inv_execDomainTimeout h
  | auth => exact inv_execAuth h
  | elevationLapse => exact inv_execElevationLapse h
  | nonceRead => exact inv_execNonceRead h
  | objectWrite => exact inv_execObjectWrite h
  | lcToProvisioned | lcToService | lcToRetired => exact inv_next (inv_lifeCycle h (fun _ h1 => inv_burn h1))
  | lcToFleet => exact inv_next (inv_lifeCycle h (fun _ h1 => inv_ite (inv_burn h1) (inv_burn h1)))
  | fleetKey => exact inv_execFleetKey h
  | keySlotWrite => exact inv_execKeySlotWrite h
  | keySlotClear => exact inv_execKeySlotClear h
  | attestNonce => exact inv_execAttestNonce h
  | fwImage | configImage => exact inv_next (inv_afterImage (inv_dictEnd h (fun _ _ h1 => inv_imageEnd h1)))
  | fieldStateClear => exact inv_execFieldStateClear h
  | coreDrainStop => exact inv_execCoreDrainStop h
  | coreDrainStart => exact inv_execCoreDrainStart h
  | fabricPortRetrain | hostPortRetrain => exact inv_next (inv_dictWrite h (fun _ h1 => inv_retrainCmd h1))
  | fabricPortDisable | hostPortDisable => exact inv_next (inv_dictWrite h (fun _ h1 => inv_disableCmd h1))
  | bridgeRetrain => exact inv_execBridgeRetrain h
  | bridgeDisable => exact inv_execBridgeDisable h
  | mirrorStart => exact inv_execMirrorStart h
  | mirrorStop => exact inv_execMirrorStop h
  | groupTableWrite => exact inv_execGroupTableWrite h
  | replicaTableWrite => exact inv_execReplicaTableWrite h
  | bankPairsWrite => exact inv_execBankPairsWrite h
  | stateTensorsWrite => exact inv_execStateTensorsWrite h
  | hostWindowsWrite => exact inv_execHostWindowsWrite h
  | recordRingsWrite => exact inv_execRecordRingsWrite h
  | runOpen => exact inv_execRunOpen h
  | runClose => exact inv_execRunClose h
  | refAlmanac => exact inv_execRefAlmanac h
  | almanacAppend => exact inv_execAlmanacAppend h
  | rankReady => exact inv_execRankReady h
  | lineageRequest => exact inv_execLineageRequest h
  | rankMove => exact inv_execRankMove h
  | spareRole => exact inv_execSpareRole h
  | matmul | matmulDx | matmulDw | batchedMatmul | convFwd | convDx | convDw | attnFwd | attnBwd | customKernel | addTensors | mulTensors
    | axpby | act | actBwd | rmsnorm | rmsnormBwd | layernorm | layernormBwd | softmax | softmaxBwd | reduceSum | reduceMax | argmax | topk
    | adamw | convert | quantXb16 | pairToWorking | pairFrom | copyTensor | gatherRows | scatterRows | scatterAddRows | permute | transpose =>
    exact inv_bodyRow h
  | scaleCalibrate | scaleUpdate => exact inv_scaleRow h
  | pushFrame => exact inv_execPushFrame h
  | popFrame => exact inv_execPopFrame h
  | peekFrame => exact inv_stackRow h (fun _ _ h1 => h1)
  | markFrame => exact inv_stackRow h (fun _ _ h1 => inv_pushOn h1)
  | allreduceXb | reduceScatterXb | allgather | dispatch | combine | rankOrderReduce | sendTensor | recvTensor | g128Exchange => exact inv_exRow h
  | stepBegin => exact inv_execStepBegin h
  | stepCheck => exact inv_execStepCheck h
  | stepCommit => exact inv_execStepCommit h
  | stepVoid => exact inv_execStepVoid h
  | snapshot => exact inv_stepRow h (fun _ _ _ h1 => inv_ite h1 (inv_ite (inv_begun h1) (inv_strobe (inv_begun h1))))
  | checkpoint => exact inv_stepRow h (fun _ _ _ h1 => inv_ite h1 (inv_sendCkpt h1))
  | checkpointVerify => exact inv_execCheckpointVerify h
  | knownAnswer => exact inv_execKnownAnswer h
  | setvl => exact inv_vecStep (fun _ hc => setvl_shaped (nextPass_shaped hc)) h
  | sli | sadd | ssub | sminu => exact inv_vecStep (fun _ hc => setS_shaped hc) h
  | vld => exact inv_execVld h
  | vldx => exact inv_execVldx h
  | vst => exact inv_execVst h
  | vbcast | vbcasti | viota | vmin | vmax | vabs | vneg | vcpysgn | viadd | visub | vimul | vand | vor | vxor | vshl | vshrl | vshra
    | vimin | vimax | vcvtif | vcvtuf | vsel =>
    exact inv_vecStep (fun _ hc => setV_shaped hc) h
  | vadd | vsub | vmul | vfma | vfms | vfnma | vdiv | vsqrt | vexp | vlog | vrsqrt | vtanh | verf | vsigm =>
    exact inv_vecStep (fun _ hc => fop_shaped hc) h
  | vcvtfi => exact inv_vecStep (fun _ hc => vcvtfi_shaped hc) h
  | vcmp | mand | mor | mxor | mnot => exact inv_vecStep (fun _ hc => setM_shaped hc) h
  | vperm => exact inv_vecStep (fun _ hc => vperm_shaped hc) h
  | rsum | rsump => exact inv_vecStep (fun _ hc => rsum_shaped hc) h
  | rmax | rmin | rargmax => exact inv_vecStep (fun _ hc => rminmax_shaped hc) h
  | rstore => exact inv_execRstore h
  | attemptReuseWait => exact inv_execAttemptReuseWait h
  | hostPortDisableTimeout => exact invOut_ite (inv_next (inv_linkStopped (inv_record (inv_advanceTo h)))) (inv_next h)
  | stopCompletes => exact inv_execStopCompletes h
  | resetReturnToService => exact inv_execResetReturnToService h
  | pwrEnLowTimeExpire => exact invOut_ite (inv_next h) (inv_next inv_startRails)
  | refclkRestored => exact inv_execRefclkRestored h
  | inputPowerReturn => exact inv_execInputPowerReturn h
end
/-- Settles O60: `inv_exec` for the command in front, `inv_tick` for an empty queue. -/
theorem everyStepKeepsTheInvariant : Obligations.EveryStepKeepsTheInvariant := by
  unfold Obligations.EveryStepKeepsTheInvariant
  intro s t h ht
  unfold step at ht
  split at ht
  · cases ht
    exact inv_tick h
  · exact inv_of_next_eq ht (inv_exec _ (inv_of_fields h))

end Sys2Proof.Machine
end

section
namespace Sys2Proof.Machine

/-! ### The vector engine: registers, lanes and two's complement (R129, R130) -/

theorem updAt_eq_modify {α : Type} (l : List α) (i : Nat) (f : α → α) : updAt l i f = l.modify i f := by
  induction l generalizing i with
  | nil => simp [updAt]
  | cons a r ih => cases i <;> simp [updAt, ih]

theorem nth_updAt_same {α : Type} {l : List α} {i : Nat} (h : i < l.length) (f : α → α) (d : α) : nth (updAt l i f) i d = f (nth l i d) := by
  simp [nth, updAt_eq_modify, h]

theorem nth_updAt_other {α : Type} {l : List α} {i j : Nat} (h : j ≠ i) (f : α → α) (d : α) : nth (updAt l i f) j d = nth l j d := by
  simp [nth, updAt_eq_modify, h.symm]

theorem nth_map_range {α : Type} (n : Nat) (f : Nat → α) (i : Nat) (d : α) : nth ((List.range n).map f) i d = if i < n then f i else d := by
  by_cases h : i < n <;> simp [nth, h]

theorem nth_of_length_le {α : Type} {l : List α} {i : Nat} (h : l.length ≤ i) (d : α) : nth l i d = d := by simp [nth, h]

@[simp] theorem State.vcore_setVcore_same (s : State) (core : Nat) (c : VCore) : (s.setVcore core c).vcore core = c := by
  simp [State.setVcore, State.vcore]

theorem State.vcore_setVcore_other (s : State) (core k : Nat) (c : VCore) (h : k ≠ core) : (s.setVcore core c).vcore k = s.vcore k := by
  simp [State.setVcore, State.vcore, NMap.getD_set_other _ _ _ _ _ h]

theorem onlyEngine_setVcore (s : State) (core : Nat) (c : VCore) : OnlyEngine s core (s.setVcore core c) :=
  ⟨rfl, fun k hk => s.vcore_setVcore_other core k c hk⟩

/-! #### A command on the engine of its core -/

theorem Engine.ok {s : State} {core : Nat} (h : Engine s core) : s.vecOk core = true := h.1
theorem Engine.vectors {s : State} {core : Nat} (h : Engine s core) : (s.vcore core).v.length = 32 := h.2.1
theorem Engine.masks {s : State} {core : Nat} (h : Engine s core) : (s.vcore core).m.length = 8 := h.2.2.1
theorem Engine.scalars {s : State} {core : Nat} (h : Engine s core) : (s.vcore core).s.length = 16 := h.2.2.2.1

theorem vecStep_of_vecOk {s : State} {core : Nat} (h : s.vecOk core = true) (f : VCore → VCore) :
    s.vecStep core f = .next (s.setVcore core (f (s.vcore core))) := if_pos h

theorem faultIndex_of_vecOk {s : State} {core : Nat} (h : s.vecOk core = true) : (s.vcore core).faultIndex = none := by
  simpa using (Bool.and_eq_true_iff.1 h).2

theorem gives_vecStep {s : State} {core : Nat} {i : Instr} {f : VCore → VCore} {P : State → Prop} (hi : exec i s = s.vecStep core f)
    (h : s.vecOk core = true) (hp : P (s.setVcore core (f (s.vcore core)))) : Gives i s P :=
  ⟨_, hi.trans (vecStep_of_vecOk h f), hp⟩

theorem Gives.mono {i : Instr} {s : State} {P Q : State → Prop} (h : Gives i s P) (hpq : ∀ t, P t → Q t) : Gives i s Q :=
  h.imp fun t ht => ⟨ht.1, hpq t ht.2⟩

/-! #### Lanes (R130) -/

theorem nth_lanes (c : VCore) (mk : Nat) (old : List Word) (f : Nat → Word) (i : Nat) :
    nth (c.lanes mk old f) i 0 = if c.active mk i then f i else nth old i 0 := by
  unfold VCore.lanes
  rw [nth_map_range]
  split
  · rfl
  · rename_i hi
    have hvl : ¬ i < c.vl := by omega
    rw [nth_of_length_le (l := old) (by omega)]
    simp [VCore.active, hvl]

theorem vreg_setV_same {c : VCore} {d : Nat} (h : d < c.v.length) (mk : Nat) (f : Nat → Word) :
    (c.setV d mk f).vreg d = c.lanes mk (c.vreg d) f := nth_updAt_same h _ _

theorem vreg_setV_other {c : VCore} {d r : Nat} (h : r ≠ d) (mk : Nat) (f : Nat → Word) : (c.setV d mk f).vreg r = c.vreg r :=
  nth_updAt_other h _ _

theorem lane_setV_same {c : VCore} {d : Nat} (h : d < c.v.length) (mk : Nat) (f : Nat → Word) (i : Nat) :
    (c.setV d mk f).lane d i = if c.active mk i then f i else c.lane d i := by
  unfold VCore.lane
  rw [vreg_setV_same h, nth_lanes]

/-- An engine whose lanes were written, with whatever status, is a lane write. -/
theorem laneWrite_setV {s : State} {core d mk : Nat} {f : Nat → Word} (h : d < (s.vcore core).v.length) (st : OpStatus) (fi : Option Nat) :
    LaneWrite s core d mk f (s.setVcore core { (s.vcore core).setV d mk f with stat := st, faultIndex := fi }) := by
  unfold LaneWrite
  simp only [State.vcore_setVcore_same]
  exact ⟨onlyEngine_setVcore _ _ _, lane_setV_same h mk f, fun r hr => vreg_setV_other hr mk f, rfl, rfl, rfl, rfl, rfl, rfl, rfl⟩

theorem LaneWrite.congr {s t : State} {core d mk : Nat} {f g : Nat → Word} (h : LaneWrite s core d mk f t) (hfg : ∀ i, f i = g i) :
    LaneWrite s core d mk g t := (funext hfg : f = g) ▸ h

theorem engine_reg_lt {s : State} {core : Nat} (h : Engine s core) (d : BitVec 5) : d.toNat < (s.vcore core).v.length := by
  rw [h.vectors]
  exact d.isLt

/-- A command that only writes the active lanes of one register. -/
theorem gives_setV {s : State} {core : Nat} {d : BitVec 5} {mk : Nat} {i : Instr} {f : Nat → Word} {g : VCore → Nat → Word} (h : Engine s core)
    (hi : exec i s = s.vecStep core (fun c => c.setV d.toNat mk (g c))) (hg : ∀ i, g (s.vcore core) i = f i) :
    Gives i s (fun t => LaneWrite s core d.toNat mk f t ∧ (t.vcore core).stat = (s.vcore core).stat ∧ (t.vcore core).faultIndex = none) :=
  gives_vecStep hi h.ok ⟨(laneWrite_setV (engine_reg_lt h d) _ _).congr hg, by simp [VCore.setV],
    by simpa [VCore.setV] using faultIndex_of_vecOk h.ok⟩

theorem gives_setV_stat {s : State} {core : Nat} {d : BitVec 5} {mk : Nat} {i : Instr} {f : Nat → Word} {g : VCore → Nat → Word}
    (h : Engine s core) (hi : exec i s = s.vecStep core (fun c => c.setV d.toNat mk (g c))) (hg : ∀ i, g (s.vcore core) i = f i) :
    Gives i s (fun t => LaneWrite s core d.toNat mk f t ∧ (t.vcore core).stat = (s.vcore core).stat) :=
  (gives_setV h hi hg).mono fun _ ⟨hw, hs, _⟩ => ⟨hw, hs⟩

/-! #### Two's complement (R129) -/

theorem add_eq_ofInt (x y : Word) : x + y = BitVec.ofInt 32 (x.toInt + y.toInt) := by simp [BitVec.ofInt_add]
theorem sub_eq_ofInt (x y : Word) : x - y = BitVec.ofInt 32 (x.toInt - y.toInt) := BitVec.eq_of_toInt_eq (by simp [BitVec.toInt_sub])
theorem mul_eq_ofInt (x y : Word) : x * y = BitVec.ofInt 32 (x.toInt * y.toInt) := by simp [BitVec.ofInt_mul]

theorem imin32_eq_ofInt (x y : Word) : imin32 x y = BitVec.ofInt 32 (min x.toInt y.toInt) := by
  simp only [imin32, BitVec.slt, decide_eq_true_eq]
  split
  · rw [min_eq_left (by omega), BitVec.ofInt_toInt]
  · rw [min_eq_right (by omega), BitVec.ofInt_toInt]

theorem imax32_eq_ofInt (x y : Word) : imax32 x y = BitVec.ofInt 32 (max x.toInt y.toInt) := by
  simp only [imax32, BitVec.slt, decide_eq_true_eq]
  split
  · rw [max_eq_right (by omega), BitVec.ofInt_toInt]
  · rw [max_eq_left (by omega), BitVec.ofInt_toInt]

theorem twoPow_eq_ofInt (n : Nat) : BitVec.twoPow 32 n = BitVec.ofInt 32 (2 ^ n) := by
  rw [show (2 : Int) ^ n = ((2 ^ n : Nat) : Int) by simp, BitVec.ofInt_natCast]
  exact BitVec.eq_of_toNat_eq (by simp [BitVec.toNat_twoPow])

theorem shiftLeft_eq_ofInt (x : Word) (n : Nat) : x <<< n = BitVec.ofInt 32 (x.toInt * 2 ^ n) := by
  rw [BitVec.ofInt_mul, BitVec.ofInt_toInt, BitVec.shiftLeft_eq_mul_twoPow, twoPow_eq_ofInt]

theorem ushiftRight_eq_ofNat (x : Word) (n : Nat) : x >>> n = BitVec.ofNat 32 (x.toNat / 2 ^ n) := by
  rw [← Nat.shiftRight_eq_div_pow, ← BitVec.toNat_ushiftRight, BitVec.ofNat_toNat, BitVec.setWidth_eq]

theorem sshiftRight_eq_ofInt (x : Word) (n : Nat) : x.sshiftRight n = BitVec.ofInt 32 (x.toInt / 2 ^ n) := by
  simp [BitVec.sshiftRight, Int.shiftRight_eq_div_pow]

end Sys2Proof.Machine
end

section
namespace Sys2Proof.Machine

/-! ### Integer lanes and moves -/

/-- VPERM: out-of-range indices give 0 and set `perm_oob` (R133). -/
theorem gives_vperm {s : State} {core : Nat} (h : Engine s core) (d a b : BitVec 5) (mk : BitVec 3) :
    let c := s.vcore core
    Gives (.vperm core d a b mk) s (fun t =>
      LaneWrite s core d.toNat mk.toNat (fun i => if (c.lane b.toNat i).toNat < c.vl then c.lane a.toNat (c.lane b.toNat i).toNat else 0) t ∧
      (t.vcore core).stat =
        { c.stat with permOob := c.stat.permOob || (c.activeLanes mk.toNat).any (fun i => decide (c.vl ≤ (c.lane b.toNat i).toNat)) }) :=
  gives_vecStep (f := fun c => c.vperm d.toNat a.toNat b.toNat mk.toNat) rfl h.ok
    ⟨laneWrite_setV (engine_reg_lt h d) _ _, by rw [State.vcore_setVcore_same]; rfl⟩

/-- A two-operand lane command whose operation `g` is the function `f` of the statement. -/
theorem gives_binary {s : State} {core : Nat} {d a b : BitVec 5} {mk : BitVec 3} {i : Instr} {f g : Word → Word → Word} (h : Engine s core)
    (hg : ∀ u v, g u v = f u v) (hi : exec i s = s.vecStep core (fun c => c.lop2 d.toNat a.toNat b.toNat mk.toNat g)) :
    Gives i s (fun t => LaneWrite s core d.toNat mk.toNat (fun i => f ((s.vcore core).lane a.toNat i) ((s.vcore core).lane b.toNat i)) t ∧
      (t.vcore core).stat = (s.vcore core).stat ∧ (t.vcore core).faultIndex = none) :=
  gives_setV (g := fun c i => g (c.lane a.toNat i) (c.lane b.toNat i)) h hi fun _ => hg _ _

/-- A one-operand lane command whose operation `g` is the function `f` of the statement. -/
theorem gives_unary {s : State} {core : Nat} {d a : BitVec 5} {mk : BitVec 3} {i : Instr} {f g : Word → Word} (h : Engine s core)
    (hg : ∀ u, g u = f u) (hi : exec i s = s.vecStep core (fun c => c.lop1 d.toNat a.toNat mk.toNat g)) :
    Gives i s (fun t => LaneWrite s core d.toNat mk.toNat (fun i => f ((s.vcore core).lane a.toNat i)) t ∧
      (t.vcore core).stat = (s.vcore core).stat ∧ (t.vcore core).faultIndex = none) :=
  gives_setV (g := fun c i => g (c.lane a.toNat i)) h hi fun _ => hg _

/-- Settles O56: each lane command writes its register by `setV`, and its word is the one of two's-complement arithmetic. -/
theorem integerLanesWrapAndMovesKeepBits : Obligations.IntegerLanesWrapAndMovesKeepBits := by
  unfold Obligations.IntegerLanesWrapAndMovesKeepBits
  intro s core d a b mk h
  exact ⟨gives_binary h add_eq_ofInt rfl, gives_binary h sub_eq_ofInt rfl, gives_binary h mul_eq_ofInt rfl, gives_binary h imin32_eq_ofInt rfl,
    gives_binary h imax32_eq_ofInt rfl, gives_binary (f := (· &&& ·)) h (fun _ _ => rfl) rfl,
    gives_binary (f := (· ||| ·)) h (fun _ _ => rfl) rfl,
    gives_binary (f := (· ^^^ ·)) h (fun _ _ => rfl) rfl, gives_unary h (shiftLeft_eq_ofInt · b.toNat) rfl,
    gives_unary h (ushiftRight_eq_ofNat · b.toNat) rfl, gives_unary h (sshiftRight_eq_ofInt · b.toNat) rfl,
    fun imm => gives_setV (g := fun _ _ => imm) h rfl fun _ => rfl,
    gives_setV (g := fun c i => BitVec.ofNat 32 ((c.sreg 2).toNat + i)) h rfl fun _ => rfl,
    fun k => gives_setV (g := fun c _ => (c.sreg k.toNat).setWidth 32) h rfl fun _ => rfl,
    gives_setV_stat (g := fun c i => if c.mbit mk.toNat i then c.lane a.toNat i else c.lane b.toNat i) h rfl fun _ => rfl, gives_vperm h d a b mk⟩

end Sys2Proof.Machine
end

section
namespace Sys2Proof.Machine

/-! ### Floating-point lanes and conversions -/

theorem gives_fop {s : State} {core : Nat} {d : BitVec 5} {mk : BitVec 3} {i : Instr} {f : VCore → Nat → Word × Fl} (h : Engine s core)
    (hi : exec i s = s.vecStep core (fun c => c.fop d.toNat mk.toNat (f c))) :
    Gives i s (FloatWrite s core d.toNat mk.toNat (f (s.vcore core))) :=
  gives_vecStep hi h.ok ⟨laneWrite_setV (engine_reg_lt h d) _ _, by
    simpa [VCore.fop, VCore.setV] using faultIndex_of_vecOk h.ok, by rw [State.vcore_setVcore_same]; rfl⟩

theorem gives_fop1 {s : State} {core : Nat} {d a : BitVec 5} {mk : BitVec 3} {i : Instr} {f : Word → Word × Fl} (h : Engine s core)
    (hi : exec i s = s.vecStep core (fun c => c.fop1 d.toNat a.toNat mk.toNat f)) :
    Gives i s (FloatWrite s core d.toNat mk.toNat (fun i => f ((s.vcore core).lane a.toNat i))) :=
  gives_fop (f := fun c i => f (c.lane a.toNat i)) h hi

theorem gives_fop2 {s : State} {core : Nat} {d a b : BitVec 5} {mk : BitVec 3} {i : Instr} {f : Word → Word → Word × Fl} (h : Engine s core)
    (hi : exec i s = s.vecStep core (fun c => c.fop2 d.toNat a.toNat b.toNat mk.toNat f)) :
    Gives i s (FloatWrite s core d.toNat mk.toNat (fun i => f ((s.vcore core).lane a.toNat i) ((s.vcore core).lane b.toNat i))) :=
  gives_fop (f := fun c i => f (c.lane a.toNat i) (c.lane b.toNat i)) h hi

theorem gives_fop3 {s : State} {core : Nat} {d a b e : BitVec 5} {mk : BitVec 3} {i : Instr} {f : Word → Word → Word → Word × Fl}
    (h : Engine s core) (hi : exec i s = s.vecStep core (fun c => c.fop3 d.toNat a.toNat b.toNat e.toNat mk.toNat f)) :
    Gives i s (FloatWrite s core d.toNat mk.toNat (fun i =>
      f ((s.vcore core).lane a.toNat i) ((s.vcore core).lane b.toNat i) ((s.vcore core).lane e.toNat i))) :=
  gives_fop (f := fun c i => f (c.lane a.toNat i) (c.lane b.toNat i) (c.lane e.toNat i)) h hi

theorem gives_lop1 {s : State} {core : Nat} {d a : BitVec 5} {mk : BitVec 3} {i : Instr} {f : Word → Word} (h : Engine s core)
    (hi : exec i s = s.vecStep core (fun c => c.lop1 d.toNat a.toNat mk.toNat f)) :
    Gives i s (fun t => LaneWrite s core d.toNat mk.toNat (fun i => f ((s.vcore core).lane a.toNat i)) t ∧
      (t.vcore core).stat = (s.vcore core).stat) :=
  gives_setV_stat (g := fun c i => f (c.lane a.toNat i)) h hi fun _ => rfl

theorem gives_lop2 {s : State} {core : Nat} {d a b : BitVec 5} {mk : BitVec 3} {i : Instr} {f : Word → Word → Word} (h : Engine s core)
    (hi : exec i s = s.vecStep core (fun c => c.lop2 d.toNat a.toNat b.toNat mk.toNat f)) :
    Gives i s (fun t => LaneWrite s core d.toNat mk.toNat (fun i => f ((s.vcore core).lane a.toNat i) ((s.vcore core).lane b.toNat i)) t ∧
      (t.vcore core).stat = (s.vcore core).stat) :=
  gives_setV_stat (g := fun c i => f (c.lane a.toNat i) (c.lane b.toNat i)) h hi fun _ => rfl

theorem gives_vcvtfi {s : State} {core : Nat} (h : Engine s core) (d a : BitVec 5) (tz : Bool) (mk : BitVec 3) :
    let c := s.vcore core
    Gives (.vcvtfi core d a tz mk) s (fun t =>
      LaneWrite s core d.toNat mk.toNat (fun i => BitVec.ofNat 32 (cvtFI tz (c.lane a.toNat i)).code) t ∧
      (t.vcore core).stat = c.stat.cvt (((c.activeLanes mk.toNat).map (fun i => cvtFI tz (c.lane a.toNat i))).any (·.sat))
        (((c.activeLanes mk.toNat).map (fun i => cvtFI tz (c.lane a.toNat i))).any (·.nonfin))) :=
  gives_vecStep (f := fun c => c.vcvtfi d.toNat a.toNat tz mk.toNat) rfl h.ok
    ⟨laneWrite_setV (engine_reg_lt h d) _ _, by rw [State.vcore_setVcore_same]; rfl⟩

/-! #### A NaN operand (R128) -/

theorem Val.eq_nan_of_isNan {v : Val} (h : v.isNan = true) : v = .nan := by
  cases v with
  | nan => rfl
  | inf n => cases h
  | fin n m e => cases h

theorem round32_nan : (round32 .nan).1 = 0x7FC00000 := rfl

theorem abs32_of_nan {w : Word} (h : (val32 w).isNan = true) : abs32 w = 0x7FC00000 := if_pos h
theorem neg32_of_nan {w : Word} (h : (val32 w).isNan = true) : neg32 w = 0x7FC00000 := if_pos h
theorem min32_of_nan {w : Word} (h : (val32 w).isNan = true) (v : Word) : min32 w v = 0x7FC00000 := if_pos (by simp [h])
theorem max32_of_nan {w : Word} (h : (val32 w).isNan = true) (v : Word) : max32 v w = 0x7FC00000 := if_pos (by simp [h])

theorem add32_of_nan {w : Word} (h : (val32 w).isNan = true) (v : Word) : (add32 w v).1 = 0x7FC00000 := by
  show (round32 (Val.add (val32 w) (val32 v))).1 = _
  rw [Val.eq_nan_of_isNan h]
  exact round32_nan

theorem Val.mul_nan (v : Val) : v.mul .nan = .nan := by cases v <;> rfl

theorem mul32_of_nan {w : Word} (h : (val32 w).isNan = true) (v : Word) : (mul32 v w).1 = 0x7FC00000 := by
  show (round32 (Val.mul (val32 v) (val32 w))).1 = _
  rw [Val.eq_nan_of_isNan h, Val.mul_nan]
  exact round32_nan

/-- Settles O57: the commands with events are `fop`, the others `setV`; the canonical NaN follows from `val32`. -/
theorem floatLanesAndConversions : Obligations.FloatLanesAndConversions := by
  unfold Obligations.FloatLanesAndConversions
  intro s core d a b e mk h
  refine ⟨?_, ?_, ?_, ?_, ?_, fun tz => gives_vcvtfi h d a tz mk, fun w hw => ⟨abs32_of_nan hw, neg32_of_nan hw, fun v =>
    ⟨min32_of_nan hw v, max32_of_nan hw v, add32_of_nan hw v, mul32_of_nan hw v⟩⟩⟩
  all_goals simp only [List.mem_cons, List.not_mem_nil, or_false, Prod.mk.injEq]
  · rintro i f (⟨rfl, rfl⟩ | ⟨rfl, rfl⟩ | ⟨rfl, rfl⟩ | ⟨rfl, rfl⟩) <;> exact gives_fop2 h rfl
  · rintro i f (⟨rfl, rfl⟩ | ⟨rfl, rfl⟩ | ⟨rfl, rfl⟩) <;> exact gives_fop3 h rfl
  · rintro i f (⟨rfl, rfl⟩ | ⟨rfl, rfl⟩ | ⟨rfl, rfl⟩ | ⟨rfl, rfl⟩ | ⟨rfl, rfl⟩ | ⟨rfl, rfl⟩ | ⟨rfl, rfl⟩) <;>
    exact gives_fop1 h rfl
  · rintro i f (⟨rfl, rfl⟩ | ⟨rfl, rfl⟩ | ⟨rfl, rfl⟩) <;> exact gives_lop2 h rfl
  · rintro i f (⟨rfl, rfl⟩ | ⟨rfl, rfl⟩ | ⟨rfl, rfl⟩ | ⟨rfl, rfl⟩) <;> exact gives_lop1 h rfl

end Sys2Proof.Machine
end

section
namespace Sys2Proof.Machine

/-! ### Scalars, masks, accumulators and ports -/

/-! #### Scalar registers (R127, R130, R143) -/

theorem setS_eq (c : VCore) (d : Nat) (x : DWord) : c.setS d x = { c with s := (c.setS d x).s } := by
  unfold VCore.setS
  split <;> rfl

theorem sreg_setS {c : VCore} (hs : c.s.length = 16) (d : Nat) (x : DWord) {r : Nat} (hr : r < 16) :
    (c.setS d x).sreg r = if r = d ∧ 11 ≤ r then x else c.sreg r := by
  unfold VCore.setS
  split
  · rename_i hd
    simp only [Bool.and_eq_true, decide_eq_true_eq] at hd
    by_cases hrd : r = d
    · subst hrd
      have h0 : r ≠ 0 := by omega
      simp [VCore.sreg, h0, hd.1, nth_updAt_same (hs ▸ hr)]
    · simp [VCore.sreg, hrd, nth_updAt_other hrd]
  · rename_i hd
    simp only [Bool.and_eq_true, decide_eq_true_eq] at hd
    exact (if_neg (by omega)).symm

/-- What a scalar instruction gives: `w` in register `d`, where it may be written, and `n` as the vector length. -/
def ScalarWrite (s : State) (core d : Nat) (w : DWord) (n : Nat) (t : State) : Prop :=
  OnlyEngine s core t ∧ t.vcore core = { s.vcore core with vl := n, s := (t.vcore core).s } ∧
  ∀ r : Nat, r < 16 → (t.vcore core).sreg r = if r = d ∧ 11 ≤ r then w else (s.vcore core).sreg r

theorem gives_setS {s : State} {core : Nat} {d : BitVec 4} {i : Instr} {w : DWord} {n : Nat} {f : VCore → VCore} (h : Engine s core)
    (hi : exec i s = s.vecStep core f) (hf : f (s.vcore core) = ({ s.vcore core with vl := n } : VCore).setS d.toNat w) :
    Gives i s (ScalarWrite s core d.toNat w n) := by
  refine gives_vecStep hi h.ok ⟨onlyEngine_setVcore _ _ _, ?_, fun r hr => ?_⟩
  · rw [State.vcore_setVcore_same, hf]
    exact setS_eq _ _ _
  · rw [State.vcore_setVcore_same, hf]
    exact sreg_setS (c := { s.vcore core with vl := n }) h.scalars _ _ hr

theorem nextPass_eq_self {c : VCore} {a : Nat} (h : c.op = none ∨ c.passes = [] ∨ a ≠ 1) : c.nextPass a = c := by
  unfold VCore.nextPass
  rcases h with h | h | h
  · simp [h]
  · simp [h]
  · simp [h]

theorem nextPass_of_pass {c : VCore} {p : Nat × Nat} {rest : List (Nat × Nat)} (hp : c.passes = p :: rest) (ho : c.op.isSome = true) :
    c.nextPass 1 = { c.beginPass p with passes := rest } := by
  simp [VCore.nextPass, hp, ho]

/-- The scalar registers as a pass finds them: s1 and s2 are the pass's, the others stay. -/
theorem sreg_beginPass {c : VCore} (hw : c.wipe = []) (hs : c.s.length = 16) (p : Nat × Nat) (rest : List (Nat × Nat)) (r : Nat) :
    ({ c.beginPass p with passes := rest } : VCore).sreg r =
      if r = 1 then BitVec.ofNat 64 p.1 else if r = 2 then BitVec.ofNat 64 p.2 else c.sreg r := by
  simp only [VCore.sreg, VCore.beginPass, hw, VCore.zeroRegs, List.foldl_nil]
  by_cases h1 : r = 1
  · subst h1
    simp [nth_updAt_other, nth_updAt_same, hs]
  · by_cases h2 : r = 2
    · subst h2
      simp [nth_updAt_same, hs]
    · simp [h1, h2, nth_updAt_other]

theorem gives_setvl {s : State} {core : Nat} (h : Engine s core) (d a : BitVec 4)
    (hp : (s.vcore core).op = none ∨ (s.vcore core).passes = [] ∨ a ≠ 1) :
    Gives (.setvl core d a) s (ScalarWrite s core d.toNat (BitVec.ofNat 64 (min ((s.vcore core).sreg a.toNat).toNat 2048))
      (min ((s.vcore core).sreg a.toNat).toNat 2048)) := by
  refine gives_setS (f := fun c => (c.nextPass a.toNat).setvl d.toNat a.toNat) h rfl ?_
  dsimp only
  rw [nextPass_eq_self (hp.imp_right (Or.imp_right fun ha e => ha (BitVec.eq_of_toNat_eq e)))]
  rfl

theorem gives_setvl_pass {s : State} {core : Nat} (h : Engine s core) (d : BitVec 4) {m el : Nat} {rest : List (Nat × Nat)}
    (hp : (s.vcore core).passes = (m, el) :: rest) (ho : (s.vcore core).op.isSome = true) (hm : m < 2 ^ 64) (hw : (s.vcore core).wipe = []) :
    Gives (.setvl core d 1) s (fun t => OnlyEngine s core t ∧ (t.vcore core).vl = min m 2048 ∧ (t.vcore core).passes = rest ∧
      (t.vcore core).v = (s.vcore core).v ∧
      ∀ r : Nat, r < 16 → (t.vcore core).sreg r = if r = d.toNat ∧ 11 ≤ r then BitVec.ofNat 64 (min m 2048)
        else if r = 1 then BitVec.ofNat 64 m
        else if r = 2 then BitVec.ofNat 64 el else (s.vcore core).sreg r) := by
  have h1 := sreg_beginPass hw h.scalars (m, el) rest
  refine gives_vecStep (f := fun c => (c.nextPass 1).setvl d.toNat 1) rfl h.ok ⟨onlyEngine_setVcore _ _ _, ?_⟩
  simp only [State.vcore_setVcore_same, nextPass_of_pass hp ho, VCore.setvl]
  have hn : (({ (s.vcore core).beginPass (m, el) with passes := rest } : VCore).sreg 1).toNat = m := by
    rw [h1 1, if_pos rfl, BitVec.toNat_ofNat, Nat.mod_eq_of_lt hm]
  rw [hn, setS_eq]
  refine ⟨rfl, rfl, ?_, fun r hr => ?_⟩
  · simp [VCore.beginPass, hw, VCore.zeroRegs]
  · refine (sreg_setS (by simp [VCore.beginPass, hw, VCore.zeroRegs, h.scalars]) _ _ hr).trans ?_
    rw [← h1 r]
    rfl

/-! #### Mask registers (R127, R130) -/

theorem setM_eq (c : VCore) (d mk : Nat) (f : Nat → Bool) : c.setM d mk f = { c with m := (c.setM d mk f).m } := by
  unfold VCore.setM
  split <;> rfl

theorem mbit_setM_other (c : VCore) {d r : Nat} (hr : r ≠ d) (mk : Nat) (f : Nat → Bool) (i : Nat) : (c.setM d mk f).mbit r i = c.mbit r i := by
  unfold VCore.setM
  split
  · rfl
  · simp [VCore.mbit, nth_updAt_other hr]

theorem mbit_setM_same {c : VCore} {d : Nat} (hd : d ≠ 0) (hm : d < c.m.length) (mk : Nat) (f : Nat → Bool) (i : Nat) :
    (c.setM d mk f).mbit d i = if c.active mk i then f i else c.mbit d i := by
  simp only [VCore.setM, VCore.mbit, if_neg hd, nth_updAt_same hm]
  rw [nth_map_range]
  split
  · rfl
  · have hvl : ¬ i < c.vl := by omega
    rw [nth_of_length_le (l := nth c.m d []) (by omega)]
    simp [VCore.active, hvl]

@[simp] theorem active_zero (c : VCore) (i : Nat) : c.active 0 i = decide (i < c.vl) := by simp [VCore.active, VCore.mbit]

/-- What a mask instruction gives: bits `f` in register `d`, where it may be written. -/
def MaskWrite (s : State) (core : Nat) (d : BitVec 3) (f : Nat → Bool) (t : State) : Prop :=
  OnlyEngine s core t ∧ t.vcore core = { s.vcore core with m := (t.vcore core).m } ∧ (∀ i, (t.vcore core).mbit 0 i = true) ∧
  (∀ r i, r ≠ d.toNat → (t.vcore core).mbit r i = (s.vcore core).mbit r i) ∧ (d ≠ 0 → ∀ i, (t.vcore core).mbit d.toNat i = f i)

theorem gives_setM {s : State} {core : Nat} {d : BitVec 3} {mk : Nat} {i : Instr} {f : Nat → Bool} {g : VCore → Nat → Bool} (h : Engine s core)
    (hi : exec i s = s.vecStep core (fun c => c.setM d.toNat mk (g c)))
    (hf : ∀ i, f i = if (s.vcore core).active mk i then g (s.vcore core) i else (s.vcore core).mbit d.toNat i) :
    Gives i s (MaskWrite s core d f) := by
  refine gives_vecStep hi h.ok ⟨onlyEngine_setVcore _ _ _, ?_, fun i => rfl, fun r i hr => ?_, fun hd i => ?_⟩
  · rw [State.vcore_setVcore_same]
    exact setM_eq _ _ _ _
  · rw [State.vcore_setVcore_same, mbit_setM_other _ hr]
  · rw [State.vcore_setVcore_same, mbit_setM_same (fun e => hd (BitVec.eq_of_toNat_eq e)) (h.masks ▸ d.isLt), hf]

theorem gives_mop {s : State} {core : Nat} {d : BitVec 3} {i : Instr} {f : Nat → Bool} {g : VCore → Nat → Bool} (h : Engine s core)
    (hi : exec i s = s.vecStep core (fun c => c.mop d.toNat (g c))) (hf : ∀ i, g (s.vcore core) i = f i) :
    Gives i s (MaskWrite s core d (fun i => if i < (s.vcore core).vl then f i else (s.vcore core).mbit d.toNat i)) :=
  gives_setM h hi fun i => by simp [hf]

/-! #### Accumulators (R136 to R138) -/

/-- What a reduction gives: the engine `e`, which differs in accumulator `k` and the counts only. -/
def AccWrite (s : State) (core k : Nat) (e : VCore) (t : State) : Prop :=
  let c := s.vcore core
  OnlyEngine s core t ∧ t.vcore core = e ∧ e.v = c.v ∧ e.m = c.m ∧ e.s = c.s ∧ e.vl = c.vl ∧
  ∀ j, j ≠ k → nth e.acc j {} = nth c.acc j {}

theorem gives_rsum {s : State} {core k mk : Nat} {i : Instr} {g : VCore → Nat → Val} (h : Engine s core)
    (hi : exec i s = s.vecStep core (fun c => c.rsum k mk (g c))) :
    Gives i s (AccWrite s core k ((s.vcore core).rsum k mk (g (s.vcore core)))) :=
  gives_vecStep hi h.ok ⟨onlyEngine_setVcore _ _ _, s.vcore_setVcore_same _ _, rfl, rfl, rfl, rfl, fun _ hj => nth_updAt_other hj _ _⟩

theorem gives_rminmax {s : State} {core k mk a : Nat} {kd : AccKind} {i : Instr} (h : Engine s core)
    (hi : exec i s = s.vecStep core (fun c => c.rminmax k mk a kd)) :
    Gives i s (AccWrite s core k ((s.vcore core).rminmax k mk a kd)) :=
  gives_vecStep hi h.ok ⟨onlyEngine_setVcore _ _ _, s.vcore_setVcore_same _ _, rfl, rfl, rfl, rfl, fun _ hj => nth_updAt_other hj _ _⟩

/-! #### Loads (R145, R149) -/

theorem execVld_of_vecOp {s : State} {core : Nat} {e : OpEntry} (h : s.vecOp core = some e) (d : BitVec 5) (port mk : BitVec 3) :
    exec (.vld core d port mk) s = s.vecStep core (fun c => c.vld d.toNat mk.toNat ((kenvOf (s.mathCtx e)).inEl port.toNat)) := by
  show execVld core d port mk s = _
  simp only [execVld, h]

theorem execVldx_of_vecOp {s : State} {core : Nat} {e : OpEntry} (h : s.vecOp core = some e) (d a : BitVec 5) (port mk : BitVec 3) :
    exec (.vldx core d a port mk) s = s.vecStep core (fun c => c.vldx d.toNat a.toNat mk.toNat ((kenvOf (s.mathCtx e)).inLen port.toNat)
      ((kenvOf (s.mathCtx e)).inEl port.toNat)) := by
  show execVldx core d a port mk s = _
  simp only [execVldx, h]

/-- VLDX writes its lanes, and a fault of the chunk is the first of the lanes whose index is out of range. -/
theorem vldx_eq {c : VCore} (hf : c.faultIndex = none) (d a mk len : Nat) (el : Nat → Cvt) :
    c.vldx d a mk len el =
      { c.setV d mk (fun i => if (c.lane a i).toNat < len then BitVec.ofNat 32 (el (c.lane a i).toNat).code else c.lane d i) with
        stat := (c.vldx d a mk len el).stat,
        faultIndex := ((c.activeLanes mk).filter (fun i => decide (len ≤ (c.lane a i).toNat))).head?.map (fun i => (c.sreg 2).toNat + i) } := by
  unfold VCore.vldx
  dsimp only
  rw [hf]
  cases (c.activeLanes mk).filter (fun i => decide (len ≤ (c.lane a i).toNat)) with
  | nil => simpa [VCore.setV] using hf
  | cons i r => rfl

/-! #### Stores (R139, R145) -/

theorem planeWrite_runs {s t : State} {c : Nat} {w : PlaneW} (h : s.planeWrite c w = .ok t) : t.runs = s.runs := by
  unfold State.planeWrite at h
  dsimp only at h
  split at h
  · cases h
    rfl
  · split at h
    · unfold State.hostWrite at h
      split at h
      · cases h
      · cases h
        refine foldl_keeps (fun u : State => u.runs = s.runs) _ (fun u x hu => ?_) _ s rfl
        exact hu
    · split at h <;> cases h <;> rfl

theorem planeWrites_runs {s t : State} {c : Nat} {ws : List PlaneW} (h : s.planeWrites c ws = .ok t) : t.runs = s.runs := by
  induction ws generalizing s with
  | nil =>
    cases h
    rfl
  | cons w r ih =>
    simp only [State.planeWrites] at h
    split at h
    · cases h
    · rename_i u hu
      exact (ih h).trans (planeWrite_runs hu)

theorem vecStore_of_ok {s u : State} {core : Nat} {e : OpEntry} {w : List PlaneW × OpStatus} (hu : s.planeWrites e.ctx w.1 = .ok u)
    (undef : List (Nat × Nat × Nat)) :
    s.vecStore core e w undef = .next ((undef.foldl (fun s p => s.forgetPlane e.ctx p) u).setVcore core
      { s.vcore core with stat := (s.vcore core).stat.or w.2 }) := by
  simp only [State.vecStore, hu]

/-- The elements an engine keeps when its operator has stored the whole blocks of `port`: those of other ports and of the blocks that `part` names. -/
def VCore.keepPart (op : Option Nat) (port : Nat) (part : KStore → Bool) (c : VCore) : VCore :=
  if c.op == op then { c with kept := c.kept.filter (fun k => k.port != port || part k) } else c

/-- Every engine keeps what `VCore.keepPart` leaves it. -/
def State.keepParts (s : State) (op : Option Nat) (port : Nat) (part : KStore → Bool) : State :=
  { s with vec := s.vec.map (fun p => (p.1, p.2.keepPart op port part)) }

/-- The engines after a VST: the elements `st` of incomplete blocks are kept, those of whole blocks dropped. -/
def State.storedAt (s : State) (core : Nat) (op : Option Nat) (port : Nat) (part : KStore → Bool) (st : List KStore) : State :=
  let t := s.keepParts op port part
  t.setVcore core { t.vcore core with kept := (t.vcore core).kept ++ st.filter part }

theorem NMap.getD_map {α β : Type} (f : α → β) (m : NMap α) (k : Nat) (d : α) :
    NMap.getD (m.map (fun p => (p.1, f p.2))) k (f d) = f (NMap.getD m k d) := by
  unfold NMap.getD
  induction m with
  | nil => rfl
  | cons a r ih =>
    simp only [List.map_cons, NMap.get?]
    split
    · rfl
    · exact ih

theorem keepPart_default (op : Option Nat) (port : Nat) (part : KStore → Bool) : ({} : VCore).keepPart op port part = {} := by
  unfold VCore.keepPart
  split <;> rfl

theorem vcore_keepParts (s : State) (core : Nat) (op : Option Nat) (port : Nat) (part : KStore → Bool) :
    (s.keepParts op port part).vcore core = (s.vcore core).keepPart op port part := by
  unfold State.vcore
  conv_lhs => rw [← keepPart_default op port part]
  exact NMap.getD_map _ _ _ _

theorem keepParts_eq (s : State) (op : Option Nat) (port : Nat) (part : KStore → Bool) :
    { s with vec := s.vec.map (fun (p : Nat × VCore) => if p.2.op == op then
        (p.1, { p.2 with kept := p.2.kept.filter (fun k => k.port != port || part k) }) else p) } = s.keepParts op port part := by
  unfold State.keepParts VCore.keepPart
  congr 1
  refine List.map_congr_left fun p _ => ?_
  split <;> rfl

/-- Is the block of element `k` of `port` not whole yet, with the elements `all` stored? -/
def MathCtx.partOf (x : MathCtx) (port : Nat) (all : List KStore) (k : KStore) : Bool :=
  isBlock32 (x.out port).fmt && !(x.out port).wholeAt (fun i => all.all (fun k => k.idx != i)) k.idx

theorem partOf_of_not_block {x : MathCtx} {port : Nat} (h : isBlock32 (x.out port).fmt = false) (all : List KStore) (k : KStore) :
    x.partOf port all k = false := by simp [MathCtx.partOf, h]

/-- The elements that a VST stores. -/
def VCore.stores (c : VCore) (a : BitVec 5) (port : BitVec 3) (p : BitVec 6) (mk : BitVec 3) : List KStore :=
  (c.vst a.toNat mk.toNat).map (fun x => ⟨port.toNat, p.toNat, x.1, x.2⟩)

/-- A VST whose writes succeed: they are in memory, and the elements of blocks that are not whole are kept. -/
theorem exec_vst_of_ok {s u : State} {core : Nat} {e : OpEntry} {a : BitVec 5} {port mk : BitVec 3} {p : BitVec 6} {all : List KStore}
    {w : List PlaneW × OpStatus} (he : s.vecOp core = some e) (ok : s.vecOk core = true)
    (hall : all = s.keptAt (s.vcore core).op port.toNat ++ (s.vcore core).stores a port p mk)
    (hw : w = streamWrites (s.mathCtx e) port.toNat (fun q => 0x40 + q) all) (hu : s.planeWrites e.ctx w.1 = .ok u) :
    exec (.vst core a port p mk) s = .next ((u.setVcore core { s.vcore core with stat := (s.vcore core).stat.or w.2 }).storedAt core
      (s.vcore core).op port.toNat ((s.mathCtx e).partOf port.toNat all) ((s.vcore core).stores a port p mk)) := by
  subst hall hw
  show execVst core a port p mk s = _
  unfold VCore.stores at hu ⊢
  simp only [execVst, he, ok, vecStore_of_ok hu, State.storedAt, ← keepParts_eq]
  rfl

theorem kept_keepPart_port {c : VCore} {op : Option Nat} (h : c.op = op) {part : KStore → Bool} (hp : ∀ k, part k = false) (port : Nat) :
    (c.keepPart op port part).kept.filter (fun k => k.port == port) = [] := by
  simp [VCore.keepPart, h, hp, List.filter_eq_nil_iff]

theorem op_keepPart (c : VCore) (op : Option Nat) (port : Nat) (part : KStore → Bool) : (c.keepPart op port part).op = c.op := by
  unfold VCore.keepPart
  split <;> rfl

/-- Without incomplete blocks, an operator's engines keep nothing for the port after a VST. -/
theorem keptAt_storedAt {s : State} {core : Nat} {op : Option Nat} {port : Nat} {part : KStore → Bool} {st : List KStore}
    (hp : ∀ k, part k = false) (ho : (s.vcore core).op = op) : (s.storedAt core op port part st).keptAt op port = [] := by
  simp only [State.keptAt, NMap.vals, List.flatMap_eq_nil_iff]
  intro c hc
  split
  · rename_i hco
    obtain ⟨q, hq, rfl⟩ := List.mem_map.1 hc
    rcases NMap.mem_set hq with rfl | hq
    · have hs : st.filter part = [] := by simp [List.filter_eq_nil_iff, hp]
      simp only [hs, List.append_nil, vcore_keepParts]
      exact kept_keepPart_port ho hp port
    · obtain ⟨r, -, rfl⟩ := List.mem_map.1 hq
      have hr : r.2.op = op := by simpa [op_keepPart] using hco
      exact kept_keepPart_port hr hp port
  · rfl

/-- What a VST does to its engine. -/
theorem vcore_storedAt {s : State} {core : Nat} {op : Option Nat} (ho : (s.vcore core).op = op) (port : Nat) (part : KStore → Bool)
    (st : List KStore) : (s.storedAt core op port part st).vcore core =
      { s.vcore core with kept := ((s.storedAt core op port part st).vcore core).kept } := by
  simp [State.storedAt, vcore_keepParts, VCore.keepPart, ho]

theorem exec_rstore_of_ok {s u : State} {core : Nat} {e : OpEntry} {acc : BitVec 2} {part : Bool} {port : BitVec 3} {p : BitVec 6} {elem : BitVec 16}
    {v : VI} {w : List PlaneW × OpStatus} (he : s.vecOp core = some e) (ok : s.vecOk core = true)
    (hv : v = ⟨0x88, 0, 0, 0, 0, 0, 0, acc.toNat + bit part * 2 ^ 3 + port.toNat * 2 ^ 4 + p.toNat * 2 ^ 8 + elem.toNat * 2 ^ 16⟩)
    (hw : w = rstoreWrite (s.mathCtx e) v (s.combinedAcc (s.vcore core).op)) (hu : s.planeWrites e.ctx w.1 = .ok u) :
    exec (.rstore core acc part port p elem) s = .next (((rstoreUndef (s.mathCtx e) [v]).foldl (fun s p => s.forgetPlane e.ctx p) u).setVcore core
      { s.vcore core with stat := (s.vcore core).stat.or w.2 }) := by
  subst hv hw
  show execRstore core acc part port p elem s = _
  simp only [execRstore, he, ok, vecStore_of_ok hu]
  rfl

theorem gives_vst {s u : State} {core : Nat} {e : OpEntry} {a : BitVec 5} {port mk : BitVec 3} {p : BitVec 6} {w : List PlaneW × OpStatus}
    (h : Engine s core) (he : s.vecOp core = some e)
    (hw : w = streamWrites (s.mathCtx e) port.toNat (fun q => 0x40 + q)
      (s.keptAt (s.vcore core).op port.toNat ++ (s.vcore core).stores a port p mk)) (hu : s.planeWrites e.ctx w.1 = .ok u) :
    Gives (.vst core a port p mk) s (fun t => t.memsys = u.memsys ∧
      t.vcore core = { s.vcore core with stat := (s.vcore core).stat.or w.2, kept := (t.vcore core).kept } ∧
      (isBlock32 ((s.mathCtx e).out port.toNat).fmt = false → t.keptAt (s.vcore core).op port.toNat = []) ∧
      t.ctxs = s.ctxs ∧ t.runs = s.runs) := by
  have ho : ((u.setVcore core { s.vcore core with stat := (s.vcore core).stat.or w.2 }).vcore core).op = (s.vcore core).op := by
    rw [State.vcore_setVcore_same]
  have hr : u.runs = s.runs := planeWrites_runs hu
  refine ⟨_, exec_vst_of_ok he h.ok rfl hw hu, rfl, ?_, fun hb => keptAt_storedAt (partOf_of_not_block hb _) ho,
    (kept_planeWrites _ _ _ _ hu).ctxs, hr⟩
  rw [vcore_storedAt ho, State.vcore_setVcore_same]

theorem gives_rstore {s u : State} {core : Nat} {e : OpEntry} {acc : BitVec 2} {part : Bool} {port : BitVec 3} {p : BitVec 6} {elem : BitVec 16}
    {v : VI} {w : List PlaneW × OpStatus} (h : Engine s core) (he : s.vecOp core = some e)
    (hv : v = ⟨0x88, 0, 0, 0, 0, 0, 0, acc.toNat + bit part * 2 ^ 3 + port.toNat * 2 ^ 4 + p.toNat * 2 ^ 8 + elem.toNat * 2 ^ 16⟩)
    (hw : w = rstoreWrite (s.mathCtx e) v (s.combinedAcc (s.vcore core).op)) (hu : s.planeWrites e.ctx w.1 = .ok u) :
    Gives (.rstore core acc part port p elem) s (fun t => (rstoreUndef (s.mathCtx e) [v] = [] → t.memsys = u.memsys) ∧
      t.vcore core = { s.vcore core with stat := (s.vcore core).stat.or w.2 } ∧ t.ctxs = s.ctxs) := by
  have hk : BodyKept u ((rstoreUndef (s.mathCtx e) [v]).foldl (fun s p => s.forgetPlane e.ctx p) u) :=
    BodyKept.foldl _ (fun s p => kept_forgetPlane s e.ctx p) _ _
  refine ⟨_, exec_rstore_of_ok he h.ok hv hw hu, fun hn => ?_, State.vcore_setVcore_same _ _ _,
    hk.ctxs.trans (kept_planeWrites _ _ _ _ hu).ctxs⟩
  rw [hn]
  rfl

theorem gives_vld {s : State} {core : Nat} {e : OpEntry} (h : Engine s core) (he : s.vecOp core = some e) (d : BitVec 5) (port mk : BitVec 3) :
    Gives (.vld core d port mk) s (LaneWrite s core d.toNat mk.toNat
      (fun i => BitVec.ofNat 32 ((kenvOf (s.mathCtx e)).inEl port.toNat (((s.vcore core).sreg 2).toNat + i)).code)) :=
  gives_vecStep (execVld_of_vecOp he d port mk) h.ok (laneWrite_setV (engine_reg_lt h d) _ _)

theorem gives_vldx {s : State} {core : Nat} {e : OpEntry} (h : Engine s core) (he : s.vecOp core = some e) (d a : BitVec 5) (port mk : BitVec 3) :
    let c := s.vcore core
    let v := kenvOf (s.mathCtx e)
    let ix (i : Nat) : Nat := (c.lane a.toNat i).toNat
    Gives (.vldx core d a port mk) s (fun t =>
      LaneWrite s core d.toNat mk.toNat
        (fun i => if ix i < v.inLen port.toNat then BitVec.ofNat 32 (v.inEl port.toNat (ix i)).code else c.lane d.toNat i) t ∧
      (t.vcore core).faultIndex =
        ((c.activeLanes mk.toNat).filter (fun i => decide (v.inLen port.toNat ≤ ix i))).head?.map (fun i => (c.sreg 2).toNat + i)) := by
  refine gives_vecStep (execVldx_of_vecOp he d a port mk) h.ok ?_
  rw [vldx_eq (faultIndex_of_vecOk h.ok)]
  exact ⟨laneWrite_setV (engine_reg_lt h d) _ _, by rw [State.vcore_setVcore_same]⟩

/-- Settles O58: the rule of each group of instructions (scalars, masks, accumulators, loads and stores) for its commands. -/
theorem scalarsMasksReductionsPorts : Obligations.ScalarsMasksReductionsPorts := by
  unfold Obligations.ScalarsMasksReductionsPorts
  intro s core h
  refine ⟨fun d a b imm => ⟨gives_setvl h d a, fun m el rest hp ho hm _ hw _ => gives_setvl_pass h d hp ho hm hw, gives_setS h rfl rfl,
    gives_setS h rfl rfl, gives_setS h rfl rfl, gives_setS h rfl rfl⟩, fun d p q mk a b pred => ?_, fun a b acc mk => ?_,
    fun e d a port mk p acc part elem he => ⟨gives_vld h he d port mk, gives_vldx h he d a port mk,
      fun w u hw hu => gives_vst h he hw hu, fun v w u hv hw hu => gives_rstore h he hv hw hu⟩⟩
  · exact ⟨gives_setM (g := fun c i => cmp32 pred.toNat (c.lane a.toNat i) (c.lane b.toNat i)) h rfl fun _ => rfl,
      gives_mop (g := fun c i => c.mbit p.toNat i && c.mbit q.toNat i) h rfl fun _ => rfl,
      gives_mop (g := fun c i => c.mbit p.toNat i || c.mbit q.toNat i) h rfl fun _ => rfl,
      gives_mop (g := fun c i => c.mbit p.toNat i != c.mbit q.toNat i) h rfl fun _ => rfl,
      gives_mop (g := fun c i => !c.mbit p.toNat i) h rfl fun _ => rfl⟩
  · exact ⟨gives_rsum (g := fun c i => val32 (c.lane a.toNat i)) h rfl,
      gives_rsum (g := fun c i => Val.mul (val32 (c.lane a.toNat i)) (val32 (c.lane b.toNat i))) h rfl,
      gives_rminmax h rfl, gives_rminmax h rfl, gives_rminmax h rfl⟩

end Sys2Proof.Machine
end

section
namespace Sys2Proof.Machine

/-! ### Patrol scrub of LPDDR5X lines (R154, R155, R157) -/

/-- A list without repeats loses none. -/
theorem dedup_of_nodup {α : Type} [DecidableEq α] {l : List α} (h : l.Nodup) : dedup l = l := by
  suffices H : ∀ l a : List α, (a ++ l).Nodup → l.foldl (fun a x => if a.contains x then a else a ++ [x]) a = a ++ l from H l [] h
  intro l
  induction l with
  | nil => simp
  | cons x l ih =>
    intro a ha
    have hx : x ∉ a := fun hm => (List.nodup_append'.1 ha).2.2 hm List.mem_cons_self
    rw [List.foldl_cons, if_neg (by simpa using hx), ih _ (by simpa using ha), List.append_assoc, List.singleton_append]

/-- Two or three wrong symbols make a line uncorrectable, and its contents are not lost to a wrong correction (R154). -/
theorem State.meetErrors_of_two_or_three (s : State) {line : Nat} {xs : List Nat} (hd : xs.Nodup) (hn : xs.length = 2 ∨ xs.length = 3) :
    s.meetErrors [⟨line, xs⟩] = { s with memsys := { s.memsys with mem := s.memsys.mem.markBad line } } := by
  have hlost : lineLost line xs = false := by rcases hn with hn | hn <;> simp [lineLost, dedup_of_nodup hd, hn]
  have hfind : lineFind line xs = .uncorrectable := by rcases hn with hn | hn <;> simp [lineFind, dedup_of_nodup hd, hn]
  simp [State.meetErrors, State.loseLines, hlost, hfind]

/-- The state in which a patrol scrub finds its line: the errors it meets in a line that was not uncorrectable have had their effect. -/
def State.scrubbed (s : State) (line : Nat) (xs : List Nat) : State :=
  if s.memsys.mem.bad.contains line then s else s.meetErrors [⟨line, xs⟩]

/-- What a patrol scrub does with an uncorrectable line: it is recorded, for the run of its owner. -/
def State.scrubBad (s : State) (line : Nat) : State :=
  let t := s.lineBad line (((s.ownerSlot line).map s.whoRun).getD {})
  match s.ownerSlot line with
  | some r => t.fault r
  | none => t

theorem State.scrubbed_of_bad {s : State} {line : Nat} (h : line ∈ s.memsys.mem.bad) (xs : List Nat) : s.scrubbed line xs = s :=
  if_pos (by simpa using h)

theorem State.scrubbed_of_not_bad {s : State} {line : Nat} (h : line ∉ s.memsys.mem.bad) (xs : List Nat) :
    s.scrubbed line xs = s.meetErrors [⟨line, xs⟩] := if_neg (by simpa using h)

theorem exec_scrub {line : Nat} (s : State) (xs : List Nat) (h : 256 * line < lpddrEnd) : exec (.lpddrMaintSlot (.scrub line xs)) s =
    .next (if line ∈ (s.scrubbed line xs).memsys.mem.bad then (s.scrubbed line xs).scrubBad line else s.scrubbed line xs) := by
  change (if lpddrEnd ≤ 256 * line then _ else if (s.scrubbed line xs).memsys.mem.bad.contains line then
    Host.Outcome.next ((s.scrubbed line xs).scrubBad line) else .next (s.scrubbed line xs)) = _
  rw [if_neg (by omega)]
  by_cases hb : line ∈ (s.scrubbed line xs).memsys.mem.bad <;> simp [hb]

theorem State.scrubBad_memsys (s : State) (line : Nat) : (s.scrubBad line).memsys =
    (s.updMemCtr (ctrlOf (256 * line)) (fun k => { k with uncorrectable := sat32 (k.uncorrectable + 1) })).memsys := by
  unfold State.scrubBad State.lineBad
  cases s.ownerSlot line <;> simp

theorem State.scrubBad_nextSeq (s : State) (line : Nat) : (s.scrubBad line).vigil.nextSeq = (s.vigil.nextSeq + 1) % 2 ^ 64 := by
  unfold State.scrubBad State.lineBad
  cases s.ownerSlot line <;> simp [State.updMemCtr]

/-- An uncorrectable line is kept, marked, counted and recorded. -/
theorem gives_scrub_uncorrectable {s : State} {line : Nat} {xs : List Nat} (h : 256 * line < lpddrEnd)
    (hx : line ∈ s.memsys.mem.bad ∨ (xs.Nodup ∧ (xs.length = 2 ∨ xs.length = 3))) :
    Gives (.lpddrMaintSlot (.scrub line xs)) s (fun t =>
      (t.memsys.mem = if line ∈ s.memsys.mem.bad then s.memsys.mem else s.memsys.mem.markBad line) ∧
      t.memsys.ctr = (s.updMemCtr (ctrlOf (256 * line)) (fun k => { k with uncorrectable := sat32 (k.uncorrectable + 1) })).memsys.ctr ∧
      t.vigil.nextSeq = (s.vigil.nextSeq + 1) % 2 ^ 64) := by
  have hg := exec_scrub s xs h
  by_cases hb : line ∈ s.memsys.mem.bad
  · rw [State.scrubbed_of_bad hb, if_pos hb] at hg
    exact ⟨_, hg, by simp [State.scrubBad_memsys, State.updMemCtr, hb], by rw [State.scrubBad_memsys], State.scrubBad_nextSeq _ _⟩
  · obtain ⟨hd, hn⟩ := hx.resolve_left hb
    rw [State.scrubbed_of_not_bad hb, State.meetErrors_of_two_or_three s hd hn, if_pos (by simp [Mem.markBad, insertRising_mem])] at hg
    exact ⟨_, hg, by simp [State.scrubBad_memsys, State.updMemCtr, hb], by rw [State.scrubBad_memsys]; rfl, State.scrubBad_nextSeq _ _⟩

theorem exec_scrub_clean {s : State} {line : Nat} (h : 256 * line < lpddrEnd) (hb : line ∉ s.memsys.mem.bad) :
    exec (.lpddrMaintSlot (.scrub line [])) s = .next s := by
  have hm : s.meetErrors [⟨line, []⟩] = s := rfl
  rw [exec_scrub s [] h, State.scrubbed_of_not_bad hb, hm, if_neg hb]

/-- A line with one wrong symbol is only counted. -/
theorem exec_scrub_corrected {s : State} {line : Nat} (x : Nat) (h : 256 * line < lpddrEnd) (hb : line ∉ s.memsys.mem.bad) :
    exec (.lpddrMaintSlot (.scrub line [x])) s =
      .next (s.updMemCtr (ctrlOf (256 * line)) (fun k => { k with corrected := sat32 (k.corrected + 1) })) := by
  have hm : s.meetErrors [⟨line, [x]⟩] = s.lineFixed line := rfl
  rw [exec_scrub s [x] h, State.scrubbed_of_not_bad hb, hm, if_neg (show line ∉ (s.lineFixed line).memsys.mem.bad from hb)]
  rfl

/-! ### Zeroing (R165, R167) -/

theorem cellGet_eq_none {l : List Host.Cell} {a : Nat} (h : ∀ c ∈ l, c.1 ≠ a) : cellGet l a = none := by
  induction l with
  | nil => rfl
  | cons c l ih =>
    obtain ⟨hc, hl⟩ := List.forall_mem_cons.1 h
    rw [cellGet, if_neg hc, ih hl, ite_self]

/-- A zeroed line reads as zero under slot 0. -/
theorem Mem.read_zeroLine (m : Mem) {line a : Nat} (h : a / 256 = line) : (m.zeroLine line).read .slot0 a = 0 := by
  have ht : (m.zeroLine line).tagOf line = none := by simp [Mem.tagOf, Mem.zeroLine]
  have hc : cellGet (m.zeroLine line).cells a = none := cellGet_eq_none fun c hc hca => by simp [Mem.zeroLine, hca, h] at hc
  simp [Mem.read, Mem.keyOf, Mem.unlisted, h, ht, hc]

theorem gives_zero {s : State} {line : Nat} (h : 256 * line < lpddrEnd) (hz : s.zeroingNext = some (256 * line / granule))
    (hn : line = 256 * line / granule * 8192 + NMap.getD s.memsys.zeroed (256 * line / granule) 0) :
    Gives (.lpddrMaintSlot (.zero line)) s (fun t => t.memsys.mem = s.memsys.mem.zeroLine line ∧
      NMap.getD t.memsys.zeroed (256 * line / granule) 0 = NMap.getD s.memsys.zeroed (256 * line / granule) 0 + 1 ∧
      t.memsys.grants = s.memsys.grants ∧ ∀ a, a / 256 = line → t.memsys.mem.read .slot0 a = 0) := by
  refine ⟨_, (if_neg (by omega)).trans (if_pos ?_), rfl, NMap.getD_set_same _ _ _ _, rfl, fun a ha => Mem.read_zeroLine _ ha⟩
  rw [hz, Bool.and_eq_true]
  exact ⟨beq_self_eq_true _, beq_iff_eq.2 hn⟩

theorem NMap.get?_erase_other {α : Type} (m : NMap α) {k j : Nat} (h : j ≠ k) : NMap.get? (NMap.erase m k) j = NMap.get? m j := by
  induction m with
  | nil => rfl
  | cons e r ih =>
    by_cases hk : e.1 = k
    · have hj : ¬ e.1 = j := fun he => h (he.symm.trans hk)
      simpa [NMap.erase, NMap.get?, hk, hj, h.symm] using ih
    · simp only [NMap.erase, List.filter_cons, bne_iff_ne.2 hk, if_true, NMap.get?]
      exact if_congr Iff.rfl rfl ih

theorem gives_zeroingDone {s : State} {g : Nat} (hz : s.zeroingNext = some g) (hn : NMap.getD s.memsys.zeroed g 0 = 8192) :
    Gives (.zeroingDone g) s (fun t => NMap.get? t.memsys.grants g = none ∧ NMap.get? t.memsys.zeroed g = none ∧
      t.memsys.mem = s.memsys.mem ∧ ∀ h, h ≠ g → NMap.get? t.memsys.grants h = NMap.get? s.memsys.grants h) :=
  ⟨_, if_pos (by simp [hz, hn]), NMap.get?_erase_same _ _, NMap.get?_erase_same _ _, rfl, fun _ hh => NMap.get?_erase_other _ hh⟩

/-! ### Tile scrub (R122, R160, R346) -/

/-- `t` has the LPDDR5X and the cores' records of `s`, and `n` error records have been written. -/
structure RecordsMore (n : Nat) (s t : State) : Prop where
  memsys : t.memsys = s.memsys
  recs : t.cores.recs = s.cores.recs
  nextSeq : t.vigil.nextSeq = if n = 0 then s.vigil.nextSeq else (s.vigil.nextSeq + n) % 2 ^ 64

theorem RecordsMore.refl (s : State) : RecordsMore 0 s s := ⟨rfl, rfl, rfl⟩

theorem RecordsMore.trans {m n : Nat} {s t u : State} (a : RecordsMore m s t) (b : RecordsMore n t u) : RecordsMore (m + n) s u := by
  refine ⟨b.memsys.trans a.memsys, b.recs.trans a.recs, ?_⟩
  rw [b.nextSeq, a.nextSeq]
  split_ifs <;> omega

theorem recordsMore_record (s : State) (u : BitVec 32) (c : Code) (v d : Nat) (w : Who) : RecordsMore 1 s (s.record u c v d w) :=
  ⟨by simp, by simp, by simp⟩

theorem recordsMore_fault (s : State) (k : Nat) : RecordsMore 0 s (s.fault k) := ⟨by simp, by simp, by simp⟩

theorem recordsMore_updRun (s : State) (k : Nat) (f : Run → Run) : RecordsMore 0 s (s.updRun k f) := ⟨rfl, rfl, rfl⟩

/-- A core that becomes due writes at most the record that its partition has no spare. -/
theorem makeDue_recordsMore (s : State) (c seq : Nat) (slot : Option Nat) : ∃ n < 2, RecordsMore n s (s.makeDue c seq slot) := by
  unfold State.makeDue
  dsimp only
  split
  · exact ⟨0, by decide, .refl s⟩
  · generalize hd : s.cores.due ++ _ = due
    have h : RecordsMore 0 s { s with cores := { s.cores with due := due } } := ⟨rfl, rfl, rfl⟩
    split
    · exact ⟨0, by decide, h⟩
    · refine ⟨1, by decide, ?_⟩
      cases slot with
      | none => exact h.trans (recordsMore_record _ _ _ _ _ _)
      | some r => exact (h.trans (recordsMore_record _ _ _ _ _ _)).trans (recordsMore_fault _ _)

theorem recordsMore_setStore (s : State) (v : Store) : RecordsMore 0 s (s.setStore v) := ⟨rfl, rfl, rfl⟩

theorem RecordsMore.orDue {s u : State} (h : RecordsMore 1 s u) (p : Prop) [Decidable p] (c seq : Nat) (slot : Option Nat) :
    ∃ n < 3, RecordsMore n s (if p then u.makeDue c seq slot else u) := by
  split
  · obtain ⟨n, hn, hd⟩ := makeDue_recordsMore u c seq slot
    exact ⟨1 + n, by omega, h.trans hd⟩
  · exact ⟨1, by decide, h⟩

/-- A strike writes its record and what follows from a core that becomes due. -/
theorem strike_recordsMore (s : State) (c source seq : Nat) (slot : Option Nat) : ∃ n < 3, RecordsMore n s (s.strike c source seq slot) := by
  unfold State.strike
  dsimp only
  split
  · exact ⟨0, by decide, .refl s⟩
  · cases slot with
    | none => exact ((recordsMore_setStore _ _).trans (recordsMore_record _ _ _ _ _ _)).orDue _ _ _ _
    | some r => exact (((recordsMore_setStore _ _).trans (recordsMore_updRun _ _ _)).trans (recordsMore_record _ _ _ _ _ _)).orDue _ _ _ _

/-- An uncorrectable word of tile memory is counted, recorded and a strike. -/
theorem tileBad_recordsMore (s : State) (core off : Nat) (w : Who) (slot : Option Nat) :
    ∃ n, 0 < n ∧ n < 4 ∧ RecordsMore n (s.updCtr core (fun k => { k with tileEccUncorrectable := sat32 (k.tileEccUncorrectable + 1) }))
      (s.tileBad core off w slot) := by
  unfold State.tileBad
  dsimp only
  generalize s.updCtr core _ = u
  generalize u.cores.badTile.filter _ ++ _ = l
  have h : RecordsMore 0 u { u with cores := { u.cores with badTile := l } } := ⟨rfl, rfl, rfl⟩
  obtain ⟨n, hn, hs⟩ := strike_recordsMore
    (({ u with cores := { u.cores with badTile := l } } : State).record (uidCore (u.phys core) 3 (off / 16 % 32)) cTileEccUncorrectable 2
      (tileAddr core off % 2 ^ 48) w) core 4 _ slot
  exact ⟨1 + n, by omega, by omega, (h.trans (recordsMore_record _ _ _ _ _ _)).trans hs⟩

theorem tileFound_uncorrectable_recordsMore (s : State) (core : Nat) {f : TileFind} (hf : f.find = .uncorrectable) :
    ∃ n, 0 < n ∧ n < 4 ∧ RecordsMore n (s.updCtr core (fun k => { k with tileEccUncorrectable := sat32 (k.tileEccUncorrectable + 1) }))
      (s.tileFound core f) := by
  unfold State.tileFound
  simp only [hf]
  generalize (f.owner.bind s.slotOf).filter _ = slot
  obtain ⟨n, h0, h4, h⟩ := tileBad_recordsMore s core f.addr ((slot.map s.whoRun).getD {}) slot
  cases slot with
  | none => exact ⟨n, h0, h4, h⟩
  | some r => exact ⟨n, h0, h4, h.trans (recordsMore_fault _ _)⟩

theorem tileFound_uncorrectable (s : State) (core : Nat) {f : TileFind} (hf : f.find = .uncorrectable) :
    ((s.tileFound core f).core core).ctr.tileEccUncorrectable = sat32 ((s.core core).ctr.tileEccUncorrectable + 1) ∧
    (s.tileFound core f).memsys = s.memsys ∧
    ∃ n, 0 < n ∧ n < 4 ∧ (s.tileFound core f).vigil.nextSeq = (s.vigil.nextSeq + n) % 2 ^ 64 := by
  obtain ⟨n, h0, h4, hm, hr, hq⟩ := tileFound_uncorrectable_recordsMore s core hf
  refine ⟨?_, hm, n, h0, h4, by rw [hq, if_neg (by omega)]; rfl⟩
  rw [State.core, hr, ← State.core, State.updCtr, State.core_updCore_same]

theorem exec_tileScrub_of_addr_lt {s : State} (c : Nat) {fs : List TileFind} (h : ∀ f ∈ fs, f.addr < 0x1E00000) :
    exec (.tileScrub c fs) s = .next (fs.foldl (fun s f => s.tileFound c f) s) :=
  if_neg (by simpa using h)

theorem exec_tileScrub_of_addr_ge {s : State} (c : Nat) {fs : List TileFind} (h : ∃ f ∈ fs, 0x1E00000 ≤ f.addr) :
    exec (.tileScrub c fs) s = .fault .noSuchAddress :=
  if_pos (by simpa using h)

/-- Settles O10: each work of a maintenance slot by its own rule; a tile scrub's finds by the number of records they write. -/
theorem memoryMaintenance : Obligations.MemoryMaintenance := by
  unfold Obligations.MemoryMaintenance
  refine ⟨fun s c k => rfl, fun s line h hb => exec_scrub_clean h hb, fun s line x h hb => exec_scrub_corrected x h hb,
    fun s line xs h hx => gives_scrub_uncorrectable h hx, fun s line h hz hn => gives_zero h hz hn, fun s g hz hn => gives_zeroingDone hz hn,
    fun s c fs h => exec_tileScrub_of_addr_lt c h, fun s c f => ⟨fun hf => ?_, fun hf => ?_, fun hf => tileFound_uncorrectable s c hf⟩,
    fun s c fs h => exec_tileScrub_of_addr_ge c h, fun s line h => ⟨if_pos h, fun xs => if_pos h⟩⟩
  · simp only [State.tileFound, hf]
  · simp only [State.tileFound, hf]

end Sys2Proof.Machine
end

section
namespace Sys2Proof.Machine

/-! ### The fetch of a descriptor (R157, R170, R230, R235) -/

theorem exec_queueFetch (r : FetchReply) (s : State) : exec (.queueFetch r) s = execQueueFetch r s := rfl

section
variable {s : State} {k : Nat} {reply : HostReply} {errors : List LineError}

/-- Where the next descriptor of queue `k` lies. -/
def State.fetchAt (s : State) (k : Nat) : Nat :=
  (s.ctx (k / 4)).qbase (k % 4) + 128 * (nth (s.ctx (k / 4)).qhead (k % 4) 0 % 2 ^ (s.ctx (k / 4)).qlog2 (k % 4))

/-- The region through which the descriptor is read. -/
def State.fetchRegion (s : State) (k : Nat) : RegionE :=
  (s.ctx (k / 4)).region (((s.ctx (k / 4)).regionAt (s.fetchAt k) 128 RegionE.r).getD 0)

theorem exec_queueFetch_of_none (h : s.nextQueue = none) : exec (.queueFetch ⟨reply, errors⟩) s = .next s := by
  rw [exec_queueFetch]
  simp only [execQueueFetch, h]

/-! #### A queue in LPDDR5X -/

section
variable (hk : s.nextQueue = some k) (ha : isHost (s.fetchAt k) = false)
include hk ha

theorem exec_queueFetch_lpddr {key : KeyId} (hb : (s.meetErrors errors).memsys.mem.badIn (s.fetchAt k) 128 = [])
    (hkey : (s.meetErrors errors).keyFor (s.ctx (k / 4)) (s.fetchRegion k) = some key) :
    exec (.queueFetch ⟨reply, errors⟩) s = .next ((s.meetErrors errors).issue (k / 4) (k % 4)
      (BitVec.ofNat 1024 (leNat ((s.meetErrors errors).memsys.mem.readRange key (s.fetchAt k) 128))) (hostResult reply)).settle := by
  rw [exec_queueFetch]
  unfold State.fetchRegion State.fetchAt at *
  cases reply <;> simp [execQueueFetch, hk, ha, hb, hkey]

theorem exec_queueFetch_uncorrectable (hb : (s.meetErrors errors).memsys.mem.badIn (s.fetchAt k) 128 ≠ []) :
    exec (.queueFetch ⟨reply, errors⟩) s = .next ((((s.meetErrors errors).memsys.mem.badIn (s.fetchAt k) 128).foldl
      (fun u l => u.lineBad l (u.whoRun (s.ctx (k / 4)).runSlot)) (s.meetErrors errors)).fetchFailed (k / 4) (k % 4) cMemoryUncorrectable) := by
  rw [exec_queueFetch]
  unfold State.fetchAt at *
  cases reply <;> simp [execQueueFetch, hk, ha, hb]

theorem exec_queueFetch_keySlotEmpty (hb : (s.meetErrors errors).memsys.mem.badIn (s.fetchAt k) 128 = [])
    (hkey : (s.meetErrors errors).keyFor (s.ctx (k / 4)) (s.fetchRegion k) = none) :
    exec (.queueFetch ⟨reply, errors⟩) s = let u := s.meetErrors errors
      .next (({ u with memsys := { u.memsys with keySlotDrops := u.memsys.keySlotDrops + 1 } } : State).fetchFailed (k / 4) (k % 4) cKeySlotEmpty) := by
  rw [exec_queueFetch]
  unfold State.fetchRegion State.fetchAt at *
  cases reply <;> simp [execQueueFetch, hk, ha, hb, hkey]

end

/-! #### A queue in a host window -/

@[simp] theorem State.hostRoute_advanceTo (s : State) (t a : Nat) : (s.advanceTo t).hostRoute a = s.hostRoute a := by
  simp [State.hostRoute, State.hostUp]

section
variable (hk : s.nextQueue = some k) (ha : isHost (s.fetchAt k) = true)
include hk ha

theorem exec_queueFetch_host {bs : List Byte} {p : Nat × Nat} (hr : s.hostRoute (s.fetchAt k) = .ok p) :
    exec (.queueFetch ⟨.data bs, errors⟩) s =
      .next (s.issue (k / 4) (k % 4) (BitVec.ofNat 1024 (leNat (fitBytes 128 bs))) (.ok (bs.drop 128))).settle := by
  rw [exec_queueFetch]
  unfold State.fetchAt at *
  simp only [execQueueFetch, hk, ha, hr, hostResult, if_true]

theorem exec_queueFetch_noRoute {code : Code} (ht : reply ≠ .timeout) (hr : s.hostRoute (s.fetchAt k) = .error code) :
    exec (.queueFetch ⟨reply, errors⟩) s = .next (s.fetchFailed (k / 4) (k % 4) code) := by
  rw [exec_queueFetch]
  unfold State.fetchAt at *
  cases reply with
  | timeout => exact absurd rfl ht
  | data bs => simp only [execQueueFetch, hk, ha, hr, if_true]
  | error st => simp only [execQueueFetch, hk, ha, hr, if_true]

theorem exec_queueFetch_completionError {st : Nat} {p : Nat × Nat} (hr : s.hostRoute (s.fetchAt k) = .ok p) :
    exec (.queueFetch ⟨.error st, errors⟩) s = .next (s.fetchFailed (k / 4) (k % 4) cHostCompletionError) := by
  rw [exec_queueFetch]
  unfold State.fetchAt at *
  simp only [execQueueFetch, hk, ha, hr, hostResult, if_true]

theorem exec_queueFetch_timeout {p : Nat × Nat} (hr : s.hostRoute (s.fetchAt k) = .ok p) :
    exec (.queueFetch ⟨.timeout, errors⟩) s =
      .next ((s.advanceTo (s.now + 10 * Config.msCycles)).fetchFailed (k / 4) (k % 4) cHostReadTimeout) := by
  rw [exec_queueFetch]
  unfold State.fetchAt at *
  simp only [execQueueFetch, hk, ha, State.hostRoute_advanceTo, hr, hostResult, if_true]

end

end

/-! #### A queue that is held -/

theorem fetchFailed_holds (t : State) (c q : Nat) (code : Code) :
    (t.fetchFailed c q code).ctx c = { t.ctx c with queueHeld := updAt (t.ctx c).queueHeld q (fun _ => true) } ∧
    (t.fetchFailed c q code).sched = t.sched ∧ (t.fetchFailed c q code).vigil.nextSeq = (t.vigil.nextSeq + 1) % 2 ^ 64 := by
  simp [State.fetchFailed]

/-- Settles O36: a queue in LPDDR5X by its lines and key, one in a host window by its route and the host's reply. -/
theorem queuesAreFetched : Obligations.QueuesAreFetched := by
  unfold Obligations.QueuesAreFetched
  refine fun s reply errors => ⟨fun h => exec_queueFetch_of_none h, fun k hk => ⟨fun key ha hb hkey => exec_queueFetch_lpddr hk ha hb hkey,
    fun ha hb => exec_queueFetch_uncorrectable hk ha hb, fun ha hb hkey => exec_queueFetch_keySlotEmpty hk ha hb hkey, fun bs p ha hd hr => ?_,
    fun code ha ht hr => exec_queueFetch_noRoute hk ha ht hr, fun p st ha hd hr => ?_, fun p ha hd hr => ?_,
    fun t code => fetchFailed_holds t _ _ code⟩⟩
  · rw [hd]; exact exec_queueFetch_host hk ha hr
  · rw [hd]; exact exec_queueFetch_completionError hk ha hr
  · rw [hd]; exact exec_queueFetch_timeout hk ha hr

end Sys2Proof.Machine
end

section
namespace Sys2Proof.Machine

/-! ### Starts (R178, R189, R196, R244) -/

theorem exec_operatorStart (op : Nat) (s : State) : exec (.operatorStart op) s = execOperatorStart op s := rfl

/-- The code of check 16; an exchange operator has made it with its signal (R189, R275). -/
def State.check16 (s : State) (e : OpEntry) : Code := if e.d.cls = 9 then cOk else s.startCode e

/-- A stack operator whose pages are away has them brought (R178). -/
def State.withPages (s : State) (e : OpEntry) : State := if e.d.cls = 8 ∧ s.pagesReady e = false then s.wantPages e else s

/-- What OPERATOR_START answers for an operator that has passed check 16 and, as a stack operator, has asked for its pages. -/
def State.tryStart (u : State) (op : Nat) (e : OpEntry) : Out :=
  if e.d.cls = 8 ∧ u.pagesReady e = false then .next (u.updOp op (fun e => { e with waitFrom := some (e.waitFrom.getD u.now) }))
  else if (u.earlier op).any (fun f => u.startable f.1 f.2) then .next u
  else match u.place op e with
    | some p => .next (u.startOn op e p.1 p.2).reserveWaiting
    | none => .next u

theorem State.check16_eq_ok {s : State} {e : OpEntry} (h : e.d.cls ≠ 9 → s.startCode e = cOk) : s.check16 e = cOk := by
  unfold State.check16
  split
  · rfl
  · exact h ‹_›

theorem State.check16_of_cls_ne {e : OpEntry} (s : State) (h : e.d.cls ≠ 9) : s.check16 e = s.startCode e := if_neg h

section
variable {s : State} {op : Nat} {e : OpEntry} (he : NMap.get? s.settle.sched.ops op = some e) (hu : s.settle.unblocked op e = true)
include he hu

theorem exec_operatorStart_of_check16_fails (hc : s.settle.check16 e ≠ cOk) :
    exec (.operatorStart op) s = .next ((s.settle.endOp op (s.settle.check16 e)).settle) := by
  rw [exec_operatorStart]
  unfold State.check16 at *
  simp only [execOperatorStart, he, hu, bne_iff_ne.2 hc, Bool.not_true, Bool.false_eq_true, if_false, if_true]

theorem exec_operatorStart_of_check16_passes (hc : s.settle.check16 e = cOk) :
    exec (.operatorStart op) s = (s.settle.withPages e).tryStart op e := by
  rw [exec_operatorStart]
  unfold State.check16 at hc
  simp only [execOperatorStart, he, hu, hc, bne_self_eq_false, Bool.not_true, Bool.false_eq_true, if_false, Bool.and_eq_true,
    decide_eq_true_eq, Bool.not_eq_true']
  rfl

end

section
variable {u : State} {op : Nat} {e : OpEntry}

/-- A stack operator whose pages are away waits, since now where it has not waited before (R178). -/
theorem State.tryStart_of_pages_away (h8 : e.d.cls = 8) (hp : u.pagesReady e = false) :
    u.tryStart op e = .next (u.updOp op (fun e => { e with waitFrom := some (e.waitFrom.getD u.now) })) := if_pos ⟨h8, hp⟩

variable (hp : e.d.cls = 8 → u.pagesReady e = true)
include hp

theorem State.tryStart_of_earlier (hf : ∃ f ∈ u.earlier op, u.startable f.1 f.2 = true) : u.tryStart op e = .next u := by
  rw [State.tryStart, if_neg (fun h => by simp [hp h.1] at h), if_pos (List.any_eq_true.2 hf)]

variable (hf : ∀ f ∈ u.earlier op, u.startable f.1 f.2 = false)
include hf

theorem State.tryStart_of_place {p : Nat × Nat} (h : u.place op e = some p) :
    u.tryStart op e = .next (u.startOn op e p.1 p.2).reserveWaiting := by
  rw [State.tryStart, if_neg (fun h => by simp [hp h.1] at h), if_neg (by simpa using hf), h]

theorem State.tryStart_of_no_place (h : u.place op e = none) : u.tryStart op e = .next u := by
  rw [State.tryStart, if_neg (fun h => by simp [hp h.1] at h), if_neg (by simpa using hf), h]

end

/-! ### Completion and reservations (R196, R241, R244) -/

section
variable {s : State} {op : Nat} {e : OpEntry} (he : NMap.get? s.sched.ops op = some e)
include he

theorem exec_operatorComplete_of_finished (hf : e.phase = .finished) : exec (.operatorComplete op) s =
    .next ((((((s.advanceTo (e.startedAt + e.cycles)).makeChecks op e).endOp op e.code)).turnDone e).settle) := by
  change execOperatorComplete op s = _
  simp only [execOperatorComplete, he, hf, bne_self_eq_false, Bool.false_eq_true, if_false]

variable (hm : s.mayReserve op e = true)
include hm

theorem exec_schedReserve_of_run {r : Reservation} (hr : (s.advanceTo (e.readyAt.getD s.now + 100 * Config.usCycles)).runFor op e = some r) :
    exec (.schedReserve op) s = let u := s.advanceTo (e.readyAt.getD s.now + 100 * Config.usCycles)
      .next { u with sched := { u.sched with reservations := u.sched.reservations ++ [r] } } := by
  change execSchedReserve op s = _
  simp only [execSchedReserve, he, hm, hr, Bool.not_true, Bool.false_eq_true, if_false]

theorem exec_schedReserve_of_no_run (hr : (s.advanceTo (e.readyAt.getD s.now + 100 * Config.usCycles)).runFor op e = none) :
    exec (.schedReserve op) s = .next ((s.advanceTo (e.readyAt.getD s.now + 100 * Config.usCycles)).updOp op (fun e => { e with wantsRun := true })) := by
  change execSchedReserve op s = _
  simp only [execSchedReserve, he, hm, hr, Bool.not_true, Bool.false_eq_true, if_false]

end

/-- The run an operator reserves lies on the module's cores and meets no reservation. -/
theorem State.runFor_meets_none {s : State} {op : Nat} {e : OpEntry} {r : Reservation} (h : s.runFor op e = some r) :
    r.op = op ∧ r.first + r.count ≤ 800 ∧ r.count = s.coreNeed (s.asPlaced e) ∧
    ∀ q ∈ s.sched.reservations, r.first + r.count ≤ q.first ∨ q.first + q.count ≤ r.first := by
  simp only [State.runFor, Option.map_eq_some_iff] at h
  obtain ⟨i, hi, rfl⟩ := h
  have hlt : i < 801 - s.coreNeed (s.asPlaced e) := List.mem_range.1 (List.mem_of_find?_eq_some hi)
  refine ⟨rfl, by dsimp only; omega, rfl, fun q hq => ?_⟩
  have hn := List.find?_some hi
  rw [Bool.not_eq_true', List.any_eq_false] at hn
  have := hn q hq
  simp only [Bool.and_eq_true, decide_eq_true_eq] at this
  dsimp only
  omega

/-- Settles O38: a start by check 16, then by the pages, the earlier operators and the cores; completion and reservation by their rows. -/
theorem operatorsStartAndComplete : Obligations.OperatorsStartAndComplete := by
  unfold Obligations.OperatorsStartAndComplete
  refine ⟨fun s op e he hu hc => ?_, fun s op e he hu h9 hc => ?_, fun s op e he hf => exec_operatorComplete_of_finished he hf,
    fun s op e he hm => ⟨fun r hr => exec_schedReserve_of_run he hm hr, fun hr => exec_schedReserve_of_no_run he hm hr⟩,
    fun s op e r h => State.runFor_meets_none h⟩
  · have hx := exec_operatorStart_of_check16_passes he hu (State.check16_eq_ok hc)
    exact ⟨fun hp hf => ⟨fun p h => hx.trans (State.tryStart_of_place hp hf h), fun h => hx.trans (State.tryStart_of_no_place hp hf h)⟩,
      fun hp hf => hx.trans (State.tryStart_of_earlier hp hf), fun h8 hp => hx.trans (State.tryStart_of_pages_away h8 hp)⟩
  · rw [← State.check16_of_cls_ne _ h9] at hc ⊢
    exact exec_operatorStart_of_check16_fails he hu hc

end Sys2Proof.Machine
end

section
namespace Sys2Proof.Machine

/-! ### Gatherer passes (R180, R246) -/

/-- The counts of a pass touch the cores' counters alone. -/
theorem State.addDeltas_memsys (s : State) (n : Nat) (l : List CoreDelta) : (s.addDeltas n l).memsys = s.memsys := by
  unfold State.addDeltas
  refine foldl_keeps (fun t : State => t.memsys = s.memsys) _ (fun _ _ h => ?_) _ _ rfl
  exact h

theorem State.closePass_onTime (s : State) (g : Nat) (q : GatherQ) :
    (q.rows.length ≤ 1024 → NMap.get? (s.closePass g q false).sched.gather g = none) ∧
    (1024 < q.rows.length → (NMap.get? (s.closePass g q false).sched.gather g).map GatherQ.rows = some (q.rows.drop 1024)) ∧
    (s.closePass g q false).memsys = s.memsys ∧ (s.closePass g q false).sched.ops = s.sched.ops := by
  have hs : ∀ l, (s.addDeltas q.coreFirst l).sched = s.sched := fun l => (kept_addDeltas s _ l).sched
  refine ⟨fun h => ?_, fun h => ?_, State.addDeltas_memsys _ _ _, by simp [State.closePass, hs]⟩
  · have hr : (q.rows.drop 1024).isEmpty = true := by simpa using h
    simp [State.closePass, hr, NMap.get?_erase_same]
  · have hr : (q.rows.drop 1024).isEmpty = false := by simpa using h
    simp [State.closePass, hr, NMap.get?_set_same]

theorem exec_gatherPassClose_of_due {s : State} {g : Nat} {q : GatherQ} {idle : Bool} (hq : NMap.get? s.sched.gather g = some q)
    (h : 1024 ≤ q.rows.length ∨ (idle = true ∧ 256 ≤ q.rows.length) ∨ (idle = true ∧ 0 < q.rows.length ∧ s.gatherD = 0)) :
    exec (.gatherPassClose g idle) s = .next (s.closePass g q false) := by
  change execGatherPassClose g idle s = _
  simp only [execGatherPassClose, hq]
  refine if_pos ?_
  simpa [and_assoc, or_assoc] using h

theorem exec_gatherDeadline_of_row {s : State} {g : Nat} {q : GatherQ} {r : GRow} {rs : List GRow} (hq : NMap.get? s.sched.gather g = some q)
    (hr : q.rows = r :: rs) (hd : s.gatherD ≠ 0) : exec (.gatherDeadline g) s = .next ((s.advanceTo (r.at_ + s.gatherD)).closePass g q true) := by
  change execGatherDeadline g s = _
  simp only [execGatherDeadline, hq, hr, hd, if_false]

/-- The operator whose rows waited for room goes on to its staging, its wait counted. -/
theorem exec_gathererOverflowDrain_of_room {s : State} {op : Nat} {e : OpEntry} (he : NMap.get? s.sched.ops op = some e)
    (hw : e.overflowWait = true) (hr : s.gatherRoom e = true) (hf : ∀ f ∈ s.earlier op, f.2.overflowWait = false) :
    exec (.gathererOverflowDrain op) s = .next ((({ s with ctxs := { s.ctxs with ctr := { s.ctxs.ctr with
      gathererOverflowStall := sat64 (s.ctxs.ctr.gathererOverflowStall + e.waited s.now) } } } : State).updOp op
        (fun e => { e.endWait s.now with overflowWait := false, waitFrom := none })).issueReads op) := by
  change execGathererOverflowDrain op s = _
  have hf' : (s.earlier op).any (fun f => f.2.overflowWait) = false := by simpa using hf
  simp only [execGathererOverflowDrain, he, hw, hr, hf', Bool.not_true, Bool.or_self, Bool.false_eq_true, if_false]

/-! ### Page waits that end (R178) -/

theorem State.countPageWaits_keeps (s : State) : s.countPageWaits.memsys = s.memsys ∧ s.countPageWaits.ctxs.stackTab = s.ctxs.stackTab := by
  unfold State.countPageWaits
  refine foldl_keeps (fun t : State => t.memsys = s.memsys ∧ t.ctxs.stackTab = s.ctxs.stackTab) _ (fun _ _ h => ?_) _ _ ⟨rfl, rfl⟩
  exact h

@[simp] theorem State.countPageWaits_memsys (s : State) : s.countPageWaits.memsys = s.memsys := s.countPageWaits_keeps.1

@[simp] theorem State.countPageWaits_stackOf (s : State) (c : Nat) : s.countPageWaits.stackOf c = s.stackOf c := by
  rw [State.stackOf, s.countPageWaits_keeps.2, State.stackOf]

/-! ### Transfers of stack pages (R176, R177, R250) -/

/-- The bytes a reply holds. -/
def replyBytes : HostReply → List Byte
  | .data bs => bs
  | _ => []

/-- Where a piece of a stack lies in its backing store (R171). -/
def State.pieceAt (s : State) (c o : Nat) : Option Nat := ((s.ctx c).backing o).map (fun b => ((s.ctx c).region b.1).base + b.2)

section
variable {s : State} {c page : Nat} {p : StackPage} (hp : NMap.get? (s.stackOf c).pages page = some p)
include hp

theorem exec_stackSpillAck_of_late {t : State} (hs : p.state = .spilling) (ht : s.pageReplyLate c page p .resident = some t) :
    exec (.stackSpillAck c page) s = .next t := by
  change execStackSpillAck c page s = _
  simp only [execStackSpillAck, hp, hs, ht, bne_self_eq_false, Bool.false_eq_true, if_false]

theorem exec_stackSpillAck_of_inTime (hs : p.state = .spilling) (ht : s.pageReplyLate c page p .resident = none) :
    exec (.stackSpillAck c page) s = .next ((((s.writeBack c page).pageOut c page).refetch).countPageWaits) := by
  change execStackSpillAck c page s = _
  simp only [execStackSpillAck, hp, hs, ht, bne_self_eq_false, Bool.false_eq_true, if_false]

variable (hs : p.state = .fetching)
include hs

theorem exec_stackFetchDone_of_late {t : State} (reply : HostReply) (ht : s.pageReplyLate c page p .spilled = some t) :
    exec (.stackFetchDone c page reply) s = .next t := by
  change execStackFetchDone c page reply s = _
  simp only [execStackFetchDone, hp, hs, ht, bne_self_eq_false, Bool.false_eq_true, if_false]

variable (ht : s.pageReplyLate c page p .spilled = none)
include ht

/-- A page with a piece in a host window that does not reply is spilled again. -/
theorem exec_stackFetchDone_of_no_data {reply : HostReply}
    (hh : ∃ o ∈ (s.stackOf c).pagePieces page, ∃ a, s.pieceAt c o = some a ∧ isHost a = true) (hr : ∀ bs, reply ≠ .data bs) :
    exec (.stackFetchDone c page reply) s = .next (s.setStack c { s.stackOf c with
      pages := NMap.set (s.stackOf c).pages page { p with state := .spilled } }) := by
  obtain ⟨o, ho, a, ha, hhost⟩ := hh
  have hvia : (((s.stackOf c).pagePieces page).filterMap (s.pieceAt c)).any isHost = true :=
    List.any_eq_true.2 ⟨a, List.mem_filterMap.2 ⟨o, ho, ha⟩, hhost⟩
  unfold State.pieceAt at hvia
  change execStackFetchDone c page reply s = _
  cases reply with
  | data bs => exact absurd rfl (hr bs)
  | error st => simp only [execStackFetchDone, hp, hs, ht, hvia, bne_self_eq_false, Bool.false_eq_true, if_false, Option.isNone_none,
      Bool.true_or, Bool.true_and, if_true]
  | timeout => simp only [execStackFetchDone, hp, hs, ht, hvia, bne_self_eq_false, Bool.false_eq_true, if_false, Option.isNone_none,
      Bool.true_or, Bool.true_and, if_true]

/-- A page whose pieces all arrive is resident, with their bytes. -/
theorem exec_stackFetchDone_of_data {reply : HostReply} (hall : ∀ o ∈ (s.stackOf c).pagePieces page, ∀ a, s.pieceAt c o = some a →
      (isHost a = true → (∃ bs, reply = .data bs) ∧ (s.hostRoute a).isOk = true) ∧ (isHost a = false → s.memsys.mem.badIn a 4096 = [])) :
    exec (.stackFetchDone c page reply) s = .next ((s.setStack c { s.stackOf c with
      pages := NMap.set (s.stackOf c).pages page { p with state := .resident }
      bytes := (s.backingBytes c ((s.stackOf c).pagePieces page) (replyBytes reply)).foldl (fun b q => cellPut b q.1 q.2) (s.stackOf c).bytes }).countPageWaits) := by
  have hat : ∀ a ∈ ((s.stackOf c).pagePieces page).filterMap (s.pieceAt c),
      (isHost a = true → (∃ bs, reply = .data bs) ∧ (s.hostRoute a).isOk = true) ∧ (isHost a = false → s.memsys.mem.badIn a 4096 = []) :=
    fun a ha => let ⟨o, ho, hoa⟩ := List.mem_filterMap.1 ha; hall o ho a hoa
  have hbad : (((s.stackOf c).pagePieces page).filterMap (s.pieceAt c)).flatMap
      (fun a => if isHost a then [] else s.memsys.mem.badIn a 4096) = [] := List.flatMap_eq_nil_iff.2 fun a ha => by
    split
    · rfl
    · exact (hat a ha).2 (by simpa using ‹¬ isHost a = true›)
  have hroute : (((s.stackOf c).pagePieces page).filterMap (s.pieceAt c)).any (fun a => isHost a && !((s.hostRoute a).isOk)) = false :=
    List.any_eq_false.2 fun a ha hn => by
      rw [Bool.and_eq_true, Bool.not_eq_true'] at hn
      simp [((hat a ha).1 hn.1).2] at hn
  change execStackFetchDone c page reply s = _
  unfold State.pieceAt at hat hbad hroute
  cases hv : (((s.stackOf c).pagePieces page).filterMap (fun o => ((s.ctx c).backing o).map (fun b => ((s.ctx c).region b.1).base + b.2))).any isHost with
  | false =>
    cases reply <;> (simp only [execStackFetchDone, hp, hs, ht, hbad, hv, bne_self_eq_false, Bool.false_and, Bool.false_eq_true, if_false]; rfl)
  | true =>
    obtain ⟨a, ha, hh⟩ := List.any_eq_true.1 hv
    obtain ⟨⟨bs, rfl⟩, -⟩ := (hat a ha).1 hh
    simp only [execStackFetchDone, hp, hs, ht, hbad, hroute, hv, bne_self_eq_false, Option.isNone_some, Bool.or_self, Bool.and_false,
      Bool.false_eq_true, if_false]
    rfl

theorem gives_stackFetchDone_of_data {reply : HostReply} (hall : ∀ o ∈ (s.stackOf c).pagePieces page, ∀ a, s.pieceAt c o = some a →
      (isHost a = true → (∃ bs, reply = .data bs) ∧ (s.hostRoute a).isOk = true) ∧ (isHost a = false → s.memsys.mem.badIn a 4096 = [])) :
    Gives (.stackFetchDone c page reply) s (fun t => NMap.get? (t.stackOf c).pages page = some { p with state := .resident } ∧
      (t.stackOf c).frames = (s.stackOf c).frames ∧ t.memsys = s.memsys) := by
  exact ⟨_, exec_stackFetchDone_of_data hp hs ht hall, by simp [NMap.get?_set_same], by simp, by simp⟩

end

/-- Settles O40: each pass, wait and page transfer by the one branch of its row that its hypotheses name. -/
theorem gathererAndStackTransfers : Obligations.GathererAndStackTransfers := by
  unfold Obligations.GathererAndStackTransfers
  exact ⟨fun s g q idle hq h => ⟨_, exec_gatherPassClose_of_due hq h, s.closePass_onTime g q⟩,
    fun s g q r rs hq hr hd => exec_gatherDeadline_of_row hq hr hd,
    fun s op e he hw hr hf => exec_gathererOverflowDrain_of_room he hw hr hf,
    fun s c page p hp hs => ⟨fun ht => exec_stackSpillAck_of_inTime hp hs ht, fun t ht => exec_stackSpillAck_of_late hp hs ht⟩,
    fun s c page p reply hp hs => ⟨fun t ht => exec_stackFetchDone_of_late hp hs reply ht,
      fun ht hall => gives_stackFetchDone_of_data hp hs ht hall, fun ht hh hr => exec_stackFetchDone_of_no_data hp hs ht hh hr⟩⟩

end Sys2Proof.Machine
end

section
namespace Sys2Proof.Machine

/-! ### Loads that fail (R157, R232) -/

/-- Context `c` of `s` is HALTED in `t` and no longer loading; the contents and the grants of LPDDR5X stay. -/
def LoadHalted (s : State) (c : Nat) (t : State) : Prop :=
  t.ctx c = { s.ctx c with state := .halted, loading := false } ∧ t.memsys.mem = s.memsys.mem ∧ t.memsys.grants = s.memsys.grants

theorem loadHalted_haltLoad (s : State) (c : Nat) (code : Code) : LoadHalted s c (s.haltLoad c code) := by
  simp [LoadHalted, State.haltLoad]

theorem State.haltLoad_nextSeq (s : State) (c : Nat) (code : Code) : (s.haltLoad c code).vigil.nextSeq = (s.vigil.nextSeq + 1) % 2 ^ 64 := by
  simp [State.haltLoad]

/-- Uncorrectable lines are counted and recorded; the contexts and what the lines' memory holds and grants stay. -/
theorem State.lineBads_keep (s : State) (l : List Nat) (w : Who) :
    let t := l.foldl (fun s l => s.lineBad l w) s
    t.ctxs = s.ctxs ∧ t.memsys.mem = s.memsys.mem ∧ t.memsys.grants = s.memsys.grants := by
  refine foldl_keeps (fun t : State => t.ctxs = s.ctxs ∧ t.memsys.mem = s.memsys.mem ∧ t.memsys.grants = s.memsys.grants) _ (fun t b ht => ?_) _ _
    ⟨rfl, rfl, rfl⟩
  simpa [State.lineBad, State.updMemCtr] using ht

theorem loadHalted_haltBad (s : State) (c : Nat) (l : List Nat) : LoadHalted s c (s.haltBad c l) := by
  obtain ⟨hc, hm, hg⟩ := s.lineBads_keep l {}
  obtain ⟨h1, h2, h3⟩ := loadHalted_haltLoad (l.foldl (fun s l => s.lineBad l {}) s) c cMemoryUncorrectable
  refine ⟨h1.trans ?_, h2.trans hm, h3.trans hg⟩
  rw [State.ctx, hc, ← State.ctx]

/-! ### The load of a context with room in the cache (R163, R231 to R234) -/

theorem exec_contextLoad (c : Nat) (r : HostReply) (s : State) : exec (.contextLoad c r) s = execContextLoad c r s := rfl

/-- The entries of a region table as a context takes them: at a load again, regions sealed since stay sealed. -/
def Ctx.tableOf (x : Ctx) (bs : List Byte) : List RegionE :=
  let read : List RegionE := (List.range 64).map (fun i => BitVec.ofNat 128 (leAt bs (16 * i) 16))
  if x.loaded then x.sealed read else read

/-- The grants of a context that loads: taken, or at a load again kept for the regions it still has. -/
def State.grantsFor (s : State) (c : Nat) (rs : List RegionE) : State :=
  if (s.ctx c).loaded then s.keepGrants c (s.ctx c).regions rs else s.takeGrants c rs

theorem State.grantsFor_ctxs (s : State) (c : Nat) (rs : List RegionE) : (s.grantsFor c rs).ctxs = s.ctxs := by
  unfold State.grantsFor
  split <;> rfl

theorem State.grantsFor_mem (s : State) (c : Nat) (rs : List RegionE) : (s.grantsFor c rs).memsys.mem = s.memsys.mem := by
  unfold State.grantsFor
  split <;> rfl

section
variable {s : State} {c : Nat} (ho : (s.ctx c).state = .open_) (hl : (s.ctx c).loading = true) (hf : s.cacheFull = false)
include ho hl hf

theorem gives_contextLoad_of_entryBad (r : HostReply) (hb : s.entryBad c ≠ []) : Gives (.contextLoad c r) s (LoadHalted s c) := by
  refine ⟨_, ?_, loadHalted_haltBad s c (s.entryBad c)⟩
  rw [exec_contextLoad]
  simp [execContextLoad, State.cacheRoom, ho, hl, hf, hb]

variable (hb : s.entryBad c = [])
include hb

theorem gives_contextLoad_of_invalid (r : HostReply) (hx : (s.ctx c).reservedZero = false ∨ fld (s.ctx c).desc 0 20 ≠ c ∨
      isHost (s.ctx c).rtAddr = false ∨ (s.ctx c).rtAddr % 1024 ≠ 0) :
    Gives (.contextLoad c r) s (fun t => LoadHalted s c t ∧ t.vigil.nextSeq = (s.vigil.nextSeq + 1) % 2 ^ 64) := by
  refine ⟨_, ?_, loadHalted_haltLoad s c cContextInvalid, State.haltLoad_nextSeq _ _ _⟩
  have hx' : (!(s.ctx c).reservedZero || fld (s.ctx c).desc 0 20 != c || !isHost (s.ctx c).rtAddr || (s.ctx c).rtAddr % 1024 != 0) = true := by
    simpa [or_assoc] using hx
  rw [exec_contextLoad]
  simp [execContextLoad, State.cacheRoom, ho, hl, hf, hb, hx']

variable (hz : (s.ctx c).reservedZero = true) (hd : fld (s.ctx c).desc 0 20 = c) (hh : isHost (s.ctx c).rtAddr = true)
  (ha : (s.ctx c).rtAddr % 1024 = 0) {p : Nat × Nat} (hp : s.hostRoute (s.ctx c).rtAddr = .ok p)
include hz hd hh ha hp

/-- What the load of a context whose entry is well formed answers to the bytes of its region table. -/
theorem exec_contextLoad_of_data (bs : List Byte) : exec (.contextLoad c (.data bs)) s =
    let rs := (s.ctx c).tableOf bs
    if s.grantsBad rs ≠ [] then .next (s.haltBad c (s.grantsBad rs))
    else if s.loadCode c rs ≠ cOk then .next (s.haltLoad c (s.loadCode c rs))
    else .next ((s.grantsFor c rs).updCtx c (fun x => { x with regions := rs, loaded := true, cached := true, loading := false })) := by
  rw [exec_contextLoad]
  simp only [execContextLoad, State.cacheRoom, ho, hl, hf, hb, hz, hd, hh, ha, hp, beq_self_eq_true, bne_self_eq_false, List.isEmpty_nil, Bool.and_self,
    Bool.not_true, Bool.not_false, Bool.or_self, Bool.false_eq_true, if_false, if_true, ite_not, Bool.not_eq_true', bne_iff_ne, List.isEmpty_eq_false_iff]
  rfl

theorem gives_contextLoad_of_timeout : Gives (.contextLoad c .timeout) s (LoadHalted s c) := by
  refine ⟨_, ?_, loadHalted_haltLoad s c cHostReadTimeout⟩
  rw [exec_contextLoad]
  simp [execContextLoad, State.cacheRoom, ho, hl, hf, hb, hz, hd, hh, ha, hp]

end

section
variable {s : State} {c : Nat} (ho : (s.ctx c).state = .open_) (hl : (s.ctx c).loading = true) (hf : s.cacheFull = false) (hb : s.entryBad c = [])
  (hz : (s.ctx c).reservedZero = true) (hd : fld (s.ctx c).desc 0 20 = c) (hh : isHost (s.ctx c).rtAddr = true)
  (ha : (s.ctx c).rtAddr % 1024 = 0) {p : Nat × Nat} (hp : s.hostRoute (s.ctx c).rtAddr = .ok p) {bs : List Byte} {rs : List RegionE}
  (hrs : (s.ctx c).tableOf bs = rs)
include ho hl hf hb hz hd hh ha hp hrs

theorem gives_contextLoad_of_grantsBad (hg : s.grantsBad rs ≠ []) : Gives (.contextLoad c (.data bs)) s (LoadHalted s c) := by
  refine ⟨_, ?_, loadHalted_haltBad s c (s.grantsBad rs)⟩
  simp only [exec_contextLoad_of_data ho hl hf hb hz hd hh ha hp, hrs, if_pos hg]

theorem gives_contextLoad_of_loadCode (hg : s.grantsBad rs = []) (hc : s.loadCode c rs ≠ cOk) :
    Gives (.contextLoad c (.data bs)) s (fun t => LoadHalted s c t ∧ t.vigil.nextSeq = (s.vigil.nextSeq + 1) % 2 ^ 64) := by
  refine ⟨_, ?_, loadHalted_haltLoad s c (s.loadCode c rs), State.haltLoad_nextSeq _ _ _⟩
  simp only [exec_contextLoad_of_data ho hl hf hb hz hd hh ha hp, hrs, hg, ne_eq, not_true_eq_false, if_false, if_pos hc]

/-- A context that passes the checks holds its regions and grants. -/
theorem gives_contextLoad_of_ok (hg : s.grantsBad rs = []) (hc : s.loadCode c rs = cOk) : Gives (.contextLoad c (.data bs)) s (fun t =>
    t.ctx c = { s.ctx c with regions := rs, loaded := true, cached := true, loading := false } ∧ t.memsys = (s.grantsFor c rs).memsys ∧
    t.memsys.mem = s.memsys.mem ∧ ∀ d, d ≠ c → t.ctx d = s.ctx d) := by
  have hk : ∀ d, (s.grantsFor c rs).ctx d = s.ctx d := fun d => by rw [State.ctx, State.grantsFor_ctxs, ← State.ctx]
  refine ⟨(s.grantsFor c rs).updCtx c (fun x => { x with regions := rs, loaded := true, cached := true, loading := false }), ?_, ?_, rfl,
    State.grantsFor_mem _ _ _, fun d hdc => (State.ctx_updCtx_other _ _ _ _ hdc).trans (hk d)⟩
  · simp only [exec_contextLoad_of_data ho hl hf hb hz hd hh ha hp, hrs, hg, hc, ne_eq, not_true_eq_false, if_false]
  · rw [State.ctx_updCtx_same, hk]

end

/-! ### A full context cache (R234) -/

/-- Of a context and the least recent of those before it, the less recent; `w` says when each was issued to. -/
def lessRecent (w : Nat → Nat) (b : Option Nat) (c : Nat) : Option Nat := match b with
  | none => some c
  | some d => if w c < w d then some c else some d

/-- The least recent of a list comes out of its fold. -/
theorem foldl_lessRecent_some (w : Nat → Nat) (l : List Nat) (d : Nat) :
    ∃ m ∈ d :: l, l.foldl (lessRecent w) (some d) = some m ∧ ∀ k ∈ d :: l, w m ≤ w k := by
  induction l generalizing d with
  | nil => exact ⟨d, by simp, rfl, by simp⟩
  | cons c l ih =>
    by_cases h : w c < w d
    · obtain ⟨m, hm, he, hle⟩ := ih c
      refine ⟨m, List.mem_cons_of_mem _ hm, ?_, List.forall_mem_cons.2 ⟨(hle c List.mem_cons_self).trans h.le, hle⟩⟩
      simpa [lessRecent, h] using he
    · obtain ⟨m, hm, he, hle⟩ := ih d
      obtain ⟨hmd, hml⟩ := List.forall_mem_cons.1 hle
      refine ⟨m, ?_, by simpa [lessRecent, h] using he, List.forall_mem_cons.2 ⟨hmd, List.forall_mem_cons.2 ⟨by omega, hml⟩⟩⟩
      rcases List.mem_cons.1 hm with rfl | hm
      · exact List.mem_cons_self
      · exact List.mem_cons_of_mem _ (List.mem_cons_of_mem _ hm)

theorem State.cacheRoom_of_full {s : State} (h : s.cacheFull = true) : s.cacheRoom =
    (s.evictable.foldl (lessRecent fun c => (s.ctx c).lastIssued) none).map (fun c => s.updCtx c (fun x => { x with cached := false })) := by
  simp only [State.cacheRoom, h, Bool.not_true, Bool.false_eq_true, if_false]
  rfl

theorem State.cacheRoom_of_not_full {s : State} (h : s.cacheFull = false) : s.cacheRoom = some s := by
  simp [State.cacheRoom, h]

/-- What makes room is the context issued to least recently. -/
theorem State.cacheRoom_evicts {s : State} (hf : s.cacheFull = true) (he : s.evictable ≠ []) :
    ∃ d ∈ s.evictable, (∀ k ∈ s.evictable, (s.ctx d).lastIssued ≤ (s.ctx k).lastIssued) ∧
      s.cacheRoom = some (s.updCtx d (fun x => { x with cached := false })) := by
  obtain ⟨a, l, hl⟩ := List.exists_cons_of_ne_nil he
  obtain ⟨m, hm, hfold, hle⟩ := foldl_lessRecent_some (fun c => (s.ctx c).lastIssued) l a
  refine ⟨m, hl ▸ hm, hl ▸ hle, ?_⟩
  rw [State.cacheRoom_of_full hf, hl, List.foldl_cons]
  exact congrArg (Option.map _) hfold

section
variable {s : State} {c : Nat} (hf : s.cacheFull = true) (ho : (s.ctx c).state = .open_) (hl : (s.ctx c).loading = true) (r : HostReply)
include hf ho hl

theorem exec_contextLoad_of_pinned (he : s.evictable = []) : exec (.contextLoad c r) s = .next s := by
  have hr : s.cacheRoom = none := by rw [State.cacheRoom_of_full hf, he]; rfl
  rw [exec_contextLoad]
  simp [execContextLoad, ho, hl, hr]

theorem exec_contextLoad_evicts (he : s.evictable ≠ []) :
    ∃ d ∈ s.evictable, (∀ k ∈ s.evictable, (s.ctx d).lastIssued ≤ (s.ctx k).lastIssued) ∧
      (d ≠ c → (s.updCtx d (fun x => { x with cached := false })).cacheFull = false →
        exec (.contextLoad c r) s = exec (.contextLoad c r) (s.updCtx d (fun x => { x with cached := false }))) := by
  obtain ⟨d, hd, hle, hr⟩ := State.cacheRoom_evicts hf he
  refine ⟨d, hd, hle, fun hdc hu => ?_⟩
  have hc := State.ctx_updCtx_other s d c (fun x => { x with cached := false }) hdc.symm
  generalize s.updCtx d (fun x => { x with cached := false }) = u at hr hu hc ⊢
  rw [exec_contextLoad, exec_contextLoad]
  simp only [execContextLoad, hr, State.cacheRoom_of_not_full hu, hc, ho, hl, beq_self_eq_true, Bool.and_self, Bool.not_true, Bool.false_eq_true, if_false]

end

/-! ### The context table and sealing (R166, R231) -/

@[simp] theorem State.forEnd_released (s : State) (q : Req) : (s.forEnd q).released = s.released := by simp [State.forEnd, State.opened]
@[simp] theorem State.forWrite_released (s : State) (q : Req) : (s.forWrite q).released = s.released := by simp [State.forWrite, State.opened]
@[simp] theorem State.forWrite_ctx (s : State) (q : Req) (c : Nat) : (s.forWrite q).ctx c = s.ctx c := by simp [State.forWrite, State.opened]
@[simp] theorem State.forEnd_ctxWord (s : State) (q : Req) (c : Nat) : (s.forEnd q).ctxWord c = s.ctxWord c := by simp [State.ctxWord]

theorem entriesOf_one {tr : Transfer} {w : Nat} (h0 : tr.offset = 0) (hw : 0 < w) (hl : tr.got.length = w) : entriesOf w tr = [(0, leAt tr.got 0 w)] := by
  simp [entriesOf, h0, hl, Nat.div_self hw]

/-- A whole descriptor is written for a FREE context, its read-only fields zero. -/
theorem gives_contextTableWrite {s : State} {q : Req} {sha : BitVec 512} {tr : Transfer} (h : Ends s q 0x7100 1 sha tr) (hr : s.released = true)
    (h0 : tr.offset = 0) (hl : tr.got.length = 128) (hs : (s.ctx 0).state = .free)
    (hro : ∀ f ∈ roFields, fld (BitVec.ofNat 1024 (leAt tr.got 0 128)) f.1 f.2 = fld (s.ctxWord 0) f.1 f.2) :
    Gives (.contextTableWrite q sha) s (fun t =>
      t.ctx 0 = { s.ctx 0 with desc := roFields.foldl (fun w f => setFld w f.1 f.2 0) (BitVec.ofNat 1024 (leAt tr.got 0 128)) } ∧
      (∀ d, d ≠ 0 → t.ctx d = s.ctx d) ∧ t.memsys = s.memsys) := by
  have hok : roFields.any (fun f => fld (BitVec.ofNat 1024 (leAt tr.got 0 128)) f.1 f.2 != fld (s.ctxWord 0) f.1 f.2) = false :=
    List.any_eq_false.2 fun f hf => by simp [hro f hf]
  refine gives_of_ends (u := (s.forEnd q).updCtx 0 (fun x => { x with
    desc := roFields.foldl (fun w f => setFld w f.1 f.2 0) (BitVec.ofNat 1024 (leAt tr.got 0 128)) })) (c := cOk) h
    (rfl : exec _ s = execContextTableWrite q sha s) ?_ (fun r => ⟨by simp, fun d hd => by simp [State.ctx_updCtx_other _ _ _ _ hd], by simp⟩)
  simp only [entriesOf_one h0 (by decide : 0 < 128) hl, State.forEnd_released, hr, List.any_cons, List.any_nil, State.forEnd_ctx, hs, State.forEnd_ctxWord,
    hok, bne_self_eq_false, Bool.or_self, Bool.not_true, Bool.false_eq_true, if_false, List.foldl_cons, List.foldl_nil]

/-- Region `r` of context `c` sealed: read-only, its granules shared (R166). -/
def State.withSealed (s : State) (c r : Nat) : State :=
  let t := s.updCtx c (fun x => { x with regions := updAt x.regions r (fun e => setFld e 113 1 0) })
  { t with memsys := { t.memsys with grants := ((s.ctx c).region r).granules.foldl (fun g n => NMap.set g n (.shared 1)) t.memsys.grants } }

theorem State.withSealed_regions (s : State) (c r : Nat) :
    ((s.withSealed c r).ctx c).regions = updAt (s.ctx c).regions r (fun e => setFld e 113 1 0) :=
  congrArg Ctx.regions (State.ctx_updCtx_same s c (fun x => { x with regions := updAt x.regions r (fun e => setFld e 113 1 0) }))

/-- A sealed region is read-only, and its granules are shared. -/
theorem gives_regionSeal {s : State} {q : Req} {v : BitVec 32} (h : Writes s q 0x7100 5 4) (hr : s.released = true)
    (ho : (s.ctx (fld v 0 20)).state = .open_) (hl : (s.ctx (fld v 0 20)).loaded = true)
    (hv : ((s.ctx (fld v 0 20)).region (fld v 20 6)).valid = true) (hk : ((s.ctx (fld v 0 20)).region (fld v 20 6)).stk = false)
    (hw : ((s.ctx (fld v 0 20)).region (fld v 20 6)).w = true) :
    Gives (.regionSeal q v) s (fun t =>
      (t.ctx (fld v 0 20)).regions = updAt (s.ctx (fld v 0 20)).regions (fld v 20 6) (fun e => setFld e 113 1 0) ∧
      t.memsys.grants = ((s.ctx (fld v 0 20)).region (fld v 20 6)).granules.foldl (fun g n => NMap.set g n (.shared 1)) s.memsys.grants ∧
      t.memsys.mem = s.memsys.mem) := by
  refine gives_of_writes (bs := leBytes 4 v.toNat) (u := (s.forWrite q).withSealed (fld v 0 20) (fld v 20 6)) (c := cOk) h
    (rfl : exec _ s = execRegionSeal q v s) ?_ (fun r => ⟨?_, ?_, ?_⟩)
  · simp only [State.forWrite_released, State.forWrite_ctx, hr, ho, hl, hv, hk, hw, beq_self_eq_true, Bool.and_self, Bool.not_true, Bool.or_self,
      Bool.false_eq_true, if_false, State.withSealed]
  · rw [State.respond_ctx_, State.withSealed_regions, State.forWrite_ctx]
  · rw [State.respond_memsys, State.withSealed]
    simp
  · rw [State.respond_memsys, State.withSealed]
    simp

/-- Settles O46: a load by the first check that fails, an eviction by the least recent of the evictable contexts, the writes by their objects' actions. -/
theorem contextsAreLoaded : Obligations.ContextsAreLoaded := by
  unfold Obligations.ContextsAreLoaded
  refine ⟨fun s c bs p ho hl hf => ⟨fun hb => gives_contextLoad_of_entryBad ho hl hf _ hb, fun hb hx => gives_contextLoad_of_invalid ho hl hf hb _ hx,
    fun hb hz hd hh ha hp => ⟨fun hg => gives_contextLoad_of_grantsBad ho hl hf hb hz hd hh ha hp rfl hg,
      fun hg hc => gives_contextLoad_of_ok ho hl hf hb hz hd hh ha hp rfl hg hc,
      fun hg hc => gives_contextLoad_of_loadCode ho hl hf hb hz hd hh ha hp rfl hg hc, gives_contextLoad_of_timeout ho hl hf hb hz hd hh ha hp⟩⟩,
    fun s c r hf ho hl => ⟨fun he => exec_contextLoad_of_pinned hf ho hl r he, fun he => exec_contextLoad_evicts hf ho hl r he⟩,
    fun s q sha tr h hr h0 hl hs hro => gives_contextTableWrite h hr h0 hl hs hro,
    fun s q v h hr ho hl hv hk hw => gives_regionSeal h hr ho hl hv hk hw⟩

end Sys2Proof.Machine
end

section
namespace Sys2Proof.Machine

/-! ### What a start changes (R178, R180, R196, R244, R458) -/

/-- `t` differs from `s` neither in the operators and the reservations of the scheduler nor in memory and time: what the effects that follow
the entry of a started operator keep. -/
structure StartKept (s t : State) : Prop where
  ops : t.sched.ops = s.sched.ops
  reservations : t.sched.reservations = s.sched.reservations
  memsys : t.memsys = s.memsys
  now : t.now = s.now

theorem StartKept.refl (s : State) : StartKept s s := ⟨rfl, rfl, rfl, rfl⟩

theorem StartKept.trans {s t u : State} (a : StartKept s t) (b : StartKept t u) : StartKept s u :=
  ⟨b.ops.trans a.ops, b.reservations.trans a.reservations, b.memsys.trans a.memsys, b.now.trans a.now⟩

theorem StartKept.of_sched {s t : State} (hs : t.sched = s.sched) (hm : t.memsys = s.memsys) (hn : t.now = s.now) : StartKept s t :=
  ⟨congrArg _ hs, congrArg _ hs, hm, hn⟩

theorem StartKept.ite {s a b : State} (c : Prop) [Decidable c] (h : StartKept s a) (g : StartKept s b) : StartKept s (if c then a else b) := by
  split
  · exact h
  · exact g

/-! #### Mirror cells (R458, R462) -/

theorem startKept_sendCell (s : State) (c : Cell) : StartKept s (s.sendCell c) := by
  unfold State.sendCell
  refine .ite _ (.of_sched rfl rfl rfl) ?_
  split
  · exact .of_sched (State.cellOut_sched ..) (State.cellOut_memsys ..) (State.cellOut_now ..)
  · exact .of_sched (State.updLink_sched ..) (State.updLink_memsys ..) (State.updLink_now ..)

theorem startKept_updMirror (s : State) (slot : Nat) (f : MirrorTx → MirrorTx) : StartKept s (s.updMirror slot f) := .of_sched rfl rfl rfl

theorem startKept_mirrorCell (s : State) (slot kind high : Nat) (bs : List Byte) : StartKept s (s.mirrorCell slot kind high bs) := by
  unfold State.mirrorCell
  extract_lets _ c t
  have ht : StartKept s t :=
    .ite _ (startKept_sendCell s c) (.of_sched (State.cellOut_sched ..) (State.cellOut_memsys ..) (State.cellOut_now ..))
  exact .ite _ (ht.trans (.of_sched rfl rfl rfl)) ht

theorem startKept_mirrorItem (s : State) (slot item tid base : Nat) (bs : List Byte) : StartKept s (s.mirrorItem slot item tid base bs) :=
  foldl_keeps (StartKept s) _ (fun _ _ h => h.trans (startKept_mirrorCell ..)) _ _ (.refl s)

theorem startKept_mirrorEntry (s : State) (slot : Nat) (bs : List Byte) : StartKept s (s.mirrorEntry slot bs) := by
  unfold State.mirrorEntry
  exact (startKept_mirrorItem ..).trans (startKept_updMirror ..)

theorem startKept_mirrorOp (s : State) (e : OpEntry) : StartKept s (s.mirrorOp e) :=
  .ite _ ((startKept_mirrorEntry ..).trans (startKept_mirrorItem ..)) (.refl s)

/-! #### Gathered rows, counters and pages (R178, R180, R245) -/

/-- The rows of a gathered operator touch a queue of the gatherer and its overflow counter. -/
theorem startKept_enqueueRows (s : State) (id : Nat) (e : OpEntry) : StartKept s (s.enqueueRows id e) := by
  unfold State.enqueueRows
  split
  · exact ⟨rfl, rfl, rfl, rfl⟩
  · exact ⟨rfl, rfl, rfl, rfl⟩

theorem startKept_countReread (s : State) (e : OpEntry) (n : Nat) : StartKept s (s.countReread e n) :=
  .ite _ (.refl s) (.of_sched rfl rfl rfl)

/-! #### The started operator (R196, R244) -/

/-- What is counted before the started operator is entered: its page wait and the operand bytes read again (R178, R180). -/
def State.countStart (s : State) (id : Nat) (e : OpEntry) (n : Nat) : State := (if e.d.cls = 8 then s.endPageWait id e else s).countReread e n

/-- The entry of an operator `p` that starts now on cores `first` to `first + n` − 1. -/
def State.startedEntry (s : State) (p : OpEntry) (first n ports : Nat) (turn : Bool) : OpEntry :=
  let f : OpEntry := { p with
    phase := .started, startedAt := s.now, coreFirst := first, coreCount := n, turn := turn, waitFrom := none, ports := ports }
  { f with passes := if f.gathers then [] else passesOf (s.mathCtx f) }

/-- The entry of the started operator stands in the list, and its reservation is gone. -/
def State.enterStarted (s : State) (id : Nat) (f : OpEntry) : State :=
  { s with sched := { s.sched with ops := NMap.set s.sched.ops id f, reservations := s.sched.reservations.filter (fun r => r.op != id) } }

/-- What follows the entry of a started operator: the engines of its cores, its mirror cells, its gathered rows (R109, R180, R458). -/
def State.startEffects (s : State) (id : Nat) (f : OpEntry) (first n : Nat) : State :=
  let s := if f.d.opcode = 0x0300 then
      let x := s.mathCtx f
      { s with vec := (List.range n).foldl (fun v i => NMap.set v (first + i) (engineStart x id i)) s.vec } else s
  let s := if f.d.cls = 5 then s.mirrorOp f else s
  if f.gathers then s.enqueueRows id f else s

/-- Suspended gathering changes the descriptor of an operator alone (R355). -/
theorem State.asPlaced_ctx (s : State) (e : OpEntry) : (s.asPlaced e).ctx = e.ctx := by
  unfold State.asPlaced
  split
  · rfl
  · rfl

section
variable (s : State) (p : OpEntry) (first n ports : Nat) (turn : Bool)

@[simp] theorem State.startedEntry_phase : (s.startedEntry p first n ports turn).phase = .started := rfl

@[simp] theorem State.startedEntry_startedAt : (s.startedEntry p first n ports turn).startedAt = s.now := rfl

@[simp] theorem State.startedEntry_coreFirst : (s.startedEntry p first n ports turn).coreFirst = first := rfl

@[simp] theorem State.startedEntry_coreCount : (s.startedEntry p first n ports turn).coreCount = n := rfl

@[simp] theorem State.startedEntry_ctx : (s.startedEntry p first n ports turn).ctx = p.ctx := rfl

end

/-- A start counts, enters the started operator, and does what follows. -/
theorem State.startOn_eq (s : State) (id : Nat) (e : OpEntry) (first n : Nat) : ∃ t f ports turn, t = s.countStart id e n ∧
    f = t.startedEntry (t.asPlaced e) first n ports turn ∧ s.startOn id e first n = (t.enterStarted id f).startEffects id f first n := by
  unfold State.startOn State.countStart
  generalize (if e.d.cls = 8 then s.endPageWait id e else s).countReread e n = t
  exact ⟨t, _, _, _, rfl, rfl, rfl⟩

theorem State.countStart_memsys (s : State) (id : Nat) (e : OpEntry) (n : Nat) : (s.countStart id e n).memsys = s.memsys :=
  (startKept_countReread ..).memsys.trans (memsys_ite _ rfl rfl)

theorem State.countStart_now (s : State) (id : Nat) (e : OpEntry) (n : Nat) : (s.countStart id e n).now = s.now := by
  refine (startKept_countReread ..).now.trans ?_
  split
  · rfl
  · rfl

@[simp] theorem State.enterStarted_memsys (s : State) (id : Nat) (f : OpEntry) : (s.enterStarted id f).memsys = s.memsys := rfl

@[simp] theorem State.enterStarted_now (s : State) (id : Nat) (f : OpEntry) : (s.enterStarted id f).now = s.now := rfl

theorem State.enterStarted_entry (s : State) (id : Nat) (f : OpEntry) : NMap.get? (s.enterStarted id f).sched.ops id = some f :=
  NMap.get?_set_same ..

theorem State.enterStarted_reservations (s : State) (id : Nat) (f : OpEntry) : ∀ r ∈ (s.enterStarted id f).sched.reservations, r.op ≠ id :=
  fun _ hr => bne_iff_ne.1 (List.mem_filter.1 hr).2

theorem startKept_startEffects (s : State) (id : Nat) (f : OpEntry) (first n : Nat) : StartKept s (s.startEffects id f first n) := by
  unfold State.startEffects
  extract_lets _ engines mirrored
  have he : StartKept s engines := .ite _ (.of_sched rfl rfl rfl) (.refl s)
  have hm : StartKept s mirrored := .ite _ (he.trans (startKept_mirrorOp ..)) he
  exact .ite _ (hm.trans (startKept_enqueueRows ..)) hm

/-- Settles O39: the start enters the operator with its cores and drops its reservation, and what follows keeps both, memory and time. -/
theorem startTakesCores : Obligations.StartTakesCores := by
  unfold Obligations.StartTakesCores
  intro s op first n e
  obtain ⟨t, f, ports, turn, ht, hf, heq⟩ := s.startOn_eq op e first n
  have hmem : t.memsys = s.memsys := ht ▸ s.countStart_memsys op e n
  have hnow : t.now = s.now := ht ▸ s.countStart_now op e n
  have hkept := startKept_startEffects (t.enterStarted op f) op f first n
  rw [heq, hkept.ops, hkept.reservations, hkept.memsys, hkept.now, State.enterStarted_memsys, State.enterStarted_now]
  refine ⟨f, t.enterStarted_entry op f, ?_, ?_, ?_, ?_, ?_, t.enterStarted_reservations op f, hmem, hnow⟩
  · rw [hf, State.startedEntry_phase]
  · rw [hf, State.startedEntry_startedAt, hnow]
  · rw [hf, State.startedEntry_coreFirst]
  · rw [hf, State.startedEntry_coreCount]
  · rw [hf, State.startedEntry_ctx, State.asPlaced_ctx]

end Sys2Proof.Machine
end

section
namespace Sys2Proof.Machine

/-! ### Issue (R230, R235, R238) -/

/-- A context after its queue `q` has been issued from at time `now`, as the `n`-th issue of the module. -/
def Ctx.issuedTo (x : Ctx) (q n now : Nat) : Ctx :=
  { x with qhead := updAt x.qhead q (fun h => (h + 1) % 2 ^ 32), lastIssued := n, issuedAt := now }

section
variable (s : State) (c q : Nat) (desc : BitVec 1024) (rest : Except Code (List Byte))

/-- The operator enters the list with the next number; an owner of its stream that is another context is its code (R238). -/
theorem State.issue_entry : ∃ e, NMap.get? (s.issue c q desc rest).sched.ops s.sched.nextOp = some e ∧ e.ctx = c ∧ e.queue = q ∧ e.desc = desc ∧
    e.phase = .issued ∧ e.gen = (s.ctx c).gen ∧
    ((∃ b, NMap.get? s.ctxs.streams (OpDesc.stream desc) = some b ∧ b.ctx ≠ c) → e.code = cStreamOwner) ∧
    ((∀ b, NMap.get? s.ctxs.streams (OpDesc.stream desc) = some b → b.ctx = c) → (∃ l, rest = .ok l) → e.code = cOk) := by
  refine ⟨_, NMap.get?_set_same .., rfl, rfl, rfl, rfl, rfl, ?_, ?_⟩
  · rintro ⟨b, hb, hne⟩
    simp [hb, hne]
  · rintro hown ⟨l, rfl⟩
    cases hb : NMap.get? s.ctxs.streams (OpDesc.stream desc) with
    | none => simp
    | some b => simp [hown b hb]

theorem State.issue_ops_other {j : Nat} (h : j ≠ s.sched.nextOp) :
    NMap.get? (s.issue c q desc rest).sched.ops j = NMap.get? s.sched.ops j := NMap.get?_set_other _ _ _ _ h

/-- The head of the queue advances, and the context notes when it was issued to. -/
theorem State.issue_ctx_same : (s.issue c q desc rest).ctx c = (s.ctx c).issuedTo q (s.ctxs.issueCount + 1) s.now :=
  State.ctx_updCtx_same s c (fun x => x.issuedTo q (s.ctxs.issueCount + 1) s.now)

theorem State.issue_ctx_other {j : Nat} (h : j ≠ c) : (s.issue c q desc rest).ctx j = s.ctx j :=
  State.ctx_updCtx_other s c j (fun x => x.issuedTo q (s.ctxs.issueCount + 1) s.now) h

/-- After the issue the operator's stream is bound (R238). -/
theorem State.issue_binds_stream : (NMap.get? (s.issue c q desc rest).ctxs.streams (OpDesc.stream desc)).isSome = true := by
  change (NMap.get? (if (NMap.get? s.ctxs.streams (OpDesc.stream desc)).isNone then _ else _) _).isSome = true
  split
  · rw [NMap.get?_set_same]
    rfl
  · next h => simpa [Option.isSome_iff_ne_none] using h

end

/-- Settles O37: the entry the issue puts into the list, and what it leaves of the other operators, the contexts and the streams. -/
theorem issueEntersTheList : Obligations.IssueEntersTheList := by
  unfold Obligations.IssueEntersTheList
  intro s c q desc rest
  exact ⟨rfl, s.issue_entry c q desc rest, fun j hj => s.issue_ops_other c q desc rest hj, congrArg Ctx.qhead (s.issue_ctx_same c q desc rest),
    fun j hj => s.issue_ctx_other c q desc rest hj, s.issue_binds_stream c q desc rest, rfl, rfl⟩

end Sys2Proof.Machine
end

section
namespace Sys2Proof.Machine

/-! ### What leaves every other context alone (R237) -/

/-- `t` differs from `s` in no other context than `c`, nor in memory, the scheduler and the runs. -/
def OnlyCtx (c : Nat) (s t : State) : Prop :=
  (∀ d, d ≠ c → t.ctx d = s.ctx d) ∧ t.memsys = s.memsys ∧ t.sched = s.sched ∧ t.runs = s.runs

theorem OnlyCtx.refl (c : Nat) (s : State) : OnlyCtx c s s := ⟨fun _ _ => rfl, rfl, rfl, rfl⟩

theorem OnlyCtx.trans {c : Nat} {s t u : State} (a : OnlyCtx c s t) (b : OnlyCtx c t u) : OnlyCtx c s u := by
  obtain ⟨ac, am, as, ar⟩ := a
  obtain ⟨bc, bm, bs, br⟩ := b
  exact ⟨fun d hd => (bc d hd).trans (ac d hd), bm.trans am, bs.trans as, br.trans ar⟩

theorem onlyCtx_updCtx (s : State) (c : Nat) (f : Ctx → Ctx) : OnlyCtx c s (s.updCtx c f) :=
  ⟨fun d hd => State.ctx_updCtx_other s c d f hd, rfl, rfl, rfl⟩

theorem onlyCtx_notice (s : State) (c port : Nat) (code : Code) (x : Nat) : OnlyCtx c s (s.notice port code x) :=
  ⟨fun _ _ => by simp, by simp, by simp, by simp⟩

@[simp] theorem State.updCtx_streams (s : State) (c : Nat) (f : Ctx → Ctx) : (s.updCtx c f).ctxs.streams = s.ctxs.streams := rfl

theorem State.ctx_setCtx_same (s : State) (c : Nat) (x : Ctx) : (s.setCtx c x).ctx c = x := State.ctx_updCtx_same s c (fun _ => x)

/-! ### A load that is asked for (R233, R234) -/

/-- A context whose load is asked for where it is not cached. -/
def Ctx.loadWanted (x : Ctx) : Ctx := { x with loading := x.loading || !x.cached }

/-- An OPEN context that is not cached is to be loaded. -/
theorem State.wantLoad_ctx_same {s : State} {c : Nat} (h : (s.ctx c).state = .open_) : (s.wantLoad c).ctx c = (s.ctx c).loadWanted := by
  by_cases hl : (!(s.ctx c).cached && !(s.ctx c).loading) = true
  · have hw : (s.wantLoad c).ctx c = { s.ctx c with loading := true } := by
      rw [State.wantLoad, if_pos (by simpa [h] using hl)]
      exact State.ctx_updCtx_same s c (fun x => { x with loading := true })
    obtain ⟨hc, -⟩ := Bool.and_eq_true_iff.1 hl
    rw [hw, Ctx.loadWanted, hc, Bool.or_true]
  · have hw : s.wantLoad c = s := if_neg (by simpa [h] using hl)
    have hv : ((s.ctx c).loading || !(s.ctx c).cached) = (s.ctx c).loading := by
      cases hc : (s.ctx c).cached <;> simp_all
    rw [hw, Ctx.loadWanted, hv]

theorem onlyCtx_wantLoad (s : State) (c : Nat) : OnlyCtx c s (s.wantLoad c) := by
  unfold State.wantLoad
  dsimp only
  split
  · exact (onlyCtx_updCtx s c (fun x => { x with loading := true })).trans ⟨fun _ _ => rfl, rfl, rfl, rfl⟩
  · exact .refl c s

@[simp] theorem State.wantLoad_streams (s : State) (c : Nat) : (s.wantLoad c).ctxs.streams = s.ctxs.streams := by
  unfold State.wantLoad
  dsimp only
  split <;> rfl

theorem State.wantLoad_runOf {s : State} {c : Nat} (h : (s.ctx c).state = .open_) : (s.wantLoad c).runOf c = s.runOf c := by
  obtain ⟨-, -, -, hr⟩ := onlyCtx_wantLoad s c
  rw [State.runOf, State.wantLoad_ctx_same h, State.run, hr]
  rfl

/-! ### The record ring of a context (R242) -/

@[simp] theorem State.foundBad_ctxs (s : State) (l : List Nat) (slot : Nat) : (s.foundBad l slot).ctxs = s.ctxs := by
  unfold State.foundBad
  split
  · rfl
  · rw [State.fault_ctxs]
    exact foldl_keeps (fun t : State => t.ctxs = s.ctxs) _ (fun t b ht => by simpa [State.lineBad, State.updMemCtr] using ht) _ _ rfl

@[simp] theorem State.foundBad_ctx_ (s : State) (l : List Nat) (slot j : Nat) : (s.foundBad l slot).ctx j = s.ctx j := by simp [State.ctx]

/-- A record written to the ring changes nothing of its context but the head of the ring. -/
theorem State.ringWrite_ctx (s : State) (c : Nat) (r : CompRec) : ∃ h, (s.ringWrite c r).ctx c = { s.ctx c with crHead := h } := by
  unfold State.ringWrite
  dsimp only
  split
  · next t ht =>
    have hc : t.ctx c = s.ctx c := congrArg (fun y : Ctxs => NMap.getD y.tab c {}) (kept_planeWrite _ _ _ _ ht).ctxs
    refine ⟨((s.ctx c).crHead + 1) % 2 ^ 32, ?_⟩
    split <;> simp [hc]
  · exact ⟨(s.ctx c).crHead, by simp⟩

/-- Waiting records that enter the ring change nothing of their context but the ring's head and the records that wait. -/
theorem State.ringDrain_ctx (s : State) (c n : Nat) : ∃ h b, (s.ringDrain c n).ctx c = { s.ctx c with crHead := h, crBuffer := b } := by
  induction n generalizing s with
  | zero => exact ⟨_, _, rfl⟩
  | succ n ih =>
    unfold State.ringDrain
    dsimp only
    split
    · exact ⟨_, _, rfl⟩
    · next r rs _ =>
      split
      · obtain ⟨h, hw⟩ := (s.setCtx c { s.ctx c with crBuffer := rs }).ringWrite_ctx c r
        obtain ⟨h', b, hd⟩ := ih ((s.setCtx c { s.ctx c with crBuffer := rs }).ringWrite c r)
        exact ⟨h', b, by rw [hd, hw, State.ctx_setCtx_same]⟩
      · exact ⟨_, _, rfl⟩

theorem State.ringDrain_of_nil {s : State} {c : Nat} (n : Nat) (h : (s.ctx c).crBuffer = []) : s.ringDrain c n = s := by
  cases n <;> simp [State.ringDrain, h]

/-! ### Doorbells of an OPEN context (R236, R237, R240) -/

/-- Stream `k` is bound and halted as `b` says. -/
def State.setStream (s : State) (k : Nat) (b : Stream) : State := { s with ctxs := { s.ctxs with streams := NMap.set s.ctxs.streams k b } }

theorem onlyCtx_setStream (s : State) (c k : Nat) (b : Stream) : OnlyCtx c s (s.setStream k b) := ⟨fun _ _ => rfl, rfl, rfl, rfl⟩

theorem idxBehind_self (a : Nat) : idxBehind a a = false := by
  have h : idxAhead a a = 0 := by unfold idxAhead; omega
  simp [idxBehind, h]

/-- A context whose queue `k` has been given the tail `v` by a doorbell on `port`. -/
def Ctx.withTail (x : Ctx) (port k v : Nat) : Ctx :=
  { x with notifyPort := port, qtail := updAt x.qtail k (fun _ => v), queueHeld := updAt x.queueHeld k (fun _ => false) }

/-- A context whose ring has been given the tail `v` by a doorbell on `port`. -/
def Ctx.withRingTail (x : Ctx) (port v : Nat) : Ctx := { x with notifyPort := port, crTail := v }

/-- Is the tail `v` refused for queue `k` of a context: not enabled, behind, or too far ahead? -/
def Ctx.refusesTail (x : Ctx) (k v : Nat) : Prop :=
  x.qen k = false ∨ idxBehind (nth x.qtail k 0) v = true ∨ 2 ^ x.qlog2 k < idxAhead (nth x.qhead k 0) v

section
variable {s : State} {port c k v : Nat} {p : BitVec 128} (hc : fld p 0 20 = c) (hk : fld p 32 3 = k) (hv : fld p 64 32 = v)
include hc hk

/-- The doorbell of a halted stream of the context ends its halt, if the context's run has no open step. -/
theorem State.applyDoorbell_of_resume {b : Stream} (h5 : k = 5) (ho : (s.ctx c).state = .open_) (hs : NMap.get? s.ctxs.streams (fld p 96 18) = some b)
    (hh : b.halted = true) (hb : b.ctx = c) (hr : (s.runOf c).openStep = none) : s.applyDoorbell port p =
      ((s.wantLoad c).setStream (fld p 96 18) { b with halted := false }).updCtx c (fun x => { x with notifyPort := port }) := by
  simp [State.applyDoorbell, hc, hk, h5, hs, hh, hb, hr, State.wantLoad_runOf ho, State.setStream]

include hv

/-- A queue's doorbell with a tail in range moves the tail; the queue is no longer held. -/
theorem State.applyDoorbell_of_tail (h4 : k < 4) (hq : (s.ctx c).qen k = true) (hb : idxBehind (nth (s.ctx c).qtail k 0) v = false)
    (ha : idxAhead (nth (s.ctx c).qhead k 0) v ≤ 2 ^ (s.ctx c).qlog2 k) :
    s.applyDoorbell port p = (s.wantLoad c).updCtx c (fun x => x.withTail port k v) := by
  simp [State.applyDoorbell, hc, hk, hv, h4, hq, hb, ha, Ctx.withTail]

/-- A refused tail leaves the context as it is, but that its load is asked for where the queue is enabled. -/
theorem State.applyDoorbell_of_refused (ho : (s.ctx c).state = .open_) (h4 : k < 4) (hr : (s.ctx c).refusesTail k v) :
    (s.applyDoorbell port p).ctx c = (if (s.ctx c).qen k then (s.ctx c).loadWanted else s.ctx c) ∧
      (s.applyDoorbell port p).ctxs.streams = s.ctxs.streams ∧ OnlyCtx c s (s.applyDoorbell port p) := by
  cases hq : (s.ctx c).qen k with
  | false =>
    have he : s.applyDoorbell port p = s.notice port cDoorbellQueue c := by simp [State.applyDoorbell, hc, hk, h4, hq]
    exact he ▸ ⟨by simp, by simp, onlyCtx_notice ..⟩
  | true =>
    cases hb : idxBehind (nth (s.ctx c).qtail k 0) v with
    | true =>
      have hne : v ≠ nth (s.ctx c).qtail k 0 := fun h => by simp [h, idxBehind_self] at hb
      have he : s.applyDoorbell port p = s.wantLoad c := by simp [State.applyDoorbell, hc, hk, hv, h4, hq, hb, hne]
      exact he ▸ ⟨State.wantLoad_ctx_same ho, by simp, onlyCtx_wantLoad ..⟩
    | false =>
      have ha : 2 ^ (s.ctx c).qlog2 k < idxAhead (nth (s.ctx c).qhead k 0) v := by simpa [Ctx.refusesTail, hq, hb] using hr
      have he : s.applyDoorbell port p = (s.wantLoad c).notice port cQueueOverrun c := by
        simp [State.applyDoorbell, hc, hk, hv, h4, hq, hb, ha]
      exact he ▸ ⟨by simp [State.wantLoad_ctx_same ho], by simp, (onlyCtx_wantLoad ..).trans (onlyCtx_notice ..)⟩

/-- The ring's doorbell moves its tail; records that wait enter the ring. -/
theorem State.applyDoorbell_of_ring (h4 : k = 4) (hb : idxBehind (s.ctx c).crTail v = false) (ha : idxAhead (s.ctx c).crTail v ≤ (s.ctx c).ringUsed) :
    ∃ n, s.applyDoorbell port p = ((s.wantLoad c).updCtx c (fun x => x.withRingTail port v)).ringDrain c n := by
  refine ⟨((s.wantLoad c).ctx c).crBuffer.length + 1, ?_⟩
  simp [State.applyDoorbell, hc, hk, hv, h4, hb, Nat.not_lt.2 ha, Ctx.withRingTail]

end

/-! ### The rows of doorbells (Table 9.4) -/

@[simp] theorem State.takeDoorbell_ctxs (s : State) (port : Nat) (p : BitVec 128) : (s.takeDoorbell port p).ctxs = s.ctxs := State.updLink_ctxs ..
@[simp] theorem State.takeDoorbell_ctx (s : State) (port : Nat) (p : BitVec 128) (c : Nat) : (s.takeDoorbell port p).ctx c = s.ctx c :=
  State.updLink_ctx_ ..
@[simp] theorem State.takeDoorbell_runOf (s : State) (port : Nat) (p : BitVec 128) (c : Nat) : (s.takeDoorbell port p).runOf c = s.runOf c := by
  rw [State.runOf, State.takeDoorbell_ctx]
  exact State.updLink_run_ ..

theorem onlyCtx_takeDoorbell (s : State) (port : Nat) (p : BitVec 128) (c : Nat) : OnlyCtx c s (s.takeDoorbell port p) :=
  ⟨fun _ _ => State.takeDoorbell_ctx .., State.updLink_memsys .., State.updLink_sched .., State.updLink_runs ..⟩

/-- The command of each row of doorbells, with the row's kinds. -/
def doorbellRows (port : Nat) (gen : Byte) (p : BitVec 128) : List (Instr × List Nat) :=
  [(.doorbellQueueTail port gen p, [0, 1, 2, 3]), (.doorbellRingTail port gen p, [4]), (.doorbellResumeStream port gen p, [5])]

section
variable {s : State} {port c : Nat} {gen : Byte} {p : BitVec 128} {ks : List Nat} (hk : s.doorbellOk port gen p ks = true)
include hk

theorem State.kind_of_doorbellOk : fld p 32 3 ∈ ks := by
  simp only [State.doorbellOk, Bool.and_eq_true, List.contains_iff_mem] at hk
  obtain ⟨⟨⟨⟨⟨-, h⟩, -⟩, -⟩, -⟩, -⟩ := hk
  exact h

theorem kind_lt_four_of_doorbellOk (h : ks = [0, 1, 2, 3]) : fld p 32 3 < 4 := by
  have hm := State.kind_of_doorbellOk hk
  simp only [h, List.mem_cons, List.not_mem_nil, or_false] at hm
  omega

variable {i : Instr} (hi : (i, ks) ∈ doorbellRows port gen p)
include hi

/-- A well-formed doorbell of a row's kinds leaves its buffer and is taken by its context. -/
theorem exec_doorbell_of_ok : exec i s = .next ((s.takeDoorbell port p).doorbell port gen p) := by
  simp only [doorbellRows, List.mem_cons, Prod.mk.injEq, List.not_mem_nil, or_false] at hi
  obtain ⟨rfl, rfl⟩ | ⟨rfl, rfl⟩ | ⟨rfl, rfl⟩ := hi
  · exact if_pos hk
  · exact if_pos hk
  · exact if_pos hk

variable (hc : fld p 0 20 = c)
include hc

/-- A doorbell with the right tag for an OPEN context is applied. -/
theorem exec_doorbell_of_open (hs : (s.ctx c).state = .open_) (hg : gen = (s.ctx c).gen) :
    exec i s = .next ((s.takeDoorbell port p).applyDoorbell port p) := by
  rw [exec_doorbell_of_ok hk hi]
  simp [State.doorbell, hc, hs, hg]

/-- A doorbell with a wrong tag is counted as late, and nothing else changes in the context. -/
theorem gives_doorbell_of_lateTag (hs : (s.ctx c).state = .open_ ∨ (s.ctx c).state = .resetting) (hg : gen ≠ (s.ctx c).gen) :
    Gives i s (fun t => t.ctx c = { s.ctx c with lateDrops := sat32 ((s.ctx c).lateDrops + 1) } ∧ OnlyCtx c s t) := by
  refine ⟨(s.takeDoorbell port p).lateDrop c, ?_, by simp [State.lateDrop], (onlyCtx_takeDoorbell ..).trans (onlyCtx_updCtx ..)⟩
  rw [exec_doorbell_of_ok hk hi]
  obtain hs | hs := hs <;> simp [State.doorbell, hc, hs, hg]

/-- A RESETTING context holds its doorbells. -/
theorem gives_doorbell_of_resetting (hs : (s.ctx c).state = .resetting) (hg : gen = (s.ctx c).gen) :
    Gives i s (fun t => t.ctx c = { s.ctx c with heldDoorbells := (s.ctx c).heldDoorbells ++ [⟨port, p⟩] } ∧ OnlyCtx c s t) := by
  refine ⟨(s.takeDoorbell port p).updCtx c (fun x => { x with heldDoorbells := x.heldDoorbells ++ [⟨port, p⟩] }), ?_, by simp,
    (onlyCtx_takeDoorbell ..).trans (onlyCtx_updCtx ..)⟩
  rw [exec_doorbell_of_ok hk hi]
  simp [State.doorbell, hc, hs, hg]

end

/-! ### What each doorbell of an OPEN context gives (R234 to R237, R240) -/

theorem onlyCtx_takeDoorbell_wantLoad (s : State) (port : Nat) (p : BitVec 128) (c : Nat) : OnlyCtx c s ((s.takeDoorbell port p).wantLoad c) :=
  (onlyCtx_takeDoorbell ..).trans (onlyCtx_wantLoad ..)

section
variable {s : State} {port c k v : Nat} {gen : Byte} {p : BitVec 128} (hc : fld p 0 20 = c) (ho : (s.ctx c).state = .open_) (hg : gen = (s.ctx c).gen)
include ho

theorem State.takeDoorbell_wantLoad_ctx (port : Nat) (p : BitVec 128) :
    ((s.takeDoorbell port p).wantLoad c).ctx c = (s.ctx c).loadWanted := by
  rw [State.wantLoad_ctx_same (by simpa using ho), State.takeDoorbell_ctx]

include hc hg

theorem gives_doorbellResumeStream {b : Stream} (hd : s.doorbellOk port gen p [5] = true) (hs : NMap.get? s.ctxs.streams (fld p 96 18) = some b)
    (hh : b.halted = true) (hb : b.ctx = c) (hr : (s.runOf c).openStep = none) :
    Gives (.doorbellResumeStream port gen p) s (fun t => NMap.get? t.ctxs.streams (fld p 96 18) = some { b with halted := false } ∧
      (∀ j, j ≠ fld p 96 18 → NMap.get? t.ctxs.streams j = NMap.get? s.ctxs.streams j) ∧
      (t.ctx c).loading = ((s.ctx c).loading || !(s.ctx c).cached) ∧ OnlyCtx c s t) := by
  have he := exec_doorbell_of_open (i := .doorbellResumeStream port gen p) hd (by simp [doorbellRows]) hc ho hg
  rw [State.applyDoorbell_of_resume hc rfl (by simpa using State.kind_of_doorbellOk hd) (by simpa using ho) (by simpa using hs) hh hb
    (by simpa using hr)] at he
  refine ⟨_, he, NMap.get?_set_same .., fun j hj => (NMap.get?_set_other _ _ _ _ hj).trans (by simp), ?_,
    ((onlyCtx_takeDoorbell_wantLoad ..).trans (onlyCtx_setStream ..)).trans (onlyCtx_updCtx ..)⟩
  rw [State.ctx_updCtx_same]
  exact congrArg Ctx.loading (State.takeDoorbell_wantLoad_ctx ho port p)

variable (hv : fld p 64 32 = v)
include hv

theorem gives_doorbellRingTail (hd : s.doorbellOk port gen p [4] = true) (hb : idxBehind (s.ctx c).crTail v = false)
    (ha : idxAhead (s.ctx c).crTail v ≤ (s.ctx c).ringUsed) :
    Gives (.doorbellRingTail port gen p) s (fun t => (t.ctx c).crTail = v ∧ (t.ctx c).notifyPort = port ∧
      (t.ctx c).loading = ((s.ctx c).loading || !(s.ctx c).cached) ∧
      ((s.ctx c).crBuffer = [] → (t.ctx c).crHead = (s.ctx c).crHead ∧ t.ctxs.streams = s.ctxs.streams ∧ OnlyCtx c s t)) := by
  have he := exec_doorbell_of_open (i := .doorbellRingTail port gen p) hd (by simp [doorbellRows]) hc ho hg
  obtain ⟨n, hn⟩ := State.applyDoorbell_of_ring (s := s.takeDoorbell port p) (port := port) hc rfl hv (by simpa using State.kind_of_doorbellOk hd)
    (by simpa using hb) (by simpa using ha)
  rw [hn] at he
  have hx : (((s.takeDoorbell port p).wantLoad c).updCtx c (fun x => x.withRingTail port v)).ctx c = (s.ctx c).loadWanted.withRingTail port v := by
    rw [State.ctx_updCtx_same, State.takeDoorbell_wantLoad_ctx ho]
  obtain ⟨h, b, hr⟩ := (((s.takeDoorbell port p).wantLoad c).updCtx c (fun x => x.withRingTail port v)).ringDrain_ctx c n
  rw [hx] at hr
  refine ⟨_, he, congrArg Ctx.crTail hr, congrArg Ctx.notifyPort hr, congrArg Ctx.loading hr, fun hnil => ?_⟩
  rw [State.ringDrain_of_nil n (by rw [hx]; exact hnil)]
  exact ⟨(congrArg Ctx.crHead hx :), by simp, (onlyCtx_takeDoorbell_wantLoad ..).trans (onlyCtx_updCtx ..)⟩

variable (hk : fld p 32 3 = k) (hd : s.doorbellOk port gen p [0, 1, 2, 3] = true)
include hk hd

theorem gives_doorbellQueueTail_of_tail (hq : (s.ctx c).qen k = true) (hb : idxBehind (nth (s.ctx c).qtail k 0) v = false)
    (ha : idxAhead (nth (s.ctx c).qhead k 0) v ≤ 2 ^ (s.ctx c).qlog2 k) :
    Gives (.doorbellQueueTail port gen p) s (fun t =>
      (t.ctx c).qtail = updAt (s.ctx c).qtail k (fun _ => v) ∧ (t.ctx c).qhead = (s.ctx c).qhead ∧ (t.ctx c).notifyPort = port ∧
      (t.ctx c).loading = ((s.ctx c).loading || !(s.ctx c).cached) ∧ t.ctxs.streams = s.ctxs.streams ∧ OnlyCtx c s t) := by
  have he := exec_doorbell_of_open (i := .doorbellQueueTail port gen p) hd (by simp [doorbellRows]) hc ho hg
  rw [State.applyDoorbell_of_tail hc hk hv (hk ▸ kind_lt_four_of_doorbellOk hd rfl) (by simpa using hq) (by simpa using hb)
    (by simpa using ha)] at he
  have hx : (((s.takeDoorbell port p).wantLoad c).updCtx c (fun x => x.withTail port k v)).ctx c = (s.ctx c).loadWanted.withTail port k v := by
    rw [State.ctx_updCtx_same, State.takeDoorbell_wantLoad_ctx ho]
  exact ⟨_, he, congrArg Ctx.qtail hx, (congrArg Ctx.qhead hx :), congrArg Ctx.notifyPort hx, congrArg Ctx.loading hx, by simp,
    (onlyCtx_takeDoorbell_wantLoad ..).trans (onlyCtx_updCtx ..)⟩

theorem gives_doorbellQueueTail_of_refused (hr : (s.ctx c).refusesTail k v) :
    Gives (.doorbellQueueTail port gen p) s (fun t => (t.ctx c).qtail = (s.ctx c).qtail ∧ (t.ctx c).qhead = (s.ctx c).qhead ∧
      (t.ctx c).loading = ((s.ctx c).loading || ((s.ctx c).qen k && !(s.ctx c).cached)) ∧ t.ctxs.streams = s.ctxs.streams ∧ OnlyCtx c s t) := by
  have he := exec_doorbell_of_open (i := .doorbellQueueTail port gen p) hd (by simp [doorbellRows]) hc ho hg
  obtain ⟨hx, hs, hx'⟩ := State.applyDoorbell_of_refused (s := s.takeDoorbell port p) (port := port) hc hk hv (by simpa using ho)
    (hk ▸ kind_lt_four_of_doorbellOk hd rfl) (by simpa using hr)
  rw [State.takeDoorbell_ctx] at hx
  refine ⟨_, he, ?_, ?_, ?_, hs.trans (by simp), (onlyCtx_takeDoorbell ..).trans hx'⟩
  all_goals
    rw [hx]
    cases (s.ctx c).qen k <;> simp [Ctx.loadWanted]

end

/-- Settles O44: an OPEN context with the right tag by the doorbell's kind, a wrong tag and a RESETTING context for all kinds alike. -/
theorem doorbellsTakeEffect : Obligations.DoorbellsTakeEffect := by
  unfold Obligations.DoorbellsTakeEffect
  intro s port gen p
  exact ⟨fun hd ho hg hq hb ha => gives_doorbellQueueTail_of_tail rfl ho hg rfl rfl hd hq hb ha,
    fun hd ho hg hr => gives_doorbellQueueTail_of_refused rfl ho hg rfl rfl hd hr,
    fun hd ho hg hb ha => gives_doorbellRingTail rfl ho hg rfl hd hb ha,
    fun b hd ho hg hs hh hb hr => gives_doorbellResumeStream rfl ho hg hd hs hh hb hr,
    fun i ks hi hd hs => ⟨gives_doorbell_of_lateTag hd hi rfl hs, fun hg hr => gives_doorbell_of_resetting hd hi rfl hr hg⟩⟩

end Sys2Proof.Machine
end

section
namespace Sys2Proof.Machine

/-! ### Contexts that are updated twice -/

theorem NMap.set_set {α : Type} (m : NMap α) (k : Nat) (v w : α) : NMap.set (NMap.set m k v) k w = NMap.set m k w := by
  induction m with
  | nil => simp [NMap.set]
  | cons e r ih =>
    obtain ⟨j, u⟩ := e
    by_cases h1 : k < j
    · simp [NMap.set, h1]
    · by_cases h2 : j = k
      · simp [NMap.set, h2]
      · simp [NMap.set, h1, h2, ih]

theorem State.updCtx_updCtx (s : State) (c : Nat) (f g : Ctx → Ctx) : (s.updCtx c f).updCtx c g = s.updCtx c (fun x => g (f x)) := by
  simp [State.updCtx, State.setCtx, State.ctx, NMap.set_set]

/-! ### The tag of a context (R250) -/

/-- A context whose tag last advanced 50 µs ago or earlier, or never, takes the next tag. -/
theorem Ctx.advanceTag_of_free {x : Ctx} {now : Nat} (h : ∀ t, x.tagAt = some t → t + tagGap ≤ now) :
    x.advanceTag now = { x with gen := x.gen + 1, tagAt := some now } := by
  refine if_neg fun ha => ?_
  obtain ⟨t, ht, hlt⟩ := (Option.any_eq_true _ _).1 ha
  exact Nat.not_lt.2 (h t ht) (of_decide_eq_true hlt)

/-- A tag that advanced less than 50 µs ago waits. -/
theorem Ctx.advanceTag_of_recent {x : Ctx} {now t : Nat} (ht : x.tagAt = some t) (h : now < t + tagGap) :
    x.advanceTag now = { x with tagDue := true } :=
  if_pos ((Option.any_eq_true _ _).2 ⟨t, ht, decide_eq_true h⟩)

@[simp] theorem Ctx.advanceTag_state (x : Ctx) (now : Nat) : (x.advanceTag now).state = x.state := by
  unfold Ctx.advanceTag
  split <;> rfl

@[simp] theorem Ctx.advanceTag_desc (x : Ctx) (now : Nat) : (x.advanceTag now).desc = x.desc := by
  unfold Ctx.advanceTag
  split <;> rfl

/-- What an advance does to a tag depends on the tag and its last advance alone. -/
theorem Ctx.advanceTag_gen_congr {x y : Ctx} (hg : x.gen = y.gen) (ht : x.tagAt = y.tagAt) (now : Nat) :
    (x.advanceTag now).gen = (y.advanceTag now).gen := by
  unfold Ctx.advanceTag
  rw [ht]
  split
  · exact hg
  · exact congrArg (· + 1) hg

theorem State.tagCatchUp_of_not_due {s : State} {c : Nat} (h : (s.ctx c).tagDue = false) : s.tagCatchUp c = s := by
  simp [State.tagCatchUp, h]

theorem State.tagCatchUp_gen (s : State) (c : Nat) :
    ((s.tagCatchUp c).ctx c).gen = if (s.ctx c).tagDue then (s.ctx c).gen + 1 else (s.ctx c).gen := by
  unfold State.tagCatchUp
  cases h : (s.ctx c).tagDue with
  | false => rfl
  | true => simp only [Bool.not_true, Bool.false_eq_true, if_false, if_true, State.ctx_updCtx_same, State.advanceTo_ctx_]

theorem onlyCtx_advanceTo (s : State) (c n : Nat) : OnlyCtx c s (s.advanceTo n) := ⟨fun _ _ => rfl, rfl, rfl, rfl⟩

theorem onlyCtx_tagCatchUp (s : State) (c : Nat) : OnlyCtx c s (s.tagCatchUp c) := by
  unfold State.tagCatchUp
  split
  · exact .refl c s
  · exact (onlyCtx_advanceTo ..).trans (onlyCtx_updCtx ..)

/-! ### The reset of a context without operators (R251) -/

/-- A context in reset since `now`, whose operators ran on `cores`. -/
def Ctx.reset (x : Ctx) (cores : List Nat) (now : Nat) : Ctx := { x with state := .resetting, resetCores := cores, resetAt := now }.advanceTag now

theorem Ctx.reset_gen (x : Ctx) (cores : List Nat) (now : Nat) : (x.reset cores now).gen = (x.advanceTag now).gen := by
  apply Ctx.advanceTag_gen_congr
  · rfl
  · rfl

@[simp] theorem Ctx.reset_state (x : Ctx) (cores : List Nat) (now : Nat) : (x.reset cores now).state = .resetting := Ctx.advanceTag_state ..

/-- With no operator of the context, a reset changes the context, halts its streams, cuts its stack and flags its run. -/
theorem State.resetCtx_of_no_ops {s : State} {c : Nat} (h : s.opsOf c = []) : ∃ slot, s.resetCtx c =
    (((s.updCtx c (fun x => x.reset (s.coresOf c) s.now)).haltStreams c true).setStack c ((s.stackOf c).cut (s.stackOf c).floor)).fault slot := by
  have hu : ∀ f, (s.updCtx c f).opsOf c = [] := fun _ => h
  unfold State.resetCtx
  simp only [hu, List.foldl_nil, State.updCtx_updCtx]
  exact ⟨_, rfl⟩

/-- A stream of the context is halted after its streams have been halted. -/
theorem State.haltStreams_halted {s : State} {c k : Nat} {b : Stream} (h : NMap.get? (s.haltStreams c true).ctxs.streams k = some b) (hb : b.ctx = c) :
    b.halted = true := by
  obtain ⟨j, hj⟩ := NMap.mem_of_get? h
  obtain ⟨e, -, he⟩ := List.mem_map.1 hj
  by_cases hc : e.2.ctx = c
  · rw [if_pos (by simpa using hc)] at he
    exact congrArg (fun x : Nat × Stream => x.2.halted) he.symm
  · rw [if_neg (by simpa using hc)] at he
    exact absurd (he ▸ hb) hc

@[simp] theorem State.haltStreams_ctx (s : State) (c : Nat) (h : Bool) (j : Nat) : (s.haltStreams c h).ctx j = s.ctx j := rfl
@[simp] theorem State.setStack_ctx (s : State) (c : Nat) (k : Stack) (j : Nat) : (s.setStack c k).ctx j = s.ctx j := rfl
@[simp] theorem State.setStack_streams (s : State) (c : Nat) (k : Stack) : (s.setStack c k).ctxs.streams = s.ctxs.streams := rfl

theorem resetCtx_holds {s : State} {c : Nat} (h : s.opsOf c = []) :
    ((s.resetCtx c).ctx c).state = .resetting ∧ ((s.resetCtx c).ctx c).gen = ((s.ctx c).advanceTag s.now).gen ∧ (s.resetCtx c).sched = s.sched ∧
    (s.resetCtx c).memsys = s.memsys ∧ (s.resetCtx c).stackOf c = (s.stackOf c).cut (s.stackOf c).floor ∧
    (∀ k b, NMap.get? (s.resetCtx c).ctxs.streams k = some b → b.ctx = c → b.halted = true) := by
  obtain ⟨slot, he⟩ := State.resetCtx_of_no_ops h
  rw [he]
  refine ⟨by simp, by simp [Ctx.reset_gen], by simp, by simp, by simp, fun k b hb hc => ?_⟩
  rw [State.fault_ctxs, State.setStack_streams] at hb
  exact State.haltStreams_halted hb hc

/-! ### The release of a context without operators (R252) -/

/-- A context in release since `now`: it leaves the cache, and what waits for it is dropped. -/
def Ctx.release (x : Ctx) (now : Nat) : Ctx :=
  { ({ x with state := .releasing, resetAt := now } : Ctx).advanceTag now with cached := false, loading := false, heldDoorbells := [], crBuffer := [] }

theorem Ctx.release_state (x : Ctx) (now : Nat) : (x.release now).state = .releasing := Ctx.advanceTag_state ..

theorem Ctx.release_gen (x : Ctx) (now : Nat) : (x.release now).gen = (x.advanceTag now).gen := by
  apply Ctx.advanceTag_gen_congr
  · rfl
  · rfl

/-- Context `c` without its key, its streams and its stack; `g` are the grants. -/
def State.stripCtx (s : State) (c : Nat) (g : NMap Grant) : State :=
  { s with
    memsys := { s.memsys with keys := NMap.erase s.memsys.keys (s.ctx c).keySlot, grants := g }
    ctxs := { s.ctxs with streams := s.ctxs.streams.filter (fun e => e.2.ctx != c), stackTab := NMap.erase s.ctxs.stackTab c } }

/-- With no operator of the context, which is no suspect, a release changes the context, takes what it holds, and flags its run. -/
theorem State.releaseCtx_of_no_ops {s : State} {c : Nat} (h : s.opsOf c = []) (hq : s.sched.quarantine.suspects.contains c = false) :
    ∃ g slot, s.releaseCtx c = ((s.stripCtx c g).updCtx c (fun x => x.release s.now)).fault slot := by
  have hops : ∀ f m, ({ s.updCtx c f with memsys := m } : State).opsOf c = [] := fun _ _ => h
  have hupd : ∀ f g m, ({ s.updCtx c f with memsys := m } : State).updCtx c g = { s.updCtx c (fun x => g (f x)) with memsys := m } :=
    fun f g m => congrArg (fun t : State => ({ t with memsys := m } : State)) (State.updCtx_updCtx s c f g)
  have hn : ¬ s.sched.quarantine.suspects.contains c = true := Bool.eq_false_iff.1 hq
  unfold State.releaseCtx
  simp only [hops, List.foldl_nil, hupd]
  cases (s.ctx c).loaded with
  | false => exact ⟨s.memsys.grants, _, congrArg (State.fault · _) (if_neg hn)⟩
  | true => exact ⟨_, _, congrArg (State.fault · _) (if_neg hn)⟩

theorem releaseCtx_holds {s : State} {c : Nat} (h : s.opsOf c = []) (hq : s.sched.quarantine.suspects.contains c = false) :
    ((s.releaseCtx c).ctx c).state = .releasing ∧ ((s.releaseCtx c).ctx c).gen = ((s.ctx c).advanceTag s.now).gen ∧
    ((s.releaseCtx c).ctx c).cached = false ∧ (s.releaseCtx c).memsys.keys = NMap.erase s.memsys.keys (s.ctx c).keySlot ∧
    (s.releaseCtx c).memsys.mem = s.memsys.mem ∧ (s.releaseCtx c).stackOf c = {} ∧
    (∀ k b, NMap.get? (s.releaseCtx c).ctxs.streams k = some b → b.ctx ≠ c) := by
  obtain ⟨g, slot, he⟩ := State.releaseCtx_of_no_ops h hq
  have hx : ((s.stripCtx c g).updCtx c (fun x => x.release s.now)).ctx c = (s.ctx c).release s.now := State.ctx_updCtx_same ..
  rw [he, State.fault_ctx_, State.fault_memsys, State.fault_stackOf_, State.fault_ctxs, hx]
  refine ⟨Ctx.release_state .., Ctx.release_gen .., rfl, rfl, rfl, ?_, fun k b hb => ?_⟩
  · exact congrArg (Option.getD · {}) (NMap.get?_erase_same s.ctxs.stackTab c)
  · obtain ⟨j, hj⟩ := NMap.mem_of_get? hb
    simpa using (List.mem_filter.1 hj).2

/-! ### The ends of a reset and of a release (R251 to R253) -/

/-- A reset that holds nothing back ends with the context OPEN. -/
theorem gives_contextResetDone {s : State} {c : Nat} (hs : (s.ctx c).state = .resetting) (hd : (s.ctx c).heldDoorbells = []) (hp : (s.ctx c).pend = none)
    (ht : (s.ctx c).tagDue = false) : Gives (.contextResetDone c) s (fun t => t.ctx c = { s.ctx c with state := .open_, resetAt := s.now } ∧
      (∀ d, d ≠ c → t.ctx d = s.ctx d) ∧ t.memsys = s.memsys ∧ t.ctxs.streams = s.ctxs.streams) := by
  refine ⟨s.updCtx c (fun x => { x with state := .open_, heldDoorbells := [], pend := none, resetAt := s.now }), ?_, ?_,
    fun d hdc => State.ctx_updCtx_other _ _ _ _ hdc, rfl, rfl⟩
  · change execContextResetDone c s = _
    simp [execContextResetDone, hs, hd, hp, State.tagCatchUp_of_not_due ht]
  · rw [State.ctx_updCtx_same, ← hd, ← hp]

/-- What the end of a release leaves of a context: its descriptor, its tag as in `y`, and the request to open that waited. -/
def Ctx.released (x y : Ctx) : Ctx :=
  { desc := x.desc, gen := y.gen, tagAt := y.tagAt, state := if x.pend = some .open_ then .open_ else .free }

/-- A release ends with the context FREE, or OPEN where that has been asked for. -/
theorem gives_contextReleaseDone {s : State} {c : Nat} (hs : (s.ctx c).state = .releasing) :
    Gives (.contextReleaseDone c) s (fun t => (t.ctx c).state = (if (s.ctx c).pend = some .open_ then .open_ else .free) ∧
      (t.ctx c).desc = (s.ctx c).desc ∧ (t.ctx c).gen = (if (s.ctx c).tagDue then (s.ctx c).gen + 1 else (s.ctx c).gen) ∧
      (t.ctx c).loaded = false ∧ (t.ctx c).regions = ({} : Ctx).regions ∧ (∀ d, d ≠ c → t.ctx d = s.ctx d) ∧ t.memsys = s.memsys) := by
  obtain ⟨hothers, hmem, -, -⟩ := onlyCtx_tagCatchUp s c
  refine ⟨(s.tagCatchUp c).setCtx c ((s.ctx c).released ((s.tagCatchUp c).ctx c)), ?_, ?_⟩
  · change execContextReleaseDone c s = _
    simp [execContextReleaseDone, hs, Ctx.released]
  · simp only [State.ctx_setCtx_same]
    exact ⟨rfl, rfl, State.tagCatchUp_gen s c, rfl, rfl, fun d hd => (State.ctx_updCtx_other _ _ _ (fun _ => _) hd).trans (hothers d hd), hmem⟩

/-! ### Requests (R232, R251 to R253) -/

@[simp] theorem State.forWrite_fuses (s : State) (q : Req) : (s.forWrite q).fuses = s.fuses := by simp [State.forWrite, State.opened]

section
variable {s : State} {q : Req} {v : BitVec 32} (h : Writes s q 0x7100 2 4) (hr : s.released = true) (hz : fld v 24 8 = 0)
include h hr hz

/-- A FREE context opens. -/
theorem gives_contextOpen_of_free (hk : cmdKind v = 1) (hl : lcState s.fuses.shadow = 2) (hs : (s.ctx (cmdCtx v)).state = .free) :
    Gives (.contextOpen q v) s (fun t => t.ctx (cmdCtx v) = { s.ctx (cmdCtx v) with state := .open_ } ∧
      (∀ d, d ≠ cmdCtx v → t.ctx d = s.ctx d) ∧ t.memsys = s.memsys) := by
  refine gives_of_writes (bs := leBytes 4 v.toNat) (u := (s.forWrite q).updCtx (cmdCtx v) (fun x => { x with state := .open_ })) (c := cOk) h
    (if_neg (by simp [hk])) ?_ (fun r => ⟨by simp, fun d hd => by simp [State.ctx_updCtx_other _ _ _ _ hd], by simp⟩)
  simp [State.serves, hr, hl, hz, hs]

/-- An OPEN context is reset. -/
theorem exec_contextReset_request (hk : cmdKind v = 2) (hs : (s.ctx (cmdCtx v)).state = .open_) :
    exec (.contextReset (.request q v)) s = .next (((s.forWrite q).resetCtx (cmdCtx v)).answered q 2 0x7100 2) :=
  exec_of_writes (bs := leBytes 4 v.toNat) (c := cOk) h (if_neg (by simp [hk])) (by simp [hr, hz, hs])

/-- An OPEN or HALTED context is released. -/
theorem exec_contextRelease (hk : cmdKind v = 3) (hs : (s.ctx (cmdCtx v)).state = .open_ ∨ (s.ctx (cmdCtx v)).state = .halted) :
    exec (.contextRelease q v) s = .next (((s.forWrite q).releaseCtx (cmdCtx v)).answered q 2 0x7100 2) := by
  refine exec_of_writes (bs := leBytes 4 v.toNat) (c := cOk) h (if_neg (by simp [hk])) ?_
  obtain hs | hs := hs <;> simp [hr, hz, hs]

/-- The release of a RESETTING context waits. -/
theorem gives_contextRelease_of_resetting (hk : cmdKind v = 3) (hs : (s.ctx (cmdCtx v)).state = .resetting) (hp : (s.ctx (cmdCtx v)).pend = none) :
    Gives (.contextRelease q v) s (fun t => t.ctx (cmdCtx v) = { s.ctx (cmdCtx v) with pend := some .release }) := by
  refine gives_of_writes (bs := leBytes 4 v.toNat) (u := (s.forWrite q).updCtx (cmdCtx v) (fun x => { x with pend := some .release })) (c := cOk) h
    (if_neg (by simp [hk])) ?_ (fun r => by simp)
  simp [hr, hz, hs, hp]

/-- A RELEASING context opens once it is FREE. -/
theorem gives_contextOpen_of_releasing (hk : cmdKind v = 1) (hl : lcState s.fuses.shadow = 2) (hs : (s.ctx (cmdCtx v)).state = .releasing)
    (hp : (s.ctx (cmdCtx v)).pend = none) :
    Gives (.contextOpen q v) s (fun t => t.ctx (cmdCtx v) = { s.ctx (cmdCtx v) with pend := some .open_ }) := by
  refine gives_of_writes (bs := leBytes 4 v.toNat) (u := (s.forWrite q).updCtx (cmdCtx v) (fun x => { x with pend := some .open_ })) (c := cOk) h
    (if_neg (by simp [hk])) ?_ (fun r => by simp)
  simp [State.serves, hr, hl, hz, hs, hp]

end

theorem exec_contextReset_device {s : State} {c : Nat} (h : (s.ctx c).state = .open_) : exec (.contextReset (.device c)) s = .next (s.resetCtx c) :=
  if_pos (by simp [h])

/-- Settles O45: the requests by the state of their context, the tag by its last advance, a reset and a release step by step, and their ends. -/
theorem contextsChangeState : Obligations.ContextsChangeState := by
  unfold Obligations.ContextsChangeState
  refine ⟨fun s q v h hr hz => ⟨gives_contextOpen_of_free h hr hz, exec_contextReset_request h hr hz, exec_contextRelease h hr hz,
      gives_contextRelease_of_resetting h hr hz, gives_contextOpen_of_releasing h hr hz⟩,
    fun s c h => exec_contextReset_device h,
    fun x now => ⟨fun h => ?_, fun t ht hlt => Ctx.advanceTag_of_recent ht hlt⟩,
    fun s c h => ?_,
    fun s c hs hd hp ht => gives_contextResetDone hs hd hp ht,
    fun s c hs => gives_contextReleaseDone hs⟩
  · rw [Ctx.advanceTag_of_free h]
    exact ⟨rfl, rfl⟩
  · obtain ⟨h1, h2, h3, h4, h5, h6⟩ := resetCtx_holds h
    exact ⟨h1, h2, h3, h4, h5, h6, releaseCtx_holds h⟩

end Sys2Proof.Machine
end

section
namespace Sys2Proof.Machine

/-! ### What a LINK does to the counts of a host port (R446) -/

@[simp] theorem State.takePacket_memsys (s : State) (n : Nat) (p : Packet) : (s.takePacket n p).memsys = s.memsys := State.updLink_memsys ..
@[simp] theorem State.takePacket_sched (s : State) (n : Nat) (p : Packet) : (s.takePacket n p).sched = s.sched := State.updLink_sched ..
@[simp] theorem State.takePacket_readOf (s : State) (n m tag : Nat) (p : Packet) : (s.takePacket n p).readOf m tag = s.readOf m tag := by
  simp [State.readOf]

/-- A packet that leaves the receive buffer of its port frees its units there; the rest of the link stays. -/
theorem State.takePacket_link (s : State) (n : Nat) (p : Packet) :
    ∃ rx f, (s.takePacket n p).link (.host n) = { s.link (.host n) with rx := rx, freedUnits := f } := by
  unfold State.takePacket
  rw [State.link_updLink_same]
  split
  · exact ⟨_, _, rfl⟩
  · exact ⟨_, _, rfl⟩

/-- What the words of a LINK packet say of each class. -/
def Link.linkWords (k : Link) (bs : List Byte) : List (Nat × Nat × Bool) :=
  (List.range 8).map (fun c => if c = 0 then (0, 0, false) else k.linkWord c (leAt bs (4 * (c - 1)) 4))

/-- A word without violation puts its count in force, and is the class's capacity if it is the first. -/
theorem Link.linkWord_of_ok {k : Link} {c w : Nat} (h : (k.linkWord c w).2.2 = false) (hm : hostMin c ≠ 0) :
    k.linkWord c w = (if nth k.capUnits c 0 = 0 then w else nth k.capUnits c 0, w, false) := by
  unfold Link.linkWord at h ⊢
  dsimp only at h ⊢
  rw [if_neg hm] at h ⊢
  split
  · next hc =>
    split
    · next hw => simp [hc, hw] at h
    · rfl
  · next hc =>
    split
    · next hw =>
      rw [if_neg hc, if_pos hw] at h
      cases h
    · rfl

theorem Link.nth_linkWords (k : Link) (bs : List Byte) (f : Nat × Nat × Bool → Nat) {c : Nat} (h1 : 1 ≤ c) (h8 : c < 8) :
    nth ((k.linkWords bs).map f) c 0 = f (k.linkWord c (leAt bs (4 * (c - 1)) 4)) := by
  rw [Link.linkWords, List.map_map, nth_map_range, if_pos h8, Function.comp_apply, if_neg (by omega)]

/-- Without a violation in a word of classes 1 to 7 there is none in the packet. -/
theorem Link.linkWords_ok {k : Link} {bs : List Byte} (h : ∀ c, 1 ≤ c → c < 8 → (k.linkWord c (leAt bs (4 * (c - 1)) 4)).2.2 = false) :
    (k.linkWords bs).any (fun x => x.2.2) = false := by
  refine List.any_eq_false.2 fun x hx => ?_
  obtain ⟨c, hc, rfl⟩ := List.mem_map.1 hx
  by_cases h0 : c = 0
  · simp [h0]
  · simpa [h0] using h c (Nat.pos_of_ne_zero h0) (List.mem_range.1 hc)

/-- A link on which the words `g` of a LINK packet have come in, and the partner's violation `v`. -/
def Link.gotWords (k : Link) (g : List (Nat × Nat × Bool)) (v : Nat) : Link :=
  { k with capUnits := g.map (fun x => x.1), backUnits := g.map (fun x => x.2.1), gotLink := true, partnerViol := BitVec.ofNat 16 v }

/-- A LINK packet on a link that is UP or GUARDED leaves its buffer, and its words come in. -/
theorem exec_yalvoLink_of_live {s : State} {n : Nat} {p : Packet} (hl : (s.link (.host n)).live = true) (hp : p.cls = 0) :
    exec (.yalvoLink n p) s =
      let g := ((s.takePacket n p).link (.host n)).linkWords p.data
      let t := (s.takePacket n p).updLink (.host n) (fun k => k.gotWords g (leAt p.data 28 2))
      .next (if g.any (fun x => x.2.2) then t.violation (.host n) 6 else t) := by
  change execYalvoLink n p s = _
  simp only [execYalvoLink, hl, hp, decide_true, Bool.and_self, Bool.not_true, Bool.false_eq_true, if_false]
  rfl

/-- A LINK packet without violation puts its counts in force (R446). -/
theorem gives_yalvoLink {s : State} {n : Nat} {p : Packet} (hl : (s.link (.host n)).live = true) (hp : p.cls = 0)
    (h : ∀ c, 1 ≤ c → c < 8 → ((s.link (.host n)).linkWord c (leAt p.data (4 * (c - 1)) 4)).2.2 = false) :
    Gives (.yalvoLink n p) s (fun t => (t.link (.host n)).gotLink = true ∧
      (∀ c, 1 ≤ c → c < 8 → hostMin c ≠ 0 → nth (t.link (.host n)).backUnits c 0 = leAt p.data (4 * (c - 1)) 4 ∧
        nth (t.link (.host n)).capUnits c 0 =
          if nth (s.link (.host n)).capUnits c 0 = 0 then leAt p.data (4 * (c - 1)) 4 else nth (s.link (.host n)).capUnits c 0) ∧
      (t.link (.host n)).txq = (s.link (.host n)).txq ∧ (t.link (.host n)).ctr = (s.link (.host n)).ctr ∧ t.memsys = s.memsys ∧ t.sched = s.sched) := by
  obtain ⟨rx, f, hk⟩ := s.takePacket_link n p
  have hg : ((s.takePacket n p).link (.host n)).linkWords p.data = (s.link (.host n)).linkWords p.data := by
    rw [hk]
    rfl
  have he := exec_yalvoLink_of_live (s := s) (n := n) (p := p) hl hp
  simp only [hg, Link.linkWords_ok h, Bool.false_eq_true, if_false] at he
  refine ⟨_, he, ?_⟩
  simp only [State.link_updLink_same, hk]
  refine ⟨rfl, fun c h1 h8 hm => ?_, rfl, rfl, by simp, by simp⟩
  have hw := Link.linkWord_of_ok (h c h1 h8) hm
  exact ⟨(Link.nth_linkWords _ _ (fun x => x.2.1) h1 h8).trans (congrArg (fun x => x.2.1) hw),
    (Link.nth_linkWords _ _ (fun x => x.1) h1 h8).trans (congrArg (fun x => x.1) hw)⟩

/-- What a LINK packet says of a class: the module's capacity for it and the units freed. -/
def Link.capWord (k : Link) (c : Nat) : Nat := hostCap c + (if hostCap c = 0 then 0 else nth k.freedUnits c 0)

/-- The bytes of a LINK packet. -/
def Link.linkBytes (k : Link) : List Byte :=
  (List.range 7).flatMap (fun c => leBytes 4 (k.capWord (c + 1))) ++ leBytes 2 k.violCode.toNat ++ leBytes 2 k.violCount

theorem Link.linkBytes_length (k : Link) : k.linkBytes.length = 32 := by simp [Link.linkBytes]

theorem Link.leAt_linkBytes (k : Link) {c : Nat} (h : c < 7) : leAt k.linkBytes (4 * c) 4 = k.capWord (c + 1) % 2 ^ 32 := by
  have hw : (k.linkBytes.drop (4 * c)).take 4 = leBytes 4 (k.capWord (c + 1)) := by
    interval_cases c <;> rfl
  rw [leAt, hw, leNat_leBytes, show (256 : Nat) ^ 4 = 2 ^ 32 from by decide]

theorem gives_yalvoLinkSend {s : State} {n : Nat} (h : (s.link (.host n)).live = true) :
    Gives (.yalvoLinkSend n) s (fun t => ∃ i, (t.link (.host n)).txq = (s.link (.host n)).txq ++ [i] ∧ i.lane = 0 ∧ i.data.length = 32 ∧
      leAt i.data 12 4 = (2048 + nth (s.link (.host n)).freedUnits 4 0) % 2 ^ 32 ∧
      leAt i.data 20 4 = (512 + nth (s.link (.host n)).freedUnits 6 0) % 2 ^ 32 ∧
      (t.link (.host n)).returned = (s.link (.host n)).freedUnits ∧ t.memsys = s.memsys) := by
  have he : exec (.yalvoLinkSend n) s = .next ((s.updLink (.host n) (fun k => { k with returned := k.freedUnits, lastReturn := s.now })).hostSend n 0
      (packetHdr 0 32 0 0 0 0 0 0) (s.link (.host n)).linkBytes) := if_neg (by simp [h])
  refine ⟨_, he, ⟨0, packetHdr 0 32 0 0 0 0 0 0, (s.link (.host n)).linkBytes, s.now⟩, ?_, rfl, Link.linkBytes_length _,
    Link.leAt_linkBytes _ (by decide : 3 < 7), Link.leAt_linkBytes _ (by decide : 5 < 7), ?_, by simp⟩
  · simp [State.hostSend]
  · simp [State.hostSend]

/-! ### COMPLETIONs (R234, R250, R447, R453) -/

theorem exec_completion (n : Nat) (p : Packet) (s : State) : exec (.completion n p) s = execCompletion n p s := rfl

section
variable {s : State} {n : Nat} {p : Packet} {r : HostRead} (hu : s.hostUp n = true) (hc : p.cls = 3) (hr : s.readOf n p.tag = some r)
include hu hc hr

/-- The reply to a READ whose operator has ended loads the context, or is dropped where the context's tag has advanced. -/
theorem exec_completion_of_dropped {c : Nat} (hq : r.requester = .dropped c) : exec (.completion n p) s =
    .next (if r.gen = (s.ctx c).gen then ((s.takePacket n p).dropRead n p.tag).wantLoad c else ((s.takePacket n p).dropRead n p.tag).lateDrop c) := by
  have hctx : ((s.takePacket n p).dropRead n p.tag).ctx c = s.ctx c := State.updLink_ctx_ ..
  rw [exec_completion]
  simp [execCompletion, hu, hc, hr, hq, hctx]

/-- The reply to an expired READ is counted as late. -/
theorem gives_completion_of_expired (hq : r.requester = .expired) : Gives (.completion n p) s (fun t => t.sched = s.sched ∧
    (t.link (.host n)).ctr = { (s.link (.host n)).ctr with lateCompletions := sat32 ((s.link (.host n)).ctr.lateCompletions + 1) }) := by
  obtain ⟨rx, f, hk⟩ := s.takePacket_link n p
  refine ⟨(s.takePacket n p).countHost n (fun t => { t with lateCompletions := sat32 (t.lateCompletions + 1) }), ?_, by simp [State.countHost], ?_⟩
  · rw [exec_completion]
    simp [execCompletion, hu, hc, hr, hq]
  · simp only [State.countHost, State.link_updLink_same, hk]
    rfl

variable {id : Nat} {e : OpEntry} (hq : r.requester = .op id) (he : NMap.get? s.sched.ops id = some e)
include hq he

/-- A reply under another tag than the operator's is dropped. -/
theorem exec_completion_of_lateTag (hg : p.gen ≠ e.gen.toNat) : exec (.completion n p) s = .next ((s.takePacket n p).lateDrop e.ctx) := by
  rw [exec_completion]
  simp [execCompletion, hu, hc, hr, hq, he, hg]

variable (hg : p.gen = e.gen.toNat)
include hg

/-- An error status ends the operator. -/
theorem exec_completion_of_error (hs : p.cstatus ≠ 0) :
    exec (.completion n p) s = .next (((s.takePacket n p).dropRead n p.tag).endOp id cHostCompletionError) := by
  rw [exec_completion]
  simp [execCompletion, hu, hc, hr, hq, he, hg, hs]

/-- A reply of another length than the READ's is a violation. -/
theorem exec_completion_of_wrong_length (hs : p.cstatus = 0) (hb : p.bytes_ ≠ r.bytes) :
    exec (.completion n p) s = .next ((s.takePacket n p).violation (.host n) 7) := by
  rw [exec_completion]
  simp [execCompletion, hu, hc, hr, hq, he, hg, hs, hb]

/-- The bytes of a good reply are staged, and further READs are issued. -/
theorem exec_completion_of_data (hs : p.cstatus = 0) (hb : p.bytes_ = r.bytes) : exec (.completion n p) s =
    let u := (s.takePacket n p).dropRead n p.tag
    .next (({ u with sched := { u.sched with ops := NMap.set s.sched.ops id { e with
      staged := putCells e.staged r.addr (fitBytes r.bytes p.data) } } } : State).issueReads id) := by
  rw [exec_completion]
  simp [execCompletion, hu, hc, hr, hq, he, hg, hs, hb, State.dropRead]

end

/-! ### READs without an answer (R250, R447) -/

theorem State.le_now_advanceTo (s : State) (t : Nat) : t ≤ (s.advanceTo t).now := by
  rw [State.now_advanceTo]
  exact le_max_right ..

/-- The outstanding READs changed by `f`. -/
def State.mapReads (s : State) (f : HostRead → HostRead) : State := { s with sched := { s.sched with reads := s.sched.reads.map f } }

@[simp] theorem State.mapReads_ops (s : State) (f : HostRead → HostRead) : (s.mapReads f).sched.ops = s.sched.ops := rfl
@[simp] theorem State.mapReads_now (s : State) (f : HostRead → HostRead) : (s.mapReads f).now = s.now := rfl
@[simp] theorem State.mapReads_memsys (s : State) (f : HostRead → HostRead) : (s.mapReads f).memsys = s.memsys := rfl
@[simp] theorem State.mapReads_link (s : State) (f : HostRead → HostRead) (l : LinkRef) : (s.mapReads f).link l = s.link l := by cases l <;> rfl

/-- A READ, expired if it is the one on the tag of the port. -/
def HostRead.expireOn (n tag : Nat) (q : HostRead) : HostRead := if q.port == n && q.tag == tag then { q with requester := .expired } else q

theorem HostRead.expireOn_requester {n tag : Nat} {q : HostRead} (hn : (q.expireOn n tag).port = n) (ht : (q.expireOn n tag).tag = tag) :
    (q.expireOn n tag).requester = .expired := by
  by_cases h : (q.port == n && q.tag == tag) = true
  · rw [HostRead.expireOn, if_pos h]
  · rw [HostRead.expireOn, if_neg h] at hn ht
    exact absurd (by simp [hn, ht]) h

@[simp] theorem State.countHost_now (s : State) (n : Nat) (f : LinkCtr → LinkCtr) : (s.countHost n f).now = s.now := State.updLink_now ..
@[simp] theorem State.countHost_sched (s : State) (n : Nat) (f : LinkCtr → LinkCtr) : (s.countHost n f).sched = s.sched := State.updLink_sched ..
@[simp] theorem State.countHost_ctr (s : State) (n : Nat) (f : LinkCtr → LinkCtr) : ((s.countHost n f).link (.host n)).ctr = f (s.link (.host n)).ctr := by
  rw [State.countHost, State.link_updLink_same, Link.count]

theorem State.endOp_of_none {s : State} {id : Nat} {code : Code} (h : NMap.get? s.sched.ops id = none) : s.endOp id code = s := by
  simp [State.endOp, h]

section
variable {s : State} {n tag id : Nat} {r : HostRead} (hr : s.readOf n tag = some r) (hq : r.requester = .op id)
include hr hq

/-- After 10 ms a READ expires, and its operator ends. -/
theorem exec_hostReadTimeout_of_op : exec (.hostReadTimeout n tag) s = .next ((((s.advanceTo (r.at_ + 10 * Config.msCycles)).countHost n
    (fun t => { t with requestExpired := sat32 (t.requestExpired + 1) })).mapReads (HostRead.expireOn n tag)).endOp id cHostReadTimeout) := by
  change execHostReadTimeout n tag s = _
  simp only [execHostReadTimeout, hr, hq]
  rfl

/-- Of an operator that has ended, only the READ expires. -/
theorem gives_hostReadTimeout_of_ended (he : NMap.get? s.sched.ops id = none) : Gives (.hostReadTimeout n tag) s (fun t =>
    r.at_ + 10 * Config.msCycles ≤ t.now ∧ (∀ q ∈ t.sched.reads, q.port = n → q.tag = tag → q.requester = .expired) ∧
    (t.link (.host n)).ctr.requestExpired = sat32 ((s.link (.host n)).ctr.requestExpired + 1)) := by
  refine ⟨_, exec_hostReadTimeout_of_op hr hq, ?_⟩
  rw [State.endOp_of_none (by rwa [State.mapReads_ops, State.countHost_sched, State.advanceTo_sched])]
  refine ⟨?_, fun q hm hn ht => ?_, ?_⟩
  · rw [State.mapReads_now, State.countHost_now]
    exact s.le_now_advanceTo _
  · obtain ⟨q', -, rfl⟩ := List.mem_map.1 hm
    exact HostRead.expireOn_requester hn ht
  · rw [State.mapReads_link, State.countHost_ctr, State.advanceTo_link_]

end

/-- A READ that its port has not sent is discarded and counted (R250). -/
theorem gives_requestExpire {s : State} {n tag : Nat} {i : LinkItem}
    (h : (s.link (.host n)).txq.find? (fun i => i.lane == 2 && fld i.hdr 16 12 == tag) = some i) :
    Gives (.requestExpire n tag) s (fun t => (t.link (.host n)).txq = (s.link (.host n)).txq.erase i ∧ i.at_ + 10 * Config.msCycles ≤ t.now ∧
      (t.link (.host n)).ctr.requestExpired = sat32 ((s.link (.host n)).ctr.requestExpired + 1) ∧ t.memsys = s.memsys) := by
  have he : ∃ f, exec (.requestExpire n tag) s = .next (((s.advanceTo (i.at_ + 10 * Config.msCycles)).updLink (.host n) (fun k =>
      { k.count (fun t => { t with requestExpired := sat32 (t.requestExpired + 1) }) with txq := k.txq.erase i })).mapReads f) := by
    constructor
    change execRequestExpire n tag s = _
    simp only [execRequestExpire, h]
    rfl
  obtain ⟨f, he⟩ := he
  refine ⟨_, he, ?_, ?_, ?_, ?_⟩
  · rw [State.mapReads_link, State.link_updLink_same, State.advanceTo_link_]
  · rw [State.mapReads_now, State.updLink_now]
    exact s.le_now_advanceTo _
  · rw [State.mapReads_link, State.link_updLink_same, State.advanceTo_link_, Link.count]
  · rw [State.mapReads_memsys, State.updLink_memsys, State.advanceTo_memsys]

/-! ### GUARDED (R454) -/

theorem State.failReads_of_none {s : State} {n : Nat} (h : ∀ r ∈ s.sched.reads, r.port ≠ n) : s.failReads n = s := by
  have hids : s.sched.reads.filterMap (fun r => if r.port == n then r.requester.opId else none) = [] :=
    List.filterMap_eq_nil_iff.2 fun r hr => by simp [h r hr]
  have hreads : s.sched.reads.filter (fun r => r.port != n) = s.sched.reads := List.filter_eq_self.2 fun r hr => by simp [h r hr]
  simp only [State.failReads, hids, hreads]
  rfl

/-- A port with 64 violations within 1 ms is GUARDED, with a record. -/
theorem gives_hostPortGuarded {s : State} {n : Nat} (hs : (s.link (.host n)).state = .up) (hd : s.guardDue (.host n) = true)
    (hr : ∀ r ∈ s.sched.reads, r.port ≠ n) : Gives (.hostPortGuarded n) s (fun t => (t.link (.host n)).state = .guarded ∧
      t.vigil.nextSeq = (s.vigil.nextSeq + 1) % 2 ^ 64 ∧ t.memsys = s.memsys ∧ t.runs = s.runs) := by
  have he : exec (.hostPortGuarded n) s = .next (((s.updLink (.host n) (fun k => { k with state := .guarded })).record
      (uidLink (.host n) 0xFF) cPortGuarded 3 0).failReads n) := if_pos (by simp [hs, hd])
  rw [State.failReads_of_none (by simpa using hr)] at he
  obtain ⟨q, m, hl⟩ := State.record_link (s.updLink (.host n) (fun k => { k with state := .guarded })) (uidLink (.host n) 0xFF) cPortGuarded 3 0 {} (.host n)
  exact ⟨_, he, by rw [hl]; simp, by simp, by simp, by simp⟩

/-! ### Stale cells (R281) -/

theorem State.settle_of_no_ops {s : State} (h : s.sched.ops = []) : s.settle = s := by
  simp [State.settle, State.reserveWaiting, h, NMap.keys]

/-- Does an item wait in one of the lanes 1 to 3? -/
def LinkItem.aged (i : LinkItem) : Bool := decide (1 ≤ i.lane) && decide (i.lane ≤ 3)

/-- Has it waited longer than `age` at time `now`? -/
def LinkItem.late (age now : Nat) (i : LinkItem) : Bool := i.aged && decide (i.at_ + age < now)

/-- A link whose late items have been dropped, those of the transmit queue counted. -/
def Link.dropLate (k : Link) (age now : Nat) : Link :=
  { k with
    rx := k.rx.filter (fun i => !i.late age now)
    txq := k.txq.filter (fun i => !i.late age now)
    ctr := { k.ctr with staleCells := sat64 (k.ctr.staleCells + (k.txq.filter (LinkItem.late age now)).length) } }

/-- The earliest of a list of times that is not empty. -/
theorem foldl_min_spec (t0 : Nat) (ts : List Nat) : ts.foldl min t0 ∈ t0 :: ts ∧ ∀ t ∈ t0 :: ts, ts.foldl min t0 ≤ t :=
  List.min?_eq_some_iff.1 List.min?_cons'

section
variable {s : State} {l : LinkRef} (hl : ∀ n, l ≠ .host n) (hr : (s.link l).rx = []) (ho : s.sched.ops = []) (hc : ∀ x ∈ s.exch, x.closes = [])
include hl hr ho hc

/-- With nothing received, no operator and no CLOSE waiting, the late cells of the transmit queue are dropped, once the oldest is late. -/
theorem exec_staleCellExpire_of_queue {t0 : Nat} {ts : List Nat} {u : State} (ht : ((s.link l).txq.filter LinkItem.aged).map (·.at_) = t0 :: ts)
    (hu : s.advanceTo (ts.foldl min t0 + cellAge + 1) = u) : exec (.staleCellExpire l) s = .next (u.updLink l (fun k => k.dropLate cellAge u.now)) := by
  have htimes : s.exch.flatMap (fun x => (x.closes.filter (fun q => q.link == l)).map (·.at_)) = [] :=
    List.flatMap_eq_nil_iff.2 fun x hx => by rw [hc x hx]; rfl
  have hcloses : ∀ f : CloseCell → Bool, s.exch.flatMap (fun x => (x.closes.filter f).map (fun q => (q.src, x))) = [] :=
    fun f => List.flatMap_eq_nil_iff.2 fun x hx => by rw [hc x hx]; rfl
  have hexch : u.exch = s.exch := by rw [← hu, State.advanceTo_exch]
  change execStaleCellExpire l s = _
  unfold execStaleCellExpire
  extract_lets k aged host times
  have hts : times = t0 :: ts := by
    simp only [times, k, htimes, hr, List.nil_append, List.append_nil]
    exact ht
  have hhost : ¬ host = true := by
    cases l with
    | host n => exact absurd rfl (hl n)
    | fabric n => exact Bool.false_ne_true
    | bridge => exact Bool.false_ne_true
  rw [hts]
  refine (if_neg hhost).trans ?_
  rw [hu]
  extract_lets u' late lost old closes insts v
  have hlost : lost = [] := by simp only [lost, k, hr, List.filter_nil]
  have hcl : closes = [] := by rw [← hcloses old, ← hexch]
  have hinsts : insts = [] := by simp only [insts, hlost, hcl, State.lostInsts, List.filterMap_nil, List.append_nil]
  have hv : v = u.updLink l (fun k => k.dropLate cellAge u.now) := by
    simp only [v, hlost, hcl, List.foldl_nil, List.length_nil, Nat.zero_add]
    rfl
  rw [hinsts, List.foldl_nil, hv, State.settle_of_no_ops (by rw [State.updLink_sched, ← hu, State.advanceTo_sched, ho])]

theorem gives_staleCellExpire {i : LinkItem} (hi : i ∈ (s.link l).txq) (h1 : 1 ≤ i.lane) (h3 : i.lane ≤ 3) :
    Gives (.staleCellExpire l) s (fun t => t.now ≤ max s.now (i.at_ + cellAge + 1) ∧ (∃ j ∈ (s.link l).txq, j.late cellAge t.now = true) ∧
      (t.link l).txq = (s.link l).txq.filter (fun j => !j.late cellAge t.now) ∧ (t.link l).ctr.staleCells =
        sat64 ((s.link l).ctr.staleCells + ((s.link l).txq.filter (LinkItem.late cellAge t.now)).length) ∧ t.memsys = s.memsys ∧ t.exch = s.exch) := by
  have hm : i.at_ ∈ ((s.link l).txq.filter LinkItem.aged).map (·.at_) :=
    List.mem_map_of_mem (List.mem_filter.2 ⟨hi, by simp [LinkItem.aged, h1, h3]⟩)
  obtain ⟨t0, ts, ht⟩ := List.exists_cons_of_ne_nil (List.ne_nil_of_mem hm)
  obtain ⟨hmin, hle⟩ := foldl_min_spec t0 ts
  obtain ⟨j, hj, hjm⟩ := List.mem_map.1 (ht ▸ hmin)
  obtain ⟨hjq, hja⟩ := List.mem_filter.1 hj
  have hji : j.at_ ≤ i.at_ := hjm ▸ hle _ (ht ▸ hm)
  obtain ⟨u, hu⟩ : ∃ u, s.advanceTo (ts.foldl min t0 + cellAge + 1) = u := ⟨_, rfl⟩
  have hex := exec_staleCellExpire_of_queue hl hr ho hc ht hu
  rw [← hjm] at hu
  have hnow : u.now = max s.now (j.at_ + cellAge + 1) := by rw [← hu, State.now_advanceTo]
  have hlink : u.link l = s.link l := by rw [← hu, State.advanceTo_link_]
  refine ⟨_, hex, ?_⟩
  simp only [State.updLink_now, State.link_updLink_same, State.updLink_memsys, State.updLink_exch, hlink]
  generalize cellAge = age at hnow hu ⊢
  refine ⟨?_, ⟨j, hjq, ?_⟩, rfl, rfl, ?_, ?_⟩
  · omega
  · rw [LinkItem.late, hja, Bool.true_and, decide_eq_true_iff]
    omega
  · rw [← hu, State.advanceTo_memsys]
  · rw [← hu, State.advanceTo_exch]

end

/-- Settles O47: credit by the words of a LINK, a COMPLETION by the requester of its READ, and each expiry at its due time. -/
theorem hostPortsCarryReads : Obligations.HostPortsCarryReads := by
  unfold Obligations.HostPortsCarryReads
  exact ⟨fun s n p hl hp h => gives_yalvoLink hl hp h, fun s n h => gives_yalvoLinkSend h,
    fun s n p r id e hu hc hr => ⟨fun hq he hg => ⟨exec_completion_of_data hu hc hr hq he hg, exec_completion_of_wrong_length hu hc hr hq he hg,
        exec_completion_of_error hu hc hr hq he hg⟩, fun hq he hg => exec_completion_of_lateTag hu hc hr hq he hg,
      fun c hq => exec_completion_of_dropped hu hc hr hq, fun hq => gives_completion_of_expired hu hc hr hq⟩,
    fun s n tag id r hr hq => exec_hostReadTimeout_of_op hr hq, fun s n tag id r hr hq he => gives_hostReadTimeout_of_ended hr hq he,
    fun s n tag i h => gives_requestExpire h, fun s n hs hd hr => gives_hostPortGuarded hs hd hr,
    fun s l i hl hr hi h1 h3 ho hc => gives_staleCellExpire hl hr ho hc hi h1 h3⟩

end Sys2Proof.Machine
end

section
namespace Sys2Proof.Machine

/-! ### Fields that are written into a header -/

/-- Bit `i` after a field is written: the value's bit inside the field, what it was outside. -/
theorem getLsbD_setFld {n : Nat} (x : BitVec n) (lo len v i : Nat) :
    (setFld x lo len v).getLsbD i = if lo ≤ i ∧ i < lo + len then decide (i < n) && v.testBit (i - lo) else x.getLsbD i := by
  have hx : n ≤ i → x.getLsbD i = false := x.getLsbD_of_ge i
  have hf : (lo ≤ i ∧ i < lo + len) ↔ (lo ≤ i ∧ i - lo < len) := by omega
  simp only [setFld, BitVec.getLsbD_or, BitVec.getLsbD_and, BitVec.getLsbD_not, BitVec.getLsbD_ofNat, Nat.testBit_shiftLeft,
    Nat.testBit_two_pow_sub_one, Nat.testBit_mod_two_pow, hf]
  by_cases hi : i < n
  · by_cases hlo : lo ≤ i <;> by_cases hlen : i - lo < len <;> simp [hi, hlo, hlen]
  · simp [hi, hx (Nat.not_lt.1 hi)]

/-- The last value written into a field stays. -/
theorem setFld_setFld_same {n : Nat} (x : BitVec n) (lo len v w : Nat) : setFld (setFld x lo len v) lo len w = setFld x lo len w := by
  refine BitVec.eq_of_getLsbD_eq fun i _ => ?_
  simp only [getLsbD_setFld]
  split <;> rfl

/-- Fields that do not overlap may be written in either order. -/
theorem setFld_comm {n : Nat} (x : BitVec n) {lo len lo' len' : Nat} (v w : Nat) (h : lo + len ≤ lo' ∨ lo' + len' ≤ lo) :
    setFld (setFld x lo len v) lo' len' w = setFld (setFld x lo' len' w) lo len v := by
  refine BitVec.eq_of_getLsbD_eq fun i _ => ?_
  simp only [getLsbD_setFld]
  by_cases h1 : lo ≤ i ∧ i < lo + len
  · rw [if_neg (by omega), if_pos h1, if_pos h1]
  · rw [if_neg h1, if_neg h1]

/-- Settles O21: each of the three fields that the check value clears may have held any value. -/
theorem checkValueIgnoresHops : Obligations.CheckValueIgnoresHops := by
  unfold Obligations.CheckValueIgnoresHops
  intro c h a g
  have clear : setFld (setFld (setFld (setFld (setFld (setFld c.hdr 101 6 h) 44 4 a) 88 8 g) 101 6 0) 44 4 0) 88 8 0 =
      setFld (setFld (setFld c.hdr 101 6 0) 44 4 0) 88 8 0 := by
    rw [setFld_comm _ g 0 (.inl (by decide)), setFld_comm _ a 0 (.inl (by decide)), setFld_setFld_same, setFld_comm _ g 0 (.inr (by decide)),
      setFld_setFld_same, setFld_setFld_same]
  simp only [Cell.check, clear]

end Sys2Proof.Machine
end

section
namespace Sys2Proof.Machine

/-! ### Accounts of an instance with its peers (R278) -/

theorem ExInst.peer_key (x : ExInst) (r q : Nat) : (x.peer r q).rank = r ∧ (x.peer r q).phase = q := by
  unfold ExInst.peer
  cases h : x.peers.find? (fun p => p.rank == r && p.phase == q) with
  | none => exact ⟨rfl, rfl⟩
  | some p => simpa using List.find?_some h

/-- Looking a key up among accounts of which those of `p`'s key have become `p`. -/
theorem find?_replace_peer (l : List Peer) (p : Peer) (r q : Nat) :
    (l.map (fun o => if o.rank == p.rank && o.phase == p.phase then p else o)).find? (fun o => o.rank == r && o.phase == q) =
      if r = p.rank ∧ q = p.phase then (l.find? (fun o => o.rank == r && o.phase == q)).map (fun _ => p)
      else l.find? (fun o => o.rank == r && o.phase == q) := by
  have hkey : ((fun o : Peer => o.rank == r && o.phase == q) ∘ fun o => if o.rank == p.rank && o.phase == p.phase then p else o) =
      fun o => o.rank == r && o.phase == q := by
    funext o
    by_cases ho : o.rank = p.rank ∧ o.phase = p.phase
    · simp [ho]
    · simp only [Function.comp_apply, Bool.and_eq_true, beq_iff_eq, if_neg ho]
  rw [List.find?_map, hkey]
  cases h : l.find? (fun o => o.rank == r && o.phase == q) with
  | none => simp
  | some o =>
    obtain ⟨hr, hq⟩ : o.rank = r ∧ o.phase = q := by simpa using List.find?_some h
    simp only [Option.map_some, hr, hq, Bool.and_eq_true, beq_iff_eq]
    split <;> rfl

theorem ExInst.peer_setPeer (x : ExInst) (p : Peer) (r q : Nat) :
    (x.setPeer p).peer r q = if r = p.rank ∧ q = p.phase then p else x.peer r q := by
  unfold ExInst.setPeer ExInst.peer
  split
  · next h =>
    rw [find?_replace_peer]
    split
    · next hk =>
      obtain ⟨rfl, rfl⟩ := hk
      obtain ⟨o, ho⟩ := Option.isSome_iff_exists.1 (List.find?_isSome.2 (List.any_eq_true.1 h))
      rw [ho]
      rfl
    · rfl
  · next h =>
    have hn : x.peers.find? (fun o => o.rank == p.rank && o.phase == p.phase) = none :=
      List.find?_eq_none.2 fun o ho hp => h (List.any_eq_true.2 ⟨o, ho, hp⟩)
    split
    · next hk =>
      obtain ⟨rfl, rfl⟩ := hk
      simp [List.find?_append, hn]
    · next hk =>
      have hp : ¬ (p.rank = r ∧ p.phase = q) := fun h => hk ⟨h.1.symm, h.2.symm⟩
      simp [List.find?_append, hp]

@[simp] theorem ExInst.setPeer_segs (x : ExInst) (p : Peer) : (x.setPeer p).segs = x.segs := by
  unfold ExInst.setPeer
  split <;> rfl

@[simp] theorem State.acceptData_segs (s : State) (x : ExInst) (ph : Nat) (c : Cell) : (s.acceptData x ph c).2.segs = x.segs := ExInst.setPeer_segs ..

/-- The accounts after a data cell of rank `c.src` in phase `ph`: its own counts the cell, the others stay. -/
theorem State.acceptData_peer (s : State) (x : ExInst) (ph : Nat) (c : Cell) (r q : Nat) : (s.acceptData x ph c).2.peer r q =
    if r = c.src ∧ q = ph then
      { x.peer c.src ph with recvCount := (x.peer c.src ph).recvCount + 1, recvSum := ((x.peer c.src ph).recvSum + c.check) % 2 ^ 64 }
    else x.peer r q := by
  obtain ⟨hr, hq⟩ := x.peer_key c.src ph
  refine (ExInst.peer_setPeer x _ r q).trans ?_
  simp only [hr, hq]

/-- Settles O20: the account of the cell's sender and phase, the other accounts, the run, and what `updRun` leaves. -/
theorem acceptedCellsAreCounted : Obligations.AcceptedCellsAreCounted := by
  unfold Obligations.AcceptedCellsAreCounted
  intro s x ph c
  refine ⟨?_, ?_, fun r q h => ?_, ?_, fun k h => State.run_updRun_other _ _ _ _ h, rfl, rfl⟩
  · rw [State.acceptData_peer, if_pos ⟨rfl, rfl⟩]
  · rw [State.acceptData_peer, if_pos ⟨rfl, rfl⟩]
  · rw [State.acceptData_peer, if_neg fun e => h (Prod.ext e.1 e.2)]
  · exact congrArg Run.recvDigest (State.run_updRun_same _ _ _)

end Sys2Proof.Machine
end

section
namespace Sys2Proof.Machine

/-! ### Exchange operators (R276, R283 to R294) -/

/-- A failing access ends an operator before its body. -/
theorem finishBody_of_accessFault {env : OpEnv} {c : Code} (s : State) (id : Nat) (e : OpEntry) (mk : MathCtx → Body) (h : env.accessFault = some c) :
    s.finishBody id e env mk = ((s.addFixed e env).unbindVec id).endOp id c := by
  unfold State.finishBody
  rw [h]

section
variable {s : State} {op oc : Nat} {env : OpEnv} {e : OpEntry}

theorem State.exRow_of_accessFault {c : Code} (hd : s.bodyDue op oc = some e) (h : env.accessFault = some c) :
    s.exRow op oc env = .next (((s.addFixed e env).unbindVec op).endOp op c).settle := by
  simp only [State.exRow, hd, h, Option.isSome_some, if_true, finishBody_of_accessFault _ _ _ _ h]

/-- The state in which an operator's instance `x` has begun and gone as far as it can. -/
def State.exGone (s : State) (e : OpEntry) (x : ExInst) : State :=
  let p := if x.begun then (s, x) else s.exBegin e x
  (p.1.setInst p.2).exAfter p.2

variable {x : ExInst} {f : OpEntry} {y : ExInst} (hd : s.bodyDue op oc = some e) (ha : env.accessFault = none) (hx : s.instOf op = some x)
  (hf : (s.exGone e x).bodyDue op oc = some f) (hy : (s.exGone e x).instOf op = some y)
include hd ha hx hf hy

theorem State.exRow_of_gone : s.exRow op oc env = .next (if y.complete then (s.exGone e x).exFinish op f env y else s.exGone e x).settle := by
  unfold State.exGone at hf hy ⊢
  simp only [State.exRow, hd, ha, hx, hf, hy, Option.isSome_none, Bool.false_eq_true, if_false]

/-- An instance that waits for others leaves its operator at work. -/
theorem State.exRow_of_incomplete (hc : y.complete = false) : s.exRow op oc env = .next (s.exGone e x).settle := by
  rw [State.exRow_of_gone hd ha hx hf hy, hc, if_neg Bool.false_ne_true]

/-- The state in which the result of a complete instance is formed: the rows that found no room have been counted. -/
def State.exCounted (u : State) (f : OpEntry) (y : ExInst) : State :=
  { u with ctxs := { u.ctxs with ctr := { u.ctxs.ctr with expertSpillRows := sat64 (u.ctxs.ctr.expertSpillRows + u.spilled f y) } } }

/-- A complete instance ends its operator with the result of its opcode. -/
theorem State.exRow_of_complete (hc : y.complete = true) :
    s.exRow op oc env = .next (((s.exGone e x).exCounted f y).finishBody op f env (((s.exGone e x).exCounted f y).exBody f y)).settle := by
  rw [State.exRow_of_gone hd ha hx hf hy, hc, if_pos rfl]
  rfl

end

/-- The rows of Table 8.12 differ in nothing but the opcode that must be due. -/
theorem exec_of_exchangeRow {i : Instr} {op oc : Nat} {env : OpEnv} (s : State) (h : (i, oc) ∈
    [(Instr.allreduceXb op env, 0x0900), (.reduceScatterXb op env, 0x0901), (.allgather op env, 0x0902), (.dispatch op env, 0x0903),
     (.combine op env, 0x0904), (.rankOrderReduce op env, 0x0905), (.sendTensor op env, 0x0906), (.recvTensor op env, 0x0907),
     (.g128Exchange op env, 0x0908)]) : exec i s = s.exRow op oc env := by
  simp only [List.mem_cons, Prod.mk.injEq, List.not_mem_nil, or_false] at h
  rcases h with ⟨rfl, rfl⟩ | ⟨rfl, rfl⟩ | ⟨rfl, rfl⟩ | ⟨rfl, rfl⟩ | ⟨rfl, rfl⟩ | ⟨rfl, rfl⟩ | ⟨rfl, rfl⟩ | ⟨rfl, rfl⟩ | ⟨rfl, rfl⟩ <;> rfl

/-- Settles O55: the nine rows are one row; it ends by a failing access, waits for its instance, or stores the instance's result. -/
theorem exchangeOperatorsRun : Obligations.ExchangeOperatorsRun := by
  unfold Obligations.ExchangeOperatorsRun
  intro s op env e x i oc hi hd
  rw [exec_of_exchangeRow s hi]
  refine ⟨fun c h => State.exRow_of_accessFault hd h, fun ha hx => ⟨fun f y hf hy hc => State.exRow_of_incomplete hd ha hx hf hy hc,
    fun f y hf hy hc h v hv => ⟨_, State.exRow_of_complete hd ha hx hf hy hc, ?_⟩⟩⟩
  exact finishBody_stored _ v op f env _ h (State.bodyDue_get _ op oc f hf).1 hv

end Sys2Proof.Machine
end

section
namespace Sys2Proof.Machine

/-! ### Cells that reach an instance at work (R278, R283 to R294) -/

theorem State.exHere_kind {s : State} {l : LinkRef} {c : Cell} {k : Nat} (h : s.exHere l c k = true) : c.kind = k := by
  simp only [State.exHere, Bool.and_eq_true, beq_iff_eq] at h
  exact h.1.2

/-- Only XP40 and packed segments wait in the exchange receive buffers. -/
theorem State.noRoom_of_kind {s : State} {l : LinkRef} {c : Cell} {k : Nat} (x : ExInst) (h : s.exHere l c k = true) (h11 : k ≠ 0x11) (h13 : k ≠ 0x13) :
    s.noRoom x c = false := by
  obtain rfl := State.exHere_kind h
  simp [State.noRoom, State.bufferNeed, h11, h13]

section
variable {s : State} {l : LinkRef} {c : Cell} {x : ExInst}

/-- A cell of an instance at work leaves the receive buffer and takes its effect `u`. -/
theorem State.cellTaken_of_inst {f : State → ExInst → State} {u : State} (h : f (s.takeCell l c) x = u) :
    s.cellTaken l c (.inst x) f = .next ((u.tryCheck x.slot).settle) := by
  subst h
  rfl

theorem State.groupData_of_inst {k : Nat} {f : State → ExInst → MathCtx → CellFate} (hh : s.exHere l c k = true) (hc : s.groupCellFor c = .inst x)
    (hr : s.noRoom x c = false) : s.groupData l c k f =
      .next (((s.takeCell l c).dataIn l c x (f (s.takeCell l c) x ((s.takeCell l c).exCtx x))).tryCheck x.slot).settle := by
  rw [State.groupData, if_pos hh, hc, State.roomFor, if_neg (by simp [hr])]
  exact State.cellTaken_of_inst rfl

/-- A segment that finds its receive buffer full stays where it is. -/
theorem State.groupData_of_noRoom {k : Nat} {f : State → ExInst → MathCtx → CellFate} (hh : s.exHere l c k = true) (hc : s.groupCellFor c = .inst x)
    (hr : s.noRoom x c = true) : s.groupData l c k f = .next s := by
  simp only [State.groupData, hh, hc, State.roomFor, hr, State.cellTaken, if_true]

/-- An accepted data cell is counted before it is applied. -/
theorem State.dataIn_of_take {ph : Nat} {f : ExInst → Except Code ExInst} {y : ExInst} (hp : (x.peer c.src ph).close = none)
    (hf : f (s.acceptData x ph c).2 = .ok y) : s.dataIn l c x (.take ph f) = (s.acceptData x ph c).1.exAfter y := by
  simp only [State.dataIn, hp, hf, Option.isSome_none, Bool.false_eq_true, if_false]

/-- A data cell whose fate is to be taken in a phase where its sender's CLOSE has not matched. -/
theorem State.groupData_of_take {k ph : Nat} {f : State → ExInst → MathCtx → CellFate} {g : ExInst → Except Code ExInst} {y : ExInst}
    (hh : s.exHere l c k = true) (hc : s.groupCellFor c = .inst x) (hr : s.noRoom x c = false)
    (hf : f (s.takeCell l c) x ((s.takeCell l c).exCtx x) = .take ph g) (hp : (x.peer c.src ph).close = none)
    (hg : g ((s.takeCell l c).acceptData x ph c).2 = .ok y) :
    s.groupData l c k f = .next (((((s.takeCell l c).acceptData x ph c).1.exAfter y).tryCheck x.slot).settle) := by
  rw [State.groupData_of_inst hh hc hr, hf, State.dataIn_of_take hp hg]

/-! ### What becomes of a data cell that keeps the rules of its kind -/

/-- A block of this module's shard is a contribution to it. -/
theorem State.blockPhase_of_own {n b : Nat} (src : Nat) (hb : b < n) (ho : ownerOf n x.g b = x.me) : s.blockPhase x n b src = some 0 := by
  rw [State.blockPhase, if_neg (Nat.not_le.2 hb), if_pos ho]

theorem State.xb16Fate_of_own {mc : MathCtx} (ho : x.opcode = 0x0900 ∨ x.opcode = 0x0901) (hf : (mc.inp 0).fmt = fmtXB16)
    (hb : s.blockPhase x (cdiv (mc.inp 0).count 256) (c.hi 32 32) c.src = some 0) : s.xb16Fate c x mc = .take 0 (fun x => x.addBlock
      (BlockAcc.norm16 ⟨c.hi 32 32, BitVec.ofNat 64 (c.hi 64 64), BitVec.ofNat 16 (c.hi 16 16), signedsOf 2 256 c.payload⟩)) := by
  have hop : (x.opcode == 0x0900 || x.opcode == 0x0901) = true := by simpa using ho
  simp only [State.xb16Fate, hop, hf, hb, BEq.rfl, Bool.and_self, Bool.not_true, Bool.false_eq_true, if_false]

theorem State.xp40Fate_of_phase {mc : MathCtx} {ph : Nat} (ho : x.opcode = 0x0900 ∨ x.opcode = 0x0901) (hf : ph = 0 → (mc.inp 0).fmt = fmtXP40)
    (hb : s.blockPhase x (cdiv (mc.inp 0).count 256) (c.hi 32 32) c.src = some ph)
    (hs : ∀ e ∈ x.segs, ¬ (e.src = c.src ∧ e.phase = ph ∧ e.unit = c.hi 32 32 ∧ e.seg = c.hi 14 2)) :
    s.xp40Fate c x mc = .take ph (fun x => x.joinSeg c ph) := by
  have hnew : x.segs.any (fun e => e.src == c.src && e.phase == ph && e.unit == c.hi 32 32 && e.seg == c.hi 14 2) = false :=
    List.any_eq_false.2 fun e he => by simpa [and_assoc] using hs e he
  have hfmt : (decide (ph = 0) && (mc.inp 0).fmt != fmtXP40) = false := by
    by_cases h0 : ph = 0 <;> simp [h0, hf]
  have hop : (x.opcode == 0x0900 || x.opcode == 0x0901) = true := by simpa using ho
  simp only [State.xp40Fate, hop, hb, hfmt, hnew, Bool.not_true, Bool.false_eq_true, if_false]

theorem State.g128Fate_of_own {mc : MathCtx} (ho : x.opcode = 0x0908)
    (hb : s.blockPhase x (cdiv (mc.inp 0).count 32) (longUnit c) c.src = some 0) :
    s.g128Fate c x mc = .take 0 (fun x => .ok (x.addUnit (longUnit c) (signedsOf 16 32 c.payload))) := by
  simp [State.g128Fate, ho, hb]

theorem State.g128Fate_of_other {mc : MathCtx} (ho : x.opcode = 0x0908)
    (hb : s.blockPhase x (cdiv (mc.inp 0).count 32) (longUnit c) c.src = some 1) : s.g128Fate c x mc =
      .take 1 (fun x => .ok { x with blocks := x.blocks ++ [⟨longUnit c, 0, 0, signedsOf 16 32 c.payload⟩] }) := by
  simp [State.g128Fate, ho, hb]

theorem rawFate_of_packed (ho : x.opcode = 0x0902 ∨ x.opcode = 0x0905) :
    rawFate c x = .take 0 (fun x => .ok { x with segs := x.segs ++ [⟨c.src, 0, longUnit c, 0, 0, 0, c.payload⟩] }) := by
  have hop : (x.opcode == 0x0902 || x.opcode == 0x0905) = true := by simpa using ho
  simp only [rawFate, hop, Bool.not_true, Bool.false_eq_true, if_false]

end

theorem exec_xb16Block (l : LinkRef) (c : Cell) (s : State) : exec (.xb16Block l c) s = s.groupData l c 0x10 (fun s => s.xb16Fate c) := rfl
theorem exec_xp40Seg (l : LinkRef) (c : Cell) (s : State) : exec (.xp40Seg l c) s = s.groupData l c 0x11 (fun s => s.xp40Fate c) := rfl
theorem exec_g128Seg (l : LinkRef) (c : Cell) (s : State) : exec (.g128Seg l c) s = s.groupData l c 0x12 (fun s => s.g128Fate c) := rfl
theorem exec_rawSeg (l : LinkRef) (c : Cell) (s : State) : exec (.rawSeg l c) s = s.groupData l c 0x13 (fun _ x _ => rawFate c x) := rfl

/-- Settles O18: by the cell's kind, its fate and what that makes of the instance. -/
theorem dataCellsJoinTheirBlocks : Obligations.DataCellsJoinTheirBlocks := by
  unfold Obligations.DataCellsJoinTheirBlocks
  intro s l c x y hc
  rw [exec_xb16Block, exec_xp40Seg, exec_g128Seg, exec_rawSeg]
  refine ⟨fun hh ho hf hb hown hp hy => ?_, fun ph hh hr ho hf hb hp hs hy => ?_, fun hh ho hb hown hp => ?_, fun hh ho hb hp => ?_,
    fun hh hr ho hp => ?_, fun hr => ⟨fun hh => State.groupData_of_noRoom hh hc hr, fun hh => State.groupData_of_noRoom hh hc hr⟩⟩
  · exact State.groupData_of_take hh hc (State.noRoom_of_kind x hh (by decide) (by decide)) (State.xb16Fate_of_own ho hf (State.blockPhase_of_own _ hb hown)) hp hy
  · exact State.groupData_of_take hh hc hr (State.xp40Fate_of_phase ho hf hb hs) hp hy
  · exact State.groupData_of_take hh hc (State.noRoom_of_kind x hh (by decide) (by decide)) (State.g128Fate_of_own ho (State.blockPhase_of_own _ hb hown)) hp rfl
  · exact State.groupData_of_take hh hc (State.noRoom_of_kind x hh (by decide) (by decide)) (State.g128Fate_of_other ho hb) hp rfl
  · rw [← State.acceptData_segs (s.takeCell l c) x 0 c]
    exact State.groupData_of_take hh hc hr (rawFate_of_packed ho) hp rfl

end Sys2Proof.Machine
end

section
namespace Sys2Proof.Machine

/-! ### Rows, bulk segments, CLOSE and GO (R278, R289 to R294) -/

section
variable {s : State} {l : LinkRef} {c : Cell} {x : ExInst}

theorem exec_dispatchRow (l : LinkRef) (c : Cell) (s : State) : exec (.dispatchRow l c) s = s.groupData l c 0x20 (fun s => s.rowFate c 0x0903) := rfl
theorem exec_combineRow (l : LinkRef) (c : Cell) (s : State) : exec (.combineRow l c) s = s.groupData l c 0x21 (fun s => s.rowFate c 0x0904) := rfl

/-- A bulk segment of a RECV at work is accepted and kept. -/
theorem exec_bulkSeg_of_inst (hh : s.exHere l c 0x30 = true) (hc : s.recvCellFor c (c.hi 16 16) = .inst x) (hp : (x.peer c.src 0).close = none) :
    exec (.bulkSeg l c) s = .next (((((s.takeCell l c).acceptData x 0 c).1.exAfter { ((s.takeCell l c).acceptData x 0 c).2 with
      segs := x.segs ++ [⟨c.src, 0, c.hi 32 40, 0, 0, 0, c.payload⟩] }).tryCheck x.slot).settle) := by
  have he : exec (.bulkSeg l c) s = execBulkSeg l c s := rfl
  rw [he, execBulkSeg, if_pos hh, hc, ← State.acceptData_segs (s.takeCell l c) x 0 c]
  exact State.cellTaken_of_inst (State.dataIn_of_take hp rfl)

/-- A CLOSE of an instance at work that its sender still owes is counted and kept for matching. -/
theorem exec_closeCell_of_owed (hh : s.cellHere l c = true) (hk : c.kind = 0x18) (hg : c.lane = 3 → c.group = noGroup) (hd : s.isOwnRank c.dst = true)
    (hc : (if c.group = noGroup then s.recvCloseFor c else s.groupCellFor c) = .inst x) (hl : c.lane = x.lane)
    (ho : (x.closes.filter (fun k => k.src == c.src)).length < ((List.range x.phases).filter (fun ph => (x.peer c.src ph).close.isNone)).length) :
    exec (.closeCell l c) s = .next (((((s.takeCell l c).countRecv x.slot c.check).exAfter { x with
      closes := x.closes ++ [⟨c.src, c.hi 32 32, c.hi 64 64, l, (s.takeCell l c).now⟩] }).tryCheck x.slot).settle) := by
  have he : exec (.closeCell l c) s = execCloseCell l c s := rfl
  have hm : ¬ (decide (c.lane = 3) && c.group != noGroup) = true := by simpa using hg
  have hin : (s.takeCell l c).closeIn l c x = ((s.takeCell l c).countRecv x.slot c.check).exAfter { x with
      closes := x.closes ++ [⟨c.src, c.hi 32 32, c.hi 64 64, l, (s.takeCell l c).now⟩] } := by
    rw [State.closeIn, if_neg (by simp [hl])]
    exact if_neg (Nat.not_le.2 ho)
  rw [he, execCloseCell, if_neg (by simp [hh, hk]), if_neg hm, if_neg (by simp [hd]), hc]
  exact State.cellTaken_of_inst hin

/-- A GO of an owner lets this module's contribution to its shard out. -/
theorem exec_goCell_of_inst (hh : s.exHere l c 0x19 = true) (hc : s.groupCellFor c = .inst x) (ho : x.opcode = 0x0905) :
    let p := (s.takeCell l c).onGo x ((s.takeCell l c).exCtx x) c.src
    exec (.goCell l c) s = .next ((((p.1.setInst p.2).exAfter p.2).tryCheck x.slot).settle) := by
  have he : exec (.goCell l c) s = execGoCell l c s := rfl
  rw [he, execGoCell, if_pos hh, hc]
  exact State.cellTaken_of_inst (if_neg (by simp [ho]))

end

/-- Settles O19: rows and bulk segments as the data cells of their instance, a CLOSE and a GO by what they do to it. -/
theorem rowsClosesAndGoReachTheirInstance : Obligations.RowsClosesAndGoReachTheirInstance := by
  unfold Obligations.RowsClosesAndGoReachTheirInstance
  refine ⟨fun s l c x f y hc hp hy => ⟨fun hh hf => ?_, fun hh hf => ?_⟩, fun s l c x => exec_bulkSeg_of_inst,
    fun s l c x => exec_closeCell_of_owed, fun s l c x => exec_goCell_of_inst⟩
  · rw [exec_dispatchRow]
    exact State.groupData_of_take hh hc (State.noRoom_of_kind x hh (by decide) (by decide)) hf hp hy
  · rw [exec_combineRow]
    exact State.groupData_of_take hh hc (State.noRoom_of_kind x hh (by decide) (by decide)) hf hp hy

end Sys2Proof.Machine
end

section
namespace Sys2Proof.Machine

/-! ### Violations on a link (R295, R453) -/

theorem State.link_of_links_eq {s t : State} (h : t.links = s.links) (l : LinkRef) : t.link l = s.link l := by
  cases l <;> simp only [State.link, h]

/-- Is a record of a violation on the link due: none within the last millisecond? -/
def State.violDue (s : State) (l : LinkRef) : Bool := !((s.link l).lastViolRecord.any (fun t => decide (s.now < t + Config.msCycles)))

/-- A link after violation `v`, of which a record may be due. -/
def Link.violated (k : Link) (now v : Nat) (due : Bool) : Link :=
  { k.count (fun t => { t with violations := sat64 (t.violations + 1) }) with
    violCode := BitVec.ofNat 16 v, violCount := (k.violCount + 1) % 2 ^ 16
    violStamps := recent now Config.msCycles k.violStamps ++ [now]
    lastViolRecord := if due then some now else k.lastViolRecord }

@[simp] theorem Link.violated_violCode (k : Link) (now v : Nat) (due : Bool) : (k.violated now v due).violCode = BitVec.ofNat 16 v := rfl
@[simp] theorem Link.violated_violCount (k : Link) (now v : Nat) (due : Bool) : (k.violated now v due).violCount = (k.violCount + 1) % 2 ^ 16 := rfl
@[simp] theorem Link.violated_txq (k : Link) (now v : Nat) (due : Bool) : (k.violated now v due).txq = k.txq := rfl
@[simp] theorem Link.violated_ctr (k : Link) (now v : Nat) (due : Bool) :
    (k.violated now v due).ctr = { k.ctr with violations := sat64 (k.ctr.violations + 1) } := rfl

/-- A violation changes its link, and a record of severity 0 may follow. -/
theorem State.violation_eq (s : State) (l : LinkRef) (v : Nat) : ∃ c : Code, s.violation l v =
    if s.violDue l then (s.updLink l (fun k => k.violated s.now v (s.violDue l))).record (uidLink l 0xFF) c 0 v
    else s.updLink l (fun k => k.violated s.now v (s.violDue l)) := ⟨_, rfl⟩

theorem State.violation_links (s : State) (l : LinkRef) (v : Nat) :
    (s.violation l v).links = (s.updLink l (fun k => k.violated s.now v (s.violDue l))).links := by
  obtain ⟨c, h⟩ := s.violation_eq l v
  rw [h]
  split
  · exact State.record_links_low _ _ _ _ _ _ (by decide)
  · rfl

theorem State.violation_link_same (s : State) (l : LinkRef) (v : Nat) :
    (s.violation l v).link l = (s.link l).violated s.now v (s.violDue l) := by
  rw [State.link_of_links_eq (s.violation_links l v), State.link_updLink_same]

theorem State.violation_link_other (s : State) {l m : LinkRef} (v : Nat) (h : m ≠ l) : (s.violation l v).link m = s.link m := by
  rw [State.link_of_links_eq (s.violation_links l v), State.link_updLink_other _ _ _ _ h]

theorem State.violation_nextSeq (s : State) (l : LinkRef) (v : Nat) :
    (s.violation l v).vigil.nextSeq = if s.violDue l then (s.vigil.nextSeq + 1) % 2 ^ 64 else s.vigil.nextSeq := by
  obtain ⟨c, h⟩ := s.violation_eq l v
  rw [h]
  split <;> simp

/-- Settles O17: its link, the log's next number, and the other links after a violation. -/
theorem violationsAreCounted : Obligations.ViolationsAreCounted := by
  unfold Obligations.ViolationsAreCounted
  intro s l v
  refine ⟨?_, ?_, ?_, ?_, fun m h => s.violation_link_other v h⟩
  · rw [s.violation_link_same, Link.violated_ctr]
  · rw [s.violation_link_same, Link.violated_violCode]
  · rw [s.violation_link_same, Link.violated_violCount]
  · rw [s.violation_nextSeq, State.violDue]
    cases (s.link l).lastViolRecord.any fun t => decide (s.now < t + Config.msCycles) <;> rfl

end Sys2Proof.Machine
end

section
namespace Sys2Proof.Machine

/-! ### Link blocks (R256 to R258) -/

@[simp] theorem Link.failed_nakOut (k : Link) (now : Nat) : (k.failed now).nakOut = true := by unfold Link.failed; split <;> rfl
@[simp] theorem Link.failed_inRetry (k : Link) (now : Nat) : (k.failed now).inRetry = true := by
  unfold Link.failed
  split
  · assumption
  · rfl
@[simp] theorem Link.failed_rxNext (k : Link) (now : Nat) : (k.failed now).rxNext = k.rxNext := by unfold Link.failed; split <;> rfl

/-- An `ack` and a `nak` change the retry buffer and what goes on the wire. -/
theorem Link.acked_frame (k : Link) (ack : Nat) (nak : Bool) :
    k.acked ack nak = { k with retry := (k.acked ack nak).retry, wire := (k.acked ack nak).wire } := by
  unfold Link.acked
  dsimp only
  split <;> rfl

@[simp] theorem Link.acked_rxNext (k : Link) (ack : Nat) (nak : Bool) : (k.acked ack nak).rxNext = k.rxNext := by rw [Link.acked_frame]
@[simp] theorem Link.acked_rx (k : Link) (ack : Nat) (nak : Bool) : (k.acked ack nak).rx = k.rx := by rw [Link.acked_frame]
@[simp] theorem Link.acked_resync (k : Link) (ack : Nat) (nak : Bool) : (k.acked ack nak).resync = k.resync := by rw [Link.acked_frame]
@[simp] theorem Link.acked_partialCell (k : Link) (ack : Nat) (nak : Bool) : (k.acked ack nak).partialCell = k.partialCell := by rw [Link.acked_frame]

theorem fitBytes_nil (k : Nat) : fitBytes k [] = List.replicate k 0 := by simp [fitBytes]

/-- A stream of fill carries no cell. -/
theorem State.eatCells_fill (l : LinkRef) (n fuel : Nat) (s : State) (h : n ≤ fuel) :
    State.eatCells l fuel (List.replicate (32 * n) 0) s = s.updLink l (fun k => k.part [] false) := by
  induction fuel generalizing n with
  | zero =>
    obtain rfl : n = 0 := by omega
    rfl
  | succ f ih =>
    cases n with
    | zero => rfl
    | succ n =>
      have htake : (List.replicate (32 * (n + 1)) (0 : Byte)).take 32 = List.replicate 32 0 := by
        rw [List.take_replicate, Nat.min_eq_left (by omega)]
      have hdrop : (List.replicate (32 * (n + 1)) (0 : Byte)).drop 32 = List.replicate (32 * n) 0 := by
        rw [List.drop_replicate, Nat.mul_succ, Nat.add_sub_cancel]
      rw [State.eatCells, htake, hdrop]
      exact ih n (by omega)

theorem exec_linkBlock (l : LinkRef) (b : Block) (s : State) : exec (.linkBlock l b) s = execLinkBlock l b s := rfl

section
variable {s : State} {l : LinkRef} {b : Block} (hl : (s.link l).live = true)
include hl

/-- A block that does not decode fails. -/
theorem exec_linkBlock_of_undecoded (hd : b.decoded = false) : exec (.linkBlock l b) s = .next (s.updLink l (fun k => k.failed s.now)) := by
  rw [exec_linkBlock, execLinkBlock, if_neg (by simp [hl]), if_pos (by simp [hd])]

variable (hd : b.decoded = true) (h40 : fld b.hdr 34 6 ≤ 40)
include hd h40

/-- A block without a number, or not the one expected, only acknowledges. -/
theorem exec_linkBlock_of_unnumbered (hn : flag b.hdr 33 = true ∨ fld b.hdr 0 16 ≠ (s.link l).rxNext) :
    exec (.linkBlock l b) s = .next (s.updLink l (fun k => k.acked (fld b.hdr 16 16) (flag b.hdr 32))) := by
  rw [exec_linkBlock, execLinkBlock, if_neg (by simp [hl]), if_neg (by simp [hd]), if_neg (Nat.not_lt.2 h40)]
  exact if_pos (by simpa using hn)

end

/-- The expected block of a fabric port with no cell cut short: its stream follows the acknowledgement and the new number. -/
theorem exec_linkBlock_of_expected {s : State} {n : Nat} {b : Block} (hl : (s.link (.fabric n)).live = true) (hd : b.decoded = true)
    (h40 : fld b.hdr 34 6 ≤ 40) (hf : flag b.hdr 33 = false) (hs : fld b.hdr 0 16 = (s.link (.fabric n)).rxNext)
    (hp : (s.link (.fabric n)).partialCell = []) (hr : (s.link (.fabric n)).resync = false) :
    exec (.linkBlock (.fabric n) b) s = .next (((s.updLink (.fabric n) (fun k => k.acked (fld b.hdr 16 16) (flag b.hdr 32))).updLink (.fabric n)
      (fun k => { k with rxNext := (k.rxNext + 1) % 2 ^ 16, nakOut := false, inRetry := false })).eatCells (.fabric n) 64 (fitBytes 1280 b.stream)) := by
  rw [exec_linkBlock, execLinkBlock, if_neg (by simp [hl]), if_neg (by simp [hd]), if_neg (Nat.not_lt.2 h40)]
  refine (if_neg (by simp [hf, hs])).trans ?_
  simp [hp, hr]

/-- The number of lanes of a link (R254, R442, R455). -/
def laneCount : LinkRef → Nat
  | .fabric _ => 4
  | .host _ => 8
  | .bridge => 16

/-- A slip of a lane that the link has fails a block. -/
theorem exec_laneFifoSlip_of_live {s : State} {l : LinkRef} {lane : Nat} (hl : (s.link l).live = true) (h : lane < laneCount l) :
    exec (.laneFifoSlip l lane) s = .next (s.updLink l (fun k => k.failed s.now)) := by
  have he : exec (.laneFifoSlip l lane) s = if (s.link l).live && lane < laneCount l then .next (s.updLink l (fun k => k.failed s.now)) else .next s := by
    cases l <;> rfl
  rw [he, if_pos (by simp [hl, h])]

/-- Settles O13: each block by whether it decodes and which number it bears; a slip of a lane as a failed block. -/
theorem linkBlocksAreNumbered : Obligations.LinkBlocksAreNumbered := by
  unfold Obligations.LinkBlocksAreNumbered
  refine ⟨fun s l b hl hd => ⟨_, exec_linkBlock_of_undecoded hl hd, ?_⟩, fun s l b hl hd h40 hn => exec_linkBlock_of_unnumbered hl hd h40 hn,
    fun s n b hl hd h40 hf hs he hp hr => ⟨_, exec_linkBlock_of_expected hl hd h40 hf hs hp hr, ?_⟩,
    fun s n lane hl h => ⟨_, exec_laneFifoSlip_of_live hl h, ?_⟩, fun s n lane hl h => ⟨_, exec_laneFifoSlip_of_live hl h, ?_⟩,
    fun s lane hl h => ⟨_, exec_laneFifoSlip_of_live hl h, ?_⟩⟩
  · simp
  · rw [he, fitBytes_nil, State.eatCells_fill _ 40 64 _ (by decide)]
    simp [Link.part]
  · simp
  · simp
  · simp

end Sys2Proof.Machine
end

section
namespace Sys2Proof.Machine

/-! ### Cells that arrive on a fabric port (R263, R266, R267) -/

section
variable {s : State} {n : Nat} {c : Cell} (h1 : c.kind ≠ 1)
include h1

/-- A cell for this module waits in the buffer of its lane. -/
theorem State.acceptCell_own (ho : s.isOwnRank c.dst = true) : s.acceptCell (.fabric n) c =
    s.updLink (.fabric n) (fun k => { k with rx := k.rx ++ [⟨c.lane, c.hdr, c.payload, s.now⟩] }) := by
  simp [State.acceptCell, ho, h1]

variable (h2 : c.kind ≠ 2) (ho : s.isOwnRank c.dst = false)
include h2 ho

/-- A cell for another rank leaves on the port of its route with one hop more, and its units are free. -/
theorem State.acceptCell_routed {p : Nat} (h63 : c.hops ≠ 63)
    (hr : (s.updLink (.fabric n) (fun k => k.free c.lane (1 + c.len))).routeRank (some n) c = some p) : s.acceptCell (.fabric n) c =
    (s.updLink (.fabric n) (fun k => k.free c.lane (1 + c.len))).cellOut (.fabric p) { c with hdr := setFld c.hdr 101 6 (c.hops + 1) } := by
  simp [State.acceptCell, ho, h1, h2, h63, hr]

/-- A cell that has used its hops is dropped and counted, as violation 8. -/
theorem State.acceptCell_hopLimit (h63 : c.hops = 63) : s.acceptCell (.fabric n) c =
    ((s.updLink (.fabric n) (fun k => k.free c.lane (1 + c.len))).updLink (.fabric n)
      (fun k => k.count (fun t => { t with hopLimitDrops := sat64 (t.hopLimitDrops + 1) }))).violation (.fabric n) 8 := by
  simp [State.acceptCell, ho, h1, h2, h63]

end

@[simp] theorem State.link_cellOut_same (s : State) (l : LinkRef) (c : Cell) :
    (s.cellOut l c).link l = { s.link l with txq := (s.link l).txq ++ [⟨c.lane, c.hdr, c.payload, s.now⟩] } := State.link_updLink_same ..

theorem State.link_cellOut_other (s : State) {l m : LinkRef} (c : Cell) (h : m ≠ l) : (s.cellOut l c).link m = s.link m :=
  State.link_updLink_other _ _ _ _ h

/-- Settles O14: a cell for this module, one with a route, and one at its hop limit. -/
theorem cellsWaitOrTravel : Obligations.CellsWaitOrTravel := by
  unfold Obligations.CellsWaitOrTravel
  refine ⟨fun s n c h1 ho => State.acceptCell_own h1 ho, fun s n p c h1 h2 ho h63 hr hp => ?_, fun s n c h1 h2 ho h63 => ?_⟩
  · have hpn : LinkRef.fabric p ≠ .fabric n := fun h => hp (LinkRef.fabric.inj h)
    rw [State.acceptCell_routed h1 h2 ho h63 hr, State.link_cellOut_same, State.link_cellOut_other _ _ hpn.symm, State.link_updLink_other _ _ _ _ hpn,
      State.link_updLink_same, State.updLink_now]
    exact ⟨rfl, rfl⟩
  · rw [State.acceptCell_hopLimit h1 h2 ho h63, State.violation_link_same, State.link_updLink_same, State.link_updLink_same,
      Link.violated_violCode, Link.violated_ctr, Link.violated_txq]
    exact ⟨rfl, rfl, rfl⟩

end Sys2Proof.Machine
end

section
namespace Sys2Proof.Machine

/-! ### Retrains and training (R255, R259, R296) -/

/-- The loss of a link that was UP or GUARDED leaves every link as it is but for what it queues on host ports. -/
theorem State.linkLost_link (s : State) (l : LinkRef) (down : Bool) (lost : Nat) (m : LinkRef) :
    ((s.linkLost l down lost).link m).SameButQueue (s.link m) := by
  cases l with
  | fabric n => exact ((ended_record s _ _ _ _ _).trans (ended_endOps _ _ _)).link m
  | host n => exact s.record_link _ _ _ _ _ m
  | bridge => exact .refl _

/-- A link that begins to retrain. -/
def Link.startRetrain (k : Link) (now : Nat) : Link :=
  { k with state := .training, retraining := true, wasGuarded := k.state == .guarded, trainStart := now, retryStamps := [], wire := [] }

/-- Must a link retrain: a block sent 8 times without acceptance, or 256 retry events within 1 ms (R259)? -/
def Link.mustRetrain (k : Link) (now : Nat) : Bool := k.retry.any (fun b => decide (8 ≤ b.sends)) || 256 ≤ (recent now Config.msCycles k.retryStamps).length

section
variable {s : State} {l : LinkRef}

theorem gives_linkRetrainStart_of_due (hl : (s.link l).live = true) (hd : (s.link l).mustRetrain s.now = true) :
    Gives (.linkRetrainStart l) s (fun t => (t.link l).SameButQueue ((s.link l).startRetrain s.now)) := by
  have he : exec (.linkRetrainStart l) s = execLinkRetrainStart l s := rfl
  have hc : ((s.link l).live && ((s.link l).mustRetrain s.now)) = true := by rw [hl, hd]; rfl
  have hu : ((s.updLink l (fun k => k.startRetrain s.now)).link l).SameButQueue ((s.link l).startRetrain s.now) := by
    rw [State.link_updLink_same]
    exact .refl _
  refine ⟨_, he.trans (if_pos hc), ?_⟩
  cases l with
  | fabric n =>
    dsimp only
    split
    · exact hu
    · exact (State.linkLost_link _ _ _ _ _).trans hu
  | host n => exact (State.linkLost_link _ _ _ _ _).trans hu
  | bridge => exact (State.linkLost_link _ _ _ _ _).trans hu

theorem exec_linkRetrainStart_of_not_due (hd : (s.link l).mustRetrain s.now = false) : exec (.linkRetrainStart l) s = .next s := by
  have he : exec (.linkRetrainStart l) s = execLinkRetrainStart l s := rfl
  have hc : ¬ ((s.link l).live && ((s.link l).mustRetrain s.now)) = true := by rw [hd, Bool.and_false]; exact Bool.false_ne_true
  exact he.trans (if_neg hc)

/-- A link after a retrain that succeeded: the state it had, and its whole retry buffer on the wire. -/
def Link.retrained (k : Link) : Link :=
  ({ k with
    state := if k.wasGuarded then .guarded else .up, retraining := false, wasGuarded := false, inRetry := false, nakOut := true, retrainStamps := []
    retry := k.retry.map (fun b => { b with sends := 1 }) } : Link).resend

/-- A link after a retrain that failed at `now`, and starts again. -/
def Link.retrainAgain (k : Link) (now : Nat) : Link :=
  { k with retrainStamps := recent now (10 * Config.sCycles) k.retrainStamps ++ [now], trainStart := now }

theorem Link.retrainAgain_stamps (k : Link) (now : Nat) :
    (k.retrainAgain now).retrainStamps.length = (recent now (10 * Config.sCycles) k.retrainStamps).length + 1 := List.length_append

/-- A link after the third failed retrain within 10 s: DOWN, the cells of its retry buffer counted as stale. -/
def Link.retrainLost (k : Link) : Link :=
  { k.count (fun t => { t with staleCells := sat64 (t.staleCells + sumOf (k.retry.map RetryBlk.cells)) }) with
    state := .down, unit := .stopped, retraining := false, wasGuarded := false, retrainStamps := [], retry := [] }

section
variable (ht : (s.link l).state = .training)
include ht

section
variable (hr : (s.link l).retraining = true)
include hr

/-- The end of a retrain, by its result and the failures within the last 10 s. -/
theorem exec_linkRetrainDone_of_retraining (ok : Bool) : exec (.linkRetrainDone l ok) s =
    if ok then .next (s.updLink l Link.retrained)
    else if ((s.link l).retrainAgain s.now).retrainStamps.length < 3 then .next (s.updLink l (fun k => k.retrainAgain s.now))
    else .next ((s.updLink l Link.retrainLost).linkLost l true (sumOf ((s.link l).retry.map RetryBlk.cells))) := by
  have he : exec (.linkRetrainDone l ok) s = execLinkRetrainDone l ok s := rfl
  exact he.trans (if_neg (by simp [ht, hr]))

theorem exec_linkRetrainDone_ok : exec (.linkRetrainDone l true) s = .next (s.updLink l Link.retrained) :=
  (exec_linkRetrainDone_of_retraining ht hr true).trans (if_pos rfl)

theorem gives_linkRetrainDone_again (h : (recent s.now (10 * Config.sCycles) (s.link l).retrainStamps).length < 2) :
    Gives (.linkRetrainDone l false) s (fun t => t.link l = (s.link l).retrainAgain s.now) := by
  have he : exec (.linkRetrainDone l false) s = .next (s.updLink l (fun k => k.retrainAgain s.now)) := by
    rw [exec_linkRetrainDone_of_retraining ht hr, if_neg Bool.false_ne_true, Link.retrainAgain_stamps, if_pos (Nat.succ_lt_succ h)]
  exact ⟨_, he, State.link_updLink_same _ _ _⟩

theorem gives_linkRetrainDone_lost (h : 2 ≤ (recent s.now (10 * Config.sCycles) (s.link l).retrainStamps).length) :
    Gives (.linkRetrainDone l false) s (fun t => (t.link l).SameButQueue (s.link l).retrainLost) := by
  have he : exec (.linkRetrainDone l false) s =
      .next ((s.updLink l Link.retrainLost).linkLost l true (sumOf ((s.link l).retry.map RetryBlk.cells))) := by
    rw [exec_linkRetrainDone_of_retraining ht hr, if_neg Bool.false_ne_true, Link.retrainAgain_stamps, if_neg (Nat.not_lt.2 (Nat.succ_le_succ h))]
  refine ⟨_, he, ?_⟩
  refine (State.linkLost_link _ _ _ _ _).trans ?_
  rw [State.link_updLink_same]
  exact .refl _

end

section
variable (hr : (s.link l).retraining = false)
include hr

theorem gives_portTrained : Gives (.portTrained l) s (fun t => (t.link l).state = .up ∧ (t.link l).unit = .running) := by
  have he : exec (.portTrained l) s = execPortTrained l s := rfl
  refine ⟨_, he.trans (if_pos (by simp [ht, hr])), ?_⟩
  cases l with
  | fabric n => rw [State.link_updLink_same]; exact ⟨rfl, rfl⟩
  | host n => rw [State.link_updLink_same]; exact ⟨rfl, rfl⟩
  | bridge => rw [State.link_cellOut_same, State.link_updLink_same]; exact ⟨rfl, rfl⟩

theorem gives_portTrainingTimeout : Gives (.portTrainingTimeout l) s (fun t => (t.link l).state = .down ∧
    t.now = max s.now ((s.link l).trainStart + Config.sCycles)) := by
  have he : exec (.portTrainingTimeout l) s = execPortTrainingTimeout l s := rfl
  refine ⟨_, he.trans (if_pos (by simp [ht, hr])), ?_, ?_⟩
  · rw [State.link_updLink_same]
    rfl
  · rw [State.updLink_now, State.now_advanceTo]

end

end

end

theorem gives_portGuarded {s : State} {n : Nat} (hu : (s.link (.fabric n)).state = .up)
    (h : 64 ≤ (recent s.now Config.msCycles (s.link (.fabric n)).violStamps).length) :
    Gives (.portGuarded n) s (fun t => (t.link (.fabric n)).state = .guarded ∧ t.vigil.nextSeq = (s.vigil.nextSeq + 1) % 2 ^ 64) := by
  have he : exec (.portGuarded n) s = execPortGuarded n s := rfl
  have hg : s.guardDue (.fabric n) = true := decide_eq_true h
  refine ⟨_, he.trans (if_pos (by simp [hu, hg])), ?_, ?_⟩
  · rw [State.link_fabric_record, State.link_updLink_same]
  · rw [State.record_nextSeq, State.updLink_vigil]

/-- Settles O15: a retrain's start, its success and its failures, training and its time-out, and the guard. -/
theorem linksTrainAndRetrain : Obligations.LinksTrainAndRetrain := by
  unfold Obligations.LinksTrainAndRetrain
  refine ⟨fun s l hl hd => ?_, fun s l hl hb hn => exec_linkRetrainStart_of_not_due ?_, fun s l ht hr => ⟨_, exec_linkRetrainDone_ok ht hr, ?_⟩,
    fun s l ht hr h => ?_, fun s l ht hr h => ?_, fun s l ht hr => gives_portTrained ht hr, fun s l ht hr => gives_portTrainingTimeout ht hr,
    fun s n hu h => gives_portGuarded hu h⟩
  · have hm : (s.link l).mustRetrain s.now = true := by simpa [Link.mustRetrain] using hd
    refine (gives_linkRetrainStart_of_due hl hm).mono fun t ⟨q, n, hk⟩ => ?_
    rw [hk]
    exact ⟨rfl, rfl, rfl, beq_iff_eq⟩
  · simpa [Link.mustRetrain] using ⟨hb, hn⟩
  · dsimp only
    rw [State.link_updLink_same]
    exact ⟨rfl, rfl, rfl, List.map_map .., fun m hm => State.link_updLink_other _ _ _ _ hm⟩
  · refine (gives_linkRetrainDone_again ht hr h).mono fun t hk => ?_
    rw [hk]
    exact ⟨ht, hr, rfl⟩
  · refine (gives_linkRetrainDone_lost ht hr h).mono fun t ⟨q, n, hk⟩ => ?_
    rw [hk]
    exact ⟨rfl, rfl, rfl⟩

end Sys2Proof.Machine
end

section
namespace Sys2Proof.Machine

/-! ### The header of a cell that is sent (Table 10.2) -/

/-- A field that lies in the upper part of a number put together from two parts. -/
theorem bitsOf_add_mul_high {a n : Nat} (b lo len : Nat) (h : a < 2 ^ n) : bitsOf (a + b * 2 ^ n) (n + lo) len = bitsOf b lo len := by
  rw [bitsOf_eq_div_mod, bitsOf_eq_div_mod, Nat.pow_add, ← Nat.div_div_eq_div_mul, Nat.add_mul_div_right _ _ (Nat.two_pow_pos n),
    Nat.div_eq_of_lt h, Nat.zero_add]

section
variable (lane kind dst src attempt step gen group high : Nat) (bs : List Byte)

/-- The low half of the header holds the common fields, whatever the kind's own fields are. -/
theorem cellOf_common : ∃ low < 2 ^ 128, (cellOf lane kind dst src attempt step gen group high bs).hdr = BitVec.ofNat 256 (low + high % 2 ^ 128 * 2 ^ 128) ∧
    low % 2 ^ 2 = lane % 4 ∧ low / 2 ^ 2 % 2 ^ 6 = kind % 64 := by
  refine ⟨_, ?_, rfl, ?_, ?_⟩ <;> omega

theorem cellOf_hi {lo len : Nat} (h : lo + len ≤ 128) : (cellOf lane kind dst src attempt step gen group high bs).hi lo len = bitsOf high lo len := by
  obtain ⟨low, hlow, hh, -, -⟩ := cellOf_common lane kind dst src attempt step gen group high bs
  rw [Cell.hi, hh, fld_ofNat _ (by omega), bitsOf_add_mul_high _ _ _ hlow, bitsOf_mod_two_pow _ h]

theorem cellOf_lane : (cellOf lane kind dst src attempt step gen group high bs).lane = lane % 4 := by
  obtain ⟨low, hlow, hh, hl, -⟩ := cellOf_common lane kind dst src attempt step gen group high bs
  rw [Cell.lane, hh, fld_ofNat _ (by decide), bitsOf_eq_div_mod]
  omega

theorem cellOf_kind : (cellOf lane kind dst src attempt step gen group high bs).kind = kind % 64 := by
  obtain ⟨low, hlow, hh, -, hk⟩ := cellOf_common lane kind dst src attempt step gen group high bs
  rw [Cell.kind, hh, fld_ofNat _ (by decide), bitsOf_eq_div_mod]
  omega

end

/-! ### LINK_CTRL messages (R263, R295, Table 10.7) -/

/-- The freed units of a lane as a LINK_CTRL names them. -/
def Link.freedCount (k : Link) (i : Nat) : Nat := nth k.freedUnits i 0 % 2 ^ 24

theorem Link.freedCount_lt (k : Link) (i : Nat) : k.freedCount i < 2 ^ 24 := Nat.mod_lt _ (by decide)

/-- What a LINK_CTRL says: the freed counts of four lanes, the last violation and the count of violations. -/
def Link.ctrlHigh (k : Link) : Nat :=
  k.freedCount 0 + k.freedCount 1 * 2 ^ 24 + k.freedCount 2 * 2 ^ 48 + k.freedCount 3 * 2 ^ 72 + k.violCode.toNat * 2 ^ 96 + k.violCount * 2 ^ 112

section
variable (k : Link)

/-- The fields of a LINK_CTRL do not overlap: each is read back as it was put in. -/
theorem Link.ctrlHigh_fields : (∀ i < 4, bitsOf k.ctrlHigh (24 * i) 24 = k.freedCount i) ∧ bitsOf k.ctrlHigh 96 16 = k.violCode.toNat ∧
    bitsOf k.ctrlHigh 112 16 = k.violCount % 2 ^ 16 := by
  have hv := k.violCode.isLt
  have h0 := k.freedCount_lt 0
  have h1 := k.freedCount_lt 1
  have h2 := k.freedCount_lt 2
  have h3 := k.freedCount_lt 3
  simp only [bitsOf_eq_div_mod, Link.ctrlHigh]
  refine ⟨fun i hi => ?_, ?_, ?_⟩
  · interval_cases i <;> omega
  · omega
  · omega

end

/-- The LINK_CTRL that a link sends. -/
def State.linkCtrlCell (s : State) (l : LinkRef) : Cell := cellOf 0 1 floodDst s.myRank 0 noStep 0 noGroup (s.link l).ctrlHigh []

/-- A cell that leaves the receive buffer of its link frees its units there; the rest of the link stays. -/
theorem State.takeCell_link (s : State) (l : LinkRef) (c : Cell) :
    ∃ rx f, (s.takeCell l c).link l = { s.link l with rx := rx, freedUnits := f } := by
  unfold State.takeCell
  split
  · exact ⟨(s.link l).rx, (s.link l).freedUnits, by cases l <;> rfl⟩
  · rw [State.link_updLink_same]
    dsimp only
    split
    · exact ⟨_, _, rfl⟩
    · exact ⟨_, _, rfl⟩

@[simp] theorem State.takeCell_memsys (s : State) (l : LinkRef) (c : Cell) : (s.takeCell l c).memsys = s.memsys := by
  unfold State.takeCell
  split
  · rfl
  · exact State.updLink_memsys ..

/-- What a LINK_CTRL returns on a lane, and whether it is more than was sent: `Link.grow` under a name that the kernel need not evaluate. -/
def Link.laneReturn (k : Link) (c : Cell) (i : Nat) : Nat × Bool := k.grow i (c.hi (24 * i) 24)

theorem Link.laneReturn_eq (k : Link) (c : Cell) (i : Nat) : k.laneReturn c i = k.grow i (c.hi (24 * i) 24) := rfl

/-- What it returns on its four lanes. -/
def Link.returns (k : Link) (c : Cell) : List (Nat × Bool) := (List.range 4).map (k.laneReturn c)

theorem any_snd_map_range {α : Type} (n : Nat) (f : Nat → α × Bool) : ((List.range n).map f).any Prod.snd = true ↔ ∃ i < n, (f i).2 = true := by
  simp

theorem Link.returns_any (k : Link) (c : Cell) : (k.returns c).any Prod.snd = true ↔ ∃ i < 4, (k.grow i (c.hi (24 * i) 24)).2 = true := by
  simp only [← Link.laneReturn_eq]
  exact any_snd_map_range 4 (k.laneReturn c)

theorem map_fst_map_range {α β : Type} (n : Nat) (f : Nat → α × β) : ((List.range n).map f).map Prod.fst = (List.range n).map (fun i => (f i).1) :=
  List.map_map ..

theorem Link.returns_fst (k : Link) (c : Cell) : (k.returns c).map Prod.fst = (List.range 4).map (fun i => (k.grow i (c.hi (24 * i) 24)).1) := by
  simp only [← Link.laneReturn_eq]
  exact map_fst_map_range 4 (k.laneReturn c)

/-- The state after a LINK_CTRL whose returns are in order: the cell taken, and the credit grown. -/
def State.credited (s : State) (l : LinkRef) (c : Cell) : State := (s.takeCell l c).updLink l (fun k =>
  { k with backUnits := ((s.link l).returns c).map Prod.fst, gotLink := true, partnerViol := BitVec.ofNat 16 (c.hi 96 16) })

theorem State.credited_link (s : State) (l : LinkRef) (c : Cell) : ∃ rx f, (s.credited l c).link l = { s.link l with
    rx := rx, freedUnits := f, backUnits := ((s.link l).returns c).map Prod.fst, gotLink := true, partnerViol := BitVec.ofNat 16 (c.hi 96 16) } := by
  obtain ⟨rx, f, ht⟩ := s.takeCell_link l c
  refine ⟨rx, f, ?_⟩
  rw [State.credited, State.link_updLink_same, ht]

section
variable {s : State} {l : LinkRef} (hn : ∀ n, l ≠ .host n) (hl : (s.link l).live = true)
include hn hl

theorem exec_linkCtrlSend_of_live : exec (.linkCtrlSend l) s =
    .next ((s.updLink l (fun k => { k with returned := k.freedUnits, lastReturn := s.now })).cellOut l (s.linkCtrlCell l)) := by
  have he : exec (.linkCtrlSend l) s = execLinkCtrlSend l s := rfl
  cases l with
  | host n => exact absurd rfl (hn n)
  | fabric n => exact he.trans (if_neg (by simp [hl]))
  | bridge => exact he.trans (if_neg (by simp [hl]))

theorem gives_linkCtrlSend : Gives (.linkCtrlSend l) s (fun t => (t.link l).returned = (s.link l).freedUnits ∧ (t.link l).lastReturn = s.now ∧
    (t.link l).txq = (s.link l).txq ++ [⟨(s.linkCtrlCell l).lane, (s.linkCtrlCell l).hdr, (s.linkCtrlCell l).payload, s.now⟩]) := by
  refine ⟨_, exec_linkCtrlSend_of_live hn hl, ?_⟩
  dsimp only
  rw [State.link_cellOut_same, State.link_updLink_same, State.updLink_now]
  exact ⟨rfl, rfl, rfl⟩

variable {c : Cell} (hk : c.kind = 1) (hf : cellFault l c = none)
include hk hf

/-- A LINK_CTRL leaves the buffer and grows the credit; a return of more than was sent is violation 6. -/
theorem exec_linkCtrl_of_live :
    exec (.linkCtrl l c) s = .next (if ((s.link l).returns c).any Prod.snd then (s.credited l c).violation l 6 else s.credited l c) := by
  obtain ⟨rx, f, ht⟩ := s.takeCell_link l c
  have hg : ((s.takeCell l c).link l).returns c = (s.link l).returns c := by
    rw [ht]
    rfl
  rw [State.credited, ← hg]
  have he : exec (.linkCtrl l c) s = execLinkCtrl l c s := rfl
  cases l with
  | host n => exact absurd rfl (hn n)
  | fabric n => exact he.trans (if_neg (by simp [hl, hk, hf]))
  | bridge => exact he.trans (if_neg (by simp [hl, hk, hf]))

theorem gives_linkCtrl_of_ok (h : ∀ i < 4, ((s.link l).grow i (c.hi (24 * i) 24)).2 = false) : Gives (.linkCtrl l c) s (fun t =>
    (t.link l).gotLink = true ∧ (t.link l).partnerViol = BitVec.ofNat 16 (c.hi 96 16) ∧
    (t.link l).backUnits = (List.range 4).map (fun i => ((s.link l).grow i (c.hi (24 * i) 24)).1) ∧ t.memsys = s.memsys) := by
  have hg : ((s.link l).returns c).any Prod.snd = false := by
    refine Bool.eq_false_iff.2 fun ht => ?_
    obtain ⟨i, hi, hx⟩ := (Link.returns_any _ _).1 ht
    exact Bool.false_ne_true ((h i hi).symm.trans hx)
  have he : exec (.linkCtrl l c) s = .next (s.credited l c) := by
    rw [exec_linkCtrl_of_live hn hl hk hf, hg, if_neg Bool.false_ne_true]
  obtain ⟨rx, f, ht⟩ := s.credited_link l c
  refine ⟨_, he, ?_⟩
  dsimp only
  rw [ht, State.credited, State.updLink_memsys, State.takeCell_memsys]
  exact ⟨rfl, rfl, Link.returns_fst _ _, rfl⟩

theorem gives_linkCtrl_of_excess (h : ∃ i < 4, ((s.link l).grow i (c.hi (24 * i) 24)).2 = true) : Gives (.linkCtrl l c) s (fun t =>
    (t.link l).violCode = 6 ∧ (t.link l).ctr.violations = sat64 ((s.link l).ctr.violations + 1)) := by
  have he : exec (.linkCtrl l c) s = .next ((s.credited l c).violation l 6) := by
    rw [exec_linkCtrl_of_live hn hl hk hf, if_pos ((Link.returns_any _ _).2 h)]
  obtain ⟨rx, f, ht⟩ := s.credited_link l c
  refine ⟨_, he, ?_⟩
  dsimp only
  rw [State.violation_link_same, ht, Link.violated_violCode, Link.violated_ctr]
  exact ⟨rfl, rfl⟩

end

/-- Settles O16: a LINK_CTRL that is sent, one that returns what was sent, and one that returns more. -/
theorem creditReturns : Obligations.CreditReturns := by
  unfold Obligations.CreditReturns
  refine ⟨fun s l hn hl => ?_, fun s l c hn hl hk hf h => gives_linkCtrl_of_ok hn hl hk hf h,
    fun s l c hn hl hk hf h => gives_linkCtrl_of_excess hn hl hk hf h⟩
  obtain ⟨hfreed, hcode, hcount⟩ := (s.link l).ctrlHigh_fields
  refine (gives_linkCtrlSend hn hl).mono fun t ⟨hr, hlast, hq⟩ => ⟨hr, hlast, s.linkCtrlCell l, hq, ?_, ?_, fun i hi => ?_, ?_, ?_⟩
  · exact cellOf_kind ..
  · exact cellOf_lane ..
  · exact (cellOf_hi _ _ _ _ _ _ _ _ _ _ (by omega)).trans (hfreed i hi)
  · exact (cellOf_hi _ _ _ _ _ _ _ _ _ _ (by decide)).trans hcode
  · exact (cellOf_hi _ _ _ _ _ _ _ _ _ _ (by decide)).trans hcount

end Sys2Proof.Machine
end

section
namespace Sys2Proof.Machine

/-! ### What a cell that is sent or taken leaves alone (R263, R266) -/

/-- `t` differs from `s` in nothing but the links of its ports and the cells to a rank on its own site. -/
def PortsOnly (s t : State) : Prop :=
  ∃ f h b o, t = { s with links := { s.links with fabric := f, host := h, bridge := b, own := o } }

theorem PortsOnly.refl (s : State) : PortsOnly s s := ⟨_, _, _, _, rfl⟩

theorem PortsOnly.trans {s t u : State} (a : PortsOnly s t) (b : PortsOnly t u) : PortsOnly s u := by
  obtain ⟨_, _, _, _, rfl⟩ := a
  obtain ⟨_, _, _, _, rfl⟩ := b
  exact ⟨_, _, _, _, rfl⟩

theorem PortsOnly.foldl {β : Type} {f : State → β → State} (h : ∀ s b, PortsOnly s (f s b)) (l : List β) (s : State) : PortsOnly s (l.foldl f s) :=
  foldl_keeps (PortsOnly s) f (fun t b ht => ht.trans (h t b)) l s (.refl s)

theorem portsOnly_updLink (s : State) (l : LinkRef) (f : Link → Link) : PortsOnly s (s.updLink l f) := by
  cases l <;> exact ⟨_, _, _, _, rfl⟩

theorem portsOnly_sendCell (s : State) (c : Cell) : PortsOnly s (s.sendCell c) := by
  unfold State.sendCell
  split
  · exact ⟨_, _, _, _, rfl⟩
  · split
    · exact portsOnly_updLink s _ _
    · exact portsOnly_updLink s _ _

theorem portsOnly_takeCell (s : State) (l : LinkRef) (c : Cell) : PortsOnly s (s.takeCell l c) := by
  unfold State.takeCell
  split
  · exact ⟨_, _, _, _, rfl⟩
  · exact portsOnly_updLink s _ _

section
variable {s t : State} (h : PortsOnly s t)
include h

theorem PortsOnly.now : t.now = s.now := by obtain ⟨_, _, _, _, rfl⟩ := h; rfl
theorem PortsOnly.vigil : t.vigil = s.vigil := by obtain ⟨_, _, _, _, rfl⟩ := h; rfl
theorem PortsOnly.memsys : t.memsys = s.memsys := by obtain ⟨_, _, _, _, rfl⟩ := h; rfl
theorem PortsOnly.ctrl : t.ctrl = s.ctrl := by obtain ⟨_, _, _, _, rfl⟩ := h; rfl
theorem PortsOnly.runs : t.runs = s.runs := by obtain ⟨_, _, _, _, rfl⟩ := h; rfl
theorem PortsOnly.run (k : Nat) : t.run k = s.run k := by obtain ⟨_, _, _, _, rfl⟩ := h; rfl
theorem PortsOnly.myIdx (g : Nat) : t.myIdx g = s.myIdx g := by obtain ⟨_, _, _, _, rfl⟩ := h; rfl
theorem PortsOnly.idxOf (g r : Nat) : t.idxOf g r = s.idxOf g r := by obtain ⟨_, _, _, _, rfl⟩ := h; rfl
theorem PortsOnly.tagFit (slot n a : Nat) : t.tagFit slot n a = s.tagFit slot n a := by obtain ⟨_, _, _, _, rfl⟩ := h; rfl

end

@[simp] theorem State.takeCell_run (s : State) (l : LinkRef) (c : Cell) (k : Nat) : (s.takeCell l c).run k = s.run k := (portsOnly_takeCell s l c).run k
@[simp] theorem State.takeCell_myIdx (s : State) (l : LinkRef) (c : Cell) (g : Nat) : (s.takeCell l c).myIdx g = s.myIdx g :=
  (portsOnly_takeCell s l c).myIdx g
@[simp] theorem State.takeCell_idxOf (s : State) (l : LinkRef) (c : Cell) (g r : Nat) : (s.takeCell l c).idxOf g r = s.idxOf g r :=
  (portsOnly_takeCell s l c).idxOf g r
@[simp] theorem State.takeCell_tagFit (s : State) (l : LinkRef) (c : Cell) (slot n a : Nat) :
    (s.takeCell l c).tagFit slot n a = s.tagFit slot n a := (portsOnly_takeCell s l c).tagFit slot n a

@[simp] theorem State.seen_run (s : State) (slot rank k : Nat) : (s.seen slot rank).run k = s.run k := rfl

/-! ### Reduction messages (R304, R306, R309) -/

@[simp] theorem ctrlKey_group (c : Cell) : (ctrlKey c).group = c.group := rfl
@[simp] theorem ctrlKey_step (c : Cell) : (ctrlKey c).step = c.step := rfl
@[simp] theorem ctrlKey_attempt (c : Cell) : (ctrlKey c).attempt = c.attempt := rfl

/-- What a reduction message meets: one without a step tag always the present. -/
def State.ctrlFit (s : State) (c : Cell) : TagFit :=
  if c.step = noStep then .present else s.tagFit (s.groupE c.group).slot c.step c.attempt

/-- The state in which a control message of a neighbour takes effect: its cell taken, its sender heard. -/
def State.ctrlIn (s : State) (l : LinkRef) (c : Cell) : State := (s.takeCell l c).seen (s.groupE c.group).slot c.src

/-- Does a result of this message type need a contribution of the module's own (R304)? -/
def needsOwn (cmsg : Nat) : Bool := cmsg == 1 || cmsg == 2 || cmsg == 3 || cmsg == 0x0B

/-- What a reduction message of member `j`, a neighbour in the tree, does by what its step tag meets. -/
def State.reduceMet (s : State) (l : LinkRef) (c : Cell) (cmsg j : Nat) : TagFit → Out
  | .waiting => .next (s.seen (s.groupE c.group).slot c.src)
  | .stale => .next (s.ctrlIn l c)
  | .present =>
    let u := s.ctrlIn l c
    let lanes := lanesOf ((ctrlLanes cmsg).getD 0) c.payload
    if c.hi 8 1 = 0 then .next (u.upSweep (ctrlKey c) j lanes).settle
    else if needsOwn cmsg && (u.redOf (ctrlKey c)).own.isNone then .next (if cmsg = 2 then u.violation l 9 else u)
    else .next (u.deliver (ctrlKey c) (c.hi 64 64) lanes).settle

section
variable {s : State} {l : LinkRef} {c : Cell} {cmsg me j : Nat} (hh : s.ctrlHere l c cmsg = true) (hm : s.myIdx c.group = some me)
  (hj : s.idxOf c.group c.src = some j) (hd : ctrlFrom c (s.groupE c.group).size me j = true)
include hh hm hj hd

theorem State.reduceCell_of_neighbour : s.reduceCell l c cmsg = s.reduceMet l c cmsg j (s.ctrlFit c) := by
  simp only [State.reduceCell, hh, hm, hj, hd, ctrlKey_group, Bool.not_true, Bool.false_eq_true, if_false]
  rfl

variable (h : s.ctrlFit c = .present)
include h

/-- A message of a child joins the up-sweep. -/
theorem State.reduceCell_of_child (hu : c.hi 8 1 = 0) : s.reduceCell l c cmsg =
    .next ((s.ctrlIn l c).upSweep (ctrlKey c) j (lanesOf ((ctrlLanes cmsg).getD 0) c.payload)).settle := by
  rw [State.reduceCell_of_neighbour hh hm hj hd, h]
  exact if_pos hu

variable (hu : c.hi 8 1 = 1)
include hu

/-- A message of the parent delivers the result, where the module has contributed or need not have. -/
theorem State.reduceCell_of_parent (ho : ((s.ctrlIn l c).redOf (ctrlKey c)).own.isSome = true ∨ needsOwn cmsg = false) : s.reduceCell l c cmsg =
    .next ((s.ctrlIn l c).deliver (ctrlKey c) (c.hi 64 64) (lanesOf ((ctrlLanes cmsg).getD 0) c.payload)).settle := by
  have hn : ¬ (needsOwn cmsg && ((s.ctrlIn l c).redOf (ctrlKey c)).own.isNone) = true := by
    rcases ho with ho | ho
    · simp [Option.isSome_iff_ne_none.1 ho]
    · simp [ho]
  rw [State.reduceCell_of_neighbour hh hm hj hd, h]
  exact (if_neg (by omega)).trans (if_neg hn)

/-- A result without the contribution that its reduction needs is dropped; one of GROUP_START is a violation. -/
theorem State.reduceCell_of_no_own (ho : ((s.ctrlIn l c).redOf (ctrlKey c)).own = none) (hn : needsOwn cmsg = true) :
    s.reduceCell l c cmsg = .next (if cmsg = 2 then (s.ctrlIn l c).violation l 9 else s.ctrlIn l c) := by
  rw [State.reduceCell_of_neighbour hh hm hj hd, h]
  exact (if_neg (by omega)).trans (if_pos (by simp [ho, hn]))

end

/-- The rows of reduction messages without GROUP_START differ in their message type alone. -/
theorem exec_of_reductionRow {i : Instr} {cmsg : Nat} {l : LinkRef} {c : Cell} (s : State) (h : (i, cmsg) ∈
    [(Instr.ctrlStepBegin l c, 1), (Instr.ctrlScaleMax l c, 3), (Instr.ctrlStepCheck l c, 4), (Instr.ctrlStepCommit l c, 5),
      (Instr.ctrlCheckpoint l c, 0x0B)]) :
    exec i s = s.reduceCell l c cmsg ∧ cmsg ≠ 2 ∧ (needsOwn cmsg = false ↔ cmsg = 4 ∨ cmsg = 5) := by
  simp only [List.mem_cons, Prod.mk.injEq, List.not_mem_nil, or_false] at h
  rcases h with ⟨rfl, rfl⟩ | ⟨rfl, rfl⟩ | ⟨rfl, rfl⟩ | ⟨rfl, rfl⟩ | ⟨rfl, rfl⟩ <;> exact ⟨rfl, by decide, by decide⟩

/-- Settles O30: by what the message's step tag meets, and in the present by its direction and the module's own contribution. -/
theorem reductionMessagesClimbAndDescend : Obligations.ReductionMessagesClimbAndDescend := by
  unfold Obligations.ReductionMessagesClimbAndDescend
  intro s l c i cmsg me j hi hh hm hj hd
  obtain ⟨he, h2, hn⟩ := exec_of_reductionRow s hi
  rw [he]
  refine ⟨fun h hu => State.reduceCell_of_child hh hm hj hd h hu, fun h hu ho => State.reduceCell_of_parent hh hm hj hd h hu (ho.imp_right hn.2),
    fun h hu ho h4 h5 => ?_, fun h => ?_, fun h => ?_⟩
  · have hneeds : needsOwn cmsg = true := by simpa [h4, h5] using hn
    rw [State.reduceCell_of_no_own hh hm hj hd h hu ho hneeds, if_neg h2]
    rfl
  · rw [State.reduceCell_of_neighbour hh hm hj hd]
    exact congrArg (s.reduceMet l c cmsg j) h
  · rw [State.reduceCell_of_neighbour hh hm hj hd]
    exact congrArg (s.reduceMet l c cmsg j) h

/-! ### GROUP_START (R309) -/

/-- After a message of GROUP_START every open step's STEP_CHECK looks again, and the operators go on. -/
theorem exec_ctrlGroupStart_of_next {s t : State} {l : LinkRef} {c : Cell} (h : s.reduceCell l c 2 = .next t) :
    exec (.ctrlGroupStart l c) s = .next ((t.openSteps.foldl (fun (t : State) k => t.tryCheck k) t).settle) := by
  have he : exec (.ctrlGroupStart l c) s = execCtrlGroupStart l c s := rfl
  rw [he, execCtrlGroupStart, h]

theorem State.ctrlFit_eq_present {s : State} {c : Cell} (h : c.step = noStep ∨ s.tagFit (s.groupE c.group).slot c.step c.attempt = .present) :
    s.ctrlFit c = .present := by
  rw [State.ctrlFit, ite_eq_left_iff]
  exact h.resolve_left

/-- Settles O31: a reduction message whose result needs this module's contribution. -/
theorem groupStartReleasesOperators : Obligations.GroupStartReleasesOperators := by
  unfold Obligations.GroupStartReleasesOperators
  intro s l c me j hh hm hj hd h
  have hf := State.ctrlFit_eq_present h
  exact ⟨fun hu => exec_ctrlGroupStart_of_next (State.reduceCell_of_child hh hm hj hd hf hu),
    fun hu ho => exec_ctrlGroupStart_of_next (State.reduceCell_of_parent hh hm hj hd hf hu (.inl ho)),
    fun hu ho => exec_ctrlGroupStart_of_next (State.reduceCell_of_no_own hh hm hj hd hf hu ho rfl)⟩

end Sys2Proof.Machine
end

section
namespace Sys2Proof.Machine

/-! ### Void requests and decisions, heartbeats, rank moves (R306, R307, R323, R324, R365) -/

section
variable {s : State} {l : LinkRef} {c : Cell} {me j : Nat} (hm : s.myIdx c.group = some me) (hj : s.idxOf c.group c.src = some j)
include hm hj

section
variable (hh : s.ctrlHere l c 6 = true) (hg : (s.run (s.groupE c.group).slot).group = c.group)
  (ho : (s.run (s.groupE c.group).slot).isOpen = true)
include hh hg ho

/-- A void request of a member of an open run's group: at the root, at member 1 for the root's own rank, or where it does not belong. -/
theorem exec_ctrlVoidRequest_of_member : exec (.ctrlVoidRequest l c) s =
    if me = 0 then .next ((s.ctrlIn l c).handleVoid (s.groupE c.group).slot c.step c.attempt c.src (c.hi 64 8) (c.hi 72 18)).settle
    else if me = 1 && c.hi 64 8 != 0 && c.hi 72 18 = (s.ctrlIn l c).rootRank (s.groupE c.group).slot then
      .next ((s.ctrlIn l c).failRoot (s.groupE c.group).slot).settle
    else .next ((s.ctrlIn l c).violation l 9) := by
  have he : exec (.ctrlVoidRequest l c) s = execCtrlVoidRequest l c s := rfl
  rw [he, execCtrlVoidRequest]
  simp only [hh, hm, hj, hg, ho, State.takeCell_myIdx, State.takeCell_idxOf, State.takeCell_run, State.seen_run, Bool.not_true, bne_self_eq_false,
    Bool.or_self, Bool.false_eq_true, if_false]
  rfl

end

/-- A void decision from the parent, of the attempt that is open here, goes on down the tree and is applied. -/
theorem exec_ctrlDecision_of_present (hh : s.ctrlHere l c 7 = true) (hd : ctrlFrom c (s.groupE c.group).size me j = true) (hu : c.hi 8 1 = 1)
    (h : s.tagFit (s.groupE c.group).slot c.step c.attempt = .present) : exec (.ctrlDecision l c) s =
      .next (((treeChildren (s.groupE c.group).size me).foldl (fun t j => t.sendCell (t.ctrlCell (ctrlKey c) true ((s.groupE c.group).rank j) 1 []))
        (s.ctrlIn l c)).applyVoid (s.groupE c.group).slot cStepVoided).settle := by
  have he : exec (.ctrlDecision l c) s = execCtrlDecision l c s := rfl
  have hw : (TagFit.present == TagFit.waiting) = false := rfl
  rw [he, execCtrlDecision]
  simp only [hh, hm, hj, hd, hu, h, hw, ctrlKey_group, ctrlKey_step, ctrlKey_attempt, Bool.not_true, Bool.false_and, Bool.false_or, beq_self_eq_true,
    Bool.true_or, Bool.false_eq_true, one_ne_zero, decide_false, if_true, if_false]
  rfl

/-- A heartbeat of a neighbour marks it as heard. -/
theorem exec_ctrlHeartbeat_of_neighbour (hh : s.ctrlHere l c 0x0A = true) (hd : ctrlFrom c (s.groupE c.group).size me j = true) :
    exec (.ctrlHeartbeat l c) s = .next (s.ctrlIn l c) := by
  have he : exec (.ctrlHeartbeat l c) s = execCtrlHeartbeat l c s := rfl
  rw [he, execCtrlHeartbeat]
  simp only [hh, hm, hj, hd, State.takeCell_myIdx, State.takeCell_idxOf, Bool.not_true, Bool.false_eq_true, if_false, if_true]
  rfl

end

/-- What the arrival of a control message leaves: its sender is heard, runs and memory stay. -/
theorem State.ctrlIn_kept (s : State) (l : LinkRef) (c : Cell) :
    NMap.get? (s.ctrlIn l c).ctrl.peerSeen (peerKey (s.groupE c.group).slot c.src) = some s.now ∧ (s.ctrlIn l c).runs = s.runs ∧
    (s.ctrlIn l c).memsys = s.memsys := by
  have h := portsOnly_takeCell s l c
  refine ⟨?_, h.runs, h.memsys⟩
  rw [← h.now]
  exact NMap.get?_set_same ..

/-- A rank move is applied and flooded on when its sequence number is newer. -/
theorem exec_ctrlRankMove_of_here {s : State} {l : LinkRef} {c : Cell} (hh : s.ctrlHere l c 9 = true) : exec (.ctrlRankMove l c) s =
    .next (if newerSeq (NMap.getD ((s.takeCell l c).heard c.src).links.moveSeq (c.hi 64 18) 0) (c.hi 32 16) then
      (((s.takeCell l c).heard c.src).applyMove (c.hi 64 18) (c.hi 82 20) (c.hi 32 16)).settle else (s.takeCell l c).heard c.src) := by
  have he : exec (.ctrlRankMove l c) s = execCtrlRankMove l c s := rfl
  rw [he, execCtrlRankMove, if_neg (by simp [hh])]
  exact (apply_ite Host.Outcome.next _ _ _).symm

/-- Settles O32: each message by its receiver's place in the tree; a rank move by its sequence number. -/
theorem controlCellsTakeEffect : Obligations.ControlCellsTakeEffect := by
  unfold Obligations.ControlCellsTakeEffect
  refine ⟨fun s l c me j hm hj => ⟨fun hh hg ho h0 => ?_, fun hh hg ho h1 hr hf => ?_, fun hh hg ho h1 => ?_, fun hh hd hu h => ?_, fun hh hd => ?_⟩,
    fun s l c hh => ⟨fun h => ?_, fun h => ?_⟩⟩
  · exact (exec_ctrlVoidRequest_of_member hm hj hh hg ho).trans (if_pos h0)
  · have h : (me = 1 && c.hi 64 8 != 0 && c.hi 72 18 = (s.ctrlIn l c).rootRank (s.groupE c.group).slot) = true := by
      simp only [h1, bne_iff_ne.2 hr, decide_true, Bool.and_self, Bool.true_and]
      exact decide_eq_true hf
    exact (exec_ctrlVoidRequest_of_member hm hj hh hg ho).trans ((if_neg (by omega)).trans (if_pos h))
  · have h : ¬ (me = 1 && c.hi 64 8 != 0 && c.hi 72 18 = (s.ctrlIn l c).rootRank (s.groupE c.group).slot) = true := by
      simp [show me ≠ 1 by omega]
    exact (exec_ctrlVoidRequest_of_member hm hj hh hg ho).trans ((if_neg (by omega)).trans (if_neg h))
  · exact exec_ctrlDecision_of_present hm hj hh hd hu h
  · exact ⟨_, exec_ctrlHeartbeat_of_neighbour hm hj hh hd, s.ctrlIn_kept l c⟩
  · exact (exec_ctrlRankMove_of_here hh).trans (congrArg _ (if_pos h))
  · exact (exec_ctrlRankMove_of_here hh).trans (congrArg _ (if_neg (Bool.eq_false_iff.1 h)))

/-! ### Heartbeats and silence (R306, R363, R364) -/

/-- A run's heartbeats: one to the parent, then one to each child. -/
def State.beat (s : State) (slot : Nat) : State := match s.runMe slot with
  | none => s
  | some me =>
    let e := s.groupE (s.run slot).group
    let k := s.runKey slot 0x0A (BitVec.ofNat 32 s.ctrl.hbCount)
    let n := (s.run slot).lastCommitted
    (treeChildren e.size me).foldl (fun s j => s.sendCell (s.ctrlCell k true (e.rank j) n []))
      (if me = 0 then s else s.sendCell (s.ctrlCell k false (e.rank (treeParent me)) n []))

theorem portsOnly_beat (s : State) (slot : Nat) : PortsOnly s (s.beat slot) := by
  unfold State.beat
  split
  · exact .refl s
  · refine PortsOnly.trans ?_ (.foldl (fun _ _ => portsOnly_sendCell _ _) _ _)
    split
    · exact .refl s
    · exact portsOnly_sendCell s _

/-- The state in which the heartbeats due next have been sent. -/
def State.beaten (s : State) : State :=
  (s.advanceTo (s.ctrl.hbAt + 100 * Config.usCycles)).treeRuns.foldl State.beat (s.advanceTo (s.ctrl.hbAt + 100 * Config.usCycles))

theorem State.portsOnly_beaten (s : State) : PortsOnly (s.advanceTo (s.ctrl.hbAt + 100 * Config.usCycles)) s.beaten := .foldl portsOnly_beat _ _

theorem exec_heartbeatSend_of_released {s : State} (h : s.released = true) : exec .heartbeatSend s =
    .next { s.beaten with ctrl := { s.beaten.ctrl with hbCount := (s.beaten.ctrl.hbCount + 1) % 2 ^ 32, hbAt := s.beaten.now } } := by
  have he : exec .heartbeatSend s = execHeartbeatSend s := rfl
  rw [he, execHeartbeatSend, if_neg (by simp [h])]
  rfl

/-- The heartbeats touch the ports alone; their count and time go on. -/
theorem gives_heartbeatSend {s : State} (h : s.released = true) : Gives .heartbeatSend s (fun t =>
    t.ctrl.hbCount = (s.ctrl.hbCount + 1) % 2 ^ 32 ∧ t.ctrl.hbAt = t.now ∧ t.now = max s.now (s.ctrl.hbAt + 100 * Config.usCycles) ∧
    t.runs = s.runs ∧ t.memsys = s.memsys ∧ t.vigil = s.vigil) := by
  have hb := s.portsOnly_beaten
  refine ⟨_, exec_heartbeatSend_of_released h, ?_⟩
  dsimp only
  rw [hb.ctrl, hb.now, hb.runs, hb.memsys, hb.vigil, State.now_advanceTo, State.advanceTo_ctrl]
  exact ⟨rfl, rfl, rfl, State.advanceTo_runs .., State.advanceTo_memsys .., State.advanceTo_vigil ..⟩

/-- The state in which a neighbour's silence has been recorded. -/
def State.silenceNoted (s : State) (slot peer : Nat) : State :=
  let u := s.advanceTo (NMap.getD s.ctrl.peerSeen (peerKey slot peer) (s.run slot).openedAt + Config.msCycles)
  ((u.record uidHub cControlPeerSilent 2 peer (u.whoRun slot)).fault slot).seen slot peer

section
variable {s : State} {slot peer me : Nat} (hm : s.runMe slot = some me) (ho : (s.run slot).isOpen = true)
include hm ho

/-- A child's silence declares it failed, the root's is member 1's to declare; any other is only recorded. -/
theorem exec_controlPeerSilent_of_near (h : s.treeNear slot peer = true) : exec (.controlPeerSilent slot peer) s =
    .next (if (treeChildren (s.groupE (s.run slot).group).size me).any (fun j => (s.groupE (s.run slot).group).rank j == peer) then
      (s.silenceNoted slot peer).askVoid slot 2 peer
    else if me = 1 then (s.silenceNoted slot peer).failRoot slot else s.silenceNoted slot peer).settle := by
  have he : exec (.controlPeerSilent slot peer) s = execControlPeerSilent slot peer s := rfl
  rw [he, execControlPeerSilent]
  simp only [hm, ho, h, Bool.not_true, Bool.or_self, Bool.false_eq_true, if_false]
  rfl

theorem exec_controlPeerSilent_of_child (h : ∃ j ∈ treeChildren (s.groupE (s.run slot).group).size me, (s.groupE (s.run slot).group).rank j = peer) :
    exec (.controlPeerSilent slot peer) s = .next ((s.silenceNoted slot peer).askVoid slot 2 peer).settle := by
  have hc : (treeChildren (s.groupE (s.run slot).group).size me).any (fun j => (s.groupE (s.run slot).group).rank j == peer) = true := by
    simpa using h
  have hn : s.treeNear slot peer = true := by simp only [State.treeNear, hm, hc, Bool.true_or]
  rw [exec_controlPeerSilent_of_near hm ho hn, if_pos hc]

/-- The parent's silence. -/
theorem exec_controlPeerSilent_of_parent (h : ∀ j ∈ treeChildren (s.groupE (s.run slot).group).size me, (s.groupE (s.run slot).group).rank j ≠ peer)
    (h0 : me ≠ 0) (hp : (s.groupE (s.run slot).group).rank (treeParent me) = peer) : exec (.controlPeerSilent slot peer) s =
      .next (if me = 1 then (s.silenceNoted slot peer).failRoot slot else s.silenceNoted slot peer).settle := by
  have hc : ¬ (treeChildren (s.groupE (s.run slot).group).size me).any (fun j => (s.groupE (s.run slot).group).rank j == peer) = true := by
    simpa using h
  have hn : s.treeNear slot peer = true := by simp [State.treeNear, hm, h0, hp]
  rw [exec_controlPeerSilent_of_near hm ho hn, if_neg hc]

end

/-- Settles O33: the heartbeats of every run's tree, and the silence of a child and of the parent. -/
theorem heartbeatsAndSilence : Obligations.HeartbeatsAndSilence := by
  unfold Obligations.HeartbeatsAndSilence
  refine ⟨fun s h => ⟨exec_heartbeatSend_of_released h, gives_heartbeatSend h⟩,
    fun s slot peer me hm ho => ⟨fun h => exec_controlPeerSilent_of_child hm ho h, fun h h1 hp => ?_, fun h h1 hp => ?_⟩⟩
  · rw [exec_controlPeerSilent_of_parent hm ho h (by omega) hp, if_neg (by omega)]
    rfl
  · rw [exec_controlPeerSilent_of_parent hm ho h (by omega) (h1 ▸ hp), if_pos h1]
    rfl

end Sys2Proof.Machine
end

section
namespace Sys2Proof.Machine

/-! ### What a seed keeps (R460) -/

/-- `t` has memory and, of the run in `slot`, the present seeding and acknowledgement as `s` has them. -/
structure SeedKept (slot : Nat) (s t : State) : Prop where
  memsys : t.memsys = s.memsys
  seeding : (t.run slot).mirror.seeding = (s.run slot).mirror.seeding
  acked : (t.run slot).mirror.acked = (s.run slot).mirror.acked

theorem SeedKept.refl (slot : Nat) (s : State) : SeedKept slot s s := ⟨rfl, rfl, rfl⟩

theorem SeedKept.trans {slot : Nat} {s t u : State} (a : SeedKept slot s t) (b : SeedKept slot t u) : SeedKept slot s u :=
  ⟨b.memsys.trans a.memsys, b.seeding.trans a.seeding, b.acked.trans a.acked⟩

theorem SeedKept.of_run {slot : Nat} {s t : State} (hm : t.memsys = s.memsys) (hr : t.run slot = s.run slot) : SeedKept slot s t :=
  ⟨hm, by rw [hr], by rw [hr]⟩

@[simp] theorem State.mirror_updMirror (s : State) (slot : Nat) (f : MirrorTx → MirrorTx) :
    ((s.updMirror slot f).run slot).mirror = f (s.run slot).mirror := by
  rw [State.updMirror, State.run_updRun_same]

theorem SeedKept.updMirror {slot : Nat} {s t : State} {f : MirrorTx → MirrorTx} (h : SeedKept slot s t) (hs : ∀ m, (f m).seeding = m.seeding)
    (ha : ∀ m, (f m).acked = m.acked) : SeedKept slot s (t.updMirror slot f) :=
  h.trans ⟨rfl, by rw [State.mirror_updMirror, hs], by rw [State.mirror_updMirror, ha]⟩

theorem seedKept_mirrorCell (s : State) (slot kind high : Nat) (bs : List Byte) : SeedKept slot s (s.mirrorCell slot kind high bs) := by
  unfold State.mirrorCell
  extract_lets _ c t
  have ht : PortsOnly s t := by
    simp only [t]
    split
    · exact portsOnly_sendCell s c
    · exact portsOnly_updLink s _ _
  have hk : SeedKept slot s t := .of_run ht.memsys (ht.run slot)
  split
  · apply SeedKept.updMirror
    · exact hk.trans (.of_run rfl rfl)
    · exact fun _ => rfl
    · exact fun _ => rfl
  · exact hk

theorem seedKept_mirrorItem (s : State) (slot item tid base : Nat) (bs : List Byte) : SeedKept slot s (s.mirrorItem slot item tid base bs) :=
  foldl_keeps (SeedKept slot s) _ (fun _ _ h => h.trans (seedKept_mirrorCell ..)) _ _ (.refl slot s)

/-- The CLOSE keeps what a seed keeps, and closes the batch. -/
theorem seedKept_mirrorEnd (s : State) (slot : Nat) : SeedKept slot s (s.mirrorEnd slot) ∧ ((s.mirrorEnd slot).run slot).mirror.closed = true := by
  rw [State.mirrorEnd, State.mirror_updMirror]
  refine ⟨?_, rfl⟩
  apply SeedKept.updMirror
  · exact seedKept_mirrorCell ..
  · exact fun _ => rfl
  · exact fun _ => rfl

/-- A seed leaves the run seeding, its batch closed and unanswered, and memory as it was. -/
theorem State.seedMirror_spec (s : State) (slot : Nat) : ((s.seedMirror slot).run slot).mirror.seeding = true ∧
    ((s.seedMirror slot).run slot).mirror.closed = true ∧ ((s.seedMirror slot).run slot).mirror.acked = none ∧ (s.seedMirror slot).memsys = s.memsys := by
  unfold State.seedMirror
  extract_lets r s1 s2
  have h1 : (s1.run slot).mirror.seeding = true ∧ (s1.run slot).mirror.acked = none := by
    simp only [s1, State.mirror_updMirror, and_self]
  have h2 : SeedKept slot s1 s2 := foldl_keeps (SeedKept slot s1) _ (fun _ _ h => h.trans (seedKept_mirrorItem ..)) _ _ (.refl slot s1)
  obtain ⟨hend, hclosed⟩ := seedKept_mirrorEnd (s2.mirrorItem slot 0 0 0 (manifestItem 0 true r.lastCommitted)) slot
  have h3 := (h2.trans (seedKept_mirrorItem ..)).trans hend
  exact ⟨h3.seeding.trans h1.1, hclosed, h3.acked.trans h1.2, h3.memsys⟩

section
variable {s : State} {slot : Nat} (ho : (s.run slot).isOpen = true) (hs : (s.run slot).openStep = none) (hn : s.needsSeed slot = true)
  (hg : (s.run slot).mirror.seeding = false)
include ho hs hn hg

/-- Between steps, a mirror that needs it is seeded. -/
theorem exec_mirrorSeed_of_due : exec (.mirrorSeed slot) s =
    .next { s.seedMirror slot with twin := { (s.seedMirror slot).twin with seeds := sat32 (s.twin.seeds + 1) } } := by
  have he : exec (.mirrorSeed slot) s = execMirrorSeed slot s := rfl
  rw [he, execMirrorSeed]
  exact if_pos (by simp [ho, hs, hn, hg])

theorem gives_mirrorSeed_of_due : Gives (.mirrorSeed slot) s (fun t => (t.run slot).mirror.seeding = true ∧ (t.run slot).mirror.closed = true ∧
    (t.run slot).mirror.acked = none ∧ t.memsys = s.memsys) := by
  refine ⟨_, exec_mirrorSeed_of_due ho hs hn hg, ?_⟩
  simpa only [State.run] using s.seedMirror_spec slot

end

/-! ### The answers of the twin (R318, R374, R460, R461) -/

/-- The mirror of a run whose seed is answered. -/
def MirrorTx.seedAnswered (m : MirrorTx) (ok : Bool) (reason : BitVec 16) : MirrorTx :=
  { m with seeding := false, seeded := ok, stale := m.stale && !ok, acked := if ok then none else some false, ackReason := reason }

section
variable {s : State} {l : LinkRef} {c : Cell} {slot : Nat} (hh : s.cellHere l c = true) (hk : c.kind = 0x3A) (hd : s.isOwnRank c.dst = true)
  (hs : (s.groupE c.group).slot = slot) (ho : (s.run slot).isOpen = true) (hg : (s.run slot).group = c.group) (ht : s.twinRank slot = some c.src)
include hh hk hd hs ho hg ht

/-- The twin's answer: of the open attempt, of a copy, of a seed, or of nothing that waits. -/
theorem exec_mirrorAck_of_twin : exec (.mirrorAck l c) s =
    if c.step != noStep then
      if s.tagFit slot c.step c.attempt == .present then
        .next ((((s.takeCell l c).updMirror slot (fun m => { m with acked := some (c.hi 0 1 == 1), ackReason := BitVec.ofNat 16 (c.hi 16 16) })).tryCheck
          slot).settle)
      else .next ((s.takeCell l c).staleOn l)
    else if (s.run slot).compatInterval != 0 then
      .next ((s.takeCell l c).updRun slot (fun r => { r with compatAcked := r.compatAcked || c.hi 0 1 == 1 }))
    else if (s.run slot).mirror.seeding then
      .next ((s.takeCell l c).updMirror slot (fun m => m.seedAnswered (c.hi 0 1 == 1) (BitVec.ofNat 16 (c.hi 16 16))))
    else .next ((s.takeCell l c).staleOn l) := by
  have he : exec (.mirrorAck l c) s = execMirrorAck l c s := rfl
  subst hs
  rw [he, execMirrorAck]
  simp only [hh, hk, hd, ho, hg, ht, State.takeCell_tagFit, beq_self_eq_true, Bool.and_self, Bool.not_true, Bool.false_eq_true, if_false]
  rfl

theorem exec_mirrorAck_of_attempt (hn : c.step ≠ noStep) (hf : s.tagFit slot c.step c.attempt = .present) : exec (.mirrorAck l c) s =
    .next ((((s.takeCell l c).updMirror slot (fun m => { m with
      acked := some (c.hi 0 1 == 1), ackReason := BitVec.ofNat 16 (c.hi 16 16) })).tryCheck slot).settle) := by
  rw [exec_mirrorAck_of_twin hh hk hd hs ho hg ht, if_pos (bne_iff_ne.2 hn), if_pos (beq_iff_eq.2 hf)]

/-- An answer of another attempt than the open one is stale. -/
theorem exec_mirrorAck_of_other_attempt (hn : c.step ≠ noStep) (hf : s.tagFit slot c.step c.attempt ≠ .present) :
    exec (.mirrorAck l c) s = .next ((s.takeCell l c).staleOn l) := by
  rw [exec_mirrorAck_of_twin hh hk hd hs ho hg ht, if_pos (bne_iff_ne.2 hn), if_neg (by simpa using hf)]

variable (hn : c.step = noStep)
include hn

/-- In compatibility mode the answer is a copy's. -/
theorem exec_mirrorAck_of_copy (hc : (s.run slot).compatInterval ≠ 0) : exec (.mirrorAck l c) s =
    .next ((s.takeCell l c).updRun slot (fun r => { r with compatAcked := r.compatAcked || c.hi 0 1 == 1 })) := by
  rw [exec_mirrorAck_of_twin hh hk hd hs ho hg ht, if_neg (by simp [hn]), if_pos (bne_iff_ne.2 hc)]

variable (hc : (s.run slot).compatInterval = 0)
include hc

/-- Between steps the answer is a seed's, or nobody waits for it. -/
theorem exec_mirrorAck_between_steps : exec (.mirrorAck l c) s = if (s.run slot).mirror.seeding then
      .next ((s.takeCell l c).updMirror slot (fun m => m.seedAnswered (c.hi 0 1 == 1) (BitVec.ofNat 16 (c.hi 16 16))))
    else .next ((s.takeCell l c).staleOn l) := by
  rw [exec_mirrorAck_of_twin hh hk hd hs ho hg ht, if_neg (by simp [hn]), if_neg (by simp [hc])]

/-- The answer to a seed ends it; a yes makes the mirror seeded. -/
theorem gives_mirrorAck_of_seed (hm : (s.run slot).mirror.seeding = true) : Gives (.mirrorAck l c) s (fun t =>
    (t.run slot).mirror.seeding = false ∧ (t.run slot).mirror.seeded = (c.hi 0 1 == 1) ∧
    (t.run slot).mirror.acked = if c.hi 0 1 = 1 then none else some false) := by
  refine ⟨_, (exec_mirrorAck_between_steps hh hk hd hs ho hg ht hn hc).trans (if_pos hm), ?_⟩
  simp only [State.mirror_updMirror, MirrorTx.seedAnswered, beq_iff_eq, and_self]

end

/-- Settles O26: a seed as it is sent, and the twin's answer by its step tag and what waits for it. -/
theorem mirrorIsSeededAndAcknowledged : Obligations.MirrorIsSeededAndAcknowledged := by
  unfold Obligations.MirrorIsSeededAndAcknowledged
  refine ⟨fun s slot ho hs hn hg => ⟨exec_mirrorSeed_of_due ho hs hn hg, gives_mirrorSeed_of_due ho hs hn hg⟩,
    fun s l c hh hk hd ho hg ht => ⟨fun hn hc hm => gives_mirrorAck_of_seed hh hk hd rfl ho hg ht hn hc hm,
      fun hn hf => exec_mirrorAck_of_attempt hh hk hd rfl ho hg ht hn hf, fun hn hc => exec_mirrorAck_of_copy hh hk hd rfl ho hg ht hn hc,
      fun h => ?_⟩⟩
  rcases h with ⟨hn, hf⟩ | ⟨hn, hc, hm⟩
  · exact exec_mirrorAck_of_other_attempt hh hk hd rfl ho hg ht hn hf
  · exact (exec_mirrorAck_between_steps hh hk hd rfl ho hg ht hn hc).trans (if_neg (Bool.eq_false_iff.1 hm))

/-! ### The rank objects (R307, R366, R411) -/

@[simp] theorem State.forWrite_boot (s : State) (q : Req) : (s.forWrite q).boot = s.boot := by simp [State.forWrite, State.opened]
@[simp] theorem State.forWrite_recov (s : State) (q : Req) : (s.forWrite q).recov = s.recov := by simp [State.forWrite, State.opened]

/-- Taking out a request's packet leaves the sequence numbers of moves. -/
@[simp] theorem State.forWrite_moveSeq (s : State) (q : Req) : (s.forWrite q).links.moveSeq = s.links.moveSeq := by
  simp only [State.forWrite, State.opened, State.endElevation_links, State.touch_links]
  cases q.who <;> rfl

/-- Settles O29: a move under the next sequence number; a spare's role on a module that is degraded or not. -/
theorem rankObjectsTakeEffect : Obligations.RankObjectsTakeEffect := by
  unfold Obligations.RankObjectsTakeEffect
  refine ⟨fun s q v hw => ?_, fun s q v hw hv => ?_, fun s q v hw hd hv => ?_⟩
  · refine exec_of_writes (bs := leBytes 8 v.toNat) (by rwa [leBytes_length]) rfl ?_
    rw [State.forWrite_moveSeq]
  · refine exec_of_writes (bs := leBytes 2 v.toNat) (by rwa [leBytes_length]) rfl ?_
    have hn : (s.boot.degraded && v != 0xFFFF) = false := by
      cases hd : s.boot.degraded with
      | false => rfl
      | true => rw [hv hd]; rfl
    simp only [State.forWrite_boot, State.forWrite_recov, hn, Bool.false_eq_true, if_false]
  · refine exec_of_writes (bs := leBytes 2 v.toNat) (by rwa [leBytes_length]) rfl ?_
    have hp : (s.boot.degraded && v != 0xFFFF) = true := by rw [hd, bne_iff_ne.2 hv, Bool.and_self]
    simp only [State.forWrite_boot, hp, if_true]

end Sys2Proof.Machine
end

section
namespace Sys2Proof.Machine

/-! ### Heartbeats of units (R300) -/

/-- Once the clocks are aligned, the hub keeps a unit's word with its time. -/
theorem gives_unitHeartbeat {s : State} (u w : BitVec 32) (h : s.clk.aligned = true) :
    Gives (.unitHeartbeat u w) s (fun t => NMap.get? t.cores.heartbeat u.toNat = some ⟨w, s.now⟩) := by
  have he : exec (.unitHeartbeat u w) s = execUnitHeartbeat u w s := rfl
  exact ⟨_, he.trans (if_neg (by simp [h])), NMap.get?_set_same ..⟩

/-- The time until which a unit is waited for has passed, where a word of it is known. -/
def State.silencePassed (s : State) (u : BitVec 32) : State := match NMap.get? s.cores.heartbeat u.toNat with
  | some h => s.advanceTo (max h.at_ ((s.openedAt u).getD 0) + 4 * 4096)
  | none => s

theorem State.silencePassed_vigil (s : State) (u : BitVec 32) : (s.silencePassed u).vigil = s.vigil := by
  unfold State.silencePassed
  split <;> rfl

theorem State.silencePassed_boot (s : State) (u : BitVec 32) : (s.silencePassed u).boot = s.boot := by
  unfold State.silencePassed
  split <;> rfl

/-- The silence of a fabric port is recorded, and nothing is reset. -/
theorem exec_unitSilent_of_fabric {s : State} {u : BitVec 32} (hr : s.released = true) (hq : s.quietUnit u = false) (hd : fld u 28 4 = 2) :
    exec (.unitSilent u) s = .next ((s.silencePassed u).record u cUnitSilent 2 0) := by
  have he : exec (.unitSilent u) s = execUnitSilent u s := rfl
  rw [he, execUnitSilent, if_neg (by simp [hr, hq])]
  simp only [hd]
  rfl

/-! ### Snapshots (R311, R312) -/

/-- A fresh request whose action answers nothing yet waits. -/
theorem dictOpt_of_fresh_unanswered {s t : State} {q : Req} {op i sub : Nat} {act : State → State × Option (Code × List Byte)}
    (h : Fresh s q op i sub) (ha : act (s.opened q) = (t, none)) :
    s.dictOpt q op i sub act = (t.updReq q.who (fun x => { x with deferred := x.deferred ++ [q.seq] }), cOk) := by
  obtain ⟨hans, hkept, hdef, hroom, hreach⟩ := h
  have hk : ((s.opened q).reqOf q.who).kept.find? (fun r => r.seq == q.seq) = none := by
    rw [List.find?_eq_none]
    intro r hr
    simpa using hkept r hr
  have hd : ((s.opened q).reqOf q.who).deferred.contains q.seq = false := by simpa using hdef
  have ho : (s.takeDict q.who).touch q.who = s.opened q := rfl
  simp only [State.dictOpt, hans, ho, hk, hd, Nat.not_le.2 hroom, hreach, ha, Bool.not_true, Bool.false_eq_true, if_false]

@[simp] theorem State.opened_ctrl (s : State) (q : Req) : (s.opened q).ctrl = s.ctrl := by simp [State.opened]
@[simp] theorem State.opened_clk (s : State) (q : Req) : (s.opened q).clk = s.clk := by simp [State.opened]

/-- A write of 1 asks for a strobe and is answered later. -/
theorem exec_snapshotObject_of_fresh {s : State} {q : Req} (h : Fresh s q 2 0x6000 1) (hw : (s.opened q).mayWrite q.who 0x6000 1 1 = true)
    (ha : s.clk.aligned = true) : exec (.snapshotObject q 1) s =
      .next (((s.opened q).strobe (.object q)).updReq q.who (fun x => { x with deferred := x.deferred ++ [q.seq] })) := by
  have he : exec (.snapshotObject q 1) s = execSnapshotObject q 1 s := rfl
  rw [he, execSnapshotObject, dictOpt_of_fresh_unanswered h]
  simp [hw, ha]

theorem gives_snapshotObject {s : State} {q : Req} (h : Fresh s q 2 0x6000 1) (hw : (s.opened q).mayWrite q.who 0x6000 1 1 = true)
    (ha : s.clk.aligned = true) : Gives (.snapshotObject q 1) s (fun t =>
      t.ctrl.strobes = s.ctrl.strobes ++ [.object q] ∧ q.seq ∈ (t.reqOf q.who).deferred) := by
  refine ⟨_, exec_snapshotObject_of_fresh h hw ha, ?_, ?_⟩
  · rw [State.updReq_ctrl, State.strobe, State.opened_ctrl]
  · rw [State.reqOf_updReq]
    · exact List.mem_append_right _ (List.mem_singleton_self _)
    · exact fun _ => rfl

/-- A run's boundary at the front of the strobes latches every counter. -/
theorem gives_snapshotLatch_of_boundary {s : State} {n a : Nat} {fs : List SnapFor} (h : s.ctrl.strobes = .boundary n a :: fs) :
    Gives .snapshotLatch s (fun t => t.ctrl.strobes = fs ∧ t.ctrl.snapId = (s.ctrl.snapId + 1) % 2 ^ 32 ∧ t.ctrl.shadows.mods = s.ctxs.ctr ∧
      t.ctrl.shadows.mem = s.memsys.ctr ∧ s.ctrl.strobeAt + 1024 ≤ t.now) := by
  have he : exec .snapshotLatch s = execSnapshotLatch s := rfl
  rw [execSnapshotLatch, h] at he
  exact ⟨_, he, rfl, rfl, rfl, rfl, (le_max_right _ _).trans_eq (s.now_advanceTo _).symm⟩

/-- Settles O11: a unit's word, the silence of a fabric port, a strobe that is asked for and one that latches. -/
theorem heartbeatsAndSnapshots : Obligations.HeartbeatsAndSnapshots := by
  unfold Obligations.HeartbeatsAndSnapshots
  refine ⟨fun s u w h => gives_unitHeartbeat u w h, fun s u hr hq hd => ⟨_, exec_unitSilent_of_fabric hr hq hd, ?_, ?_⟩,
    fun s q h hw ha => gives_snapshotObject h hw ha, fun s n a fs h => gives_snapshotLatch_of_boundary h⟩
  · rw [State.record_nextSeq, State.silencePassed_vigil]
  · rw [State.record_boot, State.silencePassed_boot]

end Sys2Proof.Machine
end

section
namespace Sys2Proof.Machine

/-! ### Crash dumps and captures (R335, R377 to R381) -/

/-- A wanted dump that no reset waits for goes to the next Yew slot, and the slot after it is the next. -/
theorem gives_crashDump_of_wanted {s : State} {k : Nat} (silent : List (BitVec 32)) (hw : s.dump.wanted = some k) (ha : s.dump.resetAfter = false) :
    Gives (.crashDump silent) s (fun t => t.dump.wanted = none ∧ (NMap.get? t.flash.dumps s.flash.dumpNext).isSome = true ∧
      t.flash.dumpNext = (s.flash.dumpNext + 1) % 47 ∧ t.flash.dumpOpen = false) := by
  have he : exec (.crashDump silent) s = execCrashDump silent s := rfl
  simp only [execCrashDump, hw, ha, Bool.false_eq_true, if_false] at he
  refine ⟨_, he, ?_⟩
  simp only [State.record_dump, State.record_flash, NMap.get?_set_same, Option.isSome_some, and_self]

@[simp] theorem State.forWrite_dump (s : State) (q : Req) : (s.forWrite q).dump = s.dump := by simp [State.forWrite, State.opened]

/-- A write of 1 while no dump is wanted stages the whole chip's entries. -/
theorem gives_dumpRequest_of_writes {s : State} {q : Req} (h : Writes s q 0x2300 1 1) (hn : s.dump.wanted = none) :
    Gives (.dumpRequest q 1) s (fun t => t.dump.wanted = some 2 ∧ t.dump.staged = (s.forWrite q).chipEntries) := by
  refine gives_of_writes (bs := [1]) (c := cOk) (u := (s.forWrite q).wantDump 2 0 noTrigger) h rfl ?_ (fun r => ?_)
  · simp [hn]
  · rw [State.respond_dump]
    exact ⟨rfl, rfl⟩

/-- A capture not yet in flash goes to the next place of the ring; its slot keeps it. -/
theorem gives_captureFlush_of_unflushed {s : State} {i : Nat} {c : Capture} (hi : NMap.get? s.sched.captures i = some c) (hf : c.flushed = false) :
    Gives (.captureFlush i) s (fun t => NMap.get? t.flash.captures s.flash.captureNext = some { c with flushed := true } ∧
      NMap.get? t.sched.captures i = some { c with flushed := true } ∧ t.flash.captureNext = (s.flash.captureNext + 1) % 1024) := by
  have he : exec (.captureFlush i) s = execCaptureFlush i s := rfl
  simp only [execCaptureFlush, hi, hf, Bool.false_eq_true, if_false] at he
  exact ⟨_, he, NMap.get?_set_same .., NMap.get?_set_same .., rfl⟩

/-- Settles O8: a wanted dump is written, a request wants one, a capture is flushed. -/
theorem dumpsAndCapturesReachFlash : Obligations.DumpsAndCapturesReachFlash :=
  ⟨fun _ silent _ hw ha => gives_crashDump_of_wanted silent hw ha, fun _ _ h hn => gives_dumpRequest_of_writes h hn,
    fun _ _ _ hi hf => gives_captureFlush_of_unflushed hi hf⟩

/-! ### What a record leaves of Vigil (R420, R423) -/

/-- Buffering a record changes the buffer and its count of what was dropped alone. -/
theorem bufferRecord_frame (x : Vigil) (r : ErrorRecord) : ∃ buffer dropped, bufferRecord x r = { x with buffer := buffer, logDropped := dropped } := by
  unfold bufferRecord
  dsimp only
  (repeat' split) <;> exact ⟨_, _, rfl⟩

/-- A record changes the log's buffer, its count of what was dropped, the next sequence number and the stop that is pending; of Vigil nothing else. -/
theorem State.record_vigil (s : State) (u : BitVec 32) (c : Code) (v d : Nat) (w : Who) : ∃ buffer dropped,
    (s.record u c v d w).vigil = { s.vigil with
      buffer := buffer, logDropped := dropped, nextSeq := (s.vigil.nextSeq + 1) % 2 ^ 64
      stopPending := s.vigil.stopPending || (decide (4 ≤ v) && s.released) } := by
  unfold State.record
  extract_lets r x t
  obtain ⟨buffer, dropped, hx⟩ := bufferRecord_frame s.vigil r
  refine ⟨buffer, dropped, ?_⟩
  have ht : t.vigil = _ := congrArg (fun x : Vigil => { x with
    nextSeq := (x.nextSeq + 1) % 2 ^ 64, stopPending := x.stopPending || (decide (4 ≤ v) && s.released) }) hx
  split
  · rw [State.noticeAll_vigil]
    exact ht
  · exact ht

theorem State.record_stopPending (s : State) (u : BitVec 32) (c : Code) (v d : Nat) (w : Who) :
    (s.record u c v d w).vigil.stopPending = (s.vigil.stopPending || (decide (4 ≤ v) && s.released)) := by
  obtain ⟨_, _, h⟩ := s.record_vigil u c v d w
  rw [h]

@[simp] theorem State.record_temps (s : State) (u : BitVec 32) (c : Code) (v d : Nat) (w : Who) : (s.record u c v d w).vigil.temps = s.vigil.temps := by
  obtain ⟨_, _, h⟩ := s.record_vigil u c v d w
  rw [h]

@[simp] theorem State.record_powerW (s : State) (u : BitVec 32) (c : Code) (v d : Nat) (w : Who) :
    (s.record u c v d w).vigil.powerW = s.vigil.powerW := by
  obtain ⟨_, _, h⟩ := s.record_vigil u c v d w
  rw [h]

@[simp] theorem State.record_missedPolls (s : State) (u : BitVec 32) (c : Code) (v d : Nat) (w : Who) :
    (s.record u c v d w).vigil.missedPolls = s.vigil.missedPolls := by
  obtain ⟨_, _, h⟩ := s.record_vigil u c v d w
  rw [h]

@[simp] theorem State.record_mr4 (s : State) (u : BitVec 32) (c : Code) (v d : Nat) (w : Who) : (s.record u c v d w).vigil.mr4 = s.vigil.mr4 := by
  obtain ⟨_, _, h⟩ := s.record_vigil u c v d w
  rw [h]

/-- A record of severity 4 in service makes a stop pending. -/
theorem State.record_stops {s : State} (h : s.released = true) (u : BitVec 32) (c : Code) (d : Nat) (w : Who) :
    (s.record u c 4 d w).vigil.stopPending = true := by
  rw [State.record_stopPending, h]
  simp

/-! ### Vigil's samples (R420, R423, R424) -/

section
variable {s : State} (hv : s.vigilRuns = true)
include hv

/-- A sample of the sensors is kept whole, whatever warning or limit it records. -/
theorem gives_thermalSample {ts : List (BitVec 16)} (ht : ts ≠ []) :
    Gives (.thermalSample ts) s (fun t => t.vigil.temps = (List.range 128).zip ts ∧ t.memsys = s.memsys ∧ t.runs = s.runs) := by
  have he : exec (.thermalSample ts) s = execThermalSample ts s := rfl
  rw [execThermalSample, if_neg (by simp [hv, ht])] at he
  refine ⟨_, he, ?_⟩
  dsimp only
  split_ifs <;> simp

theorem exec_voltageSample (vs : List (BitVec 16)) :
    exec (.voltageSample vs) s = .next { s with vigil := { s.vigil with volts := (List.range 48).zip vs } } := by
  have he : exec (.voltageSample vs) s = execVoltageSample vs s := rfl
  rw [he, execVoltageSample, if_neg (by simp [hv])]

/-- A rail out of range in service is recorded and makes a stop pending. -/
theorem gives_railOutOfRange (m : Nat) (hr : s.released = true) :
    Gives (.railOutOfRange m) s (fun t => t.vigil.stopPending = true ∧ t.vigil.nextSeq = (s.vigil.nextSeq + 1) % 2 ^ 64) := by
  have he : exec (.railOutOfRange m) s = execRailOutOfRange m s := rfl
  rw [execRailOutOfRange, if_neg (by simp [hv])] at he
  exact ⟨_, he, State.record_stops hr .., State.record_nextSeq ..⟩

/-- The input power is kept; above 2,400 W a stop is pending, else nothing about stops changes. -/
theorem gives_powerLimit (w : Nat) (hr : s.released = true) :
    Gives (.powerLimit w) s (fun t => t.vigil.powerW = w ∧ (2400 < w → t.vigil.stopPending = true) ∧
      (w ≤ 2400 → t.vigil.stopPending = s.vigil.stopPending)) := by
  have he : exec (.powerLimit w) s = execPowerLimit w s := rfl
  rw [execPowerLimit, if_neg (by simp [hv])] at he
  refine ⟨_, he, ?_⟩
  dsimp only
  split_ifs with hw
  · exact ⟨by simp, fun _ => State.record_stops (by simpa [State.released] using hr) .., fun hl => absurd hw hl.not_gt⟩
  · exact ⟨rfl, fun hl => absurd hl hw, fun _ => rfl⟩

/-- An answer without a fault gives the regulator's current and ends its row of missed polls. -/
theorem gives_regulatorPoll_of_answer (n : Nat) (a : BitVec 16) : Gives (.regulatorPoll n (.answer false a)) s (fun t =>
    NMap.getD t.vigil.regIout n 0 = a ∧ NMap.getD t.vigil.missedPolls n 0 = 0) := by
  have he : exec (.regulatorPoll n (.answer false a)) s = execRegulatorPoll n (.answer false a) s := rfl
  rw [execRegulatorPoll, if_neg (by simp [hv])] at he
  exact ⟨_, he, NMap.getD_set_same .., NMap.getD_set_same ..⟩

/-- A missed poll counts, also where the third of a row records the regulator's fault. -/
theorem gives_regulatorPoll_of_missed (n : Nat) : Gives (.regulatorPoll n .missed) s (fun t =>
    NMap.getD t.vigil.missedPolls n 0 = NMap.getD s.vigil.missedPolls n 0 + 1) := by
  have he : exec (.regulatorPoll n .missed) s = execRegulatorPoll n .missed s := rfl
  rw [execRegulatorPoll, if_neg (by simp [hv])] at he
  refine ⟨_, he, ?_⟩
  dsimp only
  split_ifs <;> simp

end

/-- The buffered records reach flash one after the other. -/
theorem gives_logFlush {s : State} (hp : s.boot.powered = true) (hg : s.pins.pgood = true) :
    Gives .logFlush s (fun t => t.vigil.buffer = [] ∧ t.flash = s.vigil.buffer.foldl Flash.append s.flash) := by
  have he : exec .logFlush s = execLogFlush s := rfl
  rw [execLogFlush, if_neg (by simp [hp, hg])] at he
  exact ⟨_, he, rfl, rfl⟩

/-! ### Seconds of service and the memories' temperature (R156, R346, R419) -/

section
variable {s : State} (hr : s.released = true)
include hr

/-- A second of service counts once it has passed in full. -/
theorem gives_serviceSecondTick :
    Gives .serviceSecondTick s (fun t => t.vigil.seconds = s.vigil.seconds + 1 ∧ s.vigil.secondsFrom + Config.sCycles ≤ t.now) := by
  have he : exec .serviceSecondTick s = execServiceSecondTick s := rfl
  rw [execServiceSecondTick, if_neg (by simp [hr])] at he
  refine ⟨_, he, ?_, s.le_now_advanceTo _⟩
  dsimp only
  rw [State.advanceTo_vigil]

theorem gives_serviceSecondsSave : Gives .serviceSecondsSave s (fun t => t.store.serviceSeconds = s.vigil.seconds) := by
  have he : exec .serviceSecondsSave s = execServiceSecondsSave s := rfl
  rw [execServiceSecondsSave, if_neg (by simp [hr])] at he
  refine ⟨_, he, ?_⟩
  beta_reduce
  rw [State.store_setStore]

/-- A controller's temperature field at its limit is kept, and a stop is pending. -/
theorem gives_lpddrTempLimit (c : Nat) (f : Byte) :
    Gives (.lpddrTempLimit c f) s (fun t => NMap.getD t.vigil.mr4 c 0 = f ∧ t.vigil.stopPending = true) := by
  have he : exec (.lpddrTempLimit c f) s = execLpddrTempLimit c f s := rfl
  rw [execLpddrTempLimit, if_neg (by simp [hr])] at he
  exact ⟨_, he, by simp, State.record_stops (by simpa [State.released] using hr) ..⟩

end

/-- Settles O9: the log, the samples, the polls, the seconds of service and the memories' temperature. -/
theorem vigilSamplesAndRecords : Obligations.VigilSamplesAndRecords :=
  ⟨fun _ hp hg => gives_logFlush hp hg, fun _ _ hv ht => gives_thermalSample hv ht, fun _ vs hv => exec_voltageSample hv vs,
    fun _ m hv hr => gives_railOutOfRange hv m hr, fun _ w hv hr => gives_powerLimit hv w hr, fun _ n a hv => gives_regulatorPoll_of_answer hv n a,
    fun _ n hv => gives_regulatorPoll_of_missed hv n, fun _ hr => gives_serviceSecondTick hr, fun _ hr => gives_serviceSecondsSave hr,
    fun _ c f hr => gives_lpddrTempLimit hr c f⟩

/-! ### Duplicate checks (R339 to R343) -/

/-- The checker's value differs from the original's by the fault of the operand. -/
theorem CheckTask.checkerValue_xor_value (k : CheckTask) (x : DWord) (arb : Nat) : k.checkerValue (.differ x arb) ^^^ k.value = x.zeroExtend 128 := by
  rw [CheckTask.checkerValue, BitVec.xor_comm, ← BitVec.xor_assoc, BitVec.xor_self, BitVec.zero_xor]

/-- The low doubleword of the difference, as the record shows it, is the fault. -/
theorem CheckTask.difference_recorded (k : CheckTask) (x : DWord) (arb : Nat) :
    (k.checkerValue (.differ x arb) ^^^ k.value).toNat % 2 ^ 64 = x.toNat := by
  rw [CheckTask.checkerValue_xor_value, BitVec.toNat_setWidth]
  omega

@[simp] theorem CheckTask.checkerValue_zero (k : CheckTask) (arb : Nat) : k.checkerValue (.differ 0 arb) = k.value := by
  simp [CheckTask.checkerValue]

/-- Only the fault 0 leaves the checker's value equal. -/
theorem CheckTask.checkerValue_ne_value {x : DWord} (k : CheckTask) (arb : Nat) (hx : x ≠ 0) : k.checkerValue (.differ x arb) ≠ k.value := by
  intro h
  have hr := k.difference_recorded x arb
  rw [h, BitVec.xor_self] at hr
  exact hx (BitVec.eq_of_toNat_eq hr.symm)

/-- The state in which task `n`, which compares `k`, is taken up. -/
def State.checkTaken (s : State) (n : Nat) : State := { s with sched := { s.sched with checks := NMap.erase s.sched.checks n } }

/-- The step that a check task belongs to, as its records name it. -/
def CheckTask.who (k : CheckTask) : Who := ⟨true, k.d.opcode, k.ctx, k.d.opSeq.toNat, k.slot, true, k.step, k.attempt⟩

/-- A difference `x` is recorded (R342). -/
def State.mismatchRecorded (s : State) (k : CheckTask) (x : DWord) : State :=
  s.record (uidCore (s.phys k.core) 1 0) cDuplicateMismatch 2 (k.core + checkerOf k.core * 2 ^ 10 + bit k.update * 2 ^ 20 +
    ((s.core k.core).lastCheck.getD noStep) % 2 ^ 40 * 2 ^ 24 + x.toNat * 2 ^ 64) k.who

/-- A difference in the master's update flags the group, any other the step (R343). -/
def State.mismatchFlagged (s : State) (k : CheckTask) : State :=
  if k.update then s.updRun k.slot (fun r => { r with replicaMismatch := true }) else s.fault k.slot

/-- The check's end by the core that the arbiter, checking the record `seq`, finds at fault; without one the module stops (Table 12.8). -/
def State.arbitrated (s : State) (k : CheckTask) (seq : Nat) : Option Nat → State
  | some c => ((s.record (uidCore (s.phys c) 1 0) cAttributionResult 0 (seq + 1 * 2 ^ 64 + c * 2 ^ 67) k.who).strike c 2 seq (some k.slot)).settle
  | none => (s.record (uidCore (s.phys k.core) 1 0) cAttributionResult 4 (seq + 3 * 2 ^ 64 + 0x3FF * 2 ^ 67) k.who).settle

section
variable {s : State} {n : Nat} {k : CheckTask} (hn : NMap.get? s.sched.checks n = some k)
include hn

theorem exec_checkTask_of_busy (v : CheckResult) (hb : ∃ e ∈ s.sched.ops, e.2.runsOn (checkerOf k.core) = true) :
    exec (.checkTask n v) s = .next s := by
  have he : exec (.checkTask n v) s = execCheckTask n v s := rfl
  simp only [he, execCheckTask, hn, List.any_eq_true.2 hb, if_true]

variable (hi : ∀ e ∈ s.sched.ops, e.2.runsOn (checkerOf k.core) = false)
include hi

/-- With the checker core idle, values that agree mark the original core's last check. -/
theorem exec_checkTask_of_agreement {v : CheckResult} (hv : v = .equal ∨ ∃ arb, v = .differ 0 arb) :
    exec (.checkTask n v) s = .next ((s.checkTaken n).checkPassed k) := by
  have he : exec (.checkTask n v) s = execCheckTask n v s := rfl
  simp only [he, execCheckTask, hn, State.any_runsOn_eq_false hi, Bool.false_eq_true, if_false]
  rcases hv with rfl | ⟨arb, rfl⟩
  · rfl
  · exact if_pos (beq_iff_eq.2 (k.checkerValue_zero arb))

/-- With the checker core idle, a difference is recorded and flagged, then arbitrated: the checker core is at fault where the arbiter agrees with the
original, the original where it agrees with the checker. -/
theorem exec_checkTask_of_difference {x : DWord} (arb : Nat) (hx : x ≠ 0) :
    let t := (s.checkTaken n).mismatchRecorded k x
    exec (.checkTask n (.differ x arb)) s = .next ((t.mismatchFlagged k).arbitrated k t.lastSeq.toNat
      (if arb = 0 then some (checkerOf k.core) else if arb = 1 then some k.core else none)) := by
  have he : exec (.checkTask n (.differ x arb)) s = execCheckTask n (.differ x arb) s := rfl
  simp only [he, execCheckTask, hn, State.any_runsOn_eq_false hi, beq_eq_false_iff_ne.2 (k.checkerValue_ne_value arb hx), k.difference_recorded,
    Bool.false_eq_true, if_false]
  rfl

end

/-! ### Captures (R335, R344, R345) -/

/-- The state in which capture `k` of slot `i` has been taken: it is in flash, and the slot is free. -/
def State.captureTaken (s : State) (i : Nat) (k : Capture) : State :=
  let f : State := if k.flushed then s else { s with flash := { s.flash with
    captures := NMap.set s.flash.captures s.flash.captureNext { k with flushed := true }, captureNext := (s.flash.captureNext + 1) % 1024 } }
  { f with sched := { f.sched with captures := NMap.erase f.sched.captures i }, free := f.free + 1 }

theorem State.captureOutcome_le_two (s : State) (own : Nat) (other : Bool) : s.captureOutcome own other ≤ 2 := by
  unfold State.captureOutcome
  split_ifs <;> omega

theorem State.captureOutcome_of_own {s : State} {own : Nat} (other : Bool) (h : 0 < own) : s.captureOutcome own other = if other then 2 else 1 :=
  if_neg h.ne'

theorem State.captureOutcome_of_none (s : State) : s.captureOutcome 0 false = 0 := rfl

section
variable {s : State} {i own : Nat} {other : Bool} {k : Capture} (hi : NMap.get? s.sched.captures i = some k) (hd : s.captureDue k = true)
include hi hd

/-- A due capture is recorded with the outcome of Table 12.9, which counts a transient, strikes the core or stops the module. -/
theorem exec_captureAttribution_of_due :
    let o := s.captureOutcome own other
    let run := if k.inStep then some k.runSlot else none
    let t := (s.captureTaken i k).record k.unit cAttributionResult (if o = 2 then 4 else 0)
      (k.recSeq + o * 2 ^ 64 + (if o = 1 then k.core else 0x3FF) * 2 ^ 67)
    exec (.captureAttribution i own other) s = .next
      (if o = 0 then t.transient k.core k.recSeq run else if o = 1 then t.strike k.core 1 k.recSeq run else t.boundaryStop) := by
  have he : exec (.captureAttribution i own other) s = execCaptureAttribution i own other s := rfl
  simp only [he, execCaptureAttribution, hi, hd, Bool.not_true, Bool.false_eq_true, if_false]
  rfl

theorem exec_captureAttribution_of_transient (ho : s.captureOutcome own other = 0) : exec (.captureAttribution i own other) s =
    .next (((s.captureTaken i k).record k.unit cAttributionResult 0 (k.recSeq + 0x3FF * 2 ^ 67)).transient k.core k.recSeq
      (if k.inStep then some k.runSlot else none)) := by
  rw [exec_captureAttribution_of_due hi hd, ho, Nat.zero_mul, Nat.add_zero]
  rfl

theorem exec_captureAttribution_of_own_core (ho : s.captureOutcome own other = 1) : exec (.captureAttribution i own other) s =
    .next (((s.captureTaken i k).record k.unit cAttributionResult 0 (k.recSeq + 2 ^ 64 + k.core * 2 ^ 67)).strike k.core 1 k.recSeq
      (if k.inStep then some k.runSlot else none)) := by
  rw [exec_captureAttribution_of_due hi hd, ho, Nat.one_mul]
  rfl

theorem exec_captureAttribution_of_both_cores (ho : s.captureOutcome own other = 2) : exec (.captureAttribution i own other) s =
    .next ((s.captureTaken i k).record k.unit cAttributionResult 4 (k.recSeq + 2 * 2 ^ 64 + 0x3FF * 2 ^ 67)).boundaryStop := by
  rw [exec_captureAttribution_of_due hi hd, ho]
  rfl

end

/-- Settles O41: a check waits, passes, or is arbitrated between the two cores; a due capture by the outcome of its runs. -/
theorem checksAndCapturesAreAttributed : Obligations.ChecksAndCapturesAreAttributed := by
  unfold Obligations.ChecksAndCapturesAreAttributed
  refine ⟨fun s n k v hn hb => exec_checkTask_of_busy hn v hb, fun s n k v hn hi hv => exec_checkTask_of_agreement hn hi hv,
    fun s n k x arb hn hi hx => ⟨fun ha => ?_, fun ha => ?_⟩,
    fun s i own other k hi hd => ⟨exec_captureAttribution_of_transient hi hd, exec_captureAttribution_of_own_core hi hd,
      exec_captureAttribution_of_both_cores hi hd, s.captureOutcome_le_two own other, State.captureOutcome_of_own other, ?_⟩⟩
  · obtain rfl | rfl : arb = 0 ∨ arb = 1 := by omega
    · exact exec_checkTask_of_difference hn hi 0 hx
    · exact exec_checkTask_of_difference hn hi 1 hx
  · refine (exec_checkTask_of_difference hn hi arb hx).trans ?_
    rw [if_neg (by omega), if_neg (by omega)]
    rfl
  · rintro rfl rfl
    exact s.captureOutcome_of_none

end Sys2Proof.Machine
end

section
namespace Sys2Proof.Machine

/-! ### The queue, the idle step and the state at reset (R384, R385) -/

theorem step_of_pending {s : State} {c : Instr} {rest : List Instr} (h : s.pending = c :: rest) : step s = exec c { s with pending := rest } := by
  simp only [step, h]

/-- Settles O1: the front command runs on the queue's rest. -/
theorem stepRunsFrontCommand : Obligations.StepRunsFrontCommand := fun _ _ _ h => step_of_pending h

/-- Without operators nobody waits, so a frame's counts touch the contexts' counters and the links alone. -/
theorem State.countStalls_of_no_ops {s : State} (h : s.sched.ops = []) :
    ∃ ctr links, s.countStalls = { s with ctxs := { s.ctxs with ctr := ctr }, links := links } := by
  unfold State.countStalls
  rw [h]
  exact ⟨_, _, rfl⟩

theorem State.markWaits_of_no_ops {s : State} (h : s.sched.ops = []) : s.markWaits = s := by
  simp only [State.markWaits, h, List.map_nil]
  rw [← h]

theorem State.boundaryStop_of_not_pending {s : State} (h : s.vigil.stopPending = false) : s.boundaryStop = s := if_neg (by simp [h])

theorem State.boundaryRetrain_of_not_held {s : State} (h : s.twin.heldRetrain = false) : s.boundaryRetrain = s := if_neg (by simp [h])

/-- With no work waiting, a frame is the counts, one block on each link, and 4 cycles. -/
theorem State.tick_of_idle {s : State} (ho : s.sched.ops = []) (hs : s.vigil.stopPending = false) (hr : s.twin.heldRetrain = false) :
    ∃ ctr links, s.tick = ({ s with ctxs := { s.ctxs with ctr := ctr }, links := links } : State).advance frame := by
  obtain ⟨ctr, links, hc⟩ := State.countStalls_of_no_ops ho
  refine ⟨ctr, ({ s with ctxs := { s.ctxs with ctr := ctr }, links := links } : State).transmitAll.links, ?_⟩
  rw [State.tick, State.markWaits_of_no_ops ho, hc, State.settle_of_no_ops, State.boundaryStop_of_not_pending, State.boundaryRetrain_of_not_held]
  · rfl
  · exact hr
  · exact hs
  · exact ho

/-- Settles O2: an idle step is a frame. -/
theorem idleStepPassesOneFrame : Obligations.IdleStepPassesOneFrame := by
  unfold Obligations.IdleStepPassesOneFrame
  intro s hp ho hs hr
  obtain ⟨ctr, links, ht⟩ := State.tick_of_idle ho hs hr
  have he : step s = .next s.tick := by simp only [step, hp]
  exact ⟨_, he.trans (congrArg _ ht), rfl, rfl, rfl, rfl, rfl, hp⟩

/-- Memory with nothing listed reads as 0 under slot 0. -/
theorem Mem.read_empty_slot0 (a : Nat) : ({} : Mem).read .slot0 a = 0 := rfl

/-- Settles O3: every field is at its reset value, and memory and engines have their canonical form. -/
theorem resetStateIsUnpowered : Obligations.ResetStateIsUnpowered := by
  unfold Obligations.ResetStateIsUnpowered
  refine ⟨rfl, rfl, rfl, rfl, rfl, rfl, rfl, rfl, rfl, rfl, rfl, rfl, rfl, rfl, fun k a => ?_, rfl, fun _ h => absurd h List.not_mem_nil⟩
  cases k with
  | slot0 => exact .inl (Mem.read_empty_slot0 a)
  | key _ => exact .inr nofun

/-! ### The dictionary's gate (R432) -/

section
variable {s : State} {q : Req} (op i sub : Nat) (act : State → State × Code × List Byte) (ha : s.answers q.who = true)
include ha

/-- A kept response is sent again. -/
theorem dict_of_kept {r : Response} (hk : ((s.opened q).reqOf q.who).kept.find? (fun r => r.seq == q.seq) = some r) :
    s.dict q op i sub act = ((s.opened q).sendResponse q.who r, cBusy) := by
  have ho : (s.takeDict q.who).touch q.who = s.opened q := rfl
  simp only [State.dict, State.dictOpt, ha, ho, hk, Bool.not_true, Bool.false_eq_true, if_false]

section
variable (hk : ((s.opened q).reqOf q.who).kept.find? (fun r => r.seq == q.seq) = none)
include hk

/-- A request that waits gets nothing. -/
theorem dict_of_deferred (hd : q.seq ∈ ((s.opened q).reqOf q.who).deferred) : s.dict q op i sub act = (s.opened q, cBusy) := by
  have ho : (s.takeDict q.who).touch q.who = s.opened q := rfl
  simp only [State.dict, State.dictOpt, ha, ho, hk, List.contains_iff_mem.2 hd, Bool.not_true, Bool.false_eq_true, if_false, if_true]

/-- A ninth request is BUSY. -/
theorem dict_of_full (hd : q.seq ∉ ((s.opened q).reqOf q.who).deferred) (hn : 8 ≤ ((s.opened q).reqOf q.who).deferred.length) :
    s.dict q op i sub act = ((s.opened q).respond q.who (answerOf q op i sub cBusy []), cBusy) := by
  have ho : (s.takeDict q.who).touch q.who = s.opened q := rfl
  simp only [State.dict, State.dictOpt, ha, ho, hk, mt List.contains_iff_mem.1 hd, hn, Bool.not_true, Bool.false_eq_true, if_false, if_true]
  rfl

end
end

/-- Settles O49: kept, waiting, ninth and fresh requests. -/
theorem repeatedRequestsAreNotExecuted : Obligations.RepeatedRequestsAreNotExecuted := by
  unfold Obligations.RepeatedRequestsAreNotExecuted
  refine fun s q op i sub act ha => ⟨fun r hk => dict_of_kept op i sub act ha hk, fun hk hd => dict_of_deferred op i sub act ha hk hd,
    fun hk hd hn => dict_of_full op i sub act ha hk hd hn, fun hf => ?_⟩
  rw [dict_of_fresh s q op i sub act hf]
  refine ⟨rfl, ?_⟩
  rw [State.reqOf_respond]
  exact congrArg (List.drop · _) (by omega)

end Sys2Proof.Machine
end

section
namespace Sys2Proof.Machine

theorem gives_of_exec {i : Instr} {s t : State} {P : State → Prop} (h : exec i s = .next t) (hP : P t) : Gives i s P := ⟨t, h, hP⟩

/-! ### Chip resets (R357, R416) -/

/-- The state after a chip reset: at BOXWOOD with the rails good and FAULT_N low, nothing kept in memory, runs or Vigil's buffer. -/
structure ChipReset (s t : State) : Prop where
  stage : t.boot.stage = .boxwood
  resetting : t.boot.chipResetting = true
  faultN : t.pins.faultN = false
  pgood : t.pins.pgood = true
  memsys : t.memsys = {}
  runs : t.runs = []
  buffer : t.vigil.buffer = []
  aligned : t.clk.aligned = false
  lockLost : t.clk.lockLost = s.clk.lockLost
  bits : t.fuses.bits = s.fuses.bits

/-- No dump is being flushed, so the reset starts at once. -/
theorem State.startChipReset_resets {s : State} (h : s.dump.wanted = none) (trigger : BitVec 64) : ChipReset s (s.startChipReset trigger) := by
  rw [State.startChipReset]
  dsimp only
  rw [if_neg (by simp [h])]
  exact ⟨rfl, rfl, rfl, rfl, rfl, rfl, rfl, rfl, rfl, rfl⟩

/-- A request in service is performed at once. -/
theorem State.requestChipReset_of_released {s : State} (hr : s.boot.stage = .released) (hc : s.boot.chipResetting = false) (trigger : BitVec 64) :
    s.requestChipReset trigger = s.startChipReset trigger := by
  simp only [State.requestChipReset, hr, hc, Bool.false_eq_true, if_false]

/-- During LINK_UP a request is held. -/
theorem State.requestChipReset_of_linkUp {s : State} (h : s.boot.stage = .linkUp) (trigger : BitVec 64) :
    s.requestChipReset trigger = { s with boot := { s.boot with heldChipReset := true } } := by
  simp only [State.requestChipReset, h]

/-- The object's request is answered, then made, unless one is held. -/
theorem exec_chipReset_of_writes {s : State} {q : Req} (h : Writes s q 0x1300 9 1) (hh : s.boot.heldChipReset = false) :
    exec (.chipReset q 0x5A) s = .next (((s.forWrite q).answered q 2 0x1300 9).requestChipReset noTrigger) := by
  have he : exec (.chipReset q 0x5A) s = execChipReset q 0x5A s := rfl
  rw [he, execChipReset, dictWrite_of_writes s q 0x1300 9 [0x5A] _ h]
  simp only [State.forWrite_boot, hh]
  rfl

/-- Settles O6: the request in service and the one that is held. -/
theorem chipResetReentersStartUp : Obligations.ChipResetReentersStartUp := by
  unfold Obligations.ChipResetReentersStartUp
  intro s q hw hc hd
  have hb : ((s.forWrite q).answered q 2 0x1300 9).boot = s.boot := by simp [State.answered]
  refine ⟨fun hr hh => ⟨_, exec_chipReset_of_writes hw hh, ?_⟩, fun hl hh => ⟨_, exec_chipReset_of_writes hw hh, ?_⟩⟩
  · rw [State.requestChipReset_of_released (by rw [hb, hr]) (by rw [hb, hc])]
    have hreset := State.startChipReset_resets (s := (s.forWrite q).answered q 2 0x1300 9) (by simpa [State.answered] using hd) noTrigger
    exact ⟨hreset.stage, hreset.resetting, hreset.faultN, hreset.memsys, hreset.runs⟩
  · rw [State.requestChipReset_of_linkUp (by rw [hb, hl])]
    exact ⟨rfl, by rw [hb, hl]⟩

/-! ### Engine and partition resets (R357, R358, R360, R361) -/

theorem NMap.getD_upd_same {α : Type} (m : NMap α) (k : Nat) (d : α) (f : α → α) : NMap.getD (NMap.upd m k d f) k d = f (NMap.getD m k d) :=
  NMap.getD_set_same ..

theorem NMap.getD_upd_other {α : Type} (m : NMap α) {k j : Nat} (d : α) (f : α → α) (h : j ≠ k) :
    NMap.getD (NMap.upd m k d f) j d = NMap.getD m j d := NMap.getD_set_other _ _ _ _ _ h

/-- What an update brings about from any entry holds of every key of a list that is updated. -/
theorem NMap.getD_foldl_upd {α : Type} {d : α} {f : α → α} {P : α → Prop} (hf : ∀ x, P (f x)) {cs : List Nat} {k : Nat} (m : NMap α)
    (h : k ∈ cs ∨ P (NMap.getD m k d)) : P (NMap.getD (cs.foldl (fun m c => NMap.upd m c d f) m) k d) := by
  induction cs generalizing m with
  | nil => exact h.resolve_left List.not_mem_nil
  | cons c cs ih =>
    refine ih _ ?_
    by_cases hk : k = c
    · subst hk
      exact .inr (by rw [NMap.getD_upd_same]; exact hf _)
    · rw [NMap.getD_upd_other _ _ _ hk]
      exact h.imp_left (fun hm => (List.mem_cons.1 hm).resolve_left hk)

/-- The first engine reset of a core within a second takes the core, and only it, out of service. -/
theorem State.engineReset_of_first {s : State} {c p : Nat} (hl : s.logicalOf p = some c) (hn : (s.core c).engineResetAt = none) (trigger : BitVec 64) :
    let u := s.resetCtxs (s.ctxsOn [c])
    s.engineReset p trigger = { u.updCore c (fun k => { k.beginReset u.now with engineResetAt := some u.now }) with vec := NMap.erase u.vec c } := by
  simp only [State.engineReset, hl, hn, Option.any_none, Bool.false_eq_true, if_false]
  rfl

theorem gives_engineReset_of_first {s : State} {c p : Nat} (hr : s.released = true) (hl : s.logicalOf p = some c)
    (hn : (s.core c).engineResetAt = none) :
    Gives (.engineReset p .vigil) s (fun t => (t.core c).resetting = true ∧ (t.core c).state = .stopping ∧ (t.core c).ctr = {} ∧
      NMap.get? t.vec c = none ∧ (t.core c).engineResetAt = some s.now) := by
  have he : exec (.engineReset p .vigil) s = .next (s.engineReset p s.lastSeq) := if_pos hr
  rw [State.engineReset_of_first hl hn] at he
  refine ⟨_, he, ?_⟩
  have hc := State.core_updCore_same (s.resetCtxs (s.ctxsOn [c])) c
    (fun k => { k.beginReset (s.resetCtxs (s.ctxsOn [c])).now with engineResetAt := some (s.resetCtxs (s.ctxsOn [c])).now })
  rw [(ended_resetCtxs _ _).now] at hc ⊢
  exact ⟨congrArg CoreRec.resetting hc, congrArg CoreRec.state hc, congrArg CoreRec.ctr hc, NMap.get?_erase_same .., congrArg CoreRec.engineResetAt hc⟩

/-- The cores of a partition (R103). -/
theorem mem_partition_cores {p i : Nat} (h : i < 50) : 50 * p + i ∈ (List.range 50).map (· + 50 * p) :=
  List.mem_map.2 ⟨i, List.mem_range.2 h, Nat.add_comm ..⟩

theorem State.recs_partitionReset (s : State) (p : Nat) (trigger : BitVec 64) : ∃ m now, (s.partitionReset p trigger).cores.recs =
    ((List.range 50).map (· + 50 * p)).foldl (fun m c => NMap.upd m c {} (fun k : CoreRec => k.beginReset now)) m := by
  unfold State.partitionReset
  extract_lets cs staged stopped lost u
  refine ⟨u.cores.recs, u.now, ?_⟩
  dsimp only

/-- A partition reset takes every core of the partition out of service, with cleared counters. -/
theorem State.core_partitionReset (s : State) {p i : Nat} (trigger : BitVec 64) (h : i < 50) :
    ((s.partitionReset p trigger).core (50 * p + i)).resetting = true ∧ ((s.partitionReset p trigger).core (50 * p + i)).ctr = {} := by
  obtain ⟨m, now, hm⟩ := s.recs_partitionReset p trigger
  rw [State.core, hm]
  exact NMap.getD_foldl_upd (P := fun k : CoreRec => k.resetting = true ∧ k.ctr = {}) (fun _ => ⟨rfl, rfl⟩) _ (.inl (mem_partition_cores h))

theorem State.partResetting_partitionReset (s : State) (p : Nat) (trigger : BitVec 64) :
    (s.partitionReset p trigger).cores.partResetting.contains p = true :=
  List.contains_iff_mem.2 ((insertRising_mem _ _ _).2 (.inl rfl))

/-- A core whose reset ends is in service again, STOPPED where a stop was held. -/
theorem gives_resetReturnToService_engine {s : State} {c p : Nat} (hl : s.logicalOf p = some c) (hr : (s.core c).resetting = true)
    (hp : s.cores.partResetting.contains (p / 52) = false) :
    Gives (.resetReturnToService (.engine p)) s (fun t => (t.core c).resetting = false ∧
      (t.core c).state = if (s.core c).held then .stopped else .running) := by
  have he : exec (.resetReturnToService (.engine p)) s = execResetReturnToService (.engine p) s := rfl
  simp only [execResetReturnToService, hl, hr, hp, Bool.not_false, Bool.and_self, if_true] at he
  refine gives_of_exec he ?_
  rw [State.coreBack, State.core_updCore_same, State.advanceTo_core_, if_pos hr]
  exact ⟨rfl, rfl⟩

/-- A core that stops is STOPPED once no operator is left on it. -/
theorem gives_stopCompletes_core {s : State} {c : Nat} (hs : (s.core c).state = .stopping) (hr : (s.core c).resetting = false)
    (ho : s.opsOn [c] = []) : Gives (.stopCompletes (.core c)) s (fun t => (t.core c).state = .stopped) := by
  have he : exec (.stopCompletes (.core c)) s = execStopCompletes (.core c) s := rfl
  rw [execStopCompletes, if_pos (by rw [hs, hr, ho]; rfl)] at he
  refine gives_of_exec he ?_
  rw [State.core_updCore_same, hs]
  rfl

/-- Settles O7: engine and partition resets by Vigil, a core's return, the escalation of a partition's reset, a drained core. -/
theorem engineAndPartitionResets : Obligations.EngineAndPartitionResets := by
  unfold Obligations.EngineAndPartitionResets
  refine ⟨fun s c p hr hl hn => gives_engineReset_of_first hr hl hn, fun s p hr _ => ⟨_, if_pos hr, s.partResetting_partitionReset p _, ?_, ?_⟩,
    fun s p c hl hr hp => gives_resetReturnToService_engine hl hr hp, fun s p hp hd => ⟨_, if_pos hp, ?_⟩,
    fun s c hs hr ho => gives_stopCompletes_core hs hr ho⟩
  · exact (s.core_partitionReset _ (Nat.succ_pos 49)).1
  · exact (s.core_partitionReset _ (Nat.lt_succ_self 49)).2
  · have hreset := State.startChipReset_resets hd noTrigger
    exact ⟨hreset.stage, hreset.resetting⟩

end Sys2Proof.Machine
end

section
namespace Sys2Proof.Machine

/-! ### What the rails leave when they go (R416, R421, R490) -/

section
variable (s : State)

@[simp] theorem State.railsDown_pins : s.railsDown.pins = { s.pins with pgood := false, faultN := true } := by unfold State.railsDown; split <;> rfl
@[simp] theorem State.railsDown_powered : s.railsDown.boot.powered = false := by unfold State.railsDown; split <;> rfl
@[simp] theorem State.railsDown_memsys : s.railsDown.memsys = {} := by unfold State.railsDown; split <;> rfl
@[simp] theorem State.railsDown_runs : s.railsDown.runs = [] := by unfold State.railsDown; split <;> rfl
@[simp] theorem State.railsDown_flash : s.railsDown.flash = s.flash := by unfold State.railsDown; split <;> rfl
@[simp] theorem State.railsDown_now : s.railsDown.now = s.now := by unfold State.railsDown; split <;> rfl

/-- What the store holds is read back from flash after it was written (R419). -/
theorem Flash.store_saveStore (f : Flash) (v : Store) : (f.saveStore v).store = v := State.store_setStore ({ flash := f } : State) v

end

/-! ### Power, pin and clock events (R393 to R395, R416, R421, R487 to R490) -/

section
variable {s : State}

theorem gives_pwrEnFall (h : s.pins.pwrEn = true) :
    Gives .pwrEnFall s (fun t => t.boot.powered = false ∧ t.pins.pgood = false ∧ t.pins.pwrEn = false ∧ t.pins.pwrEnFellAt = some s.now ∧
      t.pins.tripLatch = false ∧ t.pins.thermtripN = true ∧ t.memsys = {} ∧ t.flash = s.flash) := by
  have he : exec .pwrEnFall s = execPwrEnFall s := rfl
  rw [execPwrEnFall, if_neg (by simp [h])] at he
  exact gives_of_exec he (by simp)

theorem gives_inputUndervoltage (s : State) :
    Gives .inputUndervoltage s (fun t => t.boot.powered = false ∧ t.pins.pgood = false ∧ t.pins.inputOk = false ∧ t.runs = []) := by
  have he : exec .inputUndervoltage s = execInputUndervoltage s := rfl
  exact gives_of_exec he (by simp)

theorem gives_inputPowerReturn (hi : s.pins.inputOk = false) (hp : s.pins.pwrEn = true) (ht : s.pins.tripLatch = false) :
    Gives .inputPowerReturn s (fun t => t.pins.inputOk = true ∧ t.boot.powered = true ∧ t.boot.stage = .rails) := by
  have he : exec .inputPowerReturn s = execInputPowerReturn s := rfl
  rw [execInputPowerReturn, if_neg (by simp [hi])] at he
  simp only [hp, ht, Bool.not_false, Bool.and_self, if_true] at he
  exact gives_of_exec he ⟨rfl, rfl, rfl⟩

/-- The flush ends with Vigil off and the seconds of service in the store. -/
theorem gives_powerFailFlush (hp : s.pins.pgood = false) (hs : s.boot.stage ≠ .rails) (n : Nat) :
    Gives (.powerFailFlush n) s (fun t => t.vigil.buffer = [] ∧ t.boot.powered = false ∧ t.store.serviceSeconds = s.vigil.seconds) := by
  have he : exec (.powerFailFlush n) s = execPowerFailFlush n s := rfl
  rw [execPowerFailFlush, if_neg (by simp [hp, hs])] at he
  exact gives_of_exec he ⟨rfl, rfl, congrArg Store.serviceSeconds (Flash.store_saveStore _ _)⟩

theorem gives_thermtrip (h : s.pins.inputOk = true) (k : Nat) :
    Gives (.thermtrip k) s (fun t => t.pins.thermtripN = false ∧ t.pins.tripLatch = true ∧ t.pins.pgood = false ∧ t.boot.powered = false) := by
  have he : exec (.thermtrip k) s = execThermtrip k s := rfl
  rw [execThermtrip, if_neg (by simp [h])] at he
  exact gives_of_exec he (by simp)

/-- A pulse of at least 1 µs in service resets the chip. -/
theorem exec_resetNFall_of_released {ns : Nat} (hn : 1000 ≤ ns) (he : s.pins.pwrEn = true) (hp : s.boot.powered = true)
    (hr : s.boot.stage = .released) (hc : s.boot.chipResetting = false) : exec (.resetNFall ns) s = .next (s.startChipReset noTrigger) := by
  have hx : exec (.resetNFall ns) s = execResetNFall ns s := rfl
  rw [hx, execResetNFall, if_neg (by simp [hn, he, hp]), State.requestChipReset_of_released hr hc]

theorem gives_refclkLost (h : s.boot.powered = true) :
    Gives .refclkLost s (fun t => t.clk.refLost = true ∧ t.clk.onFallback = true ∧ t.pins.refclk = false) := by
  have he : exec .refclkLost s = execRefclkLost s := rfl
  rw [execRefclkLost, if_neg (by simp [h])] at he
  exact gives_of_exec he ⟨rfl, rfl, rfl⟩

theorem gives_refclkRestored (s : State) :
    Gives .refclkRestored s (fun t => t.pins.refclk = true ∧ t.clk.onFallback = false ∧ t.clk.refLost = s.clk.refLost) := ⟨_, rfl, rfl, rfl, rfl⟩

/-- A lost lock is recorded and resets the chip, with the dividers stopped. -/
theorem gives_pllLockLost (ha : s.clk.aligned = true) (hd : s.dump.wanted = none) :
    Gives .pllLockLost s (fun t => t.clk.aligned = false ∧ t.clk.lockLost = true ∧ t.boot.stage = .boxwood ∧ t.pins.faultN = false) := by
  have he : exec .pllLockLost s = execPllLockLost s := rfl
  rw [execPllLockLost, if_neg (by simp [ha])] at he
  refine gives_of_exec he ?_
  have hreset := State.startChipReset_resets (s := { s.record (uidVigil 0 0) cPllLockLost 4 0 with
    clk := { (s.record (uidVigil 0 0) cPllLockLost 4 0).clk with aligned := false, pllLock := false, lockLost := true, onBypass := true } })
    (by simpa using hd)
  exact ⟨(hreset _).aligned, (hreset _).lockLost, (hreset _).stage, (hreset _).faultN⟩

theorem gives_vigilWatchdog (h : s.boot.powered = true) :
    Gives .vigilWatchdog s (fun t => t.pins.faultN = false ∧ t.boot.stage = s.boot.stage) := by
  have he : exec .vigilWatchdog s = execVigilWatchdog s := rfl
  rw [execVigilWatchdog, if_neg (by simp [h])] at he
  exact gives_of_exec he ⟨rfl, rfl⟩

theorem gives_vigilSramUncorrectable (hp : s.boot.powered = true) (hd : s.dump.wanted = none) :
    Gives .vigilSramUncorrectable s (fun t => t.boot.stage = .boxwood ∧ t.boot.chipResetting = true ∧ t.vigil.buffer = []) := by
  have he : exec .vigilSramUncorrectable s = execVigilSramUncorrectable s := rfl
  rw [execVigilSramUncorrectable, if_neg (by simp [hp])] at he
  have hreset := State.startChipReset_resets (s := s.record (uidVigil 0 0) cVigilSramUncorrectable 4 0) (by simpa using hd)
  exact gives_of_exec he ⟨(hreset _).stage, (hreset _).resetting, (hreset _).buffer⟩

/-- A held rise is acted on 100 ms after the fall. -/
theorem gives_pwrEnLowTimeExpire {f : Nat} (hh : s.pins.pwrEnHeld = true) (hp : s.pins.pwrEn = true) (hi : s.pins.inputOk = true)
    (hf : s.pins.pwrEnFellAt = some f) :
    Gives .pwrEnLowTimeExpire s (fun t => t.boot.stage = .rails ∧ t.boot.powered = true ∧ f + 100 * Config.msCycles ≤ t.now) := by
  have he : exec .pwrEnLowTimeExpire s = execPwrEnLowTimeExpire s := rfl
  rw [execPwrEnLowTimeExpire, if_neg (by simp [hh, hp, hi]), hf] at he
  exact gives_of_exec he ⟨rfl, rfl, (le_max_right _ _).trans_eq (s.now_advanceTo _).symm⟩

end

/-- Settles O5: power's loss and return, trips, RESET_N, the reference and the PLL, Vigil's own faults. -/
theorem powerAndPinEvents : Obligations.PowerAndPinEvents := by
  unfold Obligations.PowerAndPinEvents
  refine ⟨fun s h => gives_pwrEnFall h, gives_inputUndervoltage, fun s hi hp ht => gives_inputPowerReturn hi hp ht,
    fun s hp hs n => gives_powerFailFlush hp hs n, fun s k h => gives_thermtrip h k, fun s ns hn he hp hr hc hd => ?_,
    fun s h => gives_refclkLost h, gives_refclkRestored, fun s ha hd => gives_pllLockLost ha hd, fun s h => gives_vigilWatchdog h,
    fun s hp hd => gives_vigilSramUncorrectable hp hd, fun s f hh hp hi hf => gives_pwrEnLowTimeExpire hh hp hi hf⟩
  have hreset := State.startChipReset_resets hd noTrigger
  exact ⟨_, exec_resetNFall_of_released hn he hp hr hc, hreset.stage, hreset.resetting, hreset.faultN, hreset.pgood⟩

end Sys2Proof.Machine
end

section
namespace Sys2Proof.Machine

/-! ### What start-up's reports leave of the state (R381, R404, R422) -/

theorem Ended.recordN (s : State) (u : BitVec 32) (c : Code) (v n : Nat) : Ended s (s.recordN u c v n) := by
  induction n generalizing s with
  | zero => exact .refl s
  | succ n ih => exact (ended_record s u c v 0 {}).trans (ih _)

@[simp] theorem State.record_seconds (s : State) (u : BitVec 32) (c : Code) (v d : Nat) (w : Who) :
    (s.record u c v d w).vigil.seconds = s.vigil.seconds := by
  obtain ⟨_, _, h⟩ := s.record_vigil u c v d w
  rw [h]

@[simp] theorem State.recordN_seconds (s : State) (u : BitVec 32) (c : Code) (v n : Nat) :
    (s.recordN u c v n).vigil.seconds = s.vigil.seconds := by
  induction n generalizing s with
  | zero => rfl
  | succ n ih => rw [State.recordN, ih, State.record_seconds]

/-- A power-up's reports change records and the mark of an open dump alone. -/
theorem State.powerUpReports_keeps (s : State) : s.powerUpReports.boot = s.boot ∧ s.powerUpReports.fuses = s.fuses ∧
    ∃ d, s.powerUpReports.flash = { s.flash with dumpOpen := d } := by
  unfold State.powerUpReports
  extract_lets t
  have ht : t.boot = s.boot ∧ t.fuses = s.fuses ∧ t.flash = s.flash := by
    unfold t
    split
    · split <;> simp
    · simp
  obtain ⟨hb, hf, hl⟩ := ht
  split
  · exact ⟨(State.record_boot ..).trans hb, (State.record_fuses ..).trans hf, false, congrArg (fun f : Flash => { f with dumpOpen := false }) hl⟩
  · exact ⟨hb, hf, s.flash.dumpOpen, hl⟩

/-- HALTED with no reset held. -/
theorem State.halt_of_not_held {s : State} (h : s.boot.heldChipReset = false) :
    s.halt = { s with boot := { s.boot with stage := .halted, faultLowSince := some s.now }, pins := { s.pins with faultN := false } } :=
  if_neg (by simp [h])

/-! ### The rows of Table 15.1 -/

/-- A zip with the first `n` numbers holds at most `n` pairs, so the core map of `l.length` partitions holds at most 50 for each. -/
theorem length_coreMap_le (l : List (Nat × List Nat)) :
    (l.flatMap (fun e => ((List.range 50).zip e.2).map (fun x => (50 * e.1 + x.1, x.2)))).length ≤ 50 * l.length := by
  induction l with
  | nil => exact Nat.le_refl 0
  | cons e l ih =>
    simp only [List.flatMap_cons, List.length_append, List.length_map, List.length_zip, List.length_range, List.length_cons]
    omega

section
variable {s : State}

/-- A rise at least 100 ms after the fall starts RAILS (R400, R487). -/
theorem gives_pwrEnRise (he : s.pins.pwrEn = false) (hi : s.pins.inputOk = true) (ht : s.pins.tripLatch = false)
    (hf : ∀ t, s.pins.pwrEnFellAt = some t → t + 100 * Config.msCycles ≤ s.now) :
    Gives .pwrEnRise s (fun t => t.boot.stage = .rails ∧ t.boot.powered = true ∧ t.pins.pwrEn = true ∧ t.pins.pgood = false ∧
      t.flash = s.flash ∧ t.fuses.bits = s.fuses.bits ∧ t.memsys = {} ∧ t.runs = []) := by
  have hx : exec .pwrEnRise s = .next ({ s with pins := { s.pins with pwrEn := true } } : State).startRails := by
    change execPwrEnRise s = _
    simp only [execPwrEnRise, he, hi, ht, Bool.not_true, Bool.or_self, Bool.false_eq_true, if_false]
    cases h : s.pins.pwrEnFellAt with
    | none => rfl
    | some t => exact if_neg (Nat.not_lt.2 (hf t h))
  exact gives_of_exec hx ⟨rfl, rfl, rfl, rfl, rfl, rfl, rfl, rfl⟩

section
variable (hp : s.boot.powered = true)
include hp

theorem gives_rails (hs : s.boot.stage = .rails) :
    Gives (.rails true) s (fun t => t.boot.stage = .boxwood ∧ t.pins.pgood = true ∧ t.boot.powered = true) := by
  have he : exec (.rails true) s = execRails true s := rfl
  rw [execRails, if_pos (by simp [hp, hs])] at he
  exact gives_of_exec he ⟨rfl, rfl, rfl⟩

/-- Fuses that read well are shadowed, and repairs that conflict are recorded (R403, R404). -/
theorem gives_boxwood (hs : s.boot.stage = .boxwood) (hd : s.dump.wanted = none) (h1 : (thermometer s.fuses.bits 320 3).isSome = true)
    (h2 : fld s.fuses.bits 323 5 = 0) (h3 : (thermometer s.fuses.bits 328 32).isSome = true) (h4 : (thermometer s.fuses.bits 360 64).isSome = true) :
    Gives .boxwood s (fun t => t.boot.stage = .bootImage ∧ t.fuses.shadow = setFld s.fuses.bits 0 256 0 ∧ t.vigil.seconds = s.store.serviceSeconds) := by
  have he : exec .boxwood s = execBoxwood s := rfl
  rw [execBoxwood, if_neg (by simp [hp, hs, hd])] at he
  rw [← Option.isNone_eq_false_iff] at h1 h3 h4
  simp only [h1, h2, h3, h4, bne_self_eq_false, Bool.or_self, Bool.false_eq_true, if_false] at he
  refine gives_of_exec he ⟨?_, ?_, ?_⟩
  · rw [(Ended.recordN _ _ _ _ _).boot]
  · rw [(Ended.recordN _ _ _ _ _).fuses]
  · rw [State.recordN_seconds]

/-- A slot that passes is booted (R405). -/
theorem gives_bootImage (hs : s.boot.stage = .bootImage) (hc : slotCheck s.fuses.shadow (s.flash.slot s.store.bootSlot) = cOk) :
    Gives .bootImage s (fun t => t.boot.stage = .clockAlign ∧ t.boot.slotBooted = s.store.bootSlot ∧ t.boot.fellBack = false) := by
  have he : exec .bootImage s = execBootImage s := rfl
  rw [execBootImage, if_neg (by simp [hp, hs])] at he
  have hu : ∃ u : State, (if s.boot.chipResetting then s else s.powerUpReports) = u ∧ u.fuses = s.fuses ∧ ∃ d, u.flash = { s.flash with dumpOpen := d } := by
    refine ⟨_, rfl, ?_⟩
    split
    · exact ⟨rfl, s.flash.dumpOpen, rfl⟩
    · exact s.powerUpReports_keeps.2
  obtain ⟨u, hu, hf, d, hl⟩ := hu
  have hb : u.store.bootSlot = s.store.bootSlot := by rw [State.store, hl]; rfl
  have hk : slotCheck u.fuses.shadow (u.flash.slot s.store.bootSlot) = cOk := by rw [hf, hl]; exact hc
  simp only [hu, hb, hk, if_true] at he
  exact gives_of_exec he ⟨rfl, rfl, rfl⟩

/-- An alignment that succeeds starts the divided clocks (R386). -/
theorem gives_clockAlign {tries : List AlignTry} {n : Nat} (ds : List UnitDelay) (hs : s.boot.stage = .clockAlign) (hr : s.pins.refclk = true)
    (ha : alignRun 0 tries = (n, true, true)) :
    Gives (.clockAlign tries ds) s (fun t => t.boot.stage = .memTrain ∧ t.clk.aligned = true ∧ t.clk.uptime = 0 ∧ t.clk.alignTries = n) := by
  have he : exec (.clockAlign tries ds) s = execClockAlign tries ds s := rfl
  rw [execClockAlign, if_neg (by simp [hp, hs])] at he
  simp only [hr, ha, if_true] at he
  exact gives_of_exec he ⟨rfl, rfl, rfl, rfl⟩

/-- Memory that does not train halts (R407). -/
theorem gives_memTrain (fs : List TrainFault) (hs : s.boot.stage = .memTrain) (hh : s.boot.heldChipReset = false) :
    Gives (.memTrain fs) s (fun t => t.boot.stage = if fs.isEmpty then .wipe else .halted) := by
  have he : exec (.memTrain fs) s = execMemTrain fs s := rfl
  rw [execMemTrain, if_neg (by simp [hp, hs])] at he
  cases h : fs.isEmpty with
  | true =>
    rw [if_pos h] at he
    exact gives_of_exec he rfl
  | false =>
    rw [if_neg (by simp [h]), State.halt_of_not_held] at he
    · exact gives_of_exec he rfl
    · rw [(Ended.foldl (fun s (f : TrainFault) => s.record (uidLpddr f.ctrl f.channel) cMemTrainFailed 4 0)
        (fun s _ => ended_record s _ _ _ _ _) fs s).boot, hh]

/-- WIPE leaves memory, keys, grants and contexts empty; an address that does not wipe halts (R408). -/
theorem gives_wipe (bad : List Nat) (hs : s.boot.stage = .wipe) (hh : s.boot.heldChipReset = false) :
    Gives (.wipe bad) s (fun t => (t.boot.stage = if bad.isEmpty then .selfTest else .halted) ∧ t.memsys.mem = {} ∧ t.memsys.keys = [] ∧
      t.memsys.grants = [] ∧ t.ctxs = {}) := by
  have he : exec (.wipe bad) s = execWipe bad s := rfl
  rw [execWipe, if_neg (by simp [hp, hs])] at he
  cases h : bad.isEmpty with
  | true =>
    rw [if_pos h] at he
    exact gives_of_exec he ⟨rfl, rfl, rfl, rfl, rfl⟩
  | false =>
    rw [if_neg (by simp [h])] at he
    have hk := fun u : State => BodyKept.foldl (fun s a => s.record (s.memUnit a) cWipeFailed 4 a) (fun s _ => kept_record s _ _ _ _ _) bad u
    have hm := fun u : State => foldl_mem (fun s a => s.record (s.memUnit a) cWipeFailed 4 a) (fun s _ => by rw [State.record_memsys]) bad u
    rw [State.halt_of_not_held] at he
    · exact gives_of_exec he ⟨rfl, hm _, (hk _).keys, (hk _).grants, (hk _).ctxs⟩
    · rw [(hk _).boot, hh]

/-- SELF_TEST maps at most 800 logical cores (R409, R410). -/
theorem gives_selfTest (fs : List KatFail) (hs : s.boot.stage = .selfTest) :
    Gives (.selfTest fs) s (fun t => t.boot.stage = .linkUp ∧ t.cores.map.length ≤ 800) := by
  have he : exec (.selfTest fs) s = execSelfTest fs s := rfl
  rw [execSelfTest, if_neg (by simp [hp, hs])] at he
  have hk := fun (cs : List (List Nat)) (u : State) => Ended.foldl (fun s (l : List Nat) =>
    if l.length < 50 then s.record (uidVigil 0 0) cCoreShortfall 4 0
    else if l.length = 50 then s.record (uidVigil 0 0) cPartitionNoSpare 0 0 else s)
    (fun s l => by split; exacts [ended_record s _ _ _ _ _, by split; exacts [ended_record s _ _ _ _ _, .refl s]]) cs u
  refine gives_of_exec he ⟨?_, ?_⟩
  · rw [(hk _ _).boot]
  · rw [(hk _ _).cores]
    exact length_coreMap_le _

end

/-! ### LINK_UP and RELEASED (R406, R412, R413) -/

theorem Link.trained_state (k : Link) (l : LinkRef) (now : Nat) (ok : Bool) : (k.trained l now ok).state = if ok then .up else .down := by
  cases ok <;> rfl

/-- Every link of a list that is trained ends UP or DOWN. -/
theorem State.link_foldl_trained (up : List LinkRef) {l : LinkRef} {ls : List LinkRef} (s : State)
    (h : l ∈ ls ∨ (s.link l).state = if up.contains l then .up else .down) :
    ((ls.foldl (fun s l => s.updLink l (fun k => k.trained l s.now (up.contains l))) s).link l).state = if up.contains l then .up else .down := by
  induction ls generalizing s with
  | nil => exact h.resolve_left List.not_mem_nil
  | cons m ls ih =>
    refine ih _ ?_
    by_cases hm : l = m
    · subst hm
      exact .inr (by rw [State.link_updLink_same, Link.trained_state])
    · rw [State.link_updLink_other _ _ _ _ hm]
      exact h.imp_left (fun hl => (List.mem_cons.1 hl).resolve_left hm)

/-- Both host ports end UP or DOWN. -/
theorem gives_linkUp (up : List LinkRef) {n : Nat} (hp : s.boot.powered = true) (hs : s.boot.stage = .linkUp)
    (hd : (s.link (.host 0)).state = .disabled) (hn : n < 2) :
    Gives (.linkUp up) s (fun t => (t.link (.host n)).state = if up.contains (.host n) then .up else .down) := by
  have he : exec (.linkUp up) s = execLinkUp up s := rfl
  rw [execLinkUp, if_neg (by simp [hp, hs, hd])] at he
  have hmem : ∀ fabric bridge : List LinkRef, LinkRef.host n ∈ fabric ++ [.host 0, .host 1] ++ bridge := fun fabric bridge => by
    obtain rfl | rfl : n = 0 ∨ n = 1 := by omega
    · simp
    · simp
  have ht := fun (fabric bridge : List LinkRef) (u : State) => State.link_foldl_trained up u (.inl (hmem fabric bridge))
  by_cases hsense : s.pins.twinSenseLow = true
  · by_cases hb : up.contains .bridge = true
    · simp only [hsense, hb, Bool.not_true, Bool.false_eq_true, if_false, if_true] at he
      exact gives_of_exec he (by rw [State.link_cellOut_other _ _ LinkRef.noConfusion]; exact ht _ _ _)
    · simp only [hsense, hb, Bool.not_true, Bool.false_eq_true, if_false, if_true] at he
      refine gives_of_exec he ?_
      rw [State.link_of_links_eq (State.record_links_low _ _ _ _ _ _ Nat.two_pos)]
      exact ht _ _ _
  · simp only [hsense, Bool.not_false, if_true] at he
    exact gives_of_exec he (ht _ _ _)

/-- RELEASED lets FAULT_N go and starts the uptime counter anew. -/
theorem gives_enterReleased (hp : s.boot.powered = true) (hs : s.boot.stage = .linkUp) (hd : (s.link (.host 0)).state ≠ .disabled) :
    Gives .enterReleased s (fun t => t.boot.stage = .released ∧ t.pins.faultN = true ∧ t.clk.uptime = 0) := by
  have he : exec .enterReleased s = execEnterReleased s := rfl
  rw [execEnterReleased, if_neg (by simp [hp, hs, hd])] at he
  exact gives_of_exec he (by simp)

end

/-- Settles O4: each row of Table 15.1 whose stage passes, in the order of the table. -/
theorem startUpStagesFollowInOrder : Obligations.StartUpStagesFollowInOrder := by
  unfold Obligations.StartUpStagesFollowInOrder
  exact ⟨fun s he hi ht hf => gives_pwrEnRise he hi ht hf, fun s hp hs => gives_rails hp hs,
    fun s hp hs hd h1 h2 h3 h4 => gives_boxwood hp hs hd h1 h2 h3 h4, fun s hp hs hc => gives_bootImage hp hs hc,
    fun s tries ds n hp hs hr ha => gives_clockAlign hp ds hs hr ha, fun s fs hp hs hh => gives_memTrain hp fs hs hh,
    fun s bad hp hs hh => gives_wipe hp bad hs hh, fun s fs hp hs => gives_selfTest hp fs hs,
    fun s up n hp hs hd hn => gives_linkUp up hp hs hd hn, fun s hp hs hd _ => gives_enterReleased hp hs hd⟩

end Sys2Proof.Machine
end

section
namespace Sys2Proof.Machine

/-! ### Stragglers and a root that does not decide (R281, R362, R363) -/

section
variable {s : State} {slot child me j m : Nat}

/-- The state in which a child whose up-sweep has not come is excused and, where this node is the root or can ask it, a void is asked for. -/
def State.stragglerExcused (s : State) (slot me j m child : Nat) : State :=
  let e := s.groupE (s.run slot).group
  let red := s.redOf (s.runKey slot 4 0)
  ((s.advanceTo ((s.run slot).openAt + 3 * m + 50 * Config.usCycles * (treeDepth e.size - treeLevel 8 me))).setRed
    { red with excused := red.excused ++ [j] }).askVoid slot 1 child

theorem exec_stragglerDeclare_of_late (hme : s.runMe slot = some me) (hm : s.watchMedian slot me = some m) (ho : (s.run slot).openStep.isSome = true)
    (hj : (treeChildren (s.groupE (s.run slot).group).size me).find? (fun j => (s.groupE (s.run slot).group).rank j == child) = some j)
    (hc : NMap.get? (s.redOf (s.runKey slot 4 0)).children j = none) (hx : j ∉ (s.redOf (s.runKey slot 4 0)).excused) :
    exec (.stragglerDeclare slot child) s = .next (if me != 0 && (s.redOf (s.runKey slot 4 0)).sentUp.isNone then
      (s.stragglerExcused slot me j m child).sweepUp ((s.stragglerExcused slot me j m child).redOf (s.runKey slot 4 0)) me
    else s.stragglerExcused slot me j m child).settle := by
  have he : exec (.stragglerDeclare slot child) s = execStragglerDeclare slot child s := rfl
  rw [← Option.isNone_eq_false_iff] at ho
  simp only [he, execStragglerDeclare, hme, hj, hm, ho, hc, mt List.contains_iff_mem.1 hx, Option.isSome_none, Bool.or_self, Bool.false_eq_true, if_false]
  rfl

/-- Member 1 declares a root failed that has not decided in time. -/
theorem exec_rootDeclareFailed_of_late (hme : s.runMe slot = some 1) (hm : s.watchMedian slot 1 = some m) (ho : (s.run slot).openStep.isSome = true)
    (hp : (s.run slot).passed = false) :
    exec (.rootDeclareFailed slot) s = .next ((s.advanceTo ((s.run slot).openAt + 4 * m + 100 * Config.usCycles)).failRoot slot).settle := by
  have he : exec (.rootDeclareFailed slot) s = execRootDeclareFailed slot s := rfl
  rw [← Option.isNone_eq_false_iff] at ho
  simp only [he, execRootDeclareFailed, hme, hm, ho, hp, Bool.or_self, Bool.false_eq_true, if_false]

/-- A STEP_BEGIN that waits contributes once its attempt number may be used again. -/
theorem exec_attemptReuseWait_of_waiting {id : Nat} {e : OpEntry} (hi : s.opBy slot 0x0A00 = some id) (he : NMap.get? s.sched.ops id = some e)
    (hw : (s.run slot).startWait = true) :
    exec (.attemptReuseWait slot) s = .next ((s.advanceTo (s.reuseAt slot)).sendBegin slot e).settle := by
  have hx : exec (.attemptReuseWait slot) s = execAttemptReuseWait slot s := rfl
  simp only [hx, execAttemptReuseWait, hi, he, hw, Option.bind_some, if_true]

end

/-- Settles O34: a child that is late, a root that does not decide, an attempt number that is used again. -/
theorem stragglersAreDeclared : Obligations.StragglersAreDeclared := by
  unfold Obligations.StragglersAreDeclared
  refine ⟨fun s slot child me j m hme hm ho => ?_, fun s slot m hme hm ho hp => exec_rootDeclareFailed_of_late hme hm ho hp,
    fun s slot id e hi he hw => exec_attemptReuseWait_of_waiting hi he hw, fun s slot t ht => by rw [State.reuseAt, ht]⟩
  intro e k hj hc hx u
  have hd := exec_stragglerDeclare_of_late hme hm ho hj hc hx
  refine ⟨fun h => hd.trans ?_, fun h0 hs => hd.trans ?_⟩
  · rw [if_neg]
    · rfl
    · rcases h with h | h
      · simp [h]
      · simp only [Option.isNone_eq_false_iff.2 h, k, Bool.and_false, Bool.false_eq_true, not_false_eq_true]
  · rw [if_pos (Bool.and_eq_true_iff.2 ⟨bne_iff_ne.2 h0, Option.isNone_iff_eq_none.2 hs⟩)]
    rfl

/-! ### What the end of operators leaves of the contexts' states (R241, R251) -/

/-- Every context is in the same state in `t` as in `s`. -/
def StatesKept (s t : State) : Prop := ∀ j, (t.ctx j).state = (s.ctx j).state

theorem StatesKept.refl (s : State) : StatesKept s s := fun _ => rfl

theorem StatesKept.trans {s t u : State} (a : StatesKept s t) (b : StatesKept t u) : StatesKept s u := fun j => (b j).trans (a j)

theorem StatesKept.of_ctxs_eq {s t : State} (h : t.ctxs = s.ctxs) : StatesKept s t := fun j => by rw [State.ctx, h, State.ctx]

theorem StatesKept.foldl {β : Type} {f : State → β → State} (h : ∀ s b, StatesKept s (f s b)) (l : List β) (s : State) : StatesKept s (l.foldl f s) :=
  foldl_keeps (StatesKept s) f (fun t b ht => ht.trans (h t b)) l s (.refl s)

theorem statesKept_setCtx {s : State} {c : Nat} {x : Ctx} (h : x.state = (s.ctx c).state) : StatesKept s (s.setCtx c x) := fun j => by
  by_cases hj : j = c
  · subst hj
    rw [State.ctx_setCtx_same, h]
  · exact congrArg Ctx.state (NMap.getD_set_other _ _ _ _ _ hj)

theorem StatesKept.updCtx {s t : State} {c : Nat} {f : Ctx → Ctx} (h : StatesKept s t) (hf : ∀ x, (f x).state = x.state) : StatesKept s (t.updCtx c f) :=
  h.trans (statesKept_setCtx (hf _))

theorem statesKept_ringWrite (s : State) (c : Nat) (r : CompRec) : StatesKept s (s.ringWrite c r) := by
  unfold State.ringWrite
  dsimp only
  split
  · next t ht =>
    have hk : t.ctxs = s.ctxs := (kept_planeWrite _ _ _ _ ht).ctxs
    have hf : ∀ l slot, StatesKept s (t.foundBad l slot) := fun l slot => .of_ctxs_eq (by rw [State.foundBad_ctxs, hk])
    have hu := fun l slot => (hf l slot).updCtx (c := c) (f := fun x => { x with crHead := (x.crHead + 1) % 2 ^ 32 }) fun _ => rfl
    split
    · exact (hu _ _).trans (.of_ctxs_eq (State.notice_ctxs ..))
    · exact hu _ _
  · exact .of_ctxs_eq (by simp)

theorem statesKept_ringDrain (s : State) (c n : Nat) : StatesKept s (s.ringDrain c n) := by
  induction n generalizing s with
  | zero => exact .refl s
  | succ n ih =>
    unfold State.ringDrain
    dsimp only
    split
    · exact .refl s
    · next r rs _ =>
      split
      · exact (statesKept_setCtx (x := { s.ctx c with crBuffer := rs }) rfl).trans ((statesKept_ringWrite _ _ _).trans (ih _))
      · exact .refl s

theorem statesKept_putRecord (s : State) (c : Nat) (r : CompRec) : StatesKept s (s.putRecord c r) :=
  ((StatesKept.refl s).updCtx (f := fun x => { x with crBuffer := x.crBuffer ++ [r] }) fun _ => rfl).trans (statesKept_ringDrain _ _ _)

theorem statesKept_complete (s : State) (e : OpEntry) : StatesKept s (s.complete e) := by
  unfold State.complete
  extract_lets x u
  have hu : StatesKept s u := by
    unfold u
    split
    · exact .refl s
    · exact statesKept_putRecord _ _ _
  split
  · exact hu
  · rename_i v _ w _
    have hv : StatesKept s v := hu.updCtx fun _ => rfl
    have hw : StatesKept s w := by
      unfold w
      split
      · exact hv
      · exact hv
    exact hw.trans (.of_ctxs_eq (State.fault_ctxs ..))

theorem statesKept_endOp (s : State) (id : Nat) (c : Code) : StatesKept s (s.endOp id c) := by
  unfold State.endOp
  split
  · exact .refl s
  · dsimp only
    refine StatesKept.trans ?_ (statesKept_complete _ _)
    split
    · exact .of_ctxs_eq (kept_forgetOutputs _ _).ctxs
    · exact .refl s

theorem State.cutPasses_ctxs (s : State) (e : OpEntry) : (s.cutPasses e).ctxs = s.ctxs := by
  unfold State.cutPasses
  split <;> rfl

theorem State.cutOp_ctxs (s : State) (e : OpEntry) : (s.cutOp e).ctxs = s.ctxs := by
  rw [State.cutOp, State.cutPasses_ctxs]
  split
  · exact (kept_forgetOutputs _ _).ctxs
  · rfl

/-- A context that is reset is RESETTING, whatever operators it had. -/
theorem State.resetCtx_state (s : State) (c : Nat) : ((s.resetCtx c).ctx c).state = .resetting := by
  unfold State.resetCtx
  simp only [State.fault_ctx_, State.setStack_ctx, State.haltStreams_ctx, State.ctx_updCtx_same, Ctx.advanceTag_state]
  refine (StatesKept.foldl (fun s id => ?_) _ _ c).trans (congrArg Ctx.state (State.ctx_updCtx_same ..))
  split
  · exact (StatesKept.of_ctxs_eq (State.cutOp_ctxs _ _)).trans (statesKept_endOp _ _ _)
  · exact statesKept_endOp _ _ _

theorem State.resetCtxs_one_state {s : State} {c : Nat} (h : (s.ctx c).state = .open_) : ((s.resetCtxs [c]).ctx c).state = .resetting := by
  rw [State.resetCtxs, List.foldl_cons, if_pos (by rw [h]; rfl)]
  exact s.resetCtx_state c

@[simp] theorem State.updOp_now (s : State) (id : Nat) (f : OpEntry → OpEntry) : (s.updOp id f).now = s.now := by
  unfold State.updOp
  split <;> rfl

@[simp] theorem State.updOp_memsys (s : State) (id : Nat) (f : OpEntry → OpEntry) : (s.updOp id f).memsys = s.memsys := by
  unfold State.updOp
  split <;> rfl

theorem State.updOp_of_some {s : State} {id : Nat} {e : OpEntry} (f : OpEntry → OpEntry) (h : NMap.get? s.sched.ops id = some e) :
    s.updOp id f = { s with sched := { s.sched with ops := NMap.set s.sched.ops id (f e) } } := by
  simp only [State.updOp, h]

theorem State.mirrored_congr {s t : State} (h : t.cores = s.cores) (c : Nat) : t.mirrored c = s.mirrored c := by
  unfold State.mirrored State.phys
  rw [h]

@[simp] theorem State.advanceTo_mirrored (s : State) (n c : Nat) : (s.advanceTo n).mirrored c = s.mirrored c := State.mirrored_congr (s.advanceTo_cores n) c

/-! ### Hangs, waits and staging (R351 to R356) -/

section
variable {s : State} {op : Nat} {e : OpEntry} (he : NMap.get? s.sched.ops op = some e)
include he

section
variable (hp : e.phase = .started ∨ (e.phase = .finished ∧ s.watchBound e < e.cycles)) (hc : e.d.cls ≠ 0x0A)
include hp hc

omit he in
/-- The watchdog's condition holds of an operator that runs, or ran, too long. -/
theorem watchdog_due : (!(e.phase == .started || e.phase == .finished) || e.d.cls == 0x0A || (e.phase == .finished && decide (e.cycles ≤ s.watchBound e))) = false := by
  have hcls : (e.d.cls == 0x0A) = false := beq_false_of_ne hc
  rcases hp with h | ⟨h, hb⟩
  · simp [h, hcls]
  · simp [h, hcls, hb]

/-- A hang in a turn is the culprit's. -/
theorem gives_watchdogFire_of_turn (hung : List Nat) (ht : e.turn = true) :
    Gives (.watchdogFire op hung) s (fun t => t.sched.quarantine.culprit = some e.ctx ∧
      t.sched.quarantine.culpritOpcode = BitVec.ofNat 16 e.d.opcode) := by
  have hx : exec (.watchdogFire op hung) s = execWatchdogFire op hung s := rfl
  simp only [execWatchdogFire, he, watchdog_due hp hc, ht, Bool.false_eq_true, if_false, if_true] at hx
  exact gives_of_exec hx ⟨rfl, rfl⟩

/-- A hang of the culprit's operator off its suspected cores ends the quarantine. -/
theorem gives_watchdogFire_of_external (hung : List Nat) (ht : e.turn = false) (hq : s.sched.quarantine.culprit = some e.ctx)
    (ho : e.d.opcode = s.sched.quarantine.culpritOpcode.toNat) (hn : s.sched.quarantine.cores ≠ []) :
    Gives (.watchdogFire op hung) s (fun t => t.sched.quarantine = {}) := by
  have hx : exec (.watchdogFire op hung) s = execWatchdogFire op hung s := rfl
  have hd : (s.sched.quarantine.culprit == some e.ctx && e.d.opcode == s.sched.quarantine.culpritOpcode.toNat && !s.sched.quarantine.cores.isEmpty) = true := by
    simp [hq, ho, hn]
  simp only [execWatchdogFire, he, watchdog_due hp hc, ht, Bool.false_eq_true, if_false] at hx
  rw [State.advanceTo_sched, if_pos hd] at hx
  exact gives_of_exec hx rfl

/-- Any other hang makes suspects of the contexts on the hung cores. -/
theorem exec_watchdogFire_of_suspects (hung : List Nat) (ht : e.turn = false)
    (hq : ¬ (s.sched.quarantine.culprit = some e.ctx ∧ e.d.opcode = s.sched.quarantine.culpritOpcode.toNat ∧ s.sched.quarantine.cores ≠ [])) :
    exec (.watchdogFire op hung) s =
      .next ((s.advanceTo (s.watchAt e)).suspectHang e (dedup (hung.filter (fun c => e.runsOn c && s.mirrored c)))) := by
  have hx : exec (.watchdogFire op hung) s = execWatchdogFire op hung s := rfl
  have hd : ¬ (s.sched.quarantine.culprit == some e.ctx && e.d.opcode == s.sched.quarantine.culpritOpcode.toNat && !s.sched.quarantine.cores.isEmpty) = true := by
    simpa [and_assoc] using hq
  simp only [hx, execWatchdogFire, he, watchdog_due hp hc, ht, State.advanceTo_mirrored, Bool.false_eq_true, if_false]
  rw [State.advanceTo_sched, if_neg hd]

end

/-- A wait that has lasted 10 ms counts from then on. -/
theorem gives_waitExclusionExpire {t0 : Nat} (hw : e.waitStart = some t0) (hu : e.unexcluded = false) :
    Gives (.waitExclusionExpire op) s (fun t => NMap.get? t.sched.ops op = some { e with unexcluded := true } ∧
      t.now = max s.now (t0 + 10 * Config.msCycles) ∧ t.memsys = s.memsys) := by
  have hx : exec (.waitExclusionExpire op) s = execWaitExclusionExpire op s := rfl
  simp only [execWaitExclusionExpire, he, hw, hu, Bool.false_eq_true, if_false] at hx
  refine gives_of_exec hx ⟨?_, ?_, ?_⟩
  · rw [State.updOp_of_some _ (by rw [State.advanceTo_sched, he])]
    exact NMap.get?_set_same ..
  · rw [State.updOp_now, State.now_advanceTo]
  · rw [State.updOp_memsys, State.advanceTo_memsys]

/-- An operator whose operands have not all come 10 ms after the first loses its context. -/
theorem gives_stagingTimeout {t0 : Nat} (ht : e.stagedAt = some t0) (hp : e.phase = .checked) (hs : s.stagedAll e = false)
    (ho : (s.ctx e.ctx).state = .open_) :
    Gives (.stagingTimeout op) s (fun t => (t.ctx e.ctx).state = .resetting ∧ t0 + 10 * Config.msCycles ≤ t.now) := by
  have hx : exec (.stagingTimeout op) s = execStagingTimeout op s := rfl
  simp only [execStagingTimeout, he, ht, hp, hs, bne_self_eq_false, Bool.or_self, Bool.false_eq_true, if_false] at hx
  refine gives_of_exec hx ⟨?_, ?_⟩
  · rw [State.fault_ctx_]
    exact State.resetCtxs_one_state (by simpa using ho)
  · rw [State.fault_now, (ended_resetCtxs _ _).now, State.record_now, State.now_advanceTo]
    exact le_max_right _ _

end

section
variable {s : State}

/-- Cores that still show the operator 100 µs after the suspects' resets get an engine reset. -/
theorem exec_hungCoreCheck_of_hung (busy : List Nat) (hh : s.sched.quarantine.hung ≠ [])
    (hr : ∀ c ∈ s.sched.quarantine.suspects, (s.ctx c).state ≠ .resetting) :
    let last := s.sched.quarantine.suspects.foldl (fun m c => max m (s.ctx c).resetAt) s.sched.quarantine.since
    exec (.hungCoreCheck busy) s = .next (({ s.advanceTo (last + 100 * Config.usCycles) with
      sched := { s.sched with quarantine := { s.sched.quarantine with hung := [] } } } : State).resetEngines
        (s.sched.quarantine.hung.filter (fun c => busy.contains c && s.mirrored c))) := by
  have hx : exec (.hungCoreCheck busy) s = execHungCoreCheck busy s := rfl
  have hm : ∀ (n : Nat) (q : Sched) (c : Nat), ({ s.advanceTo n with sched := q } : State).mirrored c = s.mirrored c :=
    fun n _ => State.mirrored_congr (s.advanceTo_cores n)
  rw [hx, execHungCoreCheck, if_neg (by simpa [hh] using hr)]
  dsimp only
  rw [State.advanceTo_sched]
  simp only [hm]

theorem exec_suspectIdleExpire_of_suspect {c : Nat} (h : s.sched.quarantine.suspects.contains c = true) :
    exec (.suspectIdleExpire c) s =
      .next ((s.advanceTo (max s.sched.quarantine.since (s.ctx c).issuedAt + Config.sCycles)).dropSuspect c false) := if_pos h

end

/-- Settles O43: the three outcomes of a watchdog, the check of the hung cores, idle suspects, waits and stagings that last too long. -/
theorem hangsAreContained : Obligations.HangsAreContained := by
  unfold Obligations.HangsAreContained
  exact ⟨fun s op e hung he hp hc => ⟨fun ht hq => exec_watchdogFire_of_suspects he hp hc hung ht hq,
      fun ht hq ho hn => gives_watchdogFire_of_external he hp hc hung ht hq ho hn, fun ht => gives_watchdogFire_of_turn he hp hc hung ht⟩,
    fun s busy hh hr => exec_hungCoreCheck_of_hung busy hh hr, fun s c h => exec_suspectIdleExpire_of_suspect h,
    fun s op t0 e he hw hu => gives_waitExclusionExpire he hw hu, fun s op t0 e he ht hp hs ho => gives_stagingTimeout he ht hp hs ho⟩

end Sys2Proof.Machine
end

section
namespace Sys2Proof.Machine

/-! ### What requests, records and responses leave of Vigil (R428, R432) -/

/-- Opening a request changes the list of requesters alone of Vigil. -/
theorem State.opened_vigil (s : State) (q : Req) : ∃ l, (s.opened q).vigil = { s.vigil with requesters := l } := by
  refine ⟨(s.opened q).vigil.requesters, ?_⟩
  have h : (s.opened q).vigil = { (s.takeDict q.who).vigil with requesters := (s.opened q).vigil.requesters } := rfl
  rw [State.takeDict_vigil] at h
  exact h

theorem State.forWrite_vigil (s : State) (q : Req) : ∃ l, (s.forWrite q).vigil = { s.vigil with requesters := l } := by
  obtain ⟨l, h⟩ := s.opened_vigil q
  refine ⟨(s.forWrite q).vigil.requesters, ?_⟩
  have hw : (s.forWrite q).vigil = { (s.opened q).vigil with requesters := (s.forWrite q).vigil.requesters } := rfl
  rw [h] at hw
  exact hw

/-- A response changes the list of requesters and what is sent alone of Vigil. -/
theorem State.respond_vigil (s : State) (w : Requester) (r : Response) :
    ∃ l o, (s.respond w r).vigil = { s.vigil with requesters := l, out := o } := by
  refine ⟨(s.respond w r).vigil.requesters, (s.sendResponse w r).vigil.out, ?_⟩
  cases w <;> rfl

@[simp] theorem State.respond_nextSeq (s : State) (w : Requester) (r : Response) : (s.respond w r).vigil.nextSeq = s.vigil.nextSeq := by
  obtain ⟨_, _, h⟩ := s.respond_vigil w r
  rw [h]

/-! ### Datagrams that break the format (R429, R435) -/

/-- A violation is counted, and recorded at most once a second. -/
def State.fieldViolated (s : State) : State :=
  let u : State := { s with vigil := { s.vigil with
    fieldViolations := min (s.vigil.fieldViolations + 1) (2 ^ 32 - 1)
    fieldViolStamps := recent s.now (10 * Config.sCycles) s.vigil.fieldViolStamps ++ [s.now] } }
  if s.vigil.lastFieldRecord.any (fun t => decide (s.now < t + Config.sCycles)) then u
  else
    let t := u.record (uidVigil 0 0) cFieldViolation 0 0
    { t with vigil := { t.vigil with lastFieldRecord := some u.now } }

theorem State.fieldViolated_keeps (s : State) : s.fieldViolated.vigil.fieldViolations = min (s.vigil.fieldViolations + 1) (2 ^ 32 - 1) ∧
    s.fieldViolated.vigil.out = s.vigil.out ∧ s.fieldViolated.vigil.requesters = s.vigil.requesters ∧
    s.fieldViolated.memsys = s.memsys ∧ s.fieldViolated.runs = s.runs := by
  unfold State.fieldViolated
  extract_lets v u t
  split
  · exact ⟨rfl, rfl, rfl, rfl, rfl⟩
  · obtain ⟨_, _, h⟩ := u.record_vigil (uidVigil 0 0) cFieldViolation 0 0 {}
    have hn : t.vigil.fieldViolations = u.vigil.fieldViolations := (congrArg Vigil.fieldViolations h :)
    have ho : t.vigil.out = u.vigil.out := (congrArg Vigil.out h :)
    have hr : t.vigil.requesters = u.vigil.requesters := (congrArg Vigil.requesters h :)
    exact ⟨hn, ho, hr, State.record_memsys .., State.record_runs ..⟩

section
variable {s : State} {w : Requester} {bytes : List Byte} {ans : Option Code} (ha : s.answers w = true) (hf : messageFault bytes = some ans)
include ha hf

/-- A guarded network drops it. -/
theorem exec_fieldDatagram_of_guarded (hg : s.vigil.fieldState = 1) : exec (.fieldDatagram w bytes) s = .next s := by
  have he : exec (.fieldDatagram w bytes) s = execFieldDatagram w bytes s := rfl
  simp only [he, execFieldDatagram, ha, hf, hg, Bool.not_true, Bool.false_eq_true, if_false, if_true]

theorem exec_fieldDatagram_of_fault (hg : s.vigil.fieldState ≠ 1) : exec (.fieldDatagram w bytes) s =
    .next (ans.elim s.fieldViolated (fun c => s.fieldViolated.sendResponse w (faultResponse bytes c))) := by
  have he : exec (.fieldDatagram w bytes) s = execFieldDatagram w bytes s := rfl
  rw [execFieldDatagram, if_neg (by simp [ha]), hf] at he
  dsimp only at he
  rw [if_neg hg] at he
  cases ans with
  | none => exact he
  | some c => exact he

end

/-- A violation on the field network is counted and answered with its code, where it has one. -/
theorem gives_fieldDatagram_of_fault {s : State} {a : BitVec 128} {port : BitVec 16} {bytes : List Byte} {ans : Option Code}
    (ha : s.answers (.field a port) = true) (hf : messageFault bytes = some ans) (hg : s.vigil.fieldState ≠ 1) :
    Gives (.fieldDatagram (.field a port) bytes) s (fun t => t.vigil.fieldViolations = min (s.vigil.fieldViolations + 1) (2 ^ 32 - 1) ∧
      t.vigil.out = s.vigil.out ++ ans.elim [] (fun c => [.response (.field a port) (faultResponse bytes c)]) ∧ t.vigil.requesters = s.vigil.requesters ∧ t.memsys = s.memsys ∧ t.runs = s.runs) := by
  obtain ⟨hn, ho, hr, hm, hrun⟩ := s.fieldViolated_keeps
  refine gives_of_exec (exec_fieldDatagram_of_fault ha hf hg) ?_
  cases ans with
  | none => exact ⟨hn, ho.trans (List.append_nil _).symm, hr, hm, hrun⟩
  | some c => exact ⟨hn, congrArg (· ++ [VigilOut.response (.field a port) (faultResponse bytes c)]) ho, hr, hm, hrun⟩

/-- A well-formed READ is served (R431). -/
theorem exec_fieldDatagram_of_read {s : State} {q : Req} {bytes : List Byte} {i sub : Nat} (hf : messageFault bytes = none) (ho : leAt bytes 1 1 = 1)
    (hq : q.seq = BitVec.ofNat 16 (leAt bytes 2 2)) (hi : i = leAt bytes 4 2) (hs : sub = leAt bytes 6 1) (hn : ¬(i = 0x1200 ∧ sub = 3))
    (hp : bytes.drop 16 = []) (h : Fresh s q 1 i sub) :
    exec (.fieldDatagram q.who bytes) s = .next ((s.opened q).respond q.who
      (answerOf q 1 i sub ((s.opened q).readObj q.who i sub).1 ((s.opened q).readObj q.who i sub).2)) := by
  obtain ⟨w, n⟩ := q
  subst hq hi hs
  have he : exec (.fieldDatagram w bytes) s = execFieldDatagram w bytes s := rfl
  have hg : ¬ (decide (leAt bytes 4 2 = 0x1200) && decide (leAt bytes 6 1 = 3)) = true := by simpa using hn
  simp only [he, execFieldDatagram, h.1, hf, State.serveRead, hg, ho, hp, dict_of_fresh _ _ _ _ _ _ h, List.isEmpty_nil, Bool.not_true, Bool.false_eq_true,
    if_false, if_true]

/-! ### The guard, neighbours and requesters (R428, R429, R435) -/

section
variable {s : State}

theorem gives_fieldGuarded (h0 : s.vigil.fieldState = 0) (hn : 64 ≤ (recent s.now Config.msCycles s.vigil.fieldViolStamps).length) :
    Gives .fieldGuarded s (fun t => t.vigil.fieldState = 1 ∧ t.vigil.nextSeq = (s.vigil.nextSeq + 1) % 2 ^ 64 ∧ t.memsys = s.memsys) := by
  have he : exec .fieldGuarded s = execFieldGuarded s := rfl
  rw [execFieldGuarded, if_pos (by simp [h0, hn])] at he
  exact gives_of_exec he ⟨rfl, State.record_nextSeq .., State.record_memsys ..⟩

theorem gives_fieldGuardExpire (h : s.vigil.fieldState = 1) :
    Gives .fieldGuardExpire s (fun t => t.vigil.fieldState = 0 ∧ t.vigil.fieldViolStamps = [] ∧
      s.vigil.fieldViolStamps.getLastD 0 + 10 * Config.sCycles ≤ t.now) := by
  have he : exec .fieldGuardExpire s = execFieldGuardExpire s := rfl
  rw [execFieldGuardExpire, if_pos h] at he
  refine gives_of_exec he ⟨rfl, rfl, ?_⟩
  exact State.le_now_advanceTo ..

/-- An Operator on a host port clears the guard. -/
theorem gives_fieldStateClear {q : Req} {port : Nat} (hq : q.who = .yalvo port) (hw : Writes s q 0x1100 6 1) (h : s.vigil.fieldState = 1) :
    Gives (.fieldStateClear q 0) s (fun t => t.vigil.fieldState = 0 ∧ t.vigil.fieldViolStamps = []) := by
  obtain ⟨l, hv⟩ := s.forWrite_vigil q
  have h1 : (s.forWrite q).vigil.fieldState = 1 := by rw [hv, h]
  refine gives_of_writes (bs := [0]) (c := cOk)
    (u := { s.forWrite q with vigil := { (s.forWrite q).vigil with fieldState := 0, fieldViolStamps := [] } }) hw rfl ?_ (fun r => ?_)
  · simp only [hq, h1, bne_self_eq_false, Bool.false_eq_true, if_false, if_true]
  · obtain ⟨_, _, hr⟩ := State.respond_vigil { s.forWrite q with vigil := { (s.forWrite q).vigil with fieldState := 0, fieldViolStamps := [] } } q.who r
    rw [hr]
    exact ⟨rfl, rfl⟩

theorem exec_neighbourDiscovery_of_solicitation (src : BitVec 128) (h : s.answers (.field 0 0) = true) :
    exec (.neighbourDiscovery (.neighbourSolicitation src s.linkLocal)) s =
      .next { s with vigil := { s.vigil with out := s.vigil.out ++ [.neighbourAdvert src s.linkLocal] } } := by
  have he : exec (.neighbourDiscovery (.neighbourSolicitation src s.linkLocal)) s = execNeighbourDiscovery (.neighbourSolicitation src s.linkLocal) s := rfl
  simp only [he, execNeighbourDiscovery, h, Bool.not_true, Bool.false_eq_true, if_false, if_true]

theorem gives_duplicateAddressDetection (h : s.answers (.field 0 0) = true) :
    Gives (.duplicateAddressDetection true) s (fun t => t.vigil.fieldState = 2 ∧ t.vigil.nextSeq = (s.vigil.nextSeq + 1) % 2 ^ 64) := by
  have he : exec (.duplicateAddressDetection true) s = execDuplicateAddressDetection true s := rfl
  rw [execDuplicateAddressDetection, if_pos (show (true && s.answers (.field 0 0)) = true from h)] at he
  exact gives_of_exec he ⟨rfl, State.record_nextSeq ..⟩

theorem gives_requesterEvict {w : Requester} (h : ∃ x ∈ s.vigil.requesters, x.who = w) :
    Gives (.requesterEvict w) s (fun t => t.vigil.requesters = s.vigil.requesters.filter (fun x => x.who != w) ∧
      (s.reqOf w).lastUse + 60 * Config.sCycles ≤ t.now) := by
  have he : exec (.requesterEvict w) s = execRequesterEvict w s := rfl
  rw [execRequesterEvict, if_pos (by simpa using h)] at he
  refine gives_of_exec he ⟨?_, State.le_now_advanceTo ..⟩
  rw [State.advanceTo_vigil]

end

/-- Settles O48: violations, reads, the guard and its ends, neighbours and idle requesters. -/
theorem fieldNetworkAnswers : Obligations.FieldNetworkAnswers := by
  unfold Obligations.FieldNetworkAnswers
  exact ⟨fun s a port bytes ans ha hf => ⟨fun hg => exec_fieldDatagram_of_guarded ha hf hg, fun hg => by
      cases ans with
      | none => exact gives_fieldDatagram_of_fault ha hf hg
      | some c => exact gives_fieldDatagram_of_fault ha hf hg⟩,
    fun s q bytes i sub hf ho hq hi hs hn hp h => exec_fieldDatagram_of_read hf ho hq hi hs hn hp h, fun s h0 hn => gives_fieldGuarded h0 hn,
    fun s h => gives_fieldGuardExpire h, fun s q port hq hw h => gives_fieldStateClear hq hw h,
    fun s src h => exec_neighbourDiscovery_of_solicitation src h, fun s h => gives_duplicateAddressDetection h, fun s w h => gives_requesterEvict h⟩

end Sys2Proof.Machine
end

section
namespace Sys2Proof.Machine

/-! ### Requests that reach their object (R432) -/

/-- What holds of the action's state and outlasts the response holds after a fresh request. -/
theorem gives_of_dict {s u : State} {q : Req} {op i sub : Nat} {x : Instr} {act : State → State × Code × List Byte} {c : Code} {pl : List Byte}
    {P : State → Prop} (h : Fresh s q op i sub) (hx : exec x s = .next (s.dict q op i sub act).1) (ha : act (s.opened q) = (u, c, pl))
    (hP : ∀ r, P (u.respond q.who r)) : Gives x s P := by
  rw [dict_of_fresh s q op i sub act h, ha] at hx
  exact ⟨_, hx, hP _⟩

@[simp] theorem State.opened_now (s : State) (q : Req) : (s.opened q).now = s.now := by simp [State.opened]
@[simp] theorem State.opened_free (s : State) (q : Req) : (s.opened q).free = s.free := by simp [State.opened]
@[simp] theorem State.opened_boot (s : State) (q : Req) : (s.opened q).boot = s.boot := by simp [State.opened]
@[simp] theorem State.opened_flash (s : State) (q : Req) : (s.opened q).flash = s.flash := by simp [State.opened]
@[simp] theorem State.opened_memsys (s : State) (q : Req) : (s.opened q).memsys = s.memsys := by simp [State.opened]
@[simp] theorem State.opened_runs (s : State) (q : Req) : (s.opened q).runs = s.runs := by simp [State.opened]

section
variable (u : State) (w : Requester) (r : Response)

@[simp] theorem State.reqOf_respond_transfer : ((u.respond w r).reqOf w).transfer = (u.reqOf w).transfer := by rw [State.reqOf_respond]
@[simp] theorem State.reqOf_respond_nonce : ((u.respond w r).reqOf w).nonce = (u.reqOf w).nonce := by rw [State.reqOf_respond]
@[simp] theorem State.reqOf_respond_elevation : ((u.respond w r).reqOf w).elevation = (u.reqOf w).elevation := by rw [State.reqOf_respond]

end

/-! ### Transfers (R433, R439) -/

theorem Flash.slot_setSlot_same (f : Flash) (n : Nat) (k : FlashSlot) : (f.setSlot n k).slot n = k := by
  unfold Flash.setSlot Flash.slot
  split <;> rfl

/-- The entry of a requester whose transfer opens. -/
def ReqState.begun (index : BitVec 16) (sub : Byte) (offset total now : Nat) (x : ReqState) : ReqState :=
  { x with
    transfer := some ⟨index, sub, x.runSelect.toNat, offset, total, [], none, now⟩
    elevation := x.elevation.map (fun e => { e with inTransfer := true }) }

/-- A transfer of an image opens: the slot that does not run is empty from here on. -/
def State.imageBegun (s : State) : State :=
  let n := s.inactiveSlot
  let f := s.flash.slot n
  let f := if f.status = 3 then f else { f with fwDone := false, cfgDone := false }
  { s with flash := s.flash.setSlot n { f with status := 3 } }

/-- A transfer of the requester opens. -/
def State.transferBegun (s : State) (w : Requester) (index : BitVec 16) (sub : Byte) (offset total : Nat) : State :=
  let u := s.updReq w (ReqState.begun index sub offset total s.now)
  if index.toNat = 0x1300 then u.imageBegun else u

section
variable (s : State) (w : Requester) (index : BitVec 16) (sub : Byte) (offset total : Nat)

theorem State.transferBegun_reqOf :
    (s.transferBegun w index sub offset total).reqOf w = (s.reqOf w).begun index sub offset total s.now := by
  have h := s.reqOf_updReq w (ReqState.begun index sub offset total s.now) (fun _ => rfl)
  unfold State.transferBegun
  dsimp only
  split
  · exact (State.reqOf_congr (s := s.updReq w (ReqState.begun index sub offset total s.now)) rfl rfl w).trans h
  · exact h

theorem State.transferBegun_flash (h : index.toNat ≠ 0x1300) : (s.transferBegun w index sub offset total).flash = s.flash := by
  unfold State.transferBegun
  rw [if_neg h]
  rfl

theorem State.transferBegun_status (h : index.toNat = 0x1300) :
    ((s.transferBegun w index sub offset total).flash.slot s.inactiveSlot).status = 3 := by
  unfold State.transferBegun
  rw [if_pos h]
  exact congrArg FlashSlot.status (Flash.slot_setSlot_same ..)

@[simp] theorem State.transferBegun_memsys : (s.transferBegun w index sub offset total).memsys = s.memsys := by
  unfold State.transferBegun
  dsimp only
  split <;> rfl

@[simp] theorem State.transferBegun_runs : (s.transferBegun w index sub offset total).runs = s.runs := by
  unfold State.transferBegun
  dsimp only
  split <;> rfl

end

section
variable {s : State} {q : Req} {index : BitVec 16} {sub : Byte} {offset : Nat}

/-- BEGIN opens a transfer of a DOMAIN object within its size, its granule and the requester's privilege. -/
theorem gives_domainBegin {total : Nat} {o : ObjInfo} (h : Fresh s q 4 index.toNat sub.toNat) (ho : objInfo index.toNat sub.toNat = some o)
    (hw : o.wr = true) (hd : o.domain = true) (hm : (s.opened q).mayWrite q.who index.toNat sub.toNat o.level = true) (hs : offset + total ≤ o.size)
    (h1 : offset % o.granule = 0) (h2 : total % o.granule = 0) (hf : ∀ r ∈ (s.opened q).vigil.requesters, r.who ≠ q.who → r.transfer = none)
    (hr : runScoped index.toNat = true → ((s.opened q).selected q.who).isSome = true) (h0 : 0 < total) :
    Gives (.domainBegin q index sub offset total) s (fun t => (t.reqOf q.who).transfer =
      some ⟨index, sub, ((s.opened q).reqOf q.who).runSelect.toNat, offset, total, [], none, s.now⟩ ∧ (index.toNat ≠ 0x1300 → t.flash = s.flash) ∧
      (index.toNat = 0x1300 → (t.flash.slot s.inactiveSlot).status = 3) ∧ t.memsys = s.memsys ∧ t.runs = s.runs) := by
  have hbusy : (s.opened q).vigil.requesters.any (fun r => r.who != q.who && (r.transfer.any (fun t => t.index == index && t.sub == sub))) = false := by
    rw [List.any_eq_false]
    intro r hr
    by_cases e : r.who = q.who
    · simp [e]
    · simp [hf r hr e]
  have hsel : (runScoped index.toNat && ((s.opened q).selected q.who).isNone) = false := by
    cases hc : runScoped index.toNat with
    | false => rfl
    | true => rw [Bool.true_and, Option.isNone_eq_false_iff]; exact hr hc
  refine gives_of_dict (u := (s.opened q).transferBegun q.who index sub offset total) (c := cOk) (pl := []) h rfl ?_ (fun r => ?_)
  · dsimp only
    rw [ho]
    dsimp only
    rw [if_neg (by simp [hw]), if_neg (by simp [hd]), if_neg (by simp [hm]), if_neg (by simp [h1, h2, hs]), hbusy, hsel, if_neg Bool.false_ne_true,
      if_neg Bool.false_ne_true, if_neg (by omega)]
    rfl
  · have hn : s.inactiveSlot = (s.opened q).inactiveSlot := by simp [State.inactiveSlot]
    refine ⟨?_, fun hi => ?_, fun hi => ?_, by simp, by simp⟩
    · rw [State.reqOf_respond_transfer, State.transferBegun_reqOf, State.opened_now]
      rfl
    · rw [State.respond_flash, State.transferBegun_flash _ _ _ _ _ _ hi, State.opened_flash]
    · rw [State.respond_flash, hn]
      exact State.transferBegun_status _ _ _ _ _ _ hi

variable {tr : Transfer} (ht : ((s.opened q).reqOf q.who).transfer = some tr) (hi : tr.index = index) (hk : tr.sub = sub)
include ht hi hk

/-- A segment in order is appended. -/
theorem gives_domainSeg_of_next {bytes : List Byte} (h : Fresh s q 5 index.toNat sub.toNat) (hat : offset = tr.offset + tr.got.length) (hne : bytes ≠ [])
    (hmax : bytes.length ≤ 1396) (hfit : tr.got.length + bytes.length ≤ tr.total) :
    Gives (.domainSeg q index sub offset bytes) s (fun t => (t.reqOf q.who).transfer =
      some { tr with got := tr.got ++ bytes, lastOffset := some offset, touchedAt := s.now } ∧ t.flash = s.flash ∧ t.runs = s.runs) := by
  refine gives_of_dict (u := (s.opened q).updReq q.who (fun x => { x with
    transfer := some { tr with got := tr.got ++ bytes, lastOffset := some offset, touchedAt := (s.opened q).now } })) (c := cOk) (pl := []) h rfl ?_ (fun r => ?_)
  · dsimp only
    rw [ht]
    dsimp only
    rw [if_neg (by simp [hi, hk]), if_neg (by simp [hat]), if_neg (by simp [hat]), if_neg (by simp [hne]; omega)]
  · refine ⟨?_, by simp, by simp⟩
    rw [State.reqOf_respond_transfer, State.reqOf_updReq, State.opened_now]
    exact fun _ => rfl

/-- A segment out of order leaves what came so far. -/
theorem gives_domainSeg_of_other {bytes : List Byte} (h : Fresh s q 5 index.toNat sub.toNat) (hat : offset ≠ tr.offset + tr.got.length) :
    Gives (.domainSeg q index sub offset bytes) s (fun t => (t.reqOf q.who).transfer = some { tr with touchedAt := s.now }) := by
  refine gives_of_dict (u := (s.opened q).updReq q.who (fun x => { x with transfer := some { tr with touchedAt := (s.opened q).now } }))
    (c := if (tr.lastOffset == some offset) = true then cOk else cDomainSequence) (pl := []) h rfl ?_ (fun r => ?_)
  · dsimp only
    rw [ht]
    dsimp only
    rw [if_neg (by simp [hi, hk])]
    by_cases hl : (tr.lastOffset == some offset) = true
    · rw [if_pos hl, if_pos (by simp [hl, hat])]
    · rw [if_neg hl, if_neg (by simp [hl]), if_pos (by simp [hat])]
  · rw [State.reqOf_respond_transfer, State.reqOf_updReq, State.opened_now]
    exact fun _ => rfl

theorem gives_domainCancel (h : Fresh s q 7 index.toNat sub.toNat) : Gives (.domainCancel q index sub) s (fun t => (t.reqOf q.who).transfer = none ∧
    (t.reqOf q.who).elevation = none ∧ t.flash = s.flash) := by
  refine gives_of_dict (u := (s.opened q).updReq q.who ReqState.abandon) (c := cOk) (pl := []) h rfl ?_ (fun r => ?_)
  · rw [ht]
    dsimp only
    rw [if_neg (by simp [hi, hk])]
  · rw [State.reqOf_respond_transfer, State.reqOf_respond_elevation, State.reqOf_updReq _ _ ReqState.abandon (fun _ => rfl)]
    refine ⟨rfl, ?_, by simp⟩
    simp [ReqState.abandon, ht]

end

theorem gives_domainTimeout {s : State} {w : Requester} {tr : Transfer} (h : (s.reqOf w).transfer = some tr) : Gives (.domainTimeout w) s (fun t =>
    (t.reqOf w).transfer = none ∧ tr.touchedAt + 10 * Config.sCycles ≤ t.now) := by
  have he : exec (.domainTimeout w) s = execDomainTimeout w s := rfl
  rw [execDomainTimeout, h] at he
  refine gives_of_exec he ⟨?_, ?_⟩
  · rw [State.reqOf_updReq _ _ ReqState.abandon (fun _ => rfl)]
    rfl
  · rw [State.updReq_now]
    exact State.le_now_advanceTo ..

/-! ### Nonces, tokens and elevations (R434) -/

theorem gives_nonceRead {s : State} {q : Req} (h : Fresh s q 3 0x1200 3) : Gives (.nonceRead q) s (fun t =>
    (t.reqOf q.who).nonce = some ⟨Config.freeNonce s.free, s.now, false⟩ ∧ t.free = s.free + 1) := by
  refine gives_of_dict (u := ({ s.opened q with free := (s.opened q).free + 1 } : State).updReq q.who (fun x => { x with
    nonce := some ⟨Config.freeNonce (s.opened q).free, (s.opened q).now, false⟩ })) (c := cOk) (pl := _) h rfl rfl (fun r => ?_)
  rw [State.reqOf_respond_nonce, State.reqOf_updReq, State.respond_free, State.updReq_free, State.opened_now, State.opened_free]
  · exact ⟨rfl, rfl⟩
  · exact fun _ => rfl

/-- The nonce of an entry is used. -/
def ReqState.spend (x : ReqState) : ReqState := { x with nonce := x.nonce.map (fun n => { n with used := true }) }

theorem ReqState.spend_used (x : ReqState) {n : Nonce} (h : x.spend.nonce = some n) : n.used = true := by
  obtain ⟨m, -, rfl⟩ := Option.map_eq_some_iff.mp h
  rfl

section
variable {s : State} {q : Req} {token : List Byte} (h : Fresh s q 8 0 0)
include h

theorem gives_auth_of_ok (hc : (s.opened q).tokenCode ((s.opened q).reqOf q.who) token = cOk) : Gives (.auth q token) s (fun t => (t.reqOf q.who).elevation =
      some ⟨leAt token 3 1, BitVec.ofNat 16 (leAt token 4 2), BitVec.ofNat 8 (leAt token 6 1), s.now, false⟩ ∧
      (∀ n, (t.reqOf q.who).nonce = some n → n.used = true)) := by
  refine gives_of_dict (u := ((s.opened q).updReq q.who ReqState.spend).updReq q.who (fun x => { x with
    elevation := some ⟨leAt token 3 1, BitVec.ofNat 16 (leAt token 4 2), BitVec.ofNat 8 (leAt token 6 1), (s.opened q).now, false⟩ }))
    (c := cOk) (pl := []) h rfl ?_ (fun r => ?_)
  · dsimp only
    rw [if_pos hc]
    rfl
  · rw [State.reqOf_respond_elevation, State.reqOf_respond_nonce, State.reqOf_updReq, State.reqOf_updReq _ _ ReqState.spend (fun _ => rfl),
      State.opened_now]
    · exact ⟨rfl, fun n hn => ReqState.spend_used _ hn⟩
    · exact fun _ => rfl

theorem gives_auth_of_refused (hc : (s.opened q).tokenCode ((s.opened q).reqOf q.who) token ≠ cOk) : Gives (.auth q token) s (fun t =>
      (t.reqOf q.who).elevation = ((s.opened q).reqOf q.who).elevation ∧
      (∀ n, (t.reqOf q.who).nonce = some n → n.used = true) ∧ t.vigil.nextSeq = (s.vigil.nextSeq + 1) % 2 ^ 64) := by
  refine gives_of_dict (u := ((s.opened q).updReq q.who ReqState.spend).record (uidVigil 0 0) cAuthFailed 0 0)
    (c := (s.opened q).tokenCode ((s.opened q).reqOf q.who) token) (pl := []) h rfl ?_ (fun r => ?_)
  · dsimp only
    rw [if_neg hc]
    rfl
  · have hr : (((s.opened q).updReq q.who ReqState.spend).record (uidVigil 0 0) cAuthFailed 0 0).reqOf q.who = ((s.opened q).reqOf q.who).spend := by
      obtain ⟨_, _, hv⟩ := State.record_vigil ((s.opened q).updReq q.who ReqState.spend) (uidVigil 0 0) cAuthFailed 0 0 {}
      rw [State.reqOf_congr (s := (s.opened q).updReq q.who ReqState.spend) (by rw [hv]) (State.record_now ..),
        State.reqOf_updReq _ _ ReqState.spend (fun _ => rfl)]
    rw [State.reqOf_respond_elevation, State.reqOf_respond_nonce, hr, State.respond_nextSeq, State.record_nextSeq]
    refine ⟨rfl, fun n hn => ReqState.spend_used _ hn, ?_⟩
    obtain ⟨l, hv⟩ := s.opened_vigil q
    have hs : (s.opened q).vigil.nextSeq = s.vigil.nextSeq := by rw [hv]
    rw [← hs]
    rfl

end

theorem gives_elevationLapse {s : State} {w : Requester} {e : Elevation} (h : (s.reqOf w).elevation = some e) (ht : e.inTransfer = false) :
    Gives (.elevationLapse w) s (fun t => (t.reqOf w).elevation = none ∧ e.grantedAt + 10 * Config.sCycles ≤ t.now) := by
  have he : exec (.elevationLapse w) s = execElevationLapse w s := rfl
  rw [execElevationLapse, h] at he
  dsimp only at he
  rw [if_neg (by simp [ht])] at he
  refine gives_of_exec he ⟨?_, ?_⟩
  · rw [State.endElevation, State.reqOf_updReq]
    exact fun _ => rfl
  · rw [State.endElevation, State.updReq_now]
    exact State.le_now_advanceTo ..

/-- Settles O50: a transfer's BEGIN, segments, CANCEL and timeout; nonces, tokens and the lapse of an elevation. -/
theorem transfersAndTokens : Obligations.TransfersAndTokens := by
  unfold Obligations.TransfersAndTokens
  exact ⟨fun s q index sub offset total o h ho hw hd hm hs h1 h2 hf hr h0 => gives_domainBegin h ho hw hd hm hs h1 h2 hf hr h0,
    fun s q index sub offset bytes tr h ht hi hk => ⟨fun hat hne hmax hfit => gives_domainSeg_of_next ht hi hk h hat hne hmax hfit,
      fun hat => gives_domainSeg_of_other ht hi hk h hat, fun hc => gives_domainCancel ht hi hk hc⟩,
    fun s w tr h => gives_domainTimeout h, fun s q h => gives_nonceRead h,
    fun s q token h => ⟨fun hc => gives_auth_of_ok h hc, fun hc => gives_auth_of_refused h hc⟩,
    fun s w e h ht => gives_elevationLapse h ht⟩

end Sys2Proof.Machine
end

section
namespace Sys2Proof.Machine

/-! ### What opened writes and ended transfers leave -/

@[simp] theorem State.forWrite_ctxs (s : State) (q : Req) : (s.forWrite q).ctxs = s.ctxs := by simp [State.forWrite, State.opened]
@[simp] theorem State.forEnd_boot (s : State) (q : Req) : (s.forEnd q).boot = s.boot := by simp [State.forEnd, State.opened]
@[simp] theorem State.forEnd_fuses (s : State) (q : Req) : (s.forEnd q).fuses = s.fuses := by simp [State.forEnd, State.opened]
@[simp] theorem State.forEnd_flash (s : State) (q : Req) : (s.forEnd q).flash = s.flash := by simp [State.forEnd, State.opened]
@[simp] theorem State.forEnd_free (s : State) (q : Req) : (s.forEnd q).free = s.free := by simp [State.forEnd, State.opened]
@[simp] theorem State.forEnd_scalar (s : State) (q : Req) (i : String) : (s.forEnd q).scalar i = s.scalar i := by simp [State.scalar, State.serial]

/-- The certificate's check reads fuses and the store. -/
theorem State.forWrite_certOk (s : State) (q : Req) : (s.forWrite q).certOk = s.certOk := by
  simp only [State.certOk, State.scalar, State.serial, State.forWrite_fuses, State.forWrite_store]

theorem State.released_not_recovery {s : State} (h : s.released = true) : (s.boot.stage == .recovery) = false := by
  have hr : s.boot.stage = .released := by simpa [State.released] using h
  rw [hr]
  rfl

/-! ### Life-cycle transitions (R414) -/

section
variable {s : State} {q : Req} (hw : Writes s q 0x1200 2 1) (hr : s.released = true) (hc : ∀ e ∈ s.ctxs.tab, e.2.state = .free)
  (hd : s.dump.wanted = none)
include hw hr hc hd

/-- A transition that its state, its privilege and its own check allow makes its change and starts a chip reset. -/
theorem State.lifeCycle_of_allowed {target lvl : Nat} {need : Nat → Option Nat} {extra : State → Code} {change : State → State}
    (hn : need (lcState s.fuses.shadow) = some lvl) (hm : s.mayWrite q.who 0x1200 2 lvl = true) (hx : extra (s.forWrite q) = cOk)
    (hk : (change (s.forWrite q)).dump = (s.forWrite q).dump) :
    ∃ u : State, u.fuses.bits = (change (s.forWrite q)).fuses.bits ∧ ChipReset u (s.lifeCycle q target need extra change) := by
  have hany : (s.forWrite q).anyContext = false := by
    rw [State.anyContext, State.forWrite_ctxs, List.any_eq_false]
    intro e he
    simp [hc e he]
  have hdict := dictWrite_of_writes s q 0x1200 2 [BitVec.ofNat 8 target] (fun s' =>
    if s.boot.stage == .recovery then (s', cLcState)
    else if !s.released then (s', cNotReleased)
    else match need (lcState s.fuses.shadow) with
      | none => (s', cLcState)
      | some lvl =>
        if !s.mayWrite q.who 0x1200 2 lvl then (s', cObjPrivilege)
        else if extra s' != cOk then (s', extra s')
        else if s'.anyContext then (s', cLcContextsOpen)
        else (change s', cOk)) hw
  simp only [State.released_not_recovery hr, hr, hn, hm, hx, hany, bne_self_eq_false, Bool.not_true, Bool.false_eq_true, if_false] at hdict
  refine ⟨(change (s.forWrite q)).respond q.who (answerOf q 2 0x1200 2 cOk []), by rw [State.respond_fuses], ?_⟩
  have hl : s.lifeCycle q target need extra change =
      ((change (s.forWrite q)).respond q.who (answerOf q 2 0x1200 2 cOk [])).startChipReset noTrigger := by
    rw [State.lifeCycle]
    simp only [hdict, State.released_not_recovery hr, hr, hn, hm, Bool.not_true, Bool.false_eq_true, if_false, if_true]
  rw [hl]
  exact State.startChipReset_resets (by rw [State.respond_dump, hk, State.forWrite_dump, hd]) noTrigger

/-- The same where the change burns a field. -/
theorem gives_lifeCycle {x : Instr} {target lvl lo w k : Nat} {need : Nat → Option Nat} {extra : State → Code} {change : State → State}
    (he : exec x s = .next (s.lifeCycle q target need extra change)) (hn : need (lcState s.fuses.shadow) = some lvl)
    (hm : s.mayWrite q.who 0x1200 2 lvl = true) (hx : extra (s.forWrite q) = cOk) (hk : change (s.forWrite q) = (s.forWrite q).burn lo w k) :
    Gives x s (fun t => t.fuses.bits = setFld s.fuses.bits lo w (2 ^ k - 1) ∧ t.boot.stage = .boxwood ∧ t.boot.chipResetting = true ∧
      t.memsys = {}) := by
  obtain ⟨u, hu, hreset⟩ := State.lifeCycle_of_allowed hw hr hc hd (target := target) (change := change) hn hm hx (by rw [hk]; rfl)
  refine gives_of_exec he ⟨?_, hreset.stage, hreset.resetting, hreset.memsys⟩
  rw [hreset.bits, hu, hk, State.burn, State.forWrite_fuses]

theorem gives_lcToProvisioned (hl : lcState s.fuses.shadow = 0) (hm : s.mayWrite q.who 0x1200 2 3 = true) (hk : s.certOk = true) :
    Gives (.lcToProvisioned q) s (fun t => t.fuses.bits = setFld s.fuses.bits 320 3 (2 ^ 1 - 1) ∧ t.boot.stage = .boxwood ∧
      t.boot.chipResetting = true ∧ t.memsys = {}) :=
  gives_lifeCycle hw hr hc hd (rfl : exec _ s = execLcToProvisioned q s) (if_pos hl) hm (if_pos ((s.forWrite_certOk q).trans hk)) rfl

theorem gives_lcToFleet_of_provisioned (hl : lcState s.fuses.shadow = 1) (hm : s.mayWrite q.who 0x1200 2 2 = true) (hk : fld s.fuses.shadow 2120 512 ≠ 0) :
    Gives (.lcToFleet q) s (fun t => t.fuses.bits = setFld s.fuses.bits 320 3 (2 ^ 2 - 1) ∧ t.boot.stage = .boxwood ∧
      t.boot.chipResetting = true ∧ t.memsys = {}) := by
  refine gives_lifeCycle hw hr hc hd (rfl : exec _ s = execLcToFleet q s) (if_pos hl) hm (if_neg ?_) (if_neg ?_)
  · rw [State.forWrite_fuses]
    simp [hk]
  · rw [State.forWrite_fuses, hl]
    decide

theorem gives_lcToFleet_of_service (hl : lcState s.fuses.shadow = 3) (hm : s.mayWrite q.who 0x1200 2 3 = true) :
    Gives (.lcToFleet q) s (fun t => t.fuses.bits = setFld s.fuses.bits 328 32 (2 ^ ((thermometer s.fuses.shadow 328 32).getD 0 + 1) - 1) ∧
      t.boot.stage = .boxwood ∧ t.boot.chipResetting = true ∧ t.memsys = {}) := by
  refine gives_lifeCycle hw hr hc hd (rfl : exec _ s = execLcToFleet q s) ((if_neg (by rw [hl]; decide)).trans (if_pos hl)) hm (if_neg ?_) ?_
  · rw [State.forWrite_fuses, hl]
    simp
  · rw [State.forWrite_fuses, if_pos hl]

theorem gives_lcToService (hl : lcState s.fuses.shadow = 2) (hm : s.mayWrite q.who 0x1200 2 3 = true)
    (hk : (thermometer s.fuses.shadow 328 32).getD 0 ≠ 32) :
    Gives (.lcToService q) s (fun t => t.fuses.bits = setFld s.fuses.bits 328 32 (2 ^ ((thermometer s.fuses.shadow 328 32).getD 0 + 1) - 1) ∧
      t.boot.stage = .boxwood ∧ t.boot.chipResetting = true ∧ t.memsys = {}) := by
  refine gives_lifeCycle hw hr hc hd (rfl : exec _ s = execLcToService q s) (if_pos hl) hm (if_neg ?_) ?_
  · rwa [State.forWrite_fuses]
  · rw [State.forWrite_fuses]

theorem gives_lcToRetired (hl : lcState s.fuses.shadow ≠ 4) (hm : s.mayWrite q.who 0x1200 2 2 = true) :
    Gives (.lcToRetired q) s (fun t => t.fuses.bits = setFld s.fuses.bits 320 3 (2 ^ 3 - 1) ∧ t.boot.stage = .boxwood ∧
      t.boot.chipResetting = true ∧ t.memsys = {}) :=
  gives_lifeCycle hw hr hc hd (rfl : exec _ s = execLcToRetired q s) (if_neg hl) hm rfl rfl

end

/-! ### Keys and reports (R468, R473, R478 to R481) -/

section
variable {s : State} {q : Req} {sha : BitVec 512} {tr : Transfer}

theorem gives_fleetKey (h : Ends s q 0x1200 7 sha tr) (hp : (pointOf tr.got).isSome = true) (h0 : fld s.fuses.bits 2120 512 = 0) :
    Gives (.fleetKey q sha) s (fun t => t.fuses.bits = setFld s.fuses.bits 2120 512 (fuseDigest (sha512 tr.got)) ∧
      t.fuses.shadow = setFld s.fuses.shadow 2120 512 (fuseDigest (sha512 tr.got)) ∧ t.memsys = s.memsys) := by
  have hn : ¬ (pointOf tr.got).isNone = true := by rw [Bool.not_eq_true, Option.isNone_eq_false_iff]; exact hp
  have hb : ¬ (fld (s.forEnd q).fuses.bits 2120 512 != 0) = true := by rw [State.forEnd_fuses, h0]; decide
  refine gives_of_ends h (rfl : exec _ s = execFleetKey q sha s) ((if_neg hn).trans (if_neg hb)) (fun r => ?_)
  rw [State.respond_fuses, State.respond_memsys]
  dsimp only
  rw [State.forEnd_fuses, State.forEnd_memsys]
  exact ⟨rfl, rfl, rfl⟩

theorem gives_keySlotWrite (h : Ends s q 0x1200 8 sha tr) (hk : s.boot.keysDerived = true) {l : List (Nat × BitVec 512)}
    (hl : (s.forEnd q).keyRecords (tr.offset / 256 + 1) (chunks 256 4096 tr.got) = .ok l) :
    Gives (.keySlotWrite q sha) s (fun t => t.memsys.keys = l.foldl (fun m e => NMap.set m e.1 e.2) s.memsys.keys ∧ t.memsys.mem = s.memsys.mem) := by
  refine gives_of_ends (u := { s.forEnd q with memsys := { (s.forEnd q).memsys with
    keys := l.foldl (fun m e => NMap.set m e.1 e.2) (s.forEnd q).memsys.keys } }) (c := cOk) h (rfl : exec _ s = execKeySlotWrite q sha s) ?_ (fun r => ?_)
  · dsimp only
    rw [State.forEnd_boot, hk, hl]
    rfl
  · rw [State.respond_memsys]
    dsimp only
    rw [State.forEnd_memsys]
    exact ⟨rfl, rfl⟩

theorem gives_attestNonce (h : Ends s q 0x1200 4 sha tr) (h0 : lcState s.fuses.shadow ≠ 0) (h4 : lcState s.fuses.shadow ≠ 4) (hr : s.released = true) :
    Gives (.attestNonce q sha) s (fun t => (t.reqOf q.who).report =
        some ((s.forEnd q).reportBody tr.got ++ signBytes s.free (s.scalar infoAttest) ((s.forEnd q).reportBody tr.got)) ∧
      (t.reqOf q.who).attestNonce = tr.got ∧ t.boot.reportSeq = s.boot.reportSeq + 1) := by
  have hl : ¬ (decide (lcState (s.forEnd q).fuses.shadow = 0) || decide (lcState (s.forEnd q).fuses.shadow = 4)) = true := by
    rw [State.forEnd_fuses]
    simp [h0, h4]
  have hn : ¬ (!(s.forEnd q).released) = true := by simp [hr]
  refine gives_of_ends h (rfl : exec _ s = execAttestNonce q sha s) ((if_neg hl).trans (if_neg hn)) (fun r => ?_)
  rw [State.reqOf_respond, State.respond_boot, State.updReq_boot, State.reqOf_updReq]
  · dsimp only
    rw [State.forEnd_free, State.forEnd_scalar, State.forEnd_boot]
    exact ⟨rfl, rfl, rfl⟩
  · exact fun _ => rfl

theorem State.forWrite_slotInUse (s : State) (q : Req) (k : Nat) : (s.forWrite q).slotInUse k = s.slotInUse k := by
  rw [State.slotInUse, State.slotInUse, State.forWrite_ctxs]

theorem gives_keySlotClear {v : BitVec 16} (h : Writes s q 0x1200 9 2) (h0 : v ≠ 0) (hlt : v.toNat < 4096) (hu : s.slotInUse v.toNat = false) :
    Gives (.keySlotClear q v) s (fun t => NMap.get? t.memsys.keys v.toNat = none ∧
      (∀ j, j ≠ v.toNat → NMap.get? t.memsys.keys j = NMap.get? s.memsys.keys j) ∧ t.memsys.mem = s.memsys.mem) := by
  have hv : ¬ (decide (v = 0) || decide (4095 < v.toNat)) = true := by
    simp only [Bool.or_eq_true, decide_eq_true_eq, not_or]
    exact ⟨h0, by omega⟩
  have hs : ¬ (s.forWrite q).slotInUse v.toNat = true := by rw [State.forWrite_slotInUse, hu]; exact Bool.false_ne_true
  refine gives_of_writes (bs := leBytes 2 v.toNat) h (rfl : exec _ s = execKeySlotClear q v s) ((if_neg hv).trans (if_neg hs)) (fun r => ?_)
  rw [State.respond_memsys]
  dsimp only
  rw [State.forWrite_memsys]
  exact ⟨NMap.get?_erase_same .., fun j hj => NMap.get?_erase_other _ hj, rfl⟩

end

/-! ### Images (R405, R439) -/

/-- The slot that does not run and the one that runs are two. -/
theorem Flash.slot_setSlot_inactive (s : State) (f : Flash) (k : FlashSlot) : (f.setSlot s.inactiveSlot k).slot (1 - s.inactiveSlot) = f.slot (1 - s.inactiveSlot) := by
  unfold State.inactiveSlot Flash.setSlot Flash.slot
  by_cases h : 1 - s.boot.slotBooted = 0
  · rw [if_pos h, if_neg (by omega), if_neg (by omega)]
  · rw [if_neg h, if_pos (by omega), if_pos (by omega)]

/-- A slot with one more image in place. -/
def FlashSlot.withImage (k : FlashSlot) (fw : Bool) (img : List Byte) : FlashSlot :=
  if fw then { k with firmware := img, fwDone := true } else { k with config := img, cfgDone := true }

/-- The slot's bytes that the transfer's image becomes. -/
def State.imageBytes (s : State) (tr : Transfer) (fw : Bool) : List Byte :=
  overlay (if fw then (s.flash.slot s.inactiveSlot).firmware else (s.flash.slot s.inactiveSlot).config) tr.offset tr.got

/-- The code of the check of a programmed image (R471). -/
def State.checkedCode (s : State) (tr : Transfer) (fw : Bool) : Code :=
  imageCode s.fuses.shadow (if fw then 0 else 1) (if fw then fwMax else cfgMax) (s.imageBytes tr fw)

section
variable (s : State) (tr : Transfer) (fw : Bool)

theorem State.imageEnd_of_unprogrammed : s.imageEnd tr fw false = ({ s with
    flash := s.flash.setSlot s.inactiveSlot { s.flash.slot s.inactiveSlot with status := 2, fwDone := false, cfgDone := false } }, cFlashWriteFailed) := rfl

theorem State.imageEnd_of_rejected (h : s.checkedCode tr fw ≠ cOk) : s.imageEnd tr fw true = ({ s with
    flash := { (s.flash.setSlot s.inactiveSlot { s.flash.slot s.inactiveSlot with status := 2, fwDone := false, cfgDone := false }) with
      slotCode := s.checkedCode tr fw } }, s.checkedCode tr fw) := if_pos (bne_iff_ne.mpr h)

/-- An image that passes its check is in place; the slot is valid once both are. -/
theorem State.imageEnd_of_checked (h : s.checkedCode tr fw = cOk) : s.imageEnd tr fw true =
    let k := (s.flash.slot s.inactiveSlot).withImage fw (s.imageBytes tr fw)
    if k.fwDone && k.cfgDone then
      (({ s with flash := { (s.flash.setSlot s.inactiveSlot { k with status := 1 }) with slotCode := cOk } } : State).record
        (uidVigil 1 s.inactiveSlot) cFwSlotWritten 0 0, cOk)
    else ({ s with flash := s.flash.setSlot s.inactiveSlot { k with status := 3 } }, cOk) :=
  if_neg (by rw [bne_iff_ne, not_not]; exact h)

/-- Images change flash, and records. -/
theorem State.imageEnd_boot (p : Bool) : (s.imageEnd tr fw p).1.boot = s.boot := by
  cases p with
  | false => rfl
  | true =>
    by_cases h : s.checkedCode tr fw = cOk
    · rw [State.imageEnd_of_checked s tr fw h]
      dsimp only
      split
      · exact State.record_boot ..
      · rfl
    · rw [State.imageEnd_of_rejected s tr fw h]

/-- What a programmed and checked image leaves of the two slots. -/
theorem State.imageEnd_slots (h : s.checkedCode tr fw = cOk) :
    let k := (s.flash.slot s.inactiveSlot).withImage fw (s.imageBytes tr fw)
    (s.imageEnd tr fw true).1.flash.slot s.inactiveSlot = { k with status := if k.fwDone && k.cfgDone then 1 else 3 } ∧
      (s.imageEnd tr fw true).1.flash.slot (1 - s.inactiveSlot) = s.flash.slot (1 - s.inactiveSlot) := by
  rw [State.imageEnd_of_checked s tr fw h]
  dsimp only
  split
  · rw [State.record_flash]
    exact ⟨Flash.slot_setSlot_same .., Flash.slot_setSlot_inactive ..⟩
  · exact ⟨Flash.slot_setSlot_same .., Flash.slot_setSlot_inactive ..⟩

end

section
variable {s : State} {q : Req} {sha : BitVec 512} {tr : Transfer} {x : Instr} {k : Nat} {fw p : Bool} (hr : s.released = true) (h : Ends s q 0x1300 k sha tr)
  (he : exec x s = .next (State.afterImage (s.dictEnd q 0x1300 k sha (fun s t => s.imageEnd t fw p))))
include hr h he

/-- In service no reset follows an image. -/
theorem exec_image : exec x s = .next (((s.forEnd q).imageEnd tr fw p).1.respond q.who (answerOf q 6 0x1300 k ((s.forEnd q).imageEnd tr fw p).2 [])) := by
  rw [dictEnd_of_ends s q 0x1300 k sha tr _ h, State.afterImage, if_neg] at he
  · exact he
  · dsimp only
    rw [State.respond_boot, State.imageEnd_boot, State.forEnd_boot, State.released_not_recovery hr]
    simp

theorem gives_image_of_unprogrammed (hp : p = false) : Gives x s (fun t => (t.flash.slot s.inactiveSlot).status = 2 ∧
    t.flash.slot (1 - s.inactiveSlot) = s.flash.slot (1 - s.inactiveSlot)) := by
  subst hp
  have hi : (s.forEnd q).inactiveSlot = s.inactiveSlot := by rw [State.inactiveSlot, State.forEnd_boot, State.inactiveSlot]
  refine gives_of_exec (exec_image hr h he) ?_
  rw [State.respond_flash, State.imageEnd_of_unprogrammed]
  dsimp only
  rw [hi, State.forEnd_flash]
  exact ⟨congrArg FlashSlot.status (Flash.slot_setSlot_same ..), Flash.slot_setSlot_inactive ..⟩

theorem gives_image_of_checked (hp : p = true) (hc : s.checkedCode tr fw = cOk) : Gives x s (fun t =>
    let k := (s.flash.slot s.inactiveSlot).withImage fw (s.imageBytes tr fw)
    t.flash.slot s.inactiveSlot = { k with status := if k.fwDone && k.cfgDone then 1 else 3 } ∧
    t.flash.slot (1 - s.inactiveSlot) = s.flash.slot (1 - s.inactiveSlot)) := by
  subst hp
  have hi : (s.forEnd q).inactiveSlot = s.inactiveSlot := by rw [State.inactiveSlot, State.forEnd_boot, State.inactiveSlot]
  have hb : (s.forEnd q).imageBytes tr fw = s.imageBytes tr fw := by rw [State.imageBytes, hi, State.forEnd_flash, State.imageBytes]
  have hk : (s.forEnd q).checkedCode tr fw = cOk := by rw [State.checkedCode, hb, State.forEnd_fuses]; exact hc
  have hs := State.imageEnd_slots (s.forEnd q) tr fw hk
  rw [hi, hb, State.forEnd_flash] at hs
  refine gives_of_exec (exec_image hr h he) ?_
  rw [State.respond_flash]
  exact hs

end

/-- Settles O52: the life-cycle transitions, keys, the attestation report and the two images. -/
theorem lifeCycleKeysAndImages : Obligations.LifeCycleKeysAndImages := by
  unfold Obligations.LifeCycleKeysAndImages
  refine ⟨fun s q lvl => ?_, fun s q sha tr => ⟨fun h hp h0 => gives_fleetKey h hp h0, fun h hk l hl => gives_keySlotWrite h hk hl,
    fun h h0 h4 hr => gives_attestNonce h h0 h4 hr, fun i c fw k hm h hr => ?_⟩, fun s q v h h0 hlt hu => gives_keySlotClear h h0 hlt hu⟩
  · intro lc may hw hr hc hd reset cnt
    refine ⟨fun hl hv hm hk => ?_, fun hl hv hm hk => ?_, fun hl hv hm => ?_, fun hl hv hm hk => ?_, fun hl hv hm => ?_⟩ <;> subst hv
    · exact gives_lcToProvisioned hw hr hc hd hl hm hk
    · exact gives_lcToFleet_of_provisioned hw hr hc hd hl hm hk
    · exact gives_lcToFleet_of_service hw hr hc hd hl hm
    · exact gives_lcToService hw hr hc hd hl hm hk
    · exact gives_lcToRetired hw hr hc hd hl hm
  · simp only [List.mem_cons, List.not_mem_nil, or_false, Prod.mk.injEq] at hm
    obtain ⟨rfl, rfl, rfl, rfl⟩ | ⟨rfl, rfl, rfl, rfl⟩ := hm
    · refine ⟨gives_image_of_unprogrammed (x := .fwImage q sha false) hr h rfl rfl, fun hc => ?_⟩
      obtain ⟨t, ht, hs, ho⟩ := gives_image_of_checked (x := .fwImage q sha true) hr h rfl rfl hc
      refine gives_of_exec ht ?_
      rw [hs]
      exact ⟨rfl, rfl, rfl, ho⟩
    · refine ⟨gives_image_of_unprogrammed (x := .configImage q sha false) hr h rfl rfl, fun hc => ?_⟩
      obtain ⟨t, ht, hs, ho⟩ := gives_image_of_checked (x := .configImage q sha true) hr h rfl rfl hc
      refine gives_of_exec ht ?_
      rw [hs]
      exact ⟨rfl, rfl, rfl, ho⟩

end Sys2Proof.Machine
end

section
namespace Sys2Proof.Machine

/-! ### What opened writes leave of the units (R361) -/

@[simp] theorem State.forWrite_now (s : State) (q : Req) : (s.forWrite q).now = s.now := by simp [State.forWrite, State.opened]
@[simp] theorem State.forWrite_twin (s : State) (q : Req) : (s.forWrite q).twin = s.twin := by simp [State.forWrite, State.opened]
@[simp] theorem State.forWrite_core (s : State) (q : Req) (c : Nat) : (s.forWrite q).core c = s.core c := by simp [State.forWrite, State.opened]
@[simp] theorem State.forWrite_openSteps (s : State) (q : Req) : (s.forWrite q).openSteps = s.openSteps := by
  simp [State.openSteps, State.forWrite, State.opened]

/-- A request's packet is taken from a host port. -/
@[simp] theorem State.forWrite_fabric (s : State) (q : Req) (n : Nat) : (s.forWrite q).link (.fabric n) = s.link (.fabric n) := by
  simp only [State.forWrite, State.opened, State.link, State.endElevation, State.updReq_links, State.touch_links]
  cases q.who <;> rfl

/-! ### Commands (R361, R443, R462, R465) -/

section
variable {s : State} {l : LinkRef}

theorem State.retrainCmd_of_stopped (hr : s.released = true) (hu : (s.link l).unit = .stopped) : s.retrainCmd l = (s.startTraining l, cOk) := by
  rw [State.retrainCmd, hr, hu]
  rfl

theorem State.disableCmd_of_running (hr : s.released = true) (hu : (s.link l).unit = .running) :
    s.disableCmd l = (s.updLink l (fun k => { k with unit := .stopping, disabling := true, disableAt := s.now }), cOk) := by
  rw [State.disableCmd, hr, hu]
  rfl

end

section
variable {s : State} {q : Req}

section
variable {c : Nat} (hw : Writes s q (0x4000 + c) 3 1) (hr : s.released = true) (hc : (s.core c).resetting = false)
include hw hr hc

theorem exec_coreDrainStop_of_running (hs : (s.core c).state = .running) :
    exec (.coreDrainStop q c) s = .next (((s.forWrite q).updCore c (fun k => { k with state := .stopping })).answered q 2 (0x4000 + c) 3) := by
  refine exec_of_writes (bs := [0]) hw (rfl : exec _ s = execCoreDrainStop q c s) ?_
  rw [State.forWrite_released, State.forWrite_core, hr]
  dsimp only
  rw [hc, hs]
  rfl

theorem exec_coreDrainStart_of_stopped (hs : (s.core c).state = .stopped) :
    exec (.coreDrainStart q c) s = .next (((s.forWrite q).updCore c (fun k => { k with state := .running })).answered q 2 (0x4000 + c) 3) := by
  refine exec_of_writes (bs := [1]) hw (rfl : exec _ s = execCoreDrainStart q c s) ?_
  rw [State.forWrite_released, State.forWrite_core, hr]
  dsimp only
  rw [hc, hs]
  rfl

end

section
variable {n : Nat} (hr : s.released = true)
include hr

theorem exec_fabricPortRetrain_of_stopped (hw : Writes s q (0x5100 + n) 3 1) (hu : (s.link (.fabric n)).unit = .stopped) :
    exec (.fabricPortRetrain q n) s = .next (((s.forWrite q).startTraining (.fabric n)).answered q 2 (0x5100 + n) 3) :=
  exec_of_writes (bs := [1]) hw (rfl : exec _ s = execFabricPortRetrain q n s) (State.retrainCmd_of_stopped (by simpa using hr) (by simpa using hu))

theorem exec_fabricPortDisable_of_running (hw : Writes s q (0x5100 + n) 3 1) (hu : (s.link (.fabric n)).unit = .running) :
    exec (.fabricPortDisable q n) s = .next (((s.forWrite q).updLink (.fabric n)
      (fun k => { k with unit := .stopping, disabling := true, disableAt := s.now })).answered q 2 (0x5100 + n) 3) := by
  rw [← s.forWrite_now q]
  exact exec_of_writes (bs := [2]) hw (rfl : exec _ s = execFabricPortDisable q n s) (State.disableCmd_of_running (by simpa using hr) (by simpa using hu))

theorem exec_hostPortRetrain_of_stopped (hw : Writes s q (0x5130 + n) 2 1) (hu : ((s.forWrite q).link (.host n)).unit = .stopped) :
    exec (.hostPortRetrain q n) s = .next (((s.forWrite q).startTraining (.host n)).answered q 2 (0x5130 + n) 2) :=
  exec_of_writes (bs := [1]) hw (rfl : exec _ s = execHostPortRetrain q n s) (State.retrainCmd_of_stopped (by simpa using hr) hu)

theorem exec_hostPortDisable_of_running (hw : Writes s q (0x5130 + n) 2 1) (hu : ((s.forWrite q).link (.host n)).unit = .running) :
    exec (.hostPortDisable q n) s = .next (((s.forWrite q).updLink (.host n)
      (fun k => { k with unit := .stopping, disabling := true, disableAt := s.now })).answered q 2 (0x5130 + n) 2) := by
  rw [← s.forWrite_now q]
  exact exec_of_writes (bs := [2]) hw (rfl : exec _ s = execHostPortDisable q n s) (State.disableCmd_of_running (by simpa using hr) hu)

/-- While a step is open a bridge retrain is held. -/
theorem exec_bridgeRetrain_of_open (hw : Writes s q 0x5120 2 1) (hs : s.twin.sense = true) (ho : s.openSteps ≠ []) (hh : s.twin.heldRetrain = false) :
    exec (.bridgeRetrain q) s = .next (({ s.forWrite q with twin := { s.twin with heldRetrain := true } } : State).answered q 2 0x5120 2) := by
  have hsteps : s.openSteps.isEmpty = false := by simpa using ho
  refine exec_of_writes (bs := [1]) hw (rfl : exec _ s = execBridgeRetrain q s) ?_
  rw [State.forWrite_released, State.forWrite_twin, State.forWrite_openSteps, hr, hs, hsteps, hh]
  rfl

theorem exec_mirrorStart_of_stopped (hw : Writes s q 0x5120 0x26 1) (hs : s.twin.state = .stopped) (ha : s.twin.accepted = true) :
    exec (.mirrorStart q) s = .next ((s.forWrite q).mirrorRuns.answered q 2 0x5120 0x26) := by
  refine exec_of_writes (bs := [1]) hw (rfl : exec _ s = execMirrorStart q s) ?_
  rw [State.forWrite_released, State.forWrite_twin, hr, hs, ha]
  rfl

theorem exec_mirrorStop_of_running (hw : Writes s q 0x5120 0x26 1) (hs : s.twin.state = .running) :
    exec (.mirrorStop q) s = .next (({ s.forWrite q with twin := { s.twin with state := .stopping } } : State).answered q 2 0x5120 0x26) := by
  refine exec_of_writes (bs := [0]) hw (rfl : exec _ s = execMirrorStop q s) ?_
  rw [State.forWrite_released, State.forWrite_twin, hr, hs]
  rfl

end

theorem exec_bridgeDisable_of_held (hw : Writes s q 0x5120 2 1) (hh : s.twin.heldRetrain = true) :
    exec (.bridgeDisable q) s = .next (({ s.forWrite q with twin := { s.twin with heldRetrain := false } } : State).answered q 2 0x5120 2) := by
  refine exec_of_writes (bs := [2]) hw (rfl : exec _ s = execBridgeDisable q s) ?_
  rw [State.forWrite_twin, hh]
  rfl

end

/-! ### Stops and their timeout (R361, R443) -/

section
variable {s : State} {n : Nat}

/-- A stop without a held restart ends in DISABLED. -/
theorem State.linkStopped_of_stopping {l : LinkRef} (h : (s.link l).unit = .stopping) : s.linkStopped l = s.disableLink l := by
  rw [State.linkStopped, h]
  rfl

theorem State.disableLink_fabric_of_dead (h : (s.link (.fabric n)).live = false) :
    s.disableLink (.fabric n) = s.updLink (.fabric n) (fun k => { ctr := k.ctr, capUnits := laneCaps (.fabric n) }) := by
  have hc : s.carries (.fabric n) = false := (Bool.or_eq_false_iff.mp h).1
  rw [State.disableLink, hc]
  rfl

theorem State.disableLink_host_of_idle (h : s.sched.reads = []) :
    s.disableLink (.host n) = s.updLink (.host n) (fun k => { ctr := k.ctr, capUnits := laneCaps (.host n) }) := by
  rw [State.disableLink]
  exact State.failReads_of_none (by rw [State.updLink_sched, h]; simp)

theorem gives_stopCompletes_fabric (hu : (s.link (.fabric n)).unit = .stopping) (hl : (s.link (.fabric n)).live = false) :
    Gives (.stopCompletes (.fabric n)) s (fun t => (t.link (.fabric n)).state = .disabled ∧ (t.link (.fabric n)).unit = .stopped) := by
  have he : exec (.stopCompletes (.fabric n)) s = execStopCompletes (.fabric n) s := rfl
  rw [execStopCompletes, if_pos (by rw [hu]; rfl), State.linkStopped_of_stopping hu, State.disableLink_fabric_of_dead hl] at he
  refine gives_of_exec he ?_
  rw [State.link_updLink_same]
  exact ⟨rfl, rfl⟩

theorem gives_stopCompletes_host (hu : (s.link (.host n)).unit = .stopping) (hq : (s.link (.host n)).retry = []) (hr : s.sched.reads = []) :
    Gives (.stopCompletes (.host n)) s (fun t => (t.link (.host n)).state = .disabled) := by
  have he : exec (.stopCompletes (.host n)) s = execStopCompletes (.host n) s := rfl
  rw [execStopCompletes, if_pos (by rw [hu, hq]; rfl), State.linkStopped_of_stopping hu, State.disableLink_host_of_idle hr] at he
  refine gives_of_exec he ?_
  rw [State.link_updLink_same]

theorem gives_hostPortDisableTimeout (hu : (s.link (.host n)).unit = .stopping) (hd : (s.link (.host n)).disabling = true)
    (hq : (s.link (.host n)).retry ≠ []) (hr : s.sched.reads = []) :
    Gives (.hostPortDisableTimeout n) s (fun t => (t.link (.host n)).state = .disabled ∧ (s.link (.host n)).disableAt + Config.sCycles ≤ t.now ∧
      t.vigil.nextSeq = (s.vigil.nextSeq + 1) % 2 ^ 64) := by
  have he : exec (.hostPortDisableTimeout n) s = execHostPortDisableTimeout n s := rfl
  have hdue : ((s.link (.host n)).unit.ending && (s.link (.host n)).disabling && !(s.link (.host n)).retry.isEmpty) = true := by
    simp [hu, hd, hq, UnitState.ending]
  rw [execHostPortDisableTimeout, if_pos hdue] at he
  dsimp only at he
  obtain ⟨txq, m, hl⟩ := State.record_link (s.advanceTo ((s.link (.host n)).disableAt + Config.sCycles)) (uidLink (.host n) 0xFF) cHostPortLost 3
    (sumOf ((s.link (.host n)).retry.map RetryBlk.cells)) {} (.host n)
  rw [State.linkStopped_of_stopping (by rw [hl, State.advanceTo_link_, hu]),
    State.disableLink_host_of_idle (by rw [State.record_sched, State.advanceTo_sched, hr])] at he
  refine gives_of_exec he ?_
  rw [State.link_updLink_same, State.updLink_now, State.updLink_vigil, State.record_now, State.record_nextSeq, State.advanceTo_vigil]
  exact ⟨rfl, State.le_now_advanceTo .., rfl⟩

end

/-- Settles O12: the commands of cores, ports, the bridge and mirroring, and how a link's stop ends. -/
theorem unitCommandsTakeEffect : Obligations.UnitCommandsTakeEffect := by
  unfold Obligations.UnitCommandsTakeEffect
  exact ⟨fun s q c hw hr hc hs => exec_coreDrainStop_of_running hw hr hc hs, fun s q c hw hr hc hs => exec_coreDrainStart_of_stopped hw hr hc hs,
    fun s q n hw hr hu => exec_fabricPortRetrain_of_stopped hr hw hu, fun s q n hw hr hu => exec_fabricPortDisable_of_running hr hw hu,
    fun s q n hw hr hu => exec_hostPortRetrain_of_stopped hr hw hu, fun s q n hw hr hu => exec_hostPortDisable_of_running hr hw hu,
    fun s q hw hr hs ho hh => exec_bridgeRetrain_of_open hr hw hs ho hh, fun s q hw hh => exec_bridgeDisable_of_held hw hh,
    fun s q hw hr hs ha => exec_mirrorStart_of_stopped hr hw hs ha, fun s q hw hr hs => exec_mirrorStop_of_running hr hw hs,
    fun s n hu hl => gives_stopCompletes_fabric hu hl, fun s n hu hq hr => gives_stopCompletes_host hu hq hr,
    fun s n hu hd hq hr => gives_hostPortDisableTimeout hu hd hq hr⟩

end Sys2Proof.Machine
end

section
namespace Sys2Proof.Machine

section
variable {s t : State} (h : PortsOnly s t)
include h

theorem PortsOnly.fuses : t.fuses = s.fuses := by obtain ⟨_, _, _, _, rfl⟩ := h; rfl
theorem PortsOnly.twin : t.twin = s.twin := by obtain ⟨_, _, _, _, rfl⟩ := h; rfl

end

/-! ### The twin's identity (R456) -/

/-- What a TWIN_IDENT says is kept. -/
def State.identRead (s : State) (c : Cell) : State :=
  { s.takeCell .bridge c with twin := { (s.takeCell .bridge c).twin with
    serial := BitVec.ofNat 64 (leAt c.payload 0 8), site := BitVec.ofNat 32 (leAt c.payload 8 4), partnerReserve := leAt c.payload 16 2 } }

theorem State.identRead_serial (s : State) (c : Cell) : (s.identRead c).serial = s.serial :=
  congrArg (fun f : Fuses => fld f.shadow 256 64) (portsOnly_takeCell s .bridge c).fuses

theorem State.identRead_twin (s : State) (c : Cell) : (s.identRead c).twin = { s.twin with
    serial := BitVec.ofNat 64 (leAt c.payload 0 8), site := BitVec.ofNat 32 (leAt c.payload 8 4), partnerReserve := leAt c.payload 16 2 } := by
  rw [State.identRead, (portsOnly_takeCell s .bridge c).twin]

theorem State.identRead_vigil (s : State) (c : Cell) : (s.identRead c).vigil = s.vigil := (portsOnly_takeCell s .bridge c).vigil
theorem State.identRead_runs (s : State) (c : Cell) : (s.identRead c).runs = s.runs := (portsOnly_takeCell s .bridge c).runs

/-- The state of an accepted twin, before mirroring runs. -/
def State.identAccepted (s : State) (c : Cell) : State :=
  ({ s.identRead c with twin := { (s.identRead c).twin with accepted := true } } : State).record (uidLink .bridge 0xFF) cTwinFound 0 0

/-- The state of a partner that is no twin. -/
def State.identRefused (s : State) (c : Cell) : State :=
  ({ s.identRead c with twin := { (s.identRead c).twin with accepted := false, state := .stopped } } : State).record (uidLink .bridge 0xFF) cTwinMismatch 2 0

section
variable {s : State} {c : Cell} (hh : s.cellHere .bridge c = true) (hk : c.kind = 0x38)
include hh hk

theorem exec_twinIdent : exec (.twinIdent c) s =
    if ((BitVec.ofNat 64 (leAt c.payload 0 8)).toNat != s.serial && leAt c.payload 12 1 == Config.numericsLevel) = true then
      .next (if (s.identAccepted c).twin.state == .stopped then (s.identAccepted c).mirrorRuns else s.identAccepted c)
    else .next (s.identRefused c) := by
  have he : exec (.twinIdent c) s = execTwinIdent c s := rfl
  rw [execTwinIdent, if_neg (by simp [hh, hk])] at he
  rw [he, ← s.identRead_serial c]
  rfl

/-- Another module of the same numerics level is the twin. -/
theorem gives_twinIdent_of_twin (hl : leAt c.payload 12 1 = Config.numericsLevel) (hn : (BitVec.ofNat 64 (leAt c.payload 0 8)).toNat ≠ s.serial) :
    Gives (.twinIdent c) s (fun t => t.twin.accepted = true ∧ t.twin.serial = BitVec.ofNat 64 (leAt c.payload 0 8) ∧
      t.twin.site = BitVec.ofNat 32 (leAt c.payload 8 4) ∧ t.twin.partnerReserve = leAt c.payload 16 2 ∧
      (s.twin.state = .stopped → t.twin.state = .running) ∧ t.vigil.nextSeq = (s.vigil.nextSeq + 1) % 2 ^ 64) := by
  have he := exec_twinIdent hh hk
  rw [if_pos (Bool.and_eq_true_iff.mpr ⟨bne_iff_ne.mpr hn, beq_iff_eq.mpr hl⟩)] at he
  have ht : (s.identAccepted c).twin = { s.twin with
      accepted := true, serial := BitVec.ofNat 64 (leAt c.payload 0 8), site := BitVec.ofNat 32 (leAt c.payload 8 4), partnerReserve := leAt c.payload 16 2 } := by
    rw [State.identAccepted, State.record_twin, State.identRead_twin]
  have hv : (s.identAccepted c).vigil.nextSeq = (s.vigil.nextSeq + 1) % 2 ^ 64 := by
    rw [State.identAccepted, State.record_nextSeq, State.identRead_vigil]
  by_cases hs : s.twin.state = .stopped
  · rw [if_pos (by rw [ht, hs]; rfl)] at he
    refine gives_of_exec he ?_
    rw [State.mirrorRuns]
    dsimp only
    rw [ht]
    exact ⟨rfl, rfl, rfl, rfl, fun _ => rfl, hv⟩
  · rw [if_neg (by rw [ht]; simpa using hs)] at he
    refine gives_of_exec he ?_
    rw [ht]
    exact ⟨rfl, rfl, rfl, rfl, fun h => absurd h hs, hv⟩

/-- A module of another level, or with the own serial, is not. -/
theorem gives_twinIdent_of_other (hn : leAt c.payload 12 1 ≠ Config.numericsLevel ∨ (BitVec.ofNat 64 (leAt c.payload 0 8)).toNat = s.serial) :
    Gives (.twinIdent c) s (fun t => t.twin.accepted = false ∧ t.twin.state = .stopped ∧ t.runs = s.runs ∧
      t.vigil.nextSeq = (s.vigil.nextSeq + 1) % 2 ^ 64) := by
  have he := exec_twinIdent hh hk
  have hno : ¬ ((BitVec.ofNat 64 (leAt c.payload 0 8)).toNat != s.serial && leAt c.payload 12 1 == Config.numericsLevel) = true := by
    rw [Bool.and_eq_true_iff, bne_iff_ne, beq_iff_eq]
    rintro ⟨hs, hl⟩
    exact hn.elim (fun h => h hl) hs
  rw [if_neg hno] at he
  refine gives_of_exec he ?_
  rw [State.identRefused, State.record_twin, State.record_runs, State.record_nextSeq, State.identRead_runs, State.identRead_vigil]
  exact ⟨rfl, rfl, rfl, rfl⟩

end

/-! ### The loss of the bridge (R461, R462) -/

/-- Mirroring goes on over the fabric: no seed is under way. -/
def State.bridgeDegraded (s : State) : State :=
  { s.bridgeGone with
    twin := { s.bridgeGone.twin with degraded := true }
    runs := s.bridgeGone.runs.map (fun e => (e.1, { e.2 with mirror := { e.2.mirror with seeding := false } })) }

/-- The loss touches the mirrors of runs, not their steps. -/
theorem State.bridgeDegraded_openSteps {s : State} (h : s.openSteps = []) : s.bridgeDegraded.openSteps = [] := by
  rw [State.openSteps, List.map_eq_nil_iff, List.filter_eq_nil_iff] at h ⊢
  intro e he
  obtain ⟨x, hx, rfl⟩ := List.mem_map.mp he
  obtain ⟨y, hy, rfl⟩ := List.mem_map.mp hx
  rw [if_neg (by simp [h y hy])]
  exact h y hy

section
variable {s : State} (ha : s.twin.accepted = true) (hr : s.twin.state = .running) (hd : s.twin.degraded = false)
  (hl : (s.link .bridge).live = false) (ht : (s.link .bridge).state ≠ .training)
include ha hr hd hl ht

theorem exec_twinBridgeLost : exec .twinBridgeLost s =
    .next ((s.bridgeDegraded.record (uidLink .bridge 0xFF) cTwinBridgeLost 3 0).openSteps.foldl (fun s k => s.tryCheck k)
      (s.bridgeDegraded.record (uidLink .bridge 0xFF) cTwinBridgeLost 3 0)).settle := by
  have he : exec .twinBridgeLost s = execTwinBridgeLost s := rfl
  have hg : (s.twin.accepted && s.twin.state == .running && !s.twin.degraded && !(s.link .bridge).live && (s.link .bridge).state != .training) = true := by
    rw [ha, hr, hd, hl, bne_iff_ne.mpr ht]
    rfl
  rw [execTwinBridgeLost, hg, if_neg (by decide)] at he
  exact he

theorem gives_twinBridgeLost_of_idle (ho : s.sched.ops = []) (hs : s.openSteps = []) : Gives .twinBridgeLost s (fun t => t.twin.degraded = true ∧
    t.vigil.nextSeq = (s.vigil.nextSeq + 1) % 2 ^ 64 ∧ t.memsys = s.memsys) := by
  have he := exec_twinBridgeLost ha hr hd hl ht
  have hn : (s.bridgeDegraded.record (uidLink .bridge 0xFF) cTwinBridgeLost 3 0).openSteps = [] := by
    rw [State.openSteps, State.record_runs]
    exact State.bridgeDegraded_openSteps hs
  have hops : (s.bridgeDegraded.record (uidLink .bridge 0xFF) cTwinBridgeLost 3 0).sched.ops = [] := by
    rw [State.record_sched]
    exact ho
  rw [hn, List.foldl_nil, State.settle_of_no_ops hops] at he
  refine gives_of_exec he ?_
  rw [State.record_twin, State.record_nextSeq, State.record_memsys]
  exact ⟨rfl, rfl, rfl⟩

end

/-- Settles O24: the twin's identity, its refusal, and the loss of the bridge. -/
theorem twinIsFoundAndLost : Obligations.TwinIsFoundAndLost := by
  unfold Obligations.TwinIsFoundAndLost
  exact ⟨fun s c hh hk hl hn => gives_twinIdent_of_twin hh hk hl hn, fun s c hh hk hn => gives_twinIdent_of_other hh hk hn,
    fun s ha hr hd hl ht => ⟨exec_twinBridgeLost ha hr hd hl ht, fun ho hs => gives_twinBridgeLost_of_idle ha hr hd hl ht ho hs⟩⟩

/-! ### The partner's copy (R458 to R461) -/

@[simp] theorem State.mirrorOf_setMirror (s : State) (slot : Nat) (m : Mirror) : (s.setMirror slot m).mirrorOf slot = m := NMap.getD_set_same ..

section
variable {s : State} {l : LinkRef} {c : Cell} {slot : Nat}

/-- A mirror cell of a batch that the open attempt or no step owns. -/
theorem State.mirrorCellIn_of_present (hm : s.mirrorSlot c = some slot) (hp : c.step = noStep ∨ s.tagFit slot c.step c.attempt = .present)
    (f : Mirror → Mirror) : s.mirrorCellIn l c f =
      .next (((s.takeCell l c).setMirror slot (f ((s.mirrorOf slot).begin_ c.step c.attempt))).mirrorSettle slot l c) := by
  have hfit : (if c.step = noStep then TagFit.present else s.tagFit slot c.step c.attempt) = .present := by
    split
    · rfl
    · next hn => exact hp.resolve_left hn
  rw [State.mirrorCellIn, hm]
  dsimp only
  rw [hfit]

section
variable (hh : s.cellHere l c = true) (hm : s.mirrorSlot c = some slot) (hp : c.step = noStep ∨ s.tagFit slot c.step c.attempt = .present)
include hh hm hp

theorem exec_mirrorData_of_present (hk : c.kind = 0x39) :
    exec (.mirrorData l c) s = .next (((s.takeCell l c).setMirror slot { (s.mirrorOf slot).begin_ c.step c.attempt with
      count := ((s.mirrorOf slot).begin_ c.step c.attempt).count + 1, sum := (((s.mirrorOf slot).begin_ c.step c.attempt).sum + c.check) % 2 ^ 64
      items := putSeg ((s.mirrorOf slot).begin_ c.step c.attempt).items c.step (c.hi 0 8) (BitVec.ofNat 32 (c.hi 16 32)) (c.hi 48 40) c.payload
        (c.hi 8 1 == 1) }).mirrorSettle slot l c) := by
  have he : exec (.mirrorData l c) s = execMirrorData l c s := rfl
  rw [execMirrorData, if_neg (by simp [hh, hk]), State.mirrorCellIn_of_present hm hp] at he
  exact he

theorem exec_closeCell_of_mirror (hk : c.kind = 0x18) (hl : c.lane = 3) (hg : c.group ≠ noGroup) :
    exec (.closeCell l c) s = .next (((s.takeCell l c).setMirror slot { (s.mirrorOf slot).begin_ c.step c.attempt with
      closed := some (c.hi 32 32, c.hi 64 64) }).mirrorSettle slot l c) := by
  have he : exec (.closeCell l c) s = execCloseCell l c s := rfl
  rw [execCloseCell, if_neg (by simp [hh, hk]), if_pos (by simp [hl, hg]), State.mirrorClosed, State.mirrorCellIn_of_present hm hp] at he
  exact he

end

theorem State.mirrorSettle_of_open (h : (s.mirrorOf slot).closed ≠ some ((s.mirrorOf slot).count % 2 ^ 32, (s.mirrorOf slot).sum)) :
    s.mirrorSettle slot l c = s := if_neg h

section
variable (h : (s.mirrorOf slot).closed = some ((s.mirrorOf slot).count % 2 ^ 32, (s.mirrorOf slot).sum))
include h

theorem State.mirrorSettle_of_full (hf : s.reserveFull = true) : s.mirrorSettle slot l c = (s.setMirror slot { s.mirrorOf slot with
    batch := none, count := 0, sum := 0, closed := none, items := (s.mirrorOf slot).items.filter (fun i => i.step != c.step) }).mirrorAnswer l c false :=
  (if_pos h).trans (if_pos hf)

theorem State.mirrorSettle_of_room (hf : s.reserveFull = false) (hn : c.step ≠ noStep) (hc : (s.mirrorOf slot).copyHeld = true) :
    s.mirrorSettle slot l c = (s.setMirror slot { s.mirrorOf slot with
      batch := none, count := 0, sum := 0, closed := none, digests := NMap.set (s.mirrorOf slot).digests c.step
        (BitVec.ofNat 128 (leAt (((findItem (s.mirrorOf slot).items c.step 0 0).map MirrorItem.bytes).getD []) 0 16)) }).mirrorAnswer l c true := by
  rw [State.mirrorSettle, if_pos h, State.mirrorFinish, hf]
  dsimp only
  rw [if_neg Bool.false_ne_true, if_pos (bne_iff_ne.mpr hn), if_pos hc]

end

end

/-! ### Mirror tasks (R459) -/

/-- The mirror after its task: one step on, with the replayed items. -/
def State.taskMirror (s : State) (slot : Nat) : Mirror :=
  let m := s.mirrorOf slot
  let r := s.mirrorReplay slot (m.copyStep + 1) m.items (m.items.filter (fun i => i.item == 1 && i.step == m.copyStep))
  { m with
    items := r.1 ++ m.items.filter (fun i => i.step != m.copyStep + 1 && i.step != m.copyStep)
    copyStep := m.copyStep + 1, digests := NMap.erase m.digests (m.copyStep + 1)
    stale := !(NMap.get? m.digests (m.copyStep + 1) == some (BitVec.ofNat 128 r.2)) }

theorem exec_mirrorTask_of_due {s : State} {slot : Nat} (h : s.taskDue slot = true) : exec (.mirrorTask slot) s =
    .next (if (s.taskMirror slot).stale = false then s.setMirror slot (s.taskMirror slot)
      else ((s.setMirror slot (s.taskMirror slot)).record (uidLink .bridge 0xFF) cTwinMirrorDigest 2 0 ((s.setMirror slot (s.taskMirror slot)).whoRun slot)).fault
        slot) := by
  have he : exec (.mirrorTask slot) s = execMirrorTask slot s := rfl
  rw [execMirrorTask, if_neg (by simp [h])] at he
  rw [he]
  simp only [Bool.not_eq_false', State.taskMirror]

/-- The task advances the copy; a digest that differs makes it stale, with an error record. -/
theorem gives_mirrorTask {s : State} {slot : Nat} (h : s.taskDue slot = true) : Gives (.mirrorTask slot) s (fun t =>
    (t.mirrorOf slot) = s.taskMirror slot ∧ t.memsys = s.memsys ∧ ((s.taskMirror slot).stale = false → t.vigil = s.vigil ∧ t.runs = s.runs) ∧
    ((s.taskMirror slot).stale = true → t.vigil.nextSeq = (s.vigil.nextSeq + 1) % 2 ^ 64)) := by
  have he := exec_mirrorTask_of_due h
  cases hs : (s.taskMirror slot).stale with
  | false =>
    rw [if_pos hs] at he
    exact gives_of_exec he ⟨State.mirrorOf_setMirror .., rfl, fun _ => ⟨rfl, rfl⟩, fun hc => absurd hc Bool.false_ne_true⟩
  | true =>
    rw [if_neg (by simp [hs])] at he
    refine gives_of_exec he ⟨?_, ?_, fun hc => absurd hc.symm Bool.false_ne_true, fun _ => ?_⟩
    · rw [State.mirrorOf, State.fault_twin, State.record_twin]
      exact State.mirrorOf_setMirror ..
    · rw [State.fault_memsys, State.record_memsys]
      rfl
    · rw [State.fault_vigil, State.record_nextSeq]
      rfl

/-- Settles O25: segments and closes of a batch, its end, and the mirror task. -/
theorem mirrorKeepsPartnersState : Obligations.MirrorKeepsPartnersState := by
  unfold Obligations.MirrorKeepsPartnersState
  refine ⟨fun s l c slot hh hm hp => ⟨fun hk => exec_mirrorData_of_present hh hm hp hk, fun hk hl hg => exec_closeCell_of_mirror hh hm hp hk hl hg⟩,
    fun s slot l c => ⟨fun h => State.mirrorSettle_of_open h, fun h hf => State.mirrorSettle_of_full h hf,
      fun h hf hn hc => ⟨_, State.mirrorSettle_of_room h hf hn hc⟩⟩, fun s slot h => ?_⟩
  obtain ⟨t, he, hm, hmem, hok, hbad⟩ := gives_mirrorTask h
  refine gives_of_exec he ⟨by rw [hm]; rfl, hmem, by rw [hm]; exact NMap.get?_erase_same .., fun hd => ?_, fun hd => ?_⟩
  · have hs : (s.taskMirror slot).stale = false := by simpa [State.taskMirror] using hd
    rw [hm]
    exact ⟨hs, hok hs⟩
  · have hs : (s.taskMirror slot).stale = true := by simpa [State.taskMirror] using hd
    rw [hm]
    exact ⟨hs, hbad hs⟩

end Sys2Proof.Machine
end

section
namespace Sys2Proof.Machine

/-! ### What a twin answers and a spare pulls (R369, R370, R372) -/

section
variable {s : State} {l : LinkRef} {c : Cell} (hh : s.cellHere l c = true) (ho : s.isOwnRank c.dst = true)
include hh ho

/-- A rank that may ask gets the segments it wants. -/
theorem exec_recoveryReq_of_mayAsk {slot : Nat} (hs : slot = (s.groupE c.group).slot) (hk : c.kind = 0x31) (hr : (s.run slot).isOpen = true)
    (hg : (s.run slot).group = c.group) (hm : s.mayAsk slot c (c.hi 0 8) (c.hi 16 32) = true) (hd : c.hi 0 8 ≤ 1 → s.taskDue slot = false) {n : Nat}
    (hn : n = if c.hi 0 8 = 0 then (s.run slot).lastCommitted else c.step) {segs : List (Nat × List Byte)}
    (hsegs : segs = itemSegs (s.recoveryItem slot n (c.hi 0 8) (c.hi 16 32))) :
    exec (.recoveryReq l c) s = .next (((segs.drop (c.hi 48 40)).take (c.hi 88 24)).foldl (fun s p =>
      s.sendCell (cellOf 3 0x32 c.src c.dst 0 n (s.runGen slot) c.group (itemHigh (c.hi 0 8) (p.1 + 1 == segs.length) (c.hi 16 32) p.1 0) p.2))
      (s.takeCell l c)) := by
  have he : exec (.recoveryReq l c) s = execRecoveryReq l c s := rfl
  have hwait : ¬ (decide (c.hi 0 8 ≤ 1) && s.taskDue slot) = true := by
    rw [Bool.and_eq_true_iff, decide_eq_true_eq]
    rintro ⟨hi, ht⟩
    exact Bool.false_ne_true ((hd hi).symm.trans ht)
  subst hs hsegs hn
  rw [execRecoveryReq, if_neg (by simp [hh, hk, ho])] at he
  dsimp only at he
  rw [if_neg (by simp [hr, hg, hm]), if_neg hwait] at he
  exact he

/-- A segment of an item the adoption wants is kept with its item. -/
theorem exec_recoveryData_of_wanted {a : Adoption} {i : MirrorItem} (hk : c.kind = 0x32) (ha : s.recov.adoption = some a) (hg : a.group = c.group)
    (hr : a.rank = c.dst) (hw : (c.hi 0 8 ≠ 0 ∧ a.wanted.contains (c.hi 0 8, c.hi 16 32) = true) ∨ (c.hi 0 8 = 0 ∧ a.manifest = false ∧ c.src = a.twinRank))
    {items : List MirrorItem}
    (hitems : items = putSeg a.items 0 (c.hi 0 8) (BitVec.ofNat 32 (c.hi 16 32)) (c.hi 48 40) c.payload (c.hi 8 1 == 1))
    (hi : findItem items 0 (c.hi 0 8) (c.hi 16 32) = some i) {t : State} (ht : t = (s.takeCell l c).setAdoption (some { a with items := items })) :
    exec (.recoveryData l c) s = .next (if !i.whole then t
      else if c.hi 0 8 = 0 then t.takeManifest (s.groupE c.group).slot { a with items := items } i.bytes
      else if c.hi 0 8 = 1 then t.placeState (s.groupE c.group).slot (c.hi 16 32) (t.run (s.groupE c.group).slot).bank i.bytes
      else if c.hi 0 8 = 5 then
        t.placeState (s.groupE c.group).slot (c.hi 16 32) ((t.run (s.groupE c.group).slot).bank != a.needUpdate) i.bytes
      else t) := by
  have he : exec (.recoveryData l c) s = execRecoveryData l c s := rfl
  have hrecov : (s.takeCell l c).recov.adoption = some a := by
    obtain ⟨_, _, _, _, hp⟩ := portsOnly_takeCell s l c
    rw [hp, ← ha]
  have hwant : ((c.hi 0 8 == 0 && !a.manifest && c.src == a.twinRank) || a.wanted.contains (c.hi 0 8, c.hi 16 32)) = true := by
    rcases hw with ⟨-, hw⟩ | ⟨h0, hm, hsrc⟩
    · rw [hw, Bool.or_true]
    · simp [h0, hm, hsrc]
  subst hitems ht
  rw [execRecoveryData, if_neg (by simp [hh, hk, ho])] at he
  dsimp only at he
  rw [hrecov] at he
  dsimp only at he
  rw [hwant, if_neg (by simp [hg, hr])] at he
  rw [hi] at he
  exact he

end

/-- The host's readiness starts the pull. -/
theorem exec_rankReady_of_adopting {s : State} {q : Req} {slot : Nat} {a : Adoption} (hw : Writes s q 0x7001 4 1)
    (hs : (s.forWrite q).selected q.who = some slot) (ha : s.recov.adoption = some a) (hg : a.group = (s.run slot).group)
    (ho : (s.run slot).isOpen = true) :
    exec (.rankReady q 1) s = .next ((((s.forWrite q).setAdoption (some { a with ready := true })).askItems slot).answered q 2 0x7001 4) := by
  refine exec_of_writes (bs := [1]) hw (rfl : exec _ s = execRankReady q 1 s) ?_
  rw [hs]
  dsimp only
  rw [if_neg (by decide), State.forWrite_recov, ha]
  dsimp only
  rw [if_neg (by simp [hg, ho]), if_neg (by decide)]

/-- Settles O27: what a source answers, what a spare keeps and places, and the start of the pull. -/
theorem recoveryItemsTravel : Obligations.RecoveryItemsTravel := by
  unfold Obligations.RecoveryItemsTravel
  refine ⟨fun s l c hh hk ho hr hg hm hd => exec_recoveryReq_of_mayAsk hh ho rfl hk hr hg hm hd rfl rfl,
    ?_, fun s q slot a hw hs ha hg ho => exec_rankReady_of_adopting hw hs ha hg ho⟩
  intro s l c a i hh hk ho ha hg hr hw items hi t
  have he := exec_recoveryData_of_wanted hh ho hk ha hg hr hw (items := items) rfl hi (t := t) rfl
  refine ⟨fun hn => ?_, fun hn h0 => ?_, fun hn h1 => ?_, fun hn h5 => ?_, fun hn h0 h1 h5 => ?_⟩
  · rw [he, hn]
    rfl
  · rw [he, hn, if_neg (by decide), if_pos h0]
  · rw [he, hn, if_neg (by decide), if_neg (by omega), if_pos h1]
  · rw [he, hn, if_neg (by decide), if_neg (by omega), if_neg (by omega), if_pos h5]
  · rw [he, hn, if_neg (by decide), if_neg h0, if_neg h1, if_neg h5]

/-! ### The end of a recovery (R371, R374) -/

theorem Run.almDrop_bank (r : Run) (n : Nat) : (r.almDrop n).bank = r.bank := by
  unfold Run.almDrop
  split <;> rfl

theorem State.almTrim_bank (n : Nat) (s : State) (j : Nat) : ((s.almTrim n).run j).bank = (s.run j).bank := by
  induction n generalizing s with
  | zero => rfl
  | succ n ih =>
    rw [State.almTrim]
    split
    · rfl
    · next k _ =>
      split
      · rfl
      · rw [ih]
        by_cases hj : j = k
        · rw [hj, State.run_updRun_same, Run.almDrop_bank]
        · rw [State.run_updRun_other _ _ _ _ hj]

/-- The Almanac that comes with a recovery leaves the run's bank. -/
theorem State.takeAlmanac_bank (s : State) (slot : Nat) (bs : List Byte) : ((s.takeAlmanac slot bs).run slot).bank = (s.run slot).bank := by
  rw [State.takeAlmanac]
  dsimp only
  rw [State.almTrim_bank, State.run_updRun_same]

/-- The state with the Almanac of an adoption's items, where it came. -/
def State.withAlmanac (s : State) (slot : Nat) (a : Adoption) : State := match findItem a.items 0 4 0 with
  | some i => s.takeAlmanac slot i.bytes
  | none => s

theorem State.withAlmanac_bank (s : State) (slot : Nat) (a : Adoption) : ((s.withAlmanac slot a).run slot).bank = (s.run slot).bank := by
  unfold State.withAlmanac
  split
  · exact s.takeAlmanac_bank slot _
  · rfl

/-- The run at the position an adoption brings (R371). -/
def Run.adoptedAt (a : Adoption) (flip : Bool) (r : Run) : Run :=
  { r with
    bank := r.bank != flip, lastCommitted := a.last, attempt := a.attempt, verified := true
    mirror := { r.mirror with seeded := true, checked := true, paired := true } }

theorem State.adopted_run (s : State) (slot : Nat) (a : Adoption) (flip : Bool) :
    (s.adopted slot a flip).run slot = ((s.withAlmanac slot a).run slot).adoptedAt a flip := by
  have h : (s.adopted slot a flip).runs = ((s.withAlmanac slot a).updRun slot (Run.adoptedAt a flip)).runs := State.record_runs ..
  rw [State.run, h]
  exact State.run_updRun_same ..

/-- The run of an adopted rank stands where its twin's copy stands. -/
theorem State.adopted_spec (s : State) (slot : Nat) (a : Adoption) (flip : Bool) :
    (s.adopted slot a flip).recov.adoption = none ∧ ((s.adopted slot a flip).run slot).verified = true ∧
      ((s.adopted slot a flip).run slot).lastCommitted = a.last ∧ ((s.adopted slot a flip).run slot).attempt = a.attempt ∧
      ((s.adopted slot a flip).run slot).bank = ((s.run slot).bank != flip) ∧ (s.adopted slot a flip).twin.degraded = true ∧
      (s.adopted slot a flip).twin.state = .running := by
  rw [State.adopted_run, State.adopted, State.record_recov, State.record_twin]
  exact ⟨rfl, rfl, rfl, rfl, congrArg (· != flip) (s.withAlmanac_bank slot a), rfl, rfl⟩

/-- How a replay ends: in the adoption, or in a rank declared failed (R371, R374). -/
def State.replayEnds (s : State) (slot : Nat) (a : Adoption) (p : State × List DigBlock) : Out :=
  if p.1.uniqueSum slot a.step p.2 = a.updateDigest.toNat then .next (p.1.adopted slot a true)
  else .next (((p.1.setAdoption none).record uidHub cRecoveryDigest 4 0 (s.whoRun slot)).declareSelf slot 4)

section
variable {s : State} {a : Adoption} (ha : s.recov.adoption = some a) (hp : a.pulled = true) (hc : (s.run (s.groupE a.group).slot).compatInterval = 0)
include ha hp hc

theorem gives_recoveryUpdateReplay_of_no_update (hu : a.needUpdate = false) : Gives .recoveryUpdateReplay s (fun t =>
    t.recov.adoption = none ∧ (t.run (s.groupE a.group).slot).verified = true ∧ (t.run (s.groupE a.group).slot).lastCommitted = a.last ∧
      (t.run (s.groupE a.group).slot).attempt = a.attempt ∧ (t.run (s.groupE a.group).slot).bank = (s.run (s.groupE a.group).slot).bank ∧
      t.twin.degraded = true ∧ t.twin.state = .running) := by
  have he : exec .recoveryUpdateReplay s = execRecoveryUpdateReplay s := rfl
  rw [execRecoveryUpdateReplay, ha] at he
  dsimp only at he
  rw [if_neg (by simp [hp, hc]), if_pos (by simp [hu])] at he
  have h := s.adopted_spec (s.groupE a.group).slot a false
  rw [Bool.bne_false] at h
  exact gives_of_exec he h

/-- The update runs, and its digest decides. -/
theorem exec_recoveryUpdateReplay_of_update (hu : a.needUpdate = true) {ops : List MirrorOp} {p : State × List DigBlock}
    (hops : ops = (match findItem a.items 0 3 0 with
      | some i => mirrorOps i.segs.length (NMap.vals i.segs) []
      | none => []))
    (hf : ops.foldl (fun (p : State × List DigBlock) o => let q := p.1.replayOp (s.groupE a.group).slot a o; (q.1, p.2 ++ q.2)) (s, []) = p) :
    exec .recoveryUpdateReplay s = s.replayEnds (s.groupE a.group).slot a p := by
  have he : exec .recoveryUpdateReplay s = execRecoveryUpdateReplay s := rfl
  rw [execRecoveryUpdateReplay, ha] at he
  dsimp only at he
  rw [if_neg (by simp [hp, hc]), if_neg (by simp [hu])] at he
  subst hf hops
  exact he

end

/-! ### Compatibility mode (R376) -/

/-- The copies asked for are the adoption's, and asking sends cells alone. -/
theorem State.askCopy_spec (s : State) (slot c : Nat) : ∃ a : Adoption, PortsOnly (s.setAdoption (some a)) (s.askCopy slot c) ∧ a.step = c ∧
    a.requested = true :=
  ⟨_, PortsOnly.foldl (fun t _ => PortsOnly.foldl (fun u _ => portsOnly_sendCell u _) _ t) _ _, rfl, rfl⟩

theorem State.almEntry_lastCommitted (s : State) (slot : Nat) (e : AlmEntry) (j : Nat) : ((s.almEntry slot e).run j).lastCommitted = (s.run j).lastCommitted :=
  ((progressKept_almAppend s slot e.bytes).run j).lastCommitted

/-- The restored run stands at the copy's step. -/
theorem State.compatDone_lastCommitted (s : State) (slot : Nat) (a : Adoption) : ((s.compatDone slot a).run slot).lastCommitted = a.step := by
  unfold State.compatDone
  extract_lets u v w
  have hv : (v.run slot).lastCommitted = a.step := by rw [State.run_updRun_same]
  split
  · exact hv
  · rw [State.almEntry_lastCommitted, State.run_updRun_same]
    exact hv

section
variable {s : State} {slot : Nat} (ho : (s.run slot).isOpen = true) (hc : (s.run slot).compatInterval ≠ 0) (hs : (s.run slot).openStep = none)
  (hm : (s.runMe slot).isSome = true)
include ho hc hs hm

theorem exec_compatRestore : exec (.compatRestore slot) s = match s.recov.adoption with
    | some a => .next (if a.group == (s.run slot).group && a.ready && a.pulled then s.compatDone slot a else s)
    | none =>
      if (s.run slot).lastCommitted - 1 < (s.run slot).compatInterval then .next (s.record uidHub cCompatNoCheckpoint 2 0 (s.whoRun slot))
      else .next (s.askCopy slot (compatStep (s.run slot).compatInterval (s.run slot).lastCommitted)) := by
  have he : exec (.compatRestore slot) s = execCompatRestore slot s := rfl
  rw [execCompatRestore, if_neg (by simp [ho, hc, hs, hm])] at he
  exact he

theorem gives_compatRestore_of_first (ha : s.recov.adoption = none) (hl : (s.run slot).compatInterval < (s.run slot).lastCommitted) :
    Gives (.compatRestore slot) s (fun t => t.runs = s.runs ∧ t.memsys = s.memsys ∧
      ∃ a, t.recov.adoption = some a ∧ a.step = compatStep (s.run slot).compatInterval (s.run slot).lastCommitted ∧ a.requested = true) := by
  have he := exec_compatRestore ho hc hs hm
  rw [ha] at he
  dsimp only at he
  rw [if_neg (by omega)] at he
  obtain ⟨a, hp, hstep, hreq⟩ := s.askCopy_spec slot (compatStep (s.run slot).compatInterval (s.run slot).lastCommitted)
  refine gives_of_exec he ⟨hp.runs, hp.memsys, a, ?_, hstep, hreq⟩
  obtain ⟨_, _, _, _, h⟩ := hp
  rw [h]
  rfl

theorem exec_compatRestore_of_pulled {a : Adoption} (ha : s.recov.adoption = some a) (hg : a.group = (s.run slot).group) (hr : a.ready = true)
    (hp : a.pulled = true) : exec (.compatRestore slot) s = .next (s.compatDone slot a) := by
  have he := exec_compatRestore ho hc hs hm
  rw [ha] at he
  dsimp only at he
  rwa [if_pos (by simp [hg, hr, hp])] at he

theorem exec_compatRestore_of_no_copy (ha : s.recov.adoption = none) (hl : (s.run slot).lastCommitted ≤ (s.run slot).compatInterval) :
    exec (.compatRestore slot) s = .next (s.record uidHub cCompatNoCheckpoint 2 0 (s.whoRun slot)) := by
  have he := exec_compatRestore ho hc hs hm
  rw [ha] at he
  dsimp only at he
  rwa [if_pos (by omega)] at he

end

/-- Settles O28: a recovery without and with a replayed update, and the restore of compatibility mode. -/
theorem recoveryEnds : Obligations.RecoveryEnds := by
  unfold Obligations.RecoveryEnds
  refine ⟨fun s a ha hp hc => ⟨fun hu => gives_recoveryUpdateReplay_of_no_update ha hp hc hu, fun hu ops u bs hops hf => ⟨fun hd => ?_, fun hd => ?_⟩⟩,
    fun s slot ho hc hs hm => ⟨fun ha hl => gives_compatRestore_of_first ho hc hs hm ha hl,
      fun a ha hg hr hp => ⟨exec_compatRestore_of_pulled ho hc hs hm ha hg hr hp, s.compatDone_lastCommitted slot a⟩,
      fun ha hl => exec_compatRestore_of_no_copy ho hc hs hm ha hl⟩⟩
  · exact (exec_recoveryUpdateReplay_of_update ha hp hc hu hops hf).trans (if_pos hd)
  · exact (exec_recoveryUpdateReplay_of_update ha hp hc hu hops hf).trans (if_neg hd)

end Sys2Proof.Machine
end
